-- ==== Sys2Proof/Word.lean ====
section
/-! DEFINITION. The byte, and the plainest reading of bytes and bit fields (R4: little-endian, bit 0 least significant). -/

namespace Sys2Proof

/-- One byte of memory, of a record or of a packet. -/
abbrev Byte := BitVec 8

/-- The part of `v` in bits `lo` to `lo + w - 1`, a field NAME[msb:lsb] of the manual. -/
def fld (v lo w : Nat) : Nat := (v >>> lo) % 2 ^ w

/-- Bit `n` of `v`. -/
def bit (v n : Nat) : Bool := v.testBit n

/-- A flag as a bit. -/
def b2n (b : Bool) : Nat := if b then 1 else 0

/-- A list of bytes as a number, the first byte least significant (R4). -/
def leNat : List Byte → Nat
  | [] => 0
  | b :: bs => b.toNat + 256 * leNat bs

/-- A number as `n` bytes, least significant first (R4). -/
def leBytes : Nat → Nat → List Byte
  | 0, _ => []
  | n + 1, v => BitVec.ofNat 8 v :: leBytes n (v / 256)

/-- A list of bytes as a number, the first byte most significant (the SM2 fields of R4 and R306). -/
def beNat (bs : List Byte) : Nat := bs.foldl (fun a b => 256 * a + b.toNat) 0

/-- A number as `n` bytes, most significant first. -/
def beBytes (n v : Nat) : List Byte := (leBytes n v).reverse

/-- The integer that a `w`-bit two's-complement field holds. -/
def sint (w v : Nat) : Int :=
  if v % 2 ^ w < 2 ^ (w - 1) then (v % 2 ^ w : Int) else (v % 2 ^ w : Int) - (2 ^ w : Int)

/-- An integer as a `w`-bit two's-complement field. -/
def unsint (w : Nat) (i : Int) : Nat := (i % (2 ^ w : Int)).toNat

/-- The quotient rounded up. -/
def cdiv (a b : Nat) : Nat := (a + b - 1) / b

/-- How many of bits 0 to `w - 1` of `v` are set. -/
def popc (w v : Nat) : Nat := ((List.range w).filter (fun i => v.testBit i)).length

/-- `n` bytes of `bs` from offset `off`, zero beyond its end. -/
def slice (bs : List Byte) (off n : Nat) : List Byte :=
  let t := (bs.drop off).take n
  t ++ List.replicate (n - t.length) 0

/-- The little-endian field of `n` bytes at offset `off` of a record. -/
def rd (bs : List Byte) (off n : Nat) : Nat := leNat ((bs.drop off).take n)

/-- Saturation at `hi`. -/
def satN (hi v : Nat) : Nat := min hi v

/-- A value clamped to [`lo`, `hi`]. -/
def clampN (lo hi v : Nat) : Nat := max lo (min hi v)

/-- An integer clamped to [`lo`, `hi`]. -/
def clampI (lo hi v : Int) : Int := max lo (min hi v)

/-- A multiple of `a`. -/
def aligned (a v : Nat) : Bool := v % a == 0

end Sys2Proof
end

