-- ==== Sys2Proof/Syntax.lean ====
section
/-! DEFINITION. The commands of the block: one constructor for each row of spec/opcode_table.json, with the operands that the
rule of the row gives the command. Where the row is an event inside the part, the operands are what the environment
brings to it (log 5). -/

namespace Sys2Proof

/-- How a register access reaches the part (R398, R402): BAR0, or the fabric mirror. -/
inductive Path where
  | bar0
  | mirror
deriving DecidableEq, Repr

/-- A ring of Table 11.3. -/
inductive RingId where
  | sq (n : Nat)
  | cq (n : Nat)
  | fq
  | ctr
deriving DecidableEq, Repr

/-- The instructions of the TAP (R391). Every other code acts as BYPASS. -/
inductive TapInstr where
  | bypass
  | sample
  | preload
  | extest
  | clamp
  | highz
  | idcode
  | extestPulse
  | extestTrain
  | other (code : Nat)
  /-- no instruction: TRST_N is low, which holds the TAP in reset (log 69) -/
  | trst
deriving DecidableEq, Repr

/-- The header of a descriptor (Table 11.4) and the submission ring that it was fetched from. -/
structure Hdr where
  sq : Nat
  flags : Nat
  cq : Nat
  tag : Nat
  owner : Nat
deriving DecidableEq, Repr

/-- The body of PARAM_WRITE (Table 11.5): the FP32 values are bit patterns. -/
structure ParamWrite where
  group : Nat
  fields : Nat
  target : Nat
  lr : Nat
  beta1 : Nat
  beta2 : Nat
  eps : Nat
  wd : Nat
deriving DecidableEq, Repr

/-- A fabric packet: the header of Table 10.6 and the payload. Fields hold the bytes of the wire, reserved bits included. -/
structure Packet where
  typ : Nat
  flags : Nat
  cls : Nat
  status : Nat
  dst : Nat
  src : Nat
  window : Nat
  elemFmt : Nat
  length : Nat
  tag : Nat
  addr : Nat
  gen : Nat
  frame : Nat
  hops : Nat
  payload : List Byte
deriving DecidableEq, Repr

/-- A training-service message (Table 9.6). -/
structure SvcMsg where
  typ : Nat
  flags : Nat
  job : Nat
  device : Nat
  code : Nat
  step : Nat
  seq : Nat
  frame : Nat
  spare : Nat
deriving DecidableEq, Repr

/-- One half of a record area that the NX1 writes itself (R393): its generation, and the MAC stored with the record (R313). -/
structure Half (α : Type) where
  gen : Nat
  mac : List Byte
  val : α
deriving DecidableEq, Repr

/-- The REPAIR record: Folios recorded as quarantined, the spare position of each compute die, and the rows and the through-silicon
lanes, each by its vault, under spares (R21, R22, R193). The manual gives no byte layout of it. -/
structure RepairRec where
  quarantined : List Nat
  spares : List Nat
  rows : List (Nat × Nat)
  lanes : List (Nat × Nat)
deriving DecidableEq, Repr

/-- The OWNER record: the owner key, x then y, and ROOT_ALLOWED (R316). -/
structure OwnerRec where
  key : List Byte
  rootAllowed : Bool
deriving DecidableEq, Repr

/-- The device certificate (R314): its DER bytes, and in them the part that is signed, the subject public key (x then y) and the
signature of the certification authority. -/
structure Cert where
  der : List Byte
  tbs : List Byte
  key : List Byte
  sig : List Byte
deriving DecidableEq, Repr

/-- The BIN record: the voltage code (R383), and its SM2 signature (R313). The manual gives no byte layout of it. -/
structure BinRec where
  code : Nat
  sig : List Byte
deriving DecidableEq, Repr

/-- The contents of the xSPI flash: the record directory as stored (R393, Table 16.8), and the records of Table 12.7 (R313), each as
it stands in its area. PUF_HELPER is the helper data with its SM3 check value. -/
structure Flash where
  dir : List Byte
  pufHelper : List Byte × List Byte
  cert : Option Cert
  bin : Option BinRec
  board : Option (List Byte)
  repair : Option (Half RepairRec) × Option (Half RepairRec)
  owner : Option (Half OwnerRec) × Option (Half OwnerRec)
  floor : Option (Half (List Nat)) × Option (Half (List Nat))
  scan : Option (List Byte)
deriving DecidableEq, Repr

/-- A line of memory upset: the number of the line, and what is flipped in the symbols of its codeword: 64 data bytes, then the
check bytes (R193, R199). -/
structure Upset where
  line : Nat
  flips : List (Nat × Nat)
deriving DecidableEq, Repr

/-- A sparse tile load (R104): the decoding unit, the tile and what the consumer declares of it. -/
structure TileLoad where
  folio : Nat
  idx : Nat
  quill : Nat
  nib : Option Nat
  addr : Nat
  form : Nat
  fmt : Nat
  colMajor : Bool
  budget : Option Nat
deriving DecidableEq, Repr

/-- What the host's configuration software has written to the PCIe function (R278, R279): Bus Master Enable, Max_Payload_Size and
Max_Read_Request_Size in bytes, and MSI-X Enable; and whether the link runs in FLIT mode. -/
structure PcieCfg where
  flit : Bool
  busMaster : Bool := true
  maxPayload : Nat := 128
  maxReadReq : Nat := 512
  msixEn : Bool := true
deriving DecidableEq, Repr

/-- Who issues a move (R165): a stroke of a Folio, or an Enael core that names the move record. -/
inductive MoveSrc where
  | stroke (folio idx : Nat)
  | firmware (record : Nat)
deriving DecidableEq, Repr

/-- A PTP message as the port reads it (R301, R302): what it is, from which clock, and its time fields. Times are in
2^-16 ns. `log` is the sender's logarithmic message interval, `quality` the order of its clock for the best-master
algorithm, lower being better. `dstIp` and `dstPort`: where a message over UDP/IPv4 was sent. -/
structure PtpMsg where
  kind : Nat
  profile : Nat
  domain : Nat
  vlan : Option Nat
  master : Nat
  quality : Nat
  twoStep : Bool
  seq : Nat
  log : Int
  t : Nat
  t' : Nat
  corr : Int
  udp : Bool
  dstIp : Nat := 0
  dstPort : Nat := 0
deriving DecidableEq, Repr

/-- How a restore ended (R231). -/
inductive RestoreResult where
  | ok
  | localFailed
  | mirrorFailed
deriving DecidableEq, Repr

/-- What the scan of a Folio found (R358). -/
inductive ScanOutcome where
  | pass
  | fail (firstSet count misr : Nat)
  | inconclusive
deriving DecidableEq, Repr

/-- The commands. -/
inductive Instr where
  /-- SYS_RESET_N_ASSERT (R390). -/
  | sysResetNAssert (pulseNs : Nat)
  /-- COLD_START (R308). -/
  | coldStart (bootSrc flashMode i3cAddr : Nat) (pufOk : Bool) (flash : Option Flash)
  /-- PERST_N_ASSERT (R390). -/
  | perstNAssert
  /-- PERST_N_DEASSERT (R390). -/
  | perstNDeassert
  /-- PCIE_LINK_TRAINED (R12). -/
  | pcieLinkTrained (rate width : Nat) (cfg : PcieCfg)
  /-- RING_HOST_LOST (R295). -/
  | ringHostLost
  /-- REFCLK_SYS_LOSS (R386). -/
  | refclkSysLoss
  /-- REFCLK_SD_LOSS (R386). -/
  | refclkSdLoss (n : Nat)
  /-- REFCLK_PCIE_LOSS (R386). -/
  | refclkPcieLoss
  /-- VDD_AUX_UNDERVOLTAGE (R384). -/
  | vddAuxUndervoltage
  /-- THERMTRIP (R345). -/
  | thermtrip (die : Nat) (temp : Int)
  /-- ALERT_N_LOW (R343). -/
  | alertNLow
  /-- ALERT_N_HOLD_TIMEOUT (R343). -/
  | alertNHoldTimeout
  /-- JTAG_INSTRUCTION (R391). -/
  | jtagInstruction (i : TapInstr)
  /-- LOAD_IMAGE (R309). -/
  | loadImage (h : Hdr) (src bytes : Nat)
  /-- SECURITY_IMAGE_START (R311). -/
  | securityImageStart
  /-- CORE_READY (R311). -/
  | coreReady (core : Nat) (lpTrained : Bool)
  /-- CLUSTER_START_TIMEOUT (R24). -/
  | clusterStartTimeout (folio : Nat)
  /-- BOOT_COMPLETE (R320). -/
  | bootComplete
  /-- CHAIN_BOOT_HELLO (R310). -/
  | chainBootHello
  /-- CHAIN_BOOT_HELLO_RECEIVE (R310). -/
  | chainBootHelloReceive (port : Nat) (payload : List Byte)
  /-- CHAIN_BOOT_DATA (R310). -/
  | chainBootData (port src : Nat) (payload : List Byte)
  /-- CHAIN_BOOT_ACK_RECEIVE (R310). -/
  | chainBootAckReceive (port : Nat) (payload : List Byte)
  /-- DESCRIPTOR_FETCH (R285). -/
  | descriptorFetch (ok : Bool)
  /-- QUEUED_RECORD_FLUSH (R286). -/
  | queuedRecordFlush (ring : Nat)
  /-- CLAIM (R293). -/
  | claim (h : Hdr) (major minor flags : Nat)
  /-- LOAD_DUCTUS (R42). -/
  | loadDuctus (h : Hdr) (src bytes dst : Nat)
  /-- JOB_START (R296). -/
  | jobStart (h : Hdr) (block bytes : Nat)
  /-- STEP_BEGIN (R297). -/
  | stepBegin (h : Hdr) (step steps : Nat)
  /-- PARAM_WRITE (R226). -/
  | paramWrite (h : Hdr) (w : ParamWrite)
  /-- SHAPE_CELL_WRITE (R156). -/
  | shapeCellWrite (h : Hdr) (dst src : Nat)
  /-- MASK_OP (R130). -/
  | maskOp (h : Hdr) (record : Nat)
  /-- CHECKPOINT_ONCE (R229). -/
  | checkpointOnce (h : Hdr)
  /-- CHECKPOINT_INTERVAL (R228). -/
  | checkpointInterval (h : Hdr) (interval : Nat)
  /-- OPEN_WINDOW (R269). -/
  | openWindow (h : Hdr) (window : Nat) (entry : List Byte)
  /-- CLOSE_WINDOW (R270). -/
  | closeWindow (h : Hdr) (window : Nat)
  /-- WINDOW_CLOSE_DONE (R270). -/
  | windowCloseDone (window : Nat)
  /-- COUNTER_SNAPSHOT (R371). -/
  | counterSnapshot (h : Hdr)
  /-- TEST_REQUEST (R359). -/
  | testRequest (h : Hdr) (folio deadline : Nat)
  /-- UPDATE_STAGE (R321). -/
  | updateStage (h : Hdr) (src bytes : Nat)
  /-- UPDATE_ACTIVATE (R322). -/
  | updateActivate (h : Hdr) (core folio : Nat)
  /-- JOB_PAUSE (R297). -/
  | jobPause (h : Hdr) (atStep : Nat)
  /-- JOB_RESUME (R297). -/
  | jobResume (h : Hdr) (frame : Nat)
  /-- JOB_END (R297). -/
  | jobEnd (h : Hdr)
  /-- RELEASE (R298). -/
  | release (h : Hdr) (flags : Nat)
  /-- SQ_TAIL_DOORBELL (R284). -/
  | sqTailDoorbell (ring value : Nat) (host : List (Nat × List Byte))
  /-- CQ_HEAD_DOORBELL (R284). -/
  | cqHeadDoorbell (ring value : Nat)
  /-- FQ_HEAD_DOORBELL (R284). -/
  | fqHeadDoorbell (value : Nat)
  /-- CTR_HEAD_DOORBELL (R284). -/
  | ctrHeadDoorbell (value : Nat)
  /-- RING_ENABLE (R282). -/
  | ringEnable (ring : RingId)
  /-- RING_DISABLE (R409). -/
  | ringDisable (ring : RingId)
  /-- REGISTER_WRITE (R398). -/
  | registerWrite (path : Path) (offset size value : Nat)
  /-- RC_REGISTER_READ (R7). -/
  | rcRegisterRead (offset size : Nat)
  /-- MIRROR_ACCESS (R300). -/
  | mirrorAccess (port : Nat) (p : Packet)
  /-- BAR4_WRITE (R281). -/
  | bar4Write (offset : Nat) (data : List Byte)
  /-- BAR4_READ (R281). -/
  | bar4Read (offset n : Nat)
  /-- ROUTE_LOAD (R403). -/
  | routeLoad
  /-- TIME_SECONDS_READ (R405). -/
  | timeSecondsRead
  /-- TIME_SECONDS_WRITE (R405). -/
  | timeSecondsWrite (v : Nat)
  /-- TIME_STEP (R405). -/
  | timeStep (ns : Nat)
  /-- TIME_TRIM_WRITE (R406). -/
  | timeTrimWrite (v : Nat)
  /-- TIME_SOURCE_WRITE (R303). -/
  | timeSourceWrite (v : Nat)
  /-- FAULT_LAST_READ (R413). -/
  | faultLastRead
  /-- SUPV_VOTE_SET (R331). -/
  | supvVoteSet (m bits : Nat)
  /-- SUPV_VOTE_CLR (R412). -/
  | supvVoteClr (m bits : Nat)
  /-- POWER_DOM_CLEAR (R412). -/
  | powerDomClear (v : Nat)
  /-- COUNTER_SELECT_WRITE (R369). -/
  | counterSelectWrite (offset value : Nat)
  /-- COUNTER_CLEAR (R369). -/
  | counterClear
  /-- LINK_DISABLE (R419). -/
  | linkDisable (lane : Nat)
  /-- LINK_RETRAIN (R255). -/
  | linkRetrain (lane : Nat)
  /-- LINK_CTRL_WRITE (R419). -/
  | linkCtrlWrite (lane value : Nat)
  /-- ETH_MODE_WRITE (R423). -/
  | ethModeWrite (n value : Nat)
  /-- ATTEST (R317). -/
  | attest (req : List Byte)
  /-- CHALLENGE (R315). -/
  | challenge (req : List Byte)
  /-- RAISE_FLOOR (R318). -/
  | raiseFloor (req : List Byte)
  /-- ENROLL_OWNER (R316). -/
  | enrollOwner (req : List Byte)
  /-- REPLACE_OWNER (R316). -/
  | replaceOwner (req : List Byte)
  /-- I3C_DYNAMIC_ADDRESS (R346). -/
  | i3cDynamicAddress (addr : Nat)
  /-- I3C_PRIVATE_WRITE (R346). -/
  | i3cPrivateWrite (bytes : List Byte)
  /-- I3C_PRIVATE_READ (R346). -/
  | i3cPrivateRead (n : Nat)
  /-- I3C_VOTE_SET (R331). -/
  | i3cVoteSet (bits : Nat)
  /-- I3C_VOTE_CLR (R331). -/
  | i3cVoteClr (bits : Nat)
  /-- I3C_RAIL_WRITE (R342). -/
  | i3cRailWrite (k value : Nat)
  /-- FRAME_TICK (R37). -/
  | frameTick
  /-- STROKE_ISSUE (R43). -/
  | strokeIssue
  /-- STROKE_COMPLETE (R184). -/
  | strokeComplete (folio idx : Nat)
  /-- FRAME_OVERRUN (R45). -/
  | frameOverrun
  /-- STACK_REFRESH_SLOT (R196). -/
  | stackRefreshSlot (len : Nat) (scrub : List Nat) (upset : List Upset)
  /-- LP_REFRESH_SLOT (R200). -/
  | lpRefreshSlot (len : Nat) (upset : List Upset)
  /-- SEAM_START (R49). -/
  | seamStart
  /-- COUNTER_CAPTURE (R370). -/
  | counterCapture
  /-- FAULT_COLLECTION (R351). -/
  | faultCollection
  /-- WINDOW_PHASE (R270). -/
  | windowPhase
  /-- DUCTUS_SWITCH (R50). -/
  | ductusSwitch
  /-- STEP_BOUNDARY (R297). -/
  | stepBoundary
  /-- TAG_PHASE (R184). -/
  | tagPhase
  /-- FRAME_ADVANCE (R49). -/
  | frameAdvance
  /-- PRODUCT (R116). -/
  | product (folio idx : Nat)
  /-- PRODUCT_T (R116). -/
  | productT (folio idx : Nat)
  /-- MASKED_OUTER (R120). -/
  | maskedOuter (folio idx : Nat)
  /-- PROBE (R121). -/
  | probe (folio idx : Nat)
  /-- SPARSE_TILE_LOAD (R104). -/
  | sparseTileLoad (u : TileLoad)
  /-- QUILL_VECTOR (R125). -/
  | quillVector (folio idx : Nat)
  /-- PRUNE (R133). -/
  | prune (folio idx : Nat)
  /-- REGROW (R133). -/
  | regrow (folio idx : Nat)
  /-- SWAP (R133). -/
  | swap (folio idx : Nat)
  /-- MASK_SET (R135). -/
  | maskSet (folio idx : Nat)
  /-- DISPATCH (R143). -/
  | dispatch (folio idx rows : Nat)
  /-- TOKEN_ADMIT (R145). -/
  | tokenAdmit (folio idx token : Nat)
  /-- COUNT_CELL_SEND (R145). -/
  | countCellSend (folio idx expert : Nat)
  /-- COMBINE (R148). -/
  | combine (folio idx : Nat)
  /-- COPY (R166). -/
  | copy (src : MoveSrc)
  /-- GATHER (R167). -/
  | gather (src : MoveSrc)
  /-- SCATTER (R167). -/
  | scatter (src : MoveSrc)
  /-- STREAM_ARM (R177). -/
  | streamArm (folio idx : Nat)
  /-- MOVE_COMPLETE (R177). -/
  | moveComplete (folio stream : Nat)
  /-- LAND_CELL_SEND (R168). -/
  | landCellSend (tag : Nat)
  /-- SLOT_FILL_SEND (R261). -/
  | slotFillSend (tag : Nat)
  /-- STENCIL (R204). -/
  | stencil (folio idx k : Nat)
  /-- DIGEST (R211). -/
  | digest (folio idx k : Nat)
  /-- OPTIMISER (R224). -/
  | optimiser (folio idx k : Nat)
  /-- REDUCE (R218). -/
  | reduce (folio idx : Nat)
  /-- FLIT_SLOT (R271). -/
  | flitSlot (lane : Nat)
  /-- FLIT_RECEIVE (R251): the flit at `place` 0 to 4 of the five that two codewords carry (R243), with the codewords that have come
  in since the flit before it, as received: at 400 Gbit/s the 2,720 PAM4 symbols of each, with the least reliable symbol of each of
  its 80 blocks (R245); at the other rates its 544 symbols. -/
  | flitReceive (lane place : Nat) (words weak : List (List Nat))
  /-- NAK_RECEIVE (R252). -/
  | nakReceive (lane ack : Nat)
  /-- LANE_SILENCE_DOWN (R254). -/
  | laneSilenceDown (lane : Nat)
  /-- CAPABILITY_PAGE_RECEIVE (R248). -/
  | capabilityPageReceive (lane : Nat) (page : List Byte)
  /-- LANE_TRAINING_DONE (R246). -/
  | laneTrainingDone (lane : Nat) (inverted : Bool)
  /-- LANE_TRAINING_TIMEOUT (R246). -/
  | laneTrainingTimeout (lane : Nat)
  /-- LANE_QUALITY_CHECK (R246). -/
  | laneQualityCheck (lane errors symbols : Nat)
  /-- LANE_WAIT_RESTART (R249). -/
  | laneWaitRestart (lane : Nat)
  /-- PACKET_FORWARD (R263). -/
  | packetForward (port : Nat) (p : Packet)
  /-- BROADCAST_RECEIVE (R264). -/
  | broadcastReceive (port : Nat) (p : Packet)
  /-- INBOUND_WRITE (R266). -/
  | inboundWrite (port : Nat) (p : Packet)
  /-- INBOUND_READ (R266). -/
  | inboundRead (port : Nat) (p : Packet)
  /-- INBOUND_REDUCE_WRITE (R260). -/
  | inboundReduceWrite (port : Nat) (p : Packet)
  /-- READ_RESPONSE_RECEIVE (R258). -/
  | readResponseReceive (port : Nat) (p : Packet)
  /-- RESPONSE_OK (R258). -/
  | responseOk (port : Nat) (p : Packet)
  /-- RESPONSE_BUSY (R259). -/
  | responseBusy (port : Nat) (p : Packet)
  /-- BUSY_RESEND (R259). -/
  | busyResend (tag addr : Nat)
  /-- RESPONSE_REFUSAL (R259). -/
  | responseRefusal (port : Nat) (p : Packet)
  /-- RESPONSE_LATE_DATA (R259). -/
  | responseLateData (port : Nat) (p : Packet)
  /-- WINDOW_CTRL_QUERY (R269). -/
  | windowCtrlQuery (port : Nat) (p : Packet)
  /-- WINDOW_CTRL_STATE (R267). -/
  | windowCtrlState (port : Nat) (p : Packet)
  /-- MGMT_MESSAGE_REFUSE (R267). -/
  | mgmtMessageRefuse (port : Nat) (p : Packet)
  /-- POWER_VOTE (R333). -/
  | powerVote (port : Nat) (p : Packet)
  /-- SYNC_SEND (R275). -/
  | syncSend (lane : Nat)
  /-- SYNC_RECEIVE (R275). -/
  | syncReceive (lane : Nat) (payload : List Byte) (t2 t3 : Nat)
  /-- DELAY_REQ_RECEIVE (R275). -/
  | delayReqReceive (lane : Nat) (payload : List Byte) (t4 : Nat)
  /-- DELAY_RESP_RECEIVE (R276). -/
  | delayRespReceive (lane : Nat) (payload : List Byte)
  /-- TIME_EXCHANGE_MISSED (R275). -/
  | timeExchangeMissed
  /-- PTP_MESSAGE_RECEIVE (R302). -/
  | ptpMessageReceive (n : Nat) (m : PtpMsg) (ts : Nat)
  /-- PTP_DELAY_REQ_SEND (R302). -/
  | ptpDelayReqSend (n ts : Nat)
  /-- PTP_SYNC_MISSED (R302). -/
  | ptpSyncMissed (n : Nat)
  /-- ARP_REQUEST (R301). -/
  | arpRequest (n ip : Nat)
  /-- ETH_DISCARD (R301). -/
  | ethDiscard (n : Nat)
  /-- ETH_LINK_UP (R302). -/
  | ethLinkUp (n txDelay rxDelay : Nat)
  /-- ROLLBACK_REQ_RECEIVE (R233). -/
  | rollbackReqReceive (src : Nat) (m : SvcMsg)
  /-- ROLLBACK_RECEIVE (R234). -/
  | rollbackReceive (src : Nat) (m : SvcMsg)
  /-- ROLLBACK_PAUSE_RECEIVE (R233). -/
  | rollbackPauseReceive (src : Nat) (m : SvcMsg)
  /-- RESTORE_COMPLETE (R234). -/
  | restoreComplete (r : RestoreResult)
  /-- READY_RECEIVE (R234). -/
  | readyReceive (src : Nat) (m : SvcMsg)
  /-- RESTART_FRAME (R234). -/
  | restartFrame
  /-- ROLLBACK_WAIT_TIMEOUT (R234). -/
  | rollbackWaitTimeout
  /-- SKIP_RECEIVE (R240). -/
  | skipReceive (src : Nat) (m : SvcMsg)
  /-- DEVICE_LOST_RECEIVE (R236). -/
  | deviceLostReceive (src : Nat) (m : SvcMsg)
  /-- TAKEOVER_RECEIVE (R236). -/
  | takeoverReceive (src : Nat) (m : SvcMsg)
  /-- CKPT_DONE_SEND (R229). -/
  | ckptDoneSend (failed : Bool)
  /-- CKPT_DONE_RECEIVE (R230). -/
  | ckptDoneReceive (src : Nat) (m : SvcMsg)
  /-- CKPT_COMMIT_RECEIVE (R230). -/
  | ckptCommitReceive (src : Nat) (m : SvcMsg)
  /-- COLOPHON_RECEIVE (R356). -/
  | colophonReceive (src : Nat) (payload : List Byte)
  /-- CLUSTER_WATCHDOG (R304). -/
  | clusterWatchdog (folio : Nat)
  /-- FOLIO_INTERNAL_FAULT (R22). -/
  | folioInternalFault (folio code : Nat)
  /-- SCHEDULER_WATCHDOG (R304). -/
  | schedulerWatchdog (within60s : Bool)
  /-- POWER_WATCHDOG (R304). -/
  | powerWatchdog (within60s : Bool)
  /-- SECURITY_WATCHDOG (R304). -/
  | securityWatchdog
  /-- HANDOFF_SEAL (R324). -/
  | handoffSeal (payload : List Byte)
  /-- HANDOFF_ACCEPT (R324). -/
  | handoffAccept
  /-- HANDOFF_REJECT (R324). -/
  | handoffReject (reason : Nat)
  /-- HANDOFF_TIMEOUT (R324). -/
  | handoffTimeout (watchdog : Bool)
  /-- ACTIVATION_DEFER_RETEST (R323). -/
  | activationDeferRetest
  /-- ACTIVATION_EXPIRE (R323). -/
  | activationExpire
  /-- TEST_PERIOD_DUE (R359). -/
  | testPeriodDue (folio : Nat)
  /-- TEST_DEADLINE_PASSED (R361). -/
  | testDeadlinePassed (folio : Nat)
  /-- TEST_START (R360). -/
  | testStart (folio : Nat)
  /-- TEST_COMPLETE (R358). -/
  | testComplete (o : ScanOutcome)
  /-- VAULT_RETRAIN (R197). -/
  | vaultRetrain (vault : Nat)
  /-- LP_CHANNEL_RETRAIN (R200). -/
  | lpChannelRetrain (channel : Nat)
  /-- WAKE_SLOT (R338). -/
  | wakeSlot
  /-- WAKE_COMPLETE (R337). -/
  | wakeComplete (dom : Nat)
  /-- HOLD_RELEASE (R334). -/
  | holdRelease (dom : Nat)
  /-- DRAIN_COMPLETE (R335). -/
  | drainComplete (dom : Nat)
  /-- DRAIN_TIMEOUT (R335). -/
  | drainTimeout (dom unit : Nat)
  /-- ENTRY_RETRY (R335). -/
  | entryRetry (dom : Nat)
  /-- SHUTDOWN_COMPLETE (R339). -/
  | shutdownComplete (dom : Nat)
  /-- POWER_UPDATE (R342). -/
  | powerUpdate (estimate : Nat) (temps : List Int)
  /-- POWER_CALIBRATE (R342). -/
  | powerCalibrate
  /-- RAIL_TELEMETRY_TIMEOUT (R346). -/
  | railTelemetryTimeout
  /-- EMERGENCY_LEVEL_CLEAR (R343). -/
  | emergencyLevelClear (level : Nat)
  /-- SCHEDULER_IMAGE_RESTART (R304). -/
  | schedulerImageRestart
  /-- POWER_IMAGE_RELOAD (R304). -/
  | powerImageReload
  /-- CODEWORD_LOCK (R245). -/
  | codewordLock (lane blocks flits : Nat)
  /-- ETH_LINK_DOWN (R423). -/
  | ethLinkDown (n : Nat)
deriving DecidableEq, Repr

end Sys2Proof
end

