-- ==== Sys2Proof/Machine/Crypto.lean ====
section
/-! DEFINITION. SM3 (GB/T 32905) and SM2 (GB/T 32918): digests, the key derivation function, HMAC and signatures (R11, R306,
R312). -/

namespace Sys2Proof.Machine

open Sys2Proof

/-! ### SM3 -/

/-- Rotation of a 32-bit word to the left. -/
def rotl (x n : Nat) : Nat := ((x <<< (n % 32)) ||| (x >>> (32 - n % 32))) % 2 ^ 32

/-- The initial value. -/
def sm3Init : List Nat :=
  [0x7380166f, 0x4914b2b9, 0x172442d7, 0xda8a0600, 0xa96f30bc, 0x163138aa, 0xe38dee4d, 0xb0fb0e4e]

/-- The permutation of the compression. -/
def sm3P0 (x : Nat) : Nat := x ^^^ rotl x 9 ^^^ rotl x 17
/-- The permutation of the message expansion. -/
def sm3P1 (x : Nat) : Nat := x ^^^ rotl x 15 ^^^ rotl x 23

/-- Element `i` of a list of words. -/
def wordAt (l : List Nat) (i : Nat) : Nat := (l[i]?).getD 0

/-- The words of a block, newest first, extended by `n` words of the expansion. -/
def sm3Expand : Nat → List Nat → List Nat
  | 0, w => w
  | n + 1, w =>
    sm3Expand n ((sm3P1 (wordAt w 15 ^^^ wordAt w 8 ^^^ rotl (wordAt w 2) 15) ^^^ rotl (wordAt w 12) 7 ^^^ wordAt w 5) :: w)

/-- The big-endian words of some bytes. -/
def beWords : Nat → List Byte → List Nat
  | 0, _ => []
  | n + 1, b => beNat (b.take 4) :: beWords n (b.drop 4)

/-- The eight registers after round `j` of the compression, with expansion word `w` and `w4` four words later. -/
def sm3Round (r : List Nat) (j w w4 : Nat) : List Nat :=
  match r with
  | [a, b, c, d, e, f, g, h] =>
    let t := if j < 16 then 0x79cc4519 else 0x7a879d8a
    let ss1 := rotl ((rotl a 12 + e + rotl t j) % 2 ^ 32) 7
    let ss2 := ss1 ^^^ rotl a 12
    let ff := if j < 16 then a ^^^ b ^^^ c else (a &&& b) ||| (a &&& c) ||| (b &&& c)
    let gg := if j < 16 then e ^^^ f ^^^ g else (e &&& f) ||| ((0xffffffff ^^^ e) &&& g)
    let tt1 := (ff + d + ss2 + (w ^^^ w4)) % 2 ^ 32
    let tt2 := (gg + h + ss1 + w) % 2 ^ 32
    [tt1, a, rotl b 9, c, sm3P0 tt2, e, rotl f 19, g]
  | _ => r

/-- Rounds `j` to 63 over the expansion words. -/
def sm3Rounds : Nat → Nat → List Nat → List Nat → List Nat
  | 0, _, _, r => r
  | k + 1, j, w, r => sm3Rounds k (j + 1) (w.drop 1) (sm3Round r j (wordAt w 0) (wordAt w 4))

/-- The compression of one block of 64 bytes. -/
def sm3Block (v : List Nat) (b : List Byte) : List Nat :=
  let w := (sm3Expand 52 (beWords 16 b).reverse).reverse
  List.zipWith (· ^^^ ·) (sm3Rounds 64 0 w v) v

/-- The compression of `n` whole blocks. -/
def sm3Blocks : Nat → List Nat → List Byte → List Nat
  | 0, v, _ => v
  | n + 1, v, b => sm3Blocks n (sm3Block v (b.take 64)) (b.drop 64)

/-- The padding of a message of `n` bytes. -/
def sm3Pad (n : Nat) : List Byte :=
  0x80 :: (List.replicate ((119 - n % 64) % 64) 0 ++ beBytes 8 (8 * n))

/-- The 32 bytes of a state. -/
def sm3Out (v : List Nat) : List Byte := v.flatMap (beBytes 4)

/-- The digest of a message whose whole blocks up to `n - tail.length` bytes gave the state `v`. -/
def sm3Finish (v : List Nat) (tail : List Byte) (n : Nat) : List Byte :=
  let b := tail ++ sm3Pad n
  sm3Out (sm3Blocks (b.length / 64) v b)

/-- The SM3 digest. -/
def sm3 (m : List Byte) : List Byte := sm3Finish sm3Init m m.length

/-- HMAC with SM3 (ISO/IEC 9797-2, MAC algorithm 2; R313). -/
def hmacSm3 (key msg : List Byte) : List Byte :=
  let k := slice (if key.length ≤ 64 then key else sm3 key) 0 64
  sm3 (k.map (· ^^^ 0x5c) ++ sm3 (k.map (· ^^^ 0x36) ++ msg))

/-- The key derivation function of GB/T 32918: `n` bytes. -/
def kdf (z : List Byte) (n : Nat) : List Byte :=
  ((List.range (cdiv n 32)).flatMap (fun i => sm3 (z ++ beBytes 4 (i + 1)))).take n

/-! ### SM2 -/

/-- The prime of the recommended curve. -/
def sm2P : Nat := 0xFFFFFFFEFFFFFFFFFFFFFFFFFFFFFFFFFFFFFFFF00000000FFFFFFFFFFFFFFFF
/-- Coefficient a. -/
def sm2A : Nat := sm2P - 3
/-- Coefficient b. -/
def sm2B : Nat := 0x28E9FA9E9D9F5E344D5A9E4BCF6509A7F39789F515AB8F92DDBCBD414D940E93
/-- The order of the base point. -/
def sm2N : Nat := 0xFFFFFFFEFFFFFFFFFFFFFFFFFFFFFFFF7203DF6B21C6052B53BBF40939D54123
/-- The base point. -/
def sm2G : Nat × Nat :=
  (0x32C4AE2C1F1981195F9904466A39C9948FE30BBFF2660BE1715A4589334C74C7,
   0xBC3736A2F4F6779C59BDCEE36B692153D0A9877CC62A474002DF32E52139F0A0)

/-- b^e modulo m, for an exponent of at most `k` bits. -/
def powMod (m b : Nat) : Nat → Nat → Nat
  | 0, _ => 1
  | k + 1, e =>
    let h := powMod m b k (e / 2)
    if e % 2 = 1 then h * h % m * b % m else h * h % m

/-- The inverse modulo a prime. -/
def invMod (m x : Nat) : Nat := powMod m (x % m) 256 (m - 2)

/-- a − b modulo m, of reduced values. -/
def subMod (m a b : Nat) : Nat := (a + m - b % m) % m

/-- A point, none being the point at infinity. -/
abbrev Point := Option (Nat × Nat)

/-- Addition of points. -/
def ptAdd : Point → Point → Point
  | none, q => q
  | p, none => p
  | some (x1, y1), some (x2, y2) =>
    if x1 = x2 && (y1 + y2) % sm2P = 0 then none
    else
      let l := if x1 = x2 then (3 * x1 * x1 + sm2A) * invMod sm2P (2 * y1) % sm2P
        else subMod sm2P y2 y1 * invMod sm2P (subMod sm2P x2 x1) % sm2P
      let x := subMod sm2P (subMod sm2P (l * l % sm2P) x1) x2
      some (x, subMod sm2P (l * subMod sm2P x1 x % sm2P) y1)

/-- k times a point, for k of at most the given number of bits. -/
def ptMul : Nat → Nat → Point → Point
  | 0, _, _ => none
  | n + 1, k, p =>
    let h := ptMul n (k / 2) p
    let d := ptAdd h h
    if k % 2 = 1 then ptAdd d p else d

/-- A public key of 64 bytes, x then y, as a point. -/
def keyPoint (k : List Byte) : Nat × Nat := (beNat (k.take 32), beNat ((k.drop 32).take 32))

/-- The key is a point of the curve. -/
def onCurve (p : Nat × Nat) : Bool :=
  decide (p.1 < sm2P) && decide (p.2 < sm2P) && p.2 * p.2 % sm2P == (p.1 * p.1 % sm2P * p.1 + sm2A * p.1 + sm2B) % sm2P

/-- The 64 bytes of a public key. -/
def keyBytes (p : Point) : List Byte :=
  match p with | some (x, y) => beBytes 32 x ++ beBytes 32 y | none => List.replicate 64 0

/-- Z of a signer, with the default distinguishing identifier. -/
def sm2Z (key : List Byte) : List Byte :=
  sm3 ([0x00, 0x80, 0x31, 0x32, 0x33, 0x34, 0x35, 0x36, 0x37, 0x38, 0x31, 0x32, 0x33, 0x34, 0x35, 0x36, 0x37, 0x38] ++
    beBytes 32 sm2A ++ beBytes 32 sm2B ++ beBytes 32 sm2G.1 ++ beBytes 32 sm2G.2 ++ slice key 0 64)

/-- The digest that is signed. -/
def sm2E (key msg : List Byte) : Nat := beNat (sm3 (sm2Z key ++ msg))

/-- The public key of a private key. -/
def sm2Public (d : Nat) : List Byte := keyBytes (ptMul 256 d (some sm2G))

/-- A signature, r then s, with the nonce `k`. -/
def sm2Sign (d k : Nat) (msg : List Byte) : List Byte :=
  let x := match ptMul 256 k (some sm2G) with | some (x, _) => x | none => 0
  let r := (sm2E (sm2Public d) msg + x) % sm2N
  beBytes 32 r ++ beBytes 32 (invMod sm2N (1 + d) * subMod sm2N k (r * d % sm2N) % sm2N)

/-- Verification of a signature of 64 bytes. -/
def sm2Verify (key msg sig : List Byte) : Bool :=
  let r := beNat (sig.take 32)
  let s := beNat ((sig.drop 32).take 32)
  let q := keyPoint key
  let t := (r + s) % sm2N
  decide (1 ≤ r) && decide (r < sm2N) && decide (1 ≤ s) && decide (s < sm2N) && decide (t ≠ 0) && onCurve q &&
  (match ptAdd (ptMul 256 s (some sm2G)) (ptMul 256 t (some q)) with
    | some (x, _) => (sm2E key msg + x) % sm2N == r
    | none => false)

end Sys2Proof.Machine
end

