-- ==== Sys2Proof/Config.lean ====
section
/-! DEFINITION. What the part fixes and the manual does not give, and the free values: constants with no body, of which
no proof can know a value (log 4, log 24, log 25). -/

namespace Sys2Proof.Config

/-- A free number, fresh for each index (log 4): random bytes (R247, R315), the order of a free-order sum (R62, R118),
the nonce of an SM2 signature (R317). -/
opaque freeNat : Nat → Nat

/-- The byte at an address of memory whose content is undefined until it is written, by the loss that left it so (R191, R328;
log 1). -/
opaque freeByte : Nat → Nat → Byte

/-- The offset, in units in the last place, of the exponential of R141 from the correctly rounded one, for an FP32
input. Only a value within the bound of R141 is taken (log 24). -/
opaque expUlp : Nat → Int

/-- The same for GELU (Table 3.6, log 24). -/
opaque geluUlp : Nat → Int

/-- The same for SiLU (Table 3.6, log 24). -/
opaque siluUlp : Nat → Int

/-- The Ploelro root key in ROM, x then y, 64 bytes (Table 12.4; log 25). -/
opaque rootKey : List Byte

/-- The key of Ploelro's certification authority, x then y, 64 bytes, with which the device certificate is signed (R314; log 25). -/
opaque caKey : List Byte

/-- The seed that the SRAM PUF of this part yields (R312; log 25). -/
opaque pufSeed : List Byte

/-- The Vendor ID assigned to Ploelro (R278; log 25). -/
opaque vendorId : Nat

/-- The JEP106 code assigned to Ploelro (R391; log 25). -/
opaque jep106 : Nat

/-- The stored bytes of a flash record whose byte layout the manual does not give (BIN, REPAIR, OWNER, FLOOR), by its
id and its content; digests, MACs and signatures over them are all that is ever seen (R313, R317; log 30). -/
opaque recordBytes : Nat → List Nat → List Byte

/-- The throttle burst's place is even (R342); the cycle of the first burst within its interval (log 26). -/
opaque burstPhase : Nat

/-- A free order (R62, R118): the index taken next, by the run number of the sum and the place (log 31). -/
opaque freeOrder : Nat → Nat → Nat

/-- The stored bits of element `i` of an MX block whose scale is 0xFF, by the FP32 values of the block: the manual gives
the scale and no element (R82; log 32). -/
opaque mxElem : List Nat → Nat → Nat

/-- The format of an OPTIMISER record's dense weight array, one of the four of R223: no field of Table 9.4 gives it (log 39).
By the address of the record. -/
opaque denseWeight : Nat → Nat

/-- The Folio at which the events of a move of an Enael core count: the command names none (log 35). By the address of the
move record. -/
opaque firmwareFolio : Nat → Nat

/-- A field of the job block of the job that a spare device joins, by the device that it replaces, the offset and the width: the
manual does not say how the job's parameters come to it (R236; log 53). -/
opaque spareField : Nat → Nat → Nat → Nat

/-- The step boundaries that an NP1 revision's copies of weights that lie at other devices take beyond the next, by the revision
(R152; log 44). -/
opaque copySteps : Nat → Nat

/-- Where the weights of an expert lie at the device of its first replica, as addresses and lengths, by 1,024 × share table + expert:
the manual does not say (R152; log 44). -/
opaque expertWeights : Nat → List (Nat × Nat)

/-- Where the weights of an expert go for a replica, by the same number and the replica: an address at its device (R152; log 44). -/
opaque replicaPlace : Nat → Nat → Nat

/-- The FP32 gradient of a bucket whose WIRE_FMT is neither BF16 nor FP16, by its stored bits (R224 states none; log 41). -/
opaque looseGrad : Nat → Nat

end Sys2Proof.Config
end

