-- ==== Sys2Proof/Machine/State.lean ====
section
/-! DEFINITION. The state of the NX1: every register, buffer, counter, table, pin and queue that the manual names, and the
queue of waiting commands. Every field holds a value at reset; where the manual gives none, the log entry named in
INVENTORY.md says so. A table that is mostly at rest is a `Tbl`: the entries that differ from the default of its reader. -/

namespace Sys2Proof.Machine

/-- A table from a number to a value: strictly rising keys, no entry equal to the default that its readers name. -/
abbrev Tbl (α : Type) := List (Nat × α)

/-- The outputs that a reader of the part sees: interrupts (R279), the data of the last read, in-band interrupts (R347), and the flits
and codewords that lanes have sent (R243, R245, R250). -/
structure Out where
  msix : List Nat := []
  readData : Nat := 0
  readBytes : List Byte := []
  completerAbort : Bool := false
  ibi : List Nat := []
  i3cBytes : List Byte := []
  flits : List (Nat × List Byte) := []
  words : List (Nat × List Nat) := []
deriving DecidableEq, Repr

/-- Pins, straps, clocks and the TAP (R382, R384, R386, R389 to R391, R343, R345). `alertOut`: the part drives ALERT_N low; `trst`:
TRST_N is low, as a board that leaves it open has it. -/
structure Pins where
  sysReset : Bool := true
  perst : Bool := true
  xspiReset : Bool := true
  thermtrip : Bool := false
  alertBoard : Bool := false
  bootSrc : Nat := 0
  flashMode : Nat := 0
  i3cAddr : Nat := 0
  vid : Nat := 15
  lostSys : Bool := false
  lostSd0 : Bool := false
  lostSd1 : Bool := false
  lostPcie : Bool := false
  clocksStopped : Bool := false
  alertOut : Bool := false
  tap : TapInstr := .idcode
  trst : Bool := true
deriving DecidableEq, Repr

/-- Memory that has lost its content (R191, R328): [lo, hi), or, of the LPDDR6 range, the addresses of `channels` channels
that lie in group `g`; `gen` tells one loss from another. -/
structure Undef where
  lo : Nat
  hi : Nat
  gen : Nat
  group : Option (Nat × Nat) := none
deriving DecidableEq, Repr

/-- Device memory (R181 to R201): bytes, the memory that holds undefined content where no byte is listed (log 1), the lines that
hold an error, tags and the repair lists. `errs`: by line, how the symbols of its stored codeword differ from those of its data
(R193, R199; log 12); `bad` and `corr`: the lines among them that the code detects only, and corrects. `spared` and `laneSpares`: the
rows, and the through-silicon lanes by vault, under spares, as the last training of their vaults applied them. -/
structure Mem where
  cells : List Host.Cell := []
  undef : List Undef := []
  bad : List Nat := []
  corr : List Nat := []
  errs : Tbl (List (Nat × Nat)) := []
  corrCount : Tbl Nat := []
  repairList : List (Nat × Nat) := []
  spared : List (Nat × Nat) := []
  laneSpares : List (Nat × Nat) := []
  full : List Nat := []
  lpChannels : Nat := 0
  lpRanks : Nat := 0
  lpGib : Nat := 0
  lpRate : Nat := 0
  lpMismatch : Bool := false
  vaultTrained : Tbl Nat := []
  channelTrained : Tbl Nat := []
deriving DecidableEq, Repr

/-- The GLOBAL page (Table 17.2, Table 17.3). -/
structure Global where
  faultState : Bool := false
  certMatch : Bool := false
  floorRebuilt : Bool := false
  jobState : Nat := 0
  deviceId : Nat := 0xFFFFFF
  agreement : Nat := 0
  gateEn : Bool := false
  gateSrc : Nat := 0
  gateMask : Nat := 0
  stackUse : Nat := 0xFF
  abortPolicy : Nat := 0
  paramTable : Nat := 0
  ckptBase : Nat := 0
  expertCounts : Nat := 0
  routeTable : Nat := 0
  routeCount : Nat := 0
  routePending : Bool := false
  routeDone : Bool := false
  routeError : Bool := false
  bcast0 : Nat := 0
  bcast1 : Nat := 0
  testPeriod : Nat := 0
  testDeadline : Nat := 86400
  /-- lower halves of 64-bit registers that wait for their upper half (R9) -/
  halves : Tbl Nat := []
deriving DecidableEq, Repr

/-- The four loss registers (Table 17.2). -/
structure LossRegs where
  ctrl : Nat := 0
  alpha : Nat := 0x3C23D70A
  ratio : Nat := 0x40000000
  warmup : Nat := 100
deriving DecidableEq, Repr

/-- The loss monitor (R239, R240). -/
structure Loss where
  regs : LossRegs := {}
  pend : Option LossRegs := none
  spike : Bool := false
  nonfinite : Bool := false
  avg : Nat := 0
  count : Nat := 0
deriving DecidableEq, Repr

/-- Colophon (R354 to R356): its registers, and the digests held by step and member. -/
structure Colophon where
  interval : Nat := 0
  group : Nat := 0
  digest : Nat := 0
  goodStep : Nat := 0xFFFFFFFF
  own : List (Nat × List Byte) := []
  got : List (Nat × Nat × List Byte) := []
deriving DecidableEq, Repr

/-- An exchange of time messages that is not complete (R275, R302); times in 2^-16 ns. -/
structure Exchange where
  seq : Nat := 0
  t1 : Nat := 0
  t2 : Nat := 0
  t3 : Nat := 0
  errBound : Nat := 0
  locked : Bool := false
  stage : Nat := 0
  corr : Int := 0
deriving DecidableEq, Repr

/-- The time unit (R32 to R36, R404 to R407). `now` counts 2^-16 ns; `res` is the part below, in 2^-16 ns × 10^-12. -/
structure TimeUnit where
  now : Nat := 0
  res : Nat := 0
  capture : Nat := 0
  heldSeconds : Nat := 0
  trim : Int := 0
  source : Nat := 0
  sourceLane : Nat := 0
  pendSource : Option Nat := none
  state : Nat := 0
  offset : Int := 0
  bound : Nat := 0
  good : Nat := 0
  bad : Nat := 0
  missed : Nat := 0
  exch : Option Exchange := none
  epochSec : Nat := 0
  epochNs : Nat := 0
  period : Nat := 0
  syncSeq : Nat := 0
  pathDelay : Int := 0
deriving DecidableEq, Repr

/-- A submission ring (R282, Table 17.5). -/
structure SubRing where
  base : Nat := 0
  size : Nat := 4
  en : Bool := false
  head : Nat := 0
  tail : Nat := 0
deriving DecidableEq, Repr

/-- A ring that the NX1 produces (R282, R286): completion, fault or counter. -/
structure OutRing where
  base : Nat := 0
  size : Nat := 4
  en : Bool := false
  head : Nat := 0
  tail : Nat := 0
  phase : Nat := 0
  lost : Nat := 0
  queue : List (List Byte × Bool) := []
deriving DecidableEq, Repr

/-- What a descriptor that has started and not completed waits for. -/
inductive HeldOp where
  | stepBegin (step steps : Nat)
  | shapeCell (dst : Nat) (bytes : List Byte)
  | ckptOnce (step : Option Nat)
  | openWindow (w : Nat) (entry : List Byte)
  | closeWindow (w : Nat)
  | closing (w : Nat)
  | snapshot
  | test (folio : Nat)
  | maskOp (rec : Nat)
  | stage (src bytes : Nat)
  | activate (core folio : Nat)
  | pause (atStep : Nat)
  | resume (frame : Nat)
  | jobEnd
  | release
  | param (w : ParamWrite)
  | loadImage
deriving DecidableEq, Repr

/-- A held descriptor, in fetch order (R285, R289). `late`: it arrived after the Ductus switch of the seam that runs, so it is
held until the following one (R50). -/
structure Held where
  hdr : Hdr
  op : HeldOp
  late : Bool := false
deriving DecidableEq, Repr

/-- One packet of a record on its way to a ring in a peer (R299): its ring (0 to 3 completion, 4 fault, 5 counter), the number of the
record, its packet, whether the write failed, so that the record is queued and the write is due again in the next frame, and
whether it waits for the body of its record (R373). -/
structure RecWrite where
  ring : Nat
  recNo : Nat := 0
  pkt : Packet
  failed : Bool := false
  waits : Bool := false
deriving DecidableEq, Repr

/-- The rings (R282 to R286, R299). `writes`: the record writes to a peer that are not answered, `recNo` the number of the next
record, and `notices` the notifications that follow those records (R279); `fetchFailed`: the frame in which a descriptor fetch was
last refused. -/
structure Rings where
  sq : Tbl SubRing := []
  cq : Tbl OutRing := []
  fq : OutRing := {}
  ctr : OutRing := { size := 2 }
  host : Nat := 0
  hostDevice : Nat := 0
  hostWindow : Nat := 0
  notifyAddr : Nat := 0
  turn : Nat := 0
  held : List Held := []
  writes : List RecWrite := []
  recNo : Nat := 0
  notices : List (Nat × Nat) := []
  fetchFailed : Option Nat := none
deriving DecidableEq, Repr

/-- The security mailbox (R315, R410). -/
structure Mailbox where
  buf : Nat := 0
  status : Nat := 0
  result : Nat := 0
  ignored : Nat := 0
  challenge : Option (List Byte) := none
  cmd : Nat := 0
  runBuf : Nat := 0
deriving DecidableEq, Repr

/-- A power domain (R328 to R339, Table 17.7). `counted`: the withdrawal that runs has been refused and counted (R334). -/
structure Domain where
  state : Nat := 0
  wakePending : Bool := false
  refusedNow : Bool := false
  votes : Nat := 0
  retain : Bool := false
  refused : Nat := 0
  aborted : Nat := 0
  last : Nat := 0
  toSr : Bool := false
  afterShutdown : Bool := false
  boardWithdrew : Bool := false
  retry : Bool := false
  counted : Bool := false
deriving DecidableEq, Repr

/-- The power core (R331 to R347, Table 17.7). Power in 1/8 W. `hot`: the temperature conditions present, by level and die, each
with its own hysteresis (R343). -/
structure Power where
  dom : Tbl Domain := []
  partner : List Nat := []
  limitSupv : Nat := 850
  limitBoard : Nat := 450
  limitEff : Nat := 450
  window : Nat := 10
  stallRatio : Nat := 0
  level : Nat := 0
  cause : Nat := 0
  average : Nat := 0
  samples : List Nat := []
  calib : Nat := 1024
  uncalibrated : Bool := false
  rails : Tbl Nat := []
  temps : Tbl Int := []
  hot : List (Nat × Nat) := []
  below : Nat := 0
  conditions : List Nat := []
  allowFrames : Nat := 0
  stopped : Bool := false
  queued : List (Nat × Nat × Bool) := []
  dead : Bool := false
deriving DecidableEq, Repr

/-- The I3C target (R346, R347). `ibi`: the in-band interrupts, by their data byte, that the controller has not taken. -/
structure I3c where
  dynamic : Nat := 0
  offset : Nat := 0
  latch : List Byte := []
  latchAt : Nat := 0
  ibi : List Nat := []
deriving DecidableEq, Repr

/-- A fault record (Table 14.1) with its source of R351: 0 cause, 1 cluster core, 2 Nib, 3 stack, 4 channel, 5 link, 6 IO0;
`key` orders records of one source and cycle. -/
structure FaultRec where
  code : Nat := 0
  sev : Nat := 0
  cause : Bool := false
  frame : Nat := 0
  device : Nat := 0
  die : Nat := 4
  folio : Nat := 0
  quill : Nat := 0
  nib : Nat := 0
  valid : Nat := 0
  ductus : Nat := 0
  stroke : Nat := 0
  addr : Nat := 0
  detail : Nat := 0
  cycle : Nat := 0
  seq : Nat := 0
  src : Nat := 6
  key : Nat := 0
deriving DecidableEq, Repr

/-- The fault unit (R351, R413). -/
structure FaultUnit where
  seq : Nat := 0
  suppressed : Nat := 0
  last : List Byte := List.replicate 64 0
  latch : List Byte := List.replicate 64 0
  region : List FaultRec := []
  inSeam : List FaultRec := []
deriving DecidableEq, Repr

/-- A counter (R365, Tables 17.10 to 17.12), by its index in the snapshot record (R372). -/
structure Counter where
  sel : Nat := 0
  val : Nat := 0
  wrapped : Bool := false
  resel : Bool := false
  pend : Option Nat := none
deriving DecidableEq, Repr

/-- A filter range (R366, R416): `blk` 0 to 67 a Folio, 68 to 75 a stack. -/
structure CtrRange where
  lo : Nat := 0
  hi : Nat := 0
  pendLo : Option Nat := none
  pendHi : Option Nat := none
deriving DecidableEq, Repr

/-- The counters and their capture control (R364 to R374). `reselAll`: all counters have been zeroed since the last capture (R369). -/
structure Counters where
  ctr : Tbl Counter := []
  range : Tbl CtrRange := []
  snapEvery : Nat := 0
  snapSeq : Nat := 0
  userRead : Bool := false
  pendEvery : Option Nat := none
  pendUser : Option Bool := none
  pendClear : Bool := false
  reselAll : Bool := false
  skipped : Nat := 0
deriving DecidableEq, Repr

/-- A physical Folio (Table 1.6, Table 17.13). State 0 ACTIVE, 1 SPARE, 2 UNDER_TEST, 3 QUARANTINED. -/
structure Folio where
  state : Nat := 0
  fbOn : Nat := 0xFFFFFFFFFFFFFFFF
  wellOn : Nat := 0xFFFF
  before : Nat := 0
  image : Option (List Byte) := none
  started : Bool := false
deriving DecidableEq, Repr

/-- The Folios and the logical map (R17 to R24). `map` lists the entries that differ from the start map; `unmapped` the
logical Folios that have no physical Folio; `remaps` the takeovers that wait for their seam (R18); `waiting` the logical Folios
that wait for a test to end (R23); `short` a die that had fewer than sixteen Folios outside QUARANTINED at cold start (R24). -/
structure Folios where
  phys : Tbl Folio := []
  map : Tbl Nat := []
  unmapped : List Nat := []
  remaps : List (Nat × Nat) := []
  waiting : List Nat := []
  short : Option Nat := none
deriving DecidableEq, Repr

/-- A flit's granules in a retry buffer: its SEQ, class and body. -/
structure TxFlit where
  seq : Nat := 0
  cls : Nat := 0
  body : List Byte := []
deriving DecidableEq, Repr

/-- A lane (R241 to R255, R418 to R420). `rateLatch`: LINK_RATE_MAX as the page exchange that runs took it (R418). `common`: the
rates of the last exchange that agreed (R248); `partnerLane`: the number of the partner's lane (R243); `txDelay` and `rxDelay`:
its datapath delays, measured at each training (R275). -/
structure Lane where
  disable : Bool := false
  bootServe : Bool := false
  refused : Bool := false
  state : Nat := 0
  reason : Nat := 0
  inverted : Bool := false
  lanes : Nat := 1
  base : Option Nat := none
  rate : Nat := 0
  rateMax : Nat := 15
  rateLatch : Nat := 15
  partner : Nat := 0
  partnerFeat : Nat := 0
  partnerTime : Nat := 0
  asym : Int := 0
  weight : Nat := 0x0101
  pageSeq : Nat := 0
  echoSeq : Nat := 0
  nonce : Nat := 0
  common : Nat := 0
  partnerLane : Nat := 0
  txDelay : Nat := 0
  rxDelay : Nat := 0
  rejoin : Bool := false
deriving DecidableEq, Repr

/-- The link layer of a lane (R250 to R253, R271). `quality`: the 10 ms quality check of R246 runs; `locked`: the receiver has
locked to codewords and flits (R245); `mgmtDue`: a slot reserved for MGMT fell inside a packet (R271); `group`: the flits that wait to
fill two codewords, and `rxWords` the codewords of the five flits that arrive, as decoded, none where one could not be (R243,
R245). -/
structure LinkLayer where
  txSeq : Nat := 0
  retry : List TxFlit := []
  replay : List Nat := []
  txRetry : Bool := false
  rxRetry : Bool := false
  rxNext : Nat := 0
  nak : Bool := false
  credits : List Nat := [160, 64, 16]
  freed : List Nat := [0, 0, 0]
  slot : Nat := 0
  quality : Bool := false
  locked : Bool := false
  mgmtDue : Bool := false
  group : List Byte := []
  rxWords : List (Option (List Nat)) := []
deriving DecidableEq, Repr

/-- A packet that waits to leave: its requester (0 this device's streams, 1 Enael, 2 + p the ingress port p), its class
and its bytes (R271). -/
structure Waiting where
  req : Nat
  cls : Nat
  bytes : List Byte
deriving DecidableEq, Repr

/-- A port (R253, R271): what waits to leave it, the packet being sent (`cur`, what is left of `curAll`), the flit bodies that arrived
on its lanes, the byte stream made of them, and the whole packets that wait for their command. `opened`: the flits, by lane, class and
whether a held packet lies in them, whose last packet has not arrived whole; `heldCredits`: the lanes of flits of held packets,
`holdSince` the time of the first (R273). `removed`: rates at which a lane failed (R248). `schedIn`: the ids of the Ductus under which
SCHEDULED packets have arrived (R252). -/
structure Port where
  queue : List Waiting := []
  cur : List Byte := []
  curAll : List Byte := []
  curCls : Nat := 0
  curReq : Nat := 0
  wrrReq : Nat := 0
  wrrLeft : Nat := 0
  txNext : Nat := 0
  rxNext : Nat := 0
  arrived : List (Nat × List Byte) := []
  stream : List Byte := []
  inbox : List Packet := []
  schedSent : Nat := 0
  schedWait : Nat := 0
  bulkWait : Nat := 0
  opened : List (Nat × Nat × Bool) := []
  heldCredits : List Nat := []
  holdSince : Option Nat := none
  removed : Nat := 0
  schedIn : List Nat := []
deriving DecidableEq, Repr

/-- A route-table entry in the routers (Table 10.9). -/
structure Route where
  value : Nat
  mask : Nat
  port : Nat
  alt : Nat
  flags : Nat
deriving DecidableEq, Repr

/-- A window (R266, Table 10.10). `owner`: 0 session, 1 job, 2 the NX1 itself. -/
structure Window where
  isOpen : Bool := false
  base : Nat := 0
  flags : Nat := 0
  length : Nat := 0
  gen : Nat := 0
  srcId : Nat := 0
  srcMask : Nat := 0
  closeFrame : Nat := 0
  closing : Bool := false
deriving DecidableEq, Repr

/-- A packet of this device that is not answered (R258, R259, R261). `held`: a SLOT_FILL packet that waits for earlier
answers; `busy`: answered BUSY and to be sent again; `resent`: sent again, so that its own answer is to come. -/
structure Unanswered where
  pkt : Packet
  held : Bool := false
  busy : Bool := false
  resent : Bool := false
deriving DecidableEq, Repr

/-- A transfer of this device (R258, R259): a stroke's where `folio` is given. `late`: a packet of it came too late, so that it is never
acknowledged. `land`: the shape cell that follows (R168);
`expert`: a row of that expert (R145); `reads`: READ requests, whose data gather in `got` by remote address. -/
structure Transfer where
  tag : Nat
  dst : Nat
  folio : Option Nat := none
  idx : Nat := 0
  frame : Nat := 0
  pkts : List Unanswered := []
  stopped : Bool := false
  late : Bool := false
  acked : Bool := false
  land : Option (Nat × List Byte) := none
  expert : Option Nat := none
  cls : Nat := 0
  window : Nat := 0
  reads : Bool := false
  got : List (Nat × List Byte) := []
deriving DecidableEq, Repr

/-- The routers, window checkers and transfers (R256 to R274). `lateFrame`: the frame of the last LATE_DATA record (R273). -/
structure Fabric where
  routes : List Route := []
  windows : Tbl Window := []
  holdNext : List (Nat × Packet) := []
  xfers : List Transfer := []
  nextTag : Nat := 0
  lateFrame : Option Nat := none
  selfBox : List Packet := []
deriving DecidableEq, Repr

/-- An MSI-X entry as PCI Express lays it out (R422). -/
structure MsixEntry where
  addr : Nat := 0
  data : Nat := 0
  ctrl : Nat := 1
deriving DecidableEq, Repr

/-- The PCIe endpoint (R278 to R281, R422). `busMaster`: Bus Master Enable; `maxPayload` and `maxReadReq`: Max_Payload_Size
and Max_Read_Request_Size in bytes; `msixEn`: MSI-X Enable, as the host's configuration leaves them (log 58). -/
structure Pcie where
  rate : Nat := 0
  width : Nat := 0
  flit : Bool := false
  up : Bool := false
  bar4Base : Nat := 0
  bar4En : Bool := false
  msix : Tbl MsixEntry := []
  pba : Nat := 0
  busMaster : Bool := false
  maxPayload : Nat := 128
  maxReadReq : Nat := 512
  msixEn : Bool := false
deriving DecidableEq, Repr

/-- A management Ethernet port (R301, R302, R423). `exch`: the Sync that waits for its Follow_Up; `delay`: the one whose delay
measurement is to come, with the number of the Delay_Req sent for it; `pdSeq` the number of the last request; `pdSent` the egress
time of the Pdelay_Req in flight and `pd` its two-step answer; `pdReplies` the Pdelay_Resp messages sent, and `pdLast` the number
and ingress time that the last of them answered; `masterStale`: the master's Sync has failed to arrive. -/
structure Eth where
  mode : Nat := 0
  up : Bool := false
  mac : Nat := 0
  ipv4 : Nat := 0
  profile : Nat := 0
  domain : Nat := 0
  vlan : Nat := 0
  asym : Int := 0
  txDelay : Nat := 0
  rxDelay : Nat := 0
  master : Option (Nat × Nat) := none
  exch : Option Exchange := none
  delay : Option Exchange := none
  pathDelay : Int := 0
  pdSeq : Nat := 0
  pdSent : Option Nat := none
  pd : Option Exchange := none
  pdReplies : Nat := 0
  pdLast : Nat × Nat := (0, 0)
  masterStale : Bool := false
  logInterval : Int := 0
  arpReplies : Nat := 0
deriving DecidableEq, Repr

/-- A due test (R359). `deadlineAt` in seconds of the time unit. -/
structure DueTest where
  folio : Nat
  deadlineAt : Nat
  passed : Bool := false
deriving DecidableEq, Repr

/-- In-field test (R357 to R361, R424). -/
structure Scan where
  available : Bool := false
  failId : Nat := 0
  running : Option Nat := none
  due : List DueTest := []
  asked : Option Nat := none
deriving DecidableEq, Repr

/-- A stored image (Table 12.2): its bytes. -/
abbrev Image := List Byte

/-- Boot, the image store and live update (R304 to R327). Cores 0 security, 1 power, 2 scheduler, 3 cluster. -/
structure Boot where
  phase : Nat := 0
  held : Tbl Image := []
  running : Tbl Image := []
  staged : Tbl Image := []
  coresUp : List Nat := []
  server : Option Nat := none
  rxCore : Nat := 0
  rxBytes : List Byte := []
  rxAcked : Nat := 0
  bootPort : Nat := 0
  helloDue : Bool := false
  agrees : Bool := false
  floors : List Nat := [0, 0, 0, 0]
  ownerKey : List Byte := []
  rootAllowed : Bool := false
  devKey : Nat := 0
  recKey : List Byte := []
  schedExpired : Bool := false
  powerExpired : Bool := false
  schedDown : Bool := false
deriving DecidableEq, Repr

/-- The chain-boot server's view of a port that it serves (R310). -/
structure Serve where
  core : Nat := 0
  offset : Nat := 0
  acked : Nat := 0
  active : Bool := false
deriving DecidableEq, Repr

/-- An activation (R322 to R327). Stage: 1 pending, 2 armed, 3 sealed, 4 switched, 5 accepted. `imgs`: the images staged when it was
accepted; `blocks`: the handoff blocks, by their FOLIO; `frame`: the frame whose seam performed the switch. -/
structure Activation where
  core : Nat
  folio : Nat
  stage : Nat
  target : Nat := 0
  all : Bool := false
  rolling : Bool := false
  updated : Nat := 0
  deferred : Bool := false
  blocks : Tbl (List Byte) := []
  imgs : Tbl Image := []
  frame : Nat := 0
deriving DecidableEq, Repr

/-- The job block (Table 11.8) as read at JOB_START. -/
structure JobBlock where
  tag : Nat := 0
  startFrame : Nat := 0
  startStep : Nat := 0
  stepFrames : Nat := 1
  firstDuctus : Nat := 0
  fbMask : Nat := 0xFFFFFFFFFFFFFFFF
  wellMask : Nat := 0xFFFF
  np1 : Nat := 0
  ckptInterval : Nat := 0
  lpMirror : Nat := 0
  mirrorWindow : Nat := 0
  slotBytes : Nat := 0
  buddy : Nat := 0
  ward : Nat := 0
  restartFrames : Nat := 0
  rollbackWait : Nat := 0
  devices : List Nat := []
  spares : List Nat := []
  regions : List (Nat × Nat) := []
deriving DecidableEq, Repr

/-- The session and the job (R291 to R298, R225, R226, R240). `savedState` is the job's state before ORPHANED; `optSteps`: the
steps that ended after an optimiser or mask stroke of them had issued, not skipped; `optRan`: one of the current step has;
`skipSent`: SKIP of the current step has been sent. -/
structure Job where
  session : Nat := 0
  restricted : Bool := false
  driver : Nat := 0
  savedState : Nat := 0
  blk : JobBlock := {}
  step : Nat := 0
  allowance : Option Nat := none
  f0 : Nat := 0
  pauseNow : Bool := false
  params : List Held := []
  optGroups : List Nat := []
  stale : List (Nat × Nat) := []
  optIssued : Bool := false
  skipped : List Nat := []
  optSteps : List Nat := []
  optRan : Bool := false
  skipSent : Bool := false
  lossFlagged : Bool := false
  nonfinite : Bool := false
  lost : List Nat := []
  opened : List Nat := []
deriving DecidableEq, Repr

/-- A Ductus loaded into device memory (R42). -/
structure Loaded where
  id : Nat
  addr : Nat
  bytes : Nat
deriving DecidableEq, Repr

/-- How the terms of a product sum: floating point, FP32 in three passes, INT8, or FP64 in `s` slices. -/
inductive SumKind where
  | float
  | three
  | int
  | slices (s : Nat)
deriving DecidableEq, Repr

/-- An owner-table entry (Table 7.2); `ok`: VALID is set and no reserved field is. -/
structure Owner where
  loc : Nat
  device : Nat
  window : Nat
  ok : Bool
deriving DecidableEq, Repr

/-- A tensor descriptor (Table 7.1), with the entries of its owner table as the decode read them. -/
structure Desc where
  at_ : Nat
  magic : Nat
  rank : Nat
  fmt : Nat
  form : Nat
  flags : Nat
  mxDim : Nat
  base : Nat
  ext : List Nat
  str : List Int
  blk : List Nat
  scale : Nat
  spare : Nat
  own : List Owner := []
deriving DecidableEq, Repr

/-- A decoded product with its actual extents (Table 5.2). -/
structure Prod where
  at_ : Nat
  b : List Byte
  a : Desc
  bb : Desc
  c : Desc
  p : Desc
  lig : List Byte
  blot : List Byte
  kind : SumKind
  m : Nat
  n : Nat
  k : Nat
deriving DecidableEq, Repr

/-- A decoded move, with its actual extents and its shape cell (Table 7.3). -/
structure Move where
  at_ : Nat
  b : List Byte
  src : Desc
  dst : Desc
  remote : Option (Nat × Nat)
  traffic : Nat
  ext : List Nat
  cell : List Byte
deriving DecidableEq, Repr

/-- A share-table entry (Table 6.2). -/
structure Share where
  loc : Nat
  dev : Nat
  win : Nat
  share : Nat
  ret : Nat
deriving DecidableEq, Repr

/-- A decoded routing record with its actual token count and its share table (Table 6.1). -/
structure Routing where
  at_ : Nat
  b : List Byte
  score : Desc
  token : Desc
  reps : Nat
  tokens : Nat
  shares : List Share
deriving DecidableEq, Repr

/-- A tap of a stencil: its offsets, and its coefficient as stored. -/
structure Tap where
  d : List Int
  c : Nat
deriving DecidableEq, Repr

/-- A decoded stencil (Table 8.9). -/
structure Sten where
  b : List Byte
  fmt : Nat
  taps : List Tap
  inp : Desc
  out : Desc
  faces : List (Option Desc)
deriving DecidableEq, Repr

/-- A decoded digest record (Table 8.10). -/
structure Dig where
  b : List Byte
  desc : Option Desc
deriving DecidableEq, Repr

/-- A decoded optimiser record (Table 9.4). -/
structure Opt where
  at_ : Nat
  b : List Byte
  desc : Option Desc
deriving DecidableEq, Repr

/-- A decoded Nib record (Table 8.8). -/
inductive NibRec where
  | stencil (d : Sten)
  | digest (d : Dig)
  | optimiser (d : Opt)
deriving DecidableEq, Repr

/-- A decoded reduction (Table 9.2). -/
structure Red where
  at_ : Nat
  b : List Byte
  tiles : Option Desc
deriving DecidableEq, Repr

/-- What the NX1 decoded when a stroke issued (R114, R139, R153, R164, R202, R216). -/
inductive Decoded where
  | none
  | product (d : Prod)
  | move (m : Move)
  | routing (r : Routing)
  | chain (rs : List NibRec)
  | reduce (d : Red)
deriving DecidableEq, Repr

/-- A stroke in progress: its place in its list, the cycle at which it issued, whether its data effect is made, the Nib
records that have run, the Quills and Nibs that it occupies, and what its operation named as it issued. -/
structure Running where
  folio : Nat
  idx : Nat
  start : Nat
  budget : Nat
  cls : Nat
  at_ : Nat
  done : Bool := false
  recs : List Nat := []
  quills : Nat := 0
  nibs : List Nat := []
  rows : Nat := 0
  dec : Decoded := .none
deriving DecidableEq, Repr

/-- The frame and its Ductus (R36 to R54). `live`: frames of the job run. `region`: in the stroke region of a frame of the
job. `seam`: in the seam. `phase`: the last seam phase that has run, 1 counters, 2 faults, 3 windows, 4 Ductus switch, 5 step
boundary, 6 tags, 7 advance. `clock`: the Ductus clock. `stall`: S. `cls`: the stall cycles by class. `next`: the Ductus that
a seam has made ready for a job that is about to start. `seen`: the tags as the issue of this cycle sees them.
`stalled`: the stall signals of the last cycle. `blocked`: this cycle is a stalled one, in which no stroke advances (R43).
`abortedAt`: the cycle of the abort (R86, R106). `setNow` and `clearedNow`:
the slots set and cleared in this cycle (R187). `seamAt`: the cycle at which the seam began (R49). -/
structure Frame where
  number : Nat := 0
  live : Bool := false
  region : Bool := false
  seam : Bool := false
  phase : Nat := 0
  cycle : Nat := 0
  clock : Nat := 0
  stall : Nat := 0
  cls : List Nat := [0, 0, 0, 0, 0, 0]
  current : Option Nat := none
  next : Option Nat := none
  issued : List (Nat × Nat) := []
  prog : List Running := []
  waitSlot : Option (Nat × Nat × Nat) := none
  seen : List Nat := []
  aborted : Bool := false
  abortedAt : Option Nat := none
  exceeded : Bool := false
  swaps : List (Nat × Nat) := []
  stkLeft : Nat := 0
  lpLeft : Nat := 0
  thrUsed : Nat := 0
  stalled : Nat := 0
  blocked : Bool := false
  timeSampled : Nat := 0
  setNow : List Nat := []
  clearedNow : List Nat := []
  seamAt : Nat := 0
deriving DecidableEq, Repr

/-- A move on a stream (R176, R177). -/
structure StreamMove where
  folio : Nat
  idx : Nat
deriving DecidableEq, Repr

/-- One stream of a Folio (R176). -/
structure Stream where
  active : Option StreamMove := none
  shadow : Option StreamMove := none
deriving DecidableEq, Repr

/-- The counts of an expert (R150). -/
structure Expert where
  first : Nat := 0
  admitted : Nat := 0
  overflow : Nat := 0
  dropped : Nat := 0
deriving DecidableEq, Repr

/-- Routing in progress on a Folio (R143 to R145), by Folio + 64 × stroke: the next token, T_a, the rows admitted to each
expert, the experts whose count cells are sent, and the record as its stroke issued. -/
structure RouteRun where
  token : Nat := 0
  tokens : Nat := 0
  shares : Tbl Nat := []
  sent : List Nat := []
  record : Option Routing := none
deriving DecidableEq, Repr

/-- Experts, routers and the NP1 state (R138 to R152). `past`: the steps that have ended, each with FIRST of its experts;
`reps`: the replica slots of the experts, by 1,024 × table + expert, where a revision has changed them; `copyLeft`: the boundaries that
the copies of weights held elsewhere still take; `skipped`: the revisions skipped. -/
structure Experts where
  count : Tbl Expert := []
  run : Tbl RouteRun := []
  past : List (Nat × Tbl Nat) := []
  revision : Nat := 0
  copying : Bool := false
  copyLeft : Nat := 0
  skipped : Nat := 0
  placed : Tbl Nat := []
  reps : Tbl Nat := []
deriving DecidableEq, Repr

/-- The training services (R228 to R238). The coordinator's side: `seq`, the rollback in force (`incident`: the step of its
requests and its restart frame; `target`, `toCkpt`), `paused`, `ready`, `notReady`, the checkpoint being collected
(`ckptStep`, `ckptDone`, `ckptSent`). The device's side: `obeyed`, `restart`, `restartStep`, `restoring`, `fromMirror`,
`sentReady`, `waiting`, `waitCode`, `acting`, `coTaken`, `pausedRb`, `asSpare`, `ownerFix`. Its checkpoints, each a step and an
own slot: `writing`, `doneSlot`, `committed`; `mirrored`, `remirror`; `retake`: the step whose checkpoint a rollback has aborted (R353);
`ckptBoundary`: a commit has come since the last checkpoint boundary, and `atCkpt`: the seam that runs is one (R360). -/
structure Training where
  seq : Nat := 0
  incident : Option (Nat × Nat) := none
  target : Nat := 0
  toCkpt : Bool := false
  paused : Bool := false
  ready : List Nat := []
  notReady : Nat := 0
  ckptStep : Nat := 0
  ckptDone : List Nat := []
  ckptSeq : Nat := 0
  ckptSent : Bool := false
  obeyed : Nat := 0
  restart : Option Nat := none
  restartStep : Nat := 0
  restoring : Bool := false
  fromMirror : Bool := false
  sentReady : Bool := false
  waiting : Option Nat := none
  waitCode : Nat := 0
  acting : Option Nat := none
  coTaken : Bool := false
  pausedRb : Bool := false
  asSpare : Option Nat := none
  ownerFix : List (Nat × Nat) := []
  committed : Option (Nat × Nat) := none
  writing : Option (Nat × Nat) := none
  doneSlot : Option (Nat × Nat) := none
  mirrored : Bool := false
  remirror : Bool := false
  ckptBoundary : Bool := false
  atCkpt : Bool := false
  retake : Option Nat := none
deriving DecidableEq, Repr

/-- What a Nib left of a digest (R211): the SM3 registers, the bytes of the block under way, and the length so far. -/
structure NibDigest where
  regs : List Nat := []
  tail : List Byte := []
  len : Nat := 0
deriving DecidableEq, Repr

/-- The state of the NX1. `digests`: what the Nibs left, by the address of the state-area entry (log 40). -/
structure State where
  pending : List Instr := []
  free : Nat := 0
  out : Out := {}
  hostMem : List Host.Cell := []
  pins : Pins := {}
  flash : Flash
  mem : Mem := {}
  glob : Global := {}
  loss : Loss := {}
  colo : Colophon := {}
  time : TimeUnit := {}
  rings : Rings := {}
  mb : Mailbox := {}
  power : Power := {}
  i3c : I3c := {}
  flt : FaultUnit := {}
  cnt : Counters := {}
  folios : Folios := {}
  lanes : Tbl Lane := []
  links : Tbl LinkLayer := []
  ports : Tbl Port := []
  fab : Fabric := {}
  pcie : Pcie := {}
  eth : Tbl Eth := []
  scan : Scan := {}
  boot : Boot := {}
  serve : Tbl Serve := []
  act : Option Activation := none
  actQueue : List (Hdr × Activation) := []
  actHdr : Option Hdr := none
  job : Job := {}
  ductus : List Loaded := []
  frame : Frame := {}
  streams : Tbl Stream := []
  experts : Experts := {}
  train : Training := {}
  digests : Tbl NibDigest := []
deriving DecidableEq, Repr

/-- Why a step stops. -/
inductive Fault where
  /-- Raised by a command that names a unit, a register width or a field value that the part does not have (a lane of 96
  or more, a ring of 16 or more, a Folio of 68 or more ...). Safe: the hardware has no such command. -/
  | noSuchUnit
deriving DecidableEq, Repr

/-- Why a command has no meaning. -/
inductive Refusal where
  /-- Raised by a command that this model has not reached. Safe: nothing is claimed of it. -/
  | notModelled (mnemonic : String)
deriving DecidableEq, Repr

/-- The record directory of the factory's flash (Table 16.8): eight areas of 128 KiB from 64 KiB upward, in the order of their ids
(log 11). -/
def Flash.factoryDir : List Byte :=
  leBytes 4 0x52494446 ++ leBytes 2 1 ++ leBytes 2 8 ++ leBytes 4 0xb48e8f19 ++ leBytes 4 0 ++
  (List.range 8).flatMap (fun e => leBytes 4 (0x11 + e) ++ leBytes 4 (0x10000 + 0x20000 * e) ++ leBytes 4 0x20000 ++ leBytes 4 0)

/-- The flash as it leaves the factory: its directory and PUF_HELPER are good, BIN is there, and every other record is missing (R313,
log 11). -/
def Flash.factory : Flash :=
  { dir := Flash.factoryDir, pufHelper := ([], beBytes 32 0x1AB21D8355CFA17F8E61194831E81A8F22BEC8C728FEFB747ED035EB5082AA2B),
    cert := none, bin := some { code := 15, sig := [] }, board := none,
    repair := (none, none), owner := (none, none), floor := (none, none), scan := none }

/-- What an unwritten Folio entry holds: positions 0 to 15 of each die ACTIVE, position 16 SPARE (R21, log 9). -/
def Folio.dflt (n : Nat) : Folio := { state := if n % 17 = 16 then 1 else 0 }

/-- What an unwritten domain entry holds: RETAIN set for stacks and LPDDR6 groups, every domain OFF (Table 17.7). -/
def Domain.dflt (n : Nat) : Domain := { retain := (72 ≤ n && n ≤ 79) || (124 ≤ n && n ≤ 127) }

/-- The state after reset: the part held in cold reset by SYS_RESET_N (R390, log 8), every register at its reset value. -/
def State.reset : State := { flash := Flash.factory }

end Sys2Proof.Machine
end

