-- ==== Sys2Proof/WellFormed.lean ====
section
/-! DEFINITION. Which commands name only units, widths and values that the part has. A command outside this is no command of
the NX1: its meaning stops with the fault `noSuchUnit`. -/

namespace Sys2Proof

/-- A number that fits `n` bytes. -/
def fits (n v : Nat) : Bool := decide (v < 256 ^ n)

/-- Header fields of Table 11.4, and a submission ring of Table 11.3. -/
def Hdr.wf (h : Hdr) : Bool :=
  decide (h.sq < 16) && fits 1 h.flags && fits 1 h.cq && fits 4 h.tag && fits 8 h.owner

/-- A ring of Table 11.3. -/
def RingId.wf : RingId → Bool
  | .sq n => decide (n < 16)
  | .cq n => decide (n < 4)
  | .fq => true
  | .ctr => true

/-- Header fields of Table 10.6, and a payload of at most 1,024 bytes (R256). -/
def Packet.wf (p : Packet) : Bool :=
  fits 1 p.typ && fits 1 p.flags && fits 1 p.cls && fits 1 p.status && fits 3 p.dst && fits 3 p.src &&
  fits 1 p.window && fits 1 p.elemFmt && fits 2 p.length && fits 2 p.tag && fits 6 p.addr && fits 2 p.gen &&
  fits 6 p.frame && fits 2 p.hops && decide (p.payload.length ≤ 1024)

/-- Message fields of Table 9.6. -/
def SvcMsg.wf (m : SvcMsg) : Bool :=
  fits 1 m.typ && fits 1 m.flags && fits 2 m.job && fits 3 m.device && fits 1 m.code && fits 4 m.step &&
  fits 2 m.seq && fits 6 m.frame && fits 3 m.spare

/-- Body fields of PARAM_WRITE (Table 11.5). -/
def ParamWrite.wf (w : ParamWrite) : Bool :=
  fits 2 w.group && fits 1 w.fields && fits 4 w.target && fits 4 w.lr && fits 4 w.beta1 && fits 4 w.beta2 &&
  fits 4 w.eps && fits 4 w.wd

/-- A logical Folio (R17, R18). -/
def isFolio (l : Nat) : Bool := decide (l < 64)

/-- A physical Folio (R17). -/
def isPhys (n : Nat) : Bool := decide (n < 68)

/-- A lane, which also names a port by its lowest lane (R241). -/
def isLane (n : Nat) : Bool := decide (n < 96)

/-- A management Ethernet port (R29). -/
def isEth (n : Nat) : Bool := decide (n < 2)

/-- A power domain (R328). -/
def isDom (n : Nat) : Bool := decide (n < 132)

/-- Who issues a move. -/
def MoveSrc.wf : MoveSrc → Bool
  | .stroke folio _ => isFolio folio
  | .firmware record => fits 6 record

/-- A sparse tile load names units that the part has. -/
def TileLoad.wf (u : TileLoad) : Bool :=
  isFolio u.folio && decide (u.quill < 8) && fits 6 u.addr && decide (u.form ≤ 3) && decide (u.fmt < 256) &&
  (match u.nib with | none => true | some k => decide (k < 256))

/-- The check of a command. -/
def Instr.wf : Instr → Bool
  | .sysResetNAssert _ => true
  | .coldStart b f a _ _ => decide (b < 2) && decide (f < 2) && decide (a < 4)
  | .perstNAssert => true
  | .perstNDeassert => true
  | .pcieLinkTrained r w c => decide (1 ≤ r) && decide (r ≤ 6) && [1, 2, 4, 8, 16].contains w && (c.flit || r != 6) &&
    [128, 256, 512].contains c.maxPayload && [128, 256, 512, 1024, 2048, 4096].contains c.maxReadReq
  | .ringHostLost => true
  | .refclkSysLoss => true
  | .refclkSdLoss n => decide (n < 2)
  | .refclkPcieLoss => true
  | .vddAuxUndervoltage => true
  | .thermtrip d _ => decide (d < 4) || (decide (8 ≤ d) && decide (d < 16))
  | .alertNLow => true
  | .alertNHoldTimeout => true
  | .jtagInstruction _ => true
  | .loadImage h src bytes => h.wf && fits 8 src && fits 4 bytes
  | .securityImageStart => true
  | .coreReady c _ => decide (c < 71)
  | .clusterStartTimeout n => isPhys n
  | .bootComplete => true
  | .chainBootHello => true
  | .chainBootHelloReceive p _ => isLane p
  | .chainBootData p src _ => isLane p && fits 3 src
  | .chainBootAckReceive p _ => isLane p
  | .descriptorFetch _ => true
  | .queuedRecordFlush r => decide (r < 4)
  | .claim h a b f => h.wf && fits 2 a && fits 2 b && fits 1 f
  | .loadDuctus h src bytes dst => h.wf && fits 8 src && fits 4 bytes && fits 8 dst
  | .jobStart h b n => h.wf && fits 8 b && fits 4 n
  | .stepBegin h a b => h.wf && fits 4 a && fits 4 b
  | .paramWrite h w => h.wf && w.wf
  | .shapeCellWrite h d s => h.wf && fits 8 d && fits 8 s
  | .maskOp h r => h.wf && fits 8 r
  | .checkpointOnce h => h.wf
  | .checkpointInterval h n => h.wf && fits 4 n
  | .openWindow h w e => h.wf && fits 1 w && decide (e.length = 32)
  | .closeWindow h w => h.wf && fits 1 w
  | .windowCloseDone w => fits 1 w
  | .counterSnapshot h => h.wf
  | .testRequest h f d => h.wf && fits 1 f && fits 4 d
  | .updateStage h s b => h.wf && fits 8 s && fits 4 b
  | .updateActivate h c f => h.wf && fits 1 c && fits 1 f
  | .jobPause h n => h.wf && fits 4 n
  | .jobResume h f => h.wf && fits 8 f
  | .jobEnd h => h.wf
  | .release h f => h.wf && fits 1 f
  | .sqTailDoorbell r v _ => decide (r < 16) && fits 4 v
  | .cqHeadDoorbell r v => decide (r < 4) && fits 4 v
  | .fqHeadDoorbell v => fits 4 v
  | .ctrHeadDoorbell v => fits 4 v
  | .ringEnable r => r.wf
  | .ringDisable r => r.wf
  | .registerWrite _ off n v => decide (off < 0x4000000) && decide (n ≤ 4096) && fits (max 8 n) v
  | .rcRegisterRead off n => decide (off < 0x4000000) && decide (n ≤ 4096)
  | .mirrorAccess p pkt => isLane p && pkt.wf
  | .bar4Write off _ => decide (off < 2 ^ 36)
  | .bar4Read off _ => decide (off < 2 ^ 36)
  | .routeLoad => true
  | .timeSecondsRead => true
  | .timeSecondsWrite v => fits 8 v
  | .timeStep ns => fits 8 ns
  | .timeTrimWrite v => fits 8 v
  | .timeSourceWrite v => fits 8 v
  | .faultLastRead => true
  | .supvVoteSet m b => decide (m < 3) && fits 8 b
  | .supvVoteClr m b => decide (m < 3) && fits 8 b
  | .powerDomClear v => fits 8 v
  | .counterSelectWrite off v => decide (off < 0x4000000) && fits 8 v
  | .counterClear => true
  | .linkDisable n => isLane n
  | .linkRetrain n => isLane n
  | .linkCtrlWrite n v => isLane n && fits 8 v
  | .ethModeWrite n v => isEth n && fits 8 v
  | .attest _ => true
  | .challenge _ => true
  | .raiseFloor _ => true
  | .enrollOwner _ => true
  | .replaceOwner _ => true
  | .i3cDynamicAddress a => decide (a < 128)
  | .i3cPrivateWrite _ => true
  | .i3cPrivateRead _ => true
  | .i3cVoteSet b => fits 17 b
  | .i3cVoteClr b => fits 17 b
  | .i3cRailWrite k v => decide (k < 16) && fits 2 v
  | .frameTick => true
  | .strokeIssue => true
  | .strokeComplete l _ => isFolio l
  | .frameOverrun => true
  | .stackRefreshSlot len _ _ => decide (len ≤ 48)
  | .lpRefreshSlot len _ => decide (len ≤ 112)
  | .seamStart => true
  | .counterCapture => true
  | .faultCollection => true
  | .windowPhase => true
  | .ductusSwitch => true
  | .stepBoundary => true
  | .tagPhase => true
  | .frameAdvance => true
  | .product l _ => isFolio l
  | .productT l _ => isFolio l
  | .maskedOuter l _ => isFolio l
  | .probe l _ => isFolio l
  | .sparseTileLoad u => u.wf
  | .quillVector l _ => isFolio l
  | .prune l _ => isFolio l
  | .regrow l _ => isFolio l
  | .swap l _ => isFolio l
  | .maskSet l _ => isFolio l
  | .dispatch l _ _ => isFolio l
  | .tokenAdmit l _ _ => isFolio l
  | .countCellSend l _ e => isFolio l && decide (e < 1024)
  | .combine l _ => isFolio l
  | .copy src => src.wf
  | .gather src => src.wf
  | .scatter src => src.wf
  | .streamArm l _ => isFolio l
  | .moveComplete l t => isFolio l && decide (t < 16)
  | .landCellSend t => fits 2 t
  | .slotFillSend t => fits 2 t
  | .stencil l _ _ => isFolio l
  | .digest l _ _ => isFolio l
  | .optimiser l _ _ => isFolio l
  | .reduce l _ => isFolio l
  | .flitSlot n => isLane n
  | .flitReceive n k _ _ => isLane n && decide (k < 5)
  | .nakReceive n a => isLane n && decide (a < 4096)
  | .laneSilenceDown n => isLane n
  | .capabilityPageReceive n p => isLane n && decide (p.length = 64)
  | .laneTrainingDone n _ => isLane n
  | .laneTrainingTimeout n => isLane n
  | .laneQualityCheck n _ _ => isLane n
  | .laneWaitRestart n => isLane n
  | .packetForward n p => isLane n && p.wf
  | .broadcastReceive n p => isLane n && p.wf
  | .inboundWrite n p => isLane n && p.wf
  | .inboundRead n p => isLane n && p.wf
  | .inboundReduceWrite n p => isLane n && p.wf
  | .readResponseReceive n p => isLane n && p.wf
  | .responseOk n p => isLane n && p.wf
  | .responseBusy n p => isLane n && p.wf
  | .busyResend t a => fits 2 t && fits 6 a
  | .responseRefusal n p => isLane n && p.wf
  | .responseLateData n p => isLane n && p.wf
  | .windowCtrlQuery n p => isLane n && p.wf
  | .windowCtrlState n p => isLane n && p.wf
  | .mgmtMessageRefuse n p => isLane n && p.wf
  | .powerVote n p => isLane n && p.wf
  | .syncSend n => isLane n
  | .syncReceive n p _ _ => isLane n && decide (p.length = 32)
  | .delayReqReceive n p _ => isLane n && decide (p.length = 32)
  | .delayRespReceive n p => isLane n && decide (p.length = 32)
  | .timeExchangeMissed => true
  | .ptpMessageReceive n _ _ => isEth n
  | .ptpDelayReqSend n _ => isEth n
  | .ptpSyncMissed n => isEth n
  | .arpRequest n ip => isEth n && fits 4 ip
  | .ethDiscard n => isEth n
  | .ethLinkUp n _ _ => isEth n
  | .rollbackReqReceive src m => fits 3 src && m.wf
  | .rollbackReceive src m => fits 3 src && m.wf
  | .rollbackPauseReceive src m => fits 3 src && m.wf
  | .restoreComplete _ => true
  | .readyReceive src m => fits 3 src && m.wf
  | .restartFrame => true
  | .rollbackWaitTimeout => true
  | .skipReceive src m => fits 3 src && m.wf
  | .deviceLostReceive src m => fits 3 src && m.wf
  | .takeoverReceive src m => fits 3 src && m.wf
  | .ckptDoneSend _ => true
  | .ckptDoneReceive src m => fits 3 src && m.wf
  | .ckptCommitReceive src m => fits 3 src && m.wf
  | .colophonReceive src p => fits 3 src && decide (p.length = 64)
  | .clusterWatchdog n => isPhys n
  | .folioInternalFault n c => isPhys n && fits 1 c
  | .schedulerWatchdog _ => true
  | .powerWatchdog _ => true
  | .securityWatchdog => true
  | .handoffSeal p => decide (p.length ≤ 16256)
  | .handoffAccept => true
  | .handoffReject r => decide (1 ≤ r) && decide (r ≤ 4)
  | .handoffTimeout _ => true
  | .activationDeferRetest => true
  | .activationExpire => true
  | .testPeriodDue n => isPhys n
  | .testDeadlinePassed n => isPhys n
  | .testStart n => isPhys n
  | .testComplete _ => true
  | .vaultRetrain v => decide (v < 256)
  | .lpChannelRetrain c => decide (c < 32)
  | .wakeSlot => true
  | .wakeComplete d => isDom d
  | .holdRelease d => isDom d
  | .drainComplete d => isDom d
  | .drainTimeout d u => isDom d && isDom u
  | .entryRetry d => isDom d
  | .shutdownComplete d => isDom d
  | .powerUpdate _ _ => true
  | .powerCalibrate => true
  | .railTelemetryTimeout => true
  | .emergencyLevelClear l => decide (1 ≤ l) && decide (l ≤ 2)
  | .schedulerImageRestart => true
  | .powerImageReload => true
  | .codewordLock n _ _ => isLane n
  | .ethLinkDown n => isEth n

end Sys2Proof
end

