-- ==== Sys2Proof/Machine/Ops.lean ====
section
/-! DEFINITION. The named operations over tables, memory, Folios, domains, host memory and time that the meanings share. -/

namespace Sys2Proof.Machine

open Sys2Proof

/-! ### Tables -/

/-- The entry at `k`, or the default `d`. -/
def tget {α : Type} : Tbl α → Nat → α → α
  | [], _, d => d
  | (j, v) :: r, k, d => if j = k then v else tget r k d

/-- The table with `v` at `k`. -/
def tput {α : Type} : Tbl α → Nat → α → Tbl α
  | [], k, v => [(k, v)]
  | (j, w) :: r, k, v =>
    if k < j then (k, v) :: (j, w) :: r else if k = j then (k, v) :: r else (j, w) :: tput r k v

/-- The table without an entry at `k`. -/
def tdel {α : Type} : Tbl α → Nat → Tbl α
  | [], _ => []
  | (j, w) :: r, k => if j = k then tdel r k else (j, w) :: tdel r k

/-- The table that reads `v` at `k`, where an absent entry reads `d`: the canonical form is kept. -/
def tset {α : Type} [DecidableEq α] (t : Tbl α) (k : Nat) (d v : α) : Tbl α :=
  if v = d then tdel t k else tput t k v

/-! ### Bytes of memory -/

/-- The byte at `a`; a byte that nothing has written reads 0 (log 1). -/
def readByte (c : List Host.Cell) (a : Nat) : Byte := tget c a 0

/-- The bytes from `a`. -/
def readBytes (c : List Host.Cell) (a : Nat) : Nat → List Byte
  | 0 => []
  | n + 1 => readByte c a :: readBytes c (a + 1) n

/-- Memory with one byte written. -/
def writeByte (c : List Host.Cell) (a : Nat) (b : Byte) : List Host.Cell := tset c a 0 b

/-- Memory with bytes written from `a` upward. -/
def writeBytes (c : List Host.Cell) (a : Nat) : List Byte → List Host.Cell
  | [] => c
  | b :: bs => writeBytes (writeByte c a b) (a + 1) bs

/-- Memory with bytes written from `a` upward, but for the addresses that `skip` names; where `keep` holds, a byte is listed
whatever its value. -/
def writeBytesBut (skip keep : Nat → Bool) (c : List Host.Cell) (a : Nat) : List Byte → List Host.Cell
  | [] => c
  | b :: bs => writeBytesBut skip keep (if skip a then c else if keep a then tput c a b else writeByte c a b) (a + 1) bs

/-- The keys rise strictly. -/
def risingFrom : Nat → List Host.Cell → Bool
  | _, [] => true
  | k, (j, _) :: r => decide (k ≤ j) && risingFrom (j + 1) r

/-- The canonical form of a memory: strictly rising addresses, no byte that an unlisted address reads as. Where `keep` holds, an
unlisted address reads as a free value, and every byte written is listed. -/
def Memory.wf (keep : Nat → Bool) (c : List Host.Cell) : Bool :=
  risingFrom 0 c && c.all (fun x => decide (x.2 ≠ 0) || keep x.1)

/-- A list with an element put in, kept ascending and without repeats. -/
def insertNat (n : Nat) : List Nat → List Nat
  | [] => [n]
  | m :: r => if n < m then n :: m :: r else if n = m then m :: r else m :: insertNat n r

/-- A list without an element. -/
def eraseNat (n : Nat) (l : List Nat) : List Nat := l.filter (fun m => decide (m ≠ n))

/-! ### Domains and Folios -/

/-- Power domain `n`. -/
def dom (s : State) (n : Nat) : Domain := tget s.power.dom n (Domain.dflt n)

/-- The state with domain `n` replaced. -/
def setDom (s : State) (n : Nat) (d : Domain) : State :=
  { s with power.dom := tset s.power.dom n (Domain.dflt n) d }

/-- A domain that operates: ON, or DRAIN, which still operates (Table 13.2). -/
def domOn (s : State) (n : Nat) : Bool := (dom s n).state == 2 || (dom s n).state == 3

/-- Physical Folio `n`. -/
def folio (s : State) (n : Nat) : Folio := tget s.folios.phys n (Folio.dflt n)

/-- The state with physical Folio `n` replaced. -/
def setFolio (s : State) (n : Nat) (f : Folio) : State :=
  { s with folios.phys := tset s.folios.phys n (Folio.dflt n) f }

/-- The physical Folio that logical Folio `l` starts on: the first sixteen positions of its die (R17, R18, log 9). -/
def mapStart (l : Nat) : Nat := 17 * (l / 16) + l % 16

/-- The physical Folio of logical Folio `l` (R18). -/
def physOf (s : State) (l : Nat) : Option Nat :=
  if s.folios.unmapped.contains l then none else some (tget s.folios.map l (mapStart l))

/-- The logical Folio that physical Folio `n` carries. -/
def logicalOf (s : State) (n : Nat) : Option Nat := (List.range 64).find? (fun l => physOf s l == some n)

/-- Whether the bank of an aperture slot is on (R181 to R183, R191, R330). -/
def slotOn (s : State) (slot : Nat) : Bool :=
  let x := slot % 8192
  match physOf s (slot / 8192) with
  | none => false
  | some p =>
    domOn s p &&
    (if x < 4096 then (folio s p).fbOn.testBit (x / 64)
     else if x < 6144 then (folio s p).wellOn.testBit (((x - 4096) % 256) / 16) else false)

/-! ### The address map (Table 8.7) -/

/-- 80 GiB, one stack. -/
def stackBytes : Nat := 0x1400000000
/-- The first LPDDR6 address. -/
def lpBase : Nat := 0x10000000000
/-- The first aperture address. -/
def apBase : Nat := 0x40000000000
/-- The first address past the aperture. -/
def apEnd : Nat := 0x40080000000
/-- The register mirror. -/
def mirrorBase : Nat := 0x50000000000

/-- Usable LPDDR6 bytes: 31/32 of what is installed (R199). -/
def lpUsable (s : State) : Nat := s.mem.lpChannels * s.mem.lpGib * 2 ^ 30 * 31 / 32

/-- The region of an address: 0 stacks, 1 LPDDR6, 2 aperture, 3 register mirror, 4 none. -/
def regionOf (s : State) (a : Nat) : Nat :=
  if a < 8 * stackBytes then 0
  else if lpBase ≤ a && a < lpBase + lpUsable s then 1
  else if apBase ≤ a && a < apEnd then 2
  else if mirrorBase ≤ a && a < mirrorBase + 0x4000000 then 3 else 4

/-- A stack that is installed: its domain is ON (R330) and the job uses it (R197). -/
def stackIn (s : State) (k : Nat) : Bool := (dom s (72 + k)).state == 2 && s.glob.stackUse.testBit k

/-- All of LPDDR6 is installed only while every LPDDR6 group is ON (R330, R198). -/
def lpIn (s : State) : Bool :=
  !s.mem.lpMismatch && (List.range 4).all (fun g => (dom s (124 + g)).state == 2)

/-- Whether [a, a + n) is wholly installed memory of one region (R161, R191, R197, R201). -/
def installed (s : State) (a n : Nat) : Bool :=
  let e := a + n - 1
  if n = 0 then true
  else if regionOf s a ≠ regionOf s e then false
  else match regionOf s a with
    | 0 => (List.range 8).all (fun k => !(a / stackBytes ≤ k && k ≤ e / stackBytes) || stackIn s k)
    | 1 => lpIn s
    | 2 => (List.range (e / 4096 - a / 4096 + 1)).all (fun i => slotOn s ((a - apBase) / 4096 + i))
    | _ => false

/-- The address lies in stacked DRAM. -/
def inStacks (a n : Nat) : Bool := decide (a + n ≤ 8 * stackBytes)

/-- The home Nib of a stack address (R192). -/
def homeNib (a : Nat) : Nat :=
  let o := a % stackBytes
  32 * (a / stackBytes) + (o >>> 15) % 32

/-- The offset of a stack address within its vault (R192). -/
def vaultOffset (a : Nat) : Nat :=
  let o := a % stackBytes
  ((o >>> 20) <<< 15) + o % 0x8000

/-- The DETAIL of MEM_UNCORRECTABLE for a line (Table 8.5). -/
def lineDetail (s : State) (a : Nat) : Nat :=
  if a < 8 * stackBytes then
    let w := vaultOffset a
    let p := w / 2048
    let bank := p % 64
    homeNib a % 32 + (bank / 4) * 2 ^ 5 + (bank % 4) * 2 ^ 9 + (p / 64) * 2 ^ 11 + ((w % 2048) / 64) * 2 ^ 26
  else
    let u := a - lpBase
    let c := max 1 s.mem.lpChannels
    let o := (((u >>> 10) / c) <<< 10) + u % 1024
    let q := o >>> 12
    let nr := max 1 s.mem.lpRanks
    (u >>> 10) % c + ((q / 32) % nr) * 2 ^ 5 + (q % 32) * 2 ^ 6 + (q / (32 * nr)) * 2 ^ 11 + ((o >>> 6) % 64) * 2 ^ 31
      + 2 ^ 63

/-- The row that a stack line lies in, as (vault, bank × 2^16 + row) (R431). -/
def rowOf (a : Nat) : Nat × Nat :=
  let p := vaultOffset a / 2048
  (homeNib a, (p % 64) * 2 ^ 16 + p / 64)

/-! ### Device memory with its error lines -/

/-- The address lies in memory that lost its content so. -/
def Undef.has (u : Undef) (a : Nat) : Bool :=
  decide (u.lo ≤ a) && decide (a < u.hi) &&
  (match u.group with | some (c, g) => ((a - lpBase) >>> 10) % max 1 c / 8 == g | none => true)

/-- The address holds undefined content unless a byte of it is listed. -/
def isUndef (u : List Undef) (a : Nat) : Bool := u.any (fun x => x.has a)

/-- What an unlisted address of device memory reads as (log 1): 0, or a free value where the content is undefined. -/
def unlisted (u : List Undef) (a : Nat) : Byte :=
  match u.find? (fun x => x.has a) with
  | some x => Config.freeByte x.gen a
  | none => 0

/-- The byte of device memory at `a`. -/
def memByte (m : Mem) (a : Nat) : Byte := tget m.cells a (unlisted m.undef a)

/-- The bytes of device memory from `a`. -/
def memBytes (m : Mem) (a : Nat) : Nat → List Byte
  | 0 => []
  | n + 1 => memByte m a :: memBytes m (a + 1) n

/-- Bytes of device memory. -/
def peek (s : State) (a n : Nat) : List Byte := memBytes s.mem a n

/-- A little-endian field of device memory. -/
def peekN (s : State) (a n : Nat) : Nat := leNat (peek s a n)

/-- The first line of [a, a + n) that holds an uncorrectable error (R195). -/
def badLine (s : State) (a n : Nat) : Option Nat :=
  if n = 0 then none else s.mem.bad.find? (fun l => a / 64 ≤ l && l ≤ (a + n - 1) / 64)

/-- The lines that a write of `n` bytes at `a` does not cover whole and that hold an error: they stay unwritten (R195). -/
def failLines (s : State) (a n : Nat) : List Nat :=
  s.mem.bad.filter (fun l => (a / 64 ≤ l && l ≤ (a + n - 1) / 64 && decide (0 < n)) && !(a ≤ 64 * l && 64 * l + 64 ≤ a + n))

/-- A write to device memory: lines that fail stay as they are, and a write of a whole line ends its error (R194, R195). -/
def poke (s : State) (a : Nat) (bs : List Byte) : State :=
  let n := bs.length
  let fail := failLines s a n
  let whole := fun l => a ≤ 64 * l && 64 * l + 64 ≤ a + n
  { s with
    mem.cells := writeBytesBut (fun x => fail.contains (x / 64)) (isUndef s.mem.undef) s.mem.cells a bs
    mem.bad := s.mem.bad.filter (fun l => !whole l)
    mem.corr := s.mem.corr.filter (fun l => !whole l)
    mem.errs := s.mem.errs.filter (fun e => !whole e.1) }

/-- The whole of `v` lies in `u`. -/
def Undef.covers (u v : Undef) : Bool :=
  decide (u.lo ≤ v.lo) && decide (v.hi ≤ u.hi) && (u.group.isNone || u.group == v.group)

/-- Memory that loses its content: undefined until it is written again (R191, R328, R330). -/
def forget (s : State) (lo hi : Nat) (group : Option (Nat × Nat)) : State :=
  let u : Undef := { lo := lo, hi := hi, gen := s.free, group := group }
  { s with
    free := s.free + 1
    mem.cells := s.mem.cells.filter (fun x => !u.has x.1)
    mem.undef := u :: s.mem.undef.filter (fun v => !u.covers v) }

/-- The Folio window of logical Folio `l` loses its content (R182). -/
def forgetFolio (s : State) (l : Nat) : State := forget s (apBase + l * 0x2000000) (apBase + (l + 1) * 0x2000000) none

/-! ### Tags -/

/-- The slot is FULL. -/
def isFull (s : State) (slot : Nat) : Bool := s.mem.full.contains slot

/-- A slot set FULL. -/
def setFull (s : State) (slot : Nat) : State := { s with mem.full := insertNat slot s.mem.full }

/-- A slot set EMPTY. -/
def setEmpty (s : State) (slot : Nat) : State := { s with mem.full := eraseNat slot s.mem.full }

/-- The aperture slots that [a, a + n) touches (R183). -/
def slotsOf (a n : Nat) : List Nat :=
  if apBase ≤ a && a < apEnd && decide (0 < n) then
    (List.range ((a + n - 1) / 4096 - a / 4096 + 1)).map (fun i => (a - apBase) / 4096 + i)
  else []

/-! ### The ring host's memory (log 2) -/

/-- Bytes of the ring host's memory. -/
def hostPeek (s : State) (a n : Nat) : List Byte := readBytes s.hostMem a n

/-- A write to the ring host's memory. -/
def hostPoke (s : State) (a : Nat) (bs : List Byte) : State :=
  { s with hostMem := writeBytes s.hostMem a bs }

/-! ### Lanes, ports, rings, counters -/

/-- Lane `n`. -/
def lane (s : State) (n : Nat) : Lane := tget s.lanes n {}
/-- The state with lane `n` replaced. -/
def setLane (s : State) (n : Nat) (l : Lane) : State := { s with lanes := tset s.lanes n {} l }
/-- The link layer of lane `n`. -/
def link (s : State) (n : Nat) : LinkLayer := tget s.links n {}
/-- The state with the link layer of lane `n` replaced. -/
def setLink (s : State) (n : Nat) (l : LinkLayer) : State := { s with links := tset s.links n {} l }
/-- The port whose lowest lane is `n`. -/
def port (s : State) (n : Nat) : Port := tget s.ports n {}
/-- The state with port `n` replaced. -/
def setPort (s : State) (n : Nat) (p : Port) : State := { s with ports := tset s.ports n {} p }
/-- Submission ring `n`. -/
def sq (s : State) (n : Nat) : SubRing := tget s.rings.sq n {}
/-- The state with submission ring `n` replaced. -/
def setSq (s : State) (n : Nat) (r : SubRing) : State := { s with rings.sq := tset s.rings.sq n {} r }
/-- Completion ring `n`. -/
def cq (s : State) (n : Nat) : OutRing := tget s.rings.cq n {}
/-- The state with completion ring `n` replaced. -/
def setCq (s : State) (n : Nat) (r : OutRing) : State := { s with rings.cq := tset s.rings.cq n {} r }
/-- Window `n`. -/
def window (s : State) (n : Nat) : Window := tget s.fab.windows n {}
/-- The state with window `n` replaced. -/
def setWindow (s : State) (n : Nat) (w : Window) : State := { s with fab.windows := tset s.fab.windows n {} w }
/-- Ethernet port `n`. -/
def ethPort (s : State) (n : Nat) : Eth := tget s.eth n {}
/-- The state with Ethernet port `n` replaced. -/
def setEth (s : State) (n : Nat) (e : Eth) : State := { s with eth := tset s.eth n {} e }
/-- Counter `k` of the snapshot order. -/
def ctr (s : State) (k : Nat) : Counter := tget s.cnt.ctr k {}
/-- The state with counter `k` replaced. -/
def setCtr (s : State) (k : Nat) (c : Counter) : State := { s with cnt.ctr := tset s.cnt.ctr k {} c }
/-- Stream `t` of logical Folio `l`. -/
def stream (s : State) (l t : Nat) : Stream := tget s.streams (16 * l + t) {}
/-- The state with stream `t` of Folio `l` replaced. -/
def setStream (s : State) (l t : Nat) (x : Stream) : State := { s with streams := tset s.streams (16 * l + t) {} x }
/-- Expert `e`. -/
def expert (s : State) (e : Nat) : Expert := tget s.experts.count e {}
/-- The state with expert `e` replaced. -/
def setExpert (s : State) (e : Nat) (x : Expert) : State := { s with experts.count := tset s.experts.count e {} x }

/-! ### Time (R36) -/

/-- 2^-16 ns in a second. -/
def unitsPerSec : Nat := 1000000000 * 65536
/-- 2^-16 ns in a cycle of 1.25 ns. -/
def unitsPerCycle : Nat := 81920

/-- Seconds, nanoseconds and fraction of a time. -/
def timeSec (t : Nat) : Nat := t / unitsPerSec
/-- The nanoseconds of a time. -/
def timeNs (t : Nat) : Nat := t % unitsPerSec / 65536
/-- A time as the ten bytes of PTP form (R4, log 27): seconds, then nanoseconds. -/
def ptpBytes (t : Nat) : List Byte := leBytes 6 (timeSec t) ++ leBytes 4 (timeNs t)
/-- The time of ten bytes in PTP form. -/
def ptpTime (bs : List Byte) : Nat := rd bs 0 6 * unitsPerSec + rd bs 6 4 * 65536

/-- The epoch as a time. -/
def epoch (s : State) : Nat := s.time.epochSec * unitsPerSec + s.time.epochNs * 65536
/-- The frame period in time units. -/
def periodUnits (s : State) : Nat := s.time.period * 5 * 65536

/-- The frame number of time `t` (R36); 0 while no period is set. -/
def frameOf (s : State) (t : Nat) : Nat :=
  if s.time.period = 0 then 0
  else (((t : Int) - (epoch s : Int)) / (periodUnits s : Int) % (2 ^ 48 : Int)).toNat

/-- The current frame: the one that runs, or, while no frame of a job runs, that of the time (R36). -/
def currentFrame (s : State) : Nat := if s.frame.live then s.frame.number else frameOf s s.time.now

/-- The cycles from the frame tick of the current frame to now (Table 14.1). -/
def currentCycle (s : State) : Nat :=
  if s.frame.live then s.frame.cycle
  else if s.time.period = 0 then 0
  else (((s.time.now : Int) - epoch s) % (periodUnits s : Int)).toNat / unitsPerCycle

/-- The time advanced by `u` units. -/
def advance (s : State) (u : Nat) : State := { s with time.now := (s.time.now + u) % (2 ^ 48 * unitsPerSec) }

/-- `u` units of the reference pass: the time advances by them, adjusted by TIME_TRIM in 0.001 ppb, with the residue kept
(chapter 2). -/
def elapse (s : State) (u : Nat) : State :=
  let num : Nat := ((u : Int) * ((10 ^ 12 : Int) + s.time.trim)).toNat + s.time.res
  { advance s (num / 10 ^ 12) with time.res := num % 10 ^ 12 }

/-- The time of a seam at cycle `c` of Table 2.4, where it has not come yet (R49). -/
def seamTo (s : State) (c : Nat) : State :=
  let d := s.frame.seamAt + c - s.frame.cycle
  if s.frame.seam then { elapse s (d * unitsPerCycle) with frame.cycle := s.frame.cycle + d } else s

/-- The frame whose tick has come last: in the guard of a seam, after the number has advanced, the one before (R49, R273). -/
def tickedFrame (s : State) : Nat :=
  if s.frame.live && s.frame.seam && decide (7 ≤ s.frame.phase) then (s.frame.number + 2 ^ 48 - 1) % 2 ^ 48 else currentFrame s

/-! ### Device states (Table 11.7) -/

/-- A job exists: STARTING, RUNNING, PAUSED or ORPHANED (R34). -/
def jobExists (s : State) : Bool := 3 ≤ s.glob.jobState && s.glob.jobState ≤ 6

/-- The job's own state: the saved one while ORPHANED. -/
def jobPhase (s : State) : Nat := if s.glob.jobState = 6 then s.job.savedState else s.glob.jobState

/-- A core is between its switch to the new bank and ACCEPT or the revert (R324): what comes for it waits. -/
def coreSwitching (s : State) (c : Nat) : Bool := match s.act with | some a => a.stage == 4 && a.core == c | none => false

/-- The scheduler core does not serve what comes for it: it switches to a new image (R324), or its watchdog has stopped it (R304). -/
def schedAway (s : State) : Bool := coreSwitching s 2 || s.boot.schedDown

/-- The part executes commands: out of reset, its clocks run, and it is not in the fault state (R305, R345, R390). -/
def alive (s : State) : Bool := !s.pins.sysReset && !s.pins.clocksStopped && !s.glob.faultState

/-- A command outside `Instr.wf` faults; every other one takes effect. -/
def always (i : Instr) (t : State) : Host.Outcome State Fault Refusal :=
  if i.wf then .next t else .fault .noSuchUnit

/-- The same, for a command that only a part that is alive obeys; on any other it has no effect. -/
def whenAlive (i : Instr) (s t : State) : Host.Outcome State Fault Refusal :=
  if i.wf then .next (if alive s then t else s) else .fault .noSuchUnit

/-- One fresh free value (log 4). -/
def freshNat (s : State) : Nat × State := (Config.freeNat s.free, { s with free := s.free + 1 })

/-- `n` fresh free bytes (log 4). -/
def freshBytes : Nat → State → List Byte × State
  | 0, s => ([], s)
  | n + 1, s =>
    let r := freshNat s
    let q := freshBytes n r.2
    (BitVec.ofNat 8 r.1 :: q.1, q.2)

end Sys2Proof.Machine
end

