-- ==== Sys2Proof/Machine/Wire.lean ====
section
/-! DEFINITION. Ports, packets on the wire and the way out of the device (R241, R256, R262 to R264). -/

namespace Sys2Proof

/-! ### CRC-32C (Tables 10.2 and 10.4) -/

/-- One bit of the CRC, least significant bit first (polynomial 0x1EDC_6F41 reflected). -/
def crcBit (c : Nat) : Nat := if c % 2 = 1 then (c / 2) ^^^ 0x82F63B78 else c / 2

/-- Eight bits of the CRC. -/
def crcByte (c : Nat) (b : Byte) : Nat :=
  crcBit (crcBit (crcBit (crcBit (crcBit (crcBit (crcBit (crcBit (c ^^^ b.toNat))))))))

/-- The CRC-32C of some bytes. -/
def crc32c (bs : List Byte) : Nat := bs.foldl crcByte 0xFFFFFFFF ^^^ 0xFFFFFFFF

/-! ### Packets (Table 10.6) -/

/-- The 32 bytes of a packet header. -/
def Packet.header (p : Packet) : List Byte :=
  leBytes 1 p.typ ++ leBytes 1 p.flags ++ leBytes 1 p.cls ++ leBytes 1 p.status ++ leBytes 3 p.dst ++ leBytes 3 p.src ++
  leBytes 1 p.window ++ leBytes 1 p.elemFmt ++ leBytes 2 p.length ++ leBytes 2 p.tag ++ leBytes 6 p.addr ++
  leBytes 2 p.gen ++ leBytes 6 p.frame ++ leBytes 2 p.hops

/-- The bytes of a packet, padded with zero to whole granules (R256). -/
def Packet.bytes (p : Packet) : List Byte :=
  let b := p.header ++ p.payload
  b ++ List.replicate ((16 - b.length % 16) % 16) 0

/-- Payload bytes that follow the header: none for a READ request (Table 10.7) or a response without data. -/
def payloadBytes (typ flags length : Nat) : Nat :=
  if typ = 2 && flags % 2 = 0 then 0 else length % 2048

/-- The packet at the front of a byte stream, if it has arrived whole, and the rest of the stream. -/
def takePacket (bs : List Byte) : Option (Packet × List Byte) :=
  if bs.length < 32 then none
  else
    let n := payloadBytes (rd bs 0 1) (rd bs 1 1) (rd bs 12 2)
    let t := cdiv (32 + n) 16 * 16
    if bs.length < t then none
    else some
      ({ typ := rd bs 0 1, flags := rd bs 1 1, cls := rd bs 2 1, status := rd bs 3 1, dst := rd bs 4 3, src := rd bs 7 3,
         window := rd bs 10 1, elemFmt := rd bs 11 1, length := rd bs 12 2, tag := rd bs 14 2, addr := rd bs 16 6,
         gen := rd bs 22 2, frame := rd bs 24 6, hops := rd bs 30 2, payload := slice bs 32 n }, bs.drop t)

/-- FLAGS of Table 10.6. -/
def Packet.resp (p : Packet) : Bool := p.flags.testBit 0
/-- NEIGHBOUR. -/
def Packet.neighbour (p : Packet) : Bool := p.flags.testBit 1
/-- SLOT_FILL. -/
def Packet.slotFill (p : Packet) : Bool := p.flags.testBit 2
/-- LAST. -/
def Packet.last (p : Packet) : Bool := p.flags.testBit 3
/-- RESEND. -/
def Packet.resend (p : Packet) : Bool := p.flags.testBit 4

/-- The classes that a TYPE may use (Table 10.7). -/
def classOk (typ cls : Nat) : Bool :=
  if typ = 1 || typ = 2 || typ = 3 then cls = 0 || cls = 1 else if typ = 4 || typ = 5 || typ = 6 then cls = 2 else false

/-- The LENGTH that a request of a TYPE may give (Tables 10.6 and 10.7). -/
def lengthOk (typ length : Nat) : Bool :=
  if typ = 6 then 32 ≤ length && length ≤ 256 else if typ = 4 || typ = 5 then length == 32 else length ≤ 1024

/-- The ELEM_FMT of a request: that of a REDUCE_WRITE, and zero otherwise (Table 10.6). -/
def elemOk (typ fmt : Nat) : Bool := if typ = 3 then fmt == 8 || fmt == 0x0A else fmt == 0

/-- A header that the first device refuses with DESC_FORMAT (R257, Table 10.8). -/
def Packet.malformed (p : Packet) : Bool :=
  !(1 ≤ p.typ && p.typ ≤ 6) || !classOk p.typ p.cls || decide (p.length > 1024) ||
  (p.neighbour && p.typ ≤ 3) || p.flags ≥ 64 || p.flags.testBit 5 ||
  (!p.resp && ((p.typ = 5 && !p.neighbour) || p.status ≠ 0 || !lengthOk p.typ p.length || !elemOk p.typ p.elemFmt))

end Sys2Proof

namespace Sys2Proof.Machine

open Sys2Proof

/-! ### Ports (R241, R263) -/

/-- The lowest lane of the port that a lane belongs to. -/
def portOf (s : State) (n : Nat) : Nat := match (lane s n).base with | some b => b | none => n

/-- The lanes of a port, in ascending order. -/
def lanesOf (s : State) (p : Nat) : List Nat := (List.range 96).filter (fun n => portOf s n == p)

/-- A lane that carries flits of its port: UP, and rejoined (R254). -/
def laneUp (s : State) (n : Nat) : Bool := (lane s n).state == 3 && !(lane s n).rejoin

/-- A configured port that has at least one UP lane (R263). -/
def portUp (s : State) (p : Nat) : Bool := decide (p < 96) && portOf s p == p && (lanesOf s p).any (laneUp s)

/-- A port that takes new work: one that is UP, and whose link group is not in DRAIN (R335, log 68). -/
def portTakes (s : State) (p : Nat) : Bool := portUp s p && (dom s (112 + p / 8)).state != 3

/-- Where a packet for `dst` goes over the ports that `ok` names: `none` nowhere, `some none` the window checker, `some (some p)`
port p (R263). -/
def routeVia (ok : Nat → Bool) (s : State) (dst : Nat) : Option (Option Nat) :=
  if dst = s.glob.deviceId then some none
  else
    match s.fab.routes.find? (fun r => r.flags.testBit 0 && (dst &&& r.mask) == (r.value &&& r.mask)) with
    | none => none
    | some r =>
      if r.flags.testBit 1 then some none
      else if ok r.port then some (some r.port)
      else if ok r.alt then some (some r.alt) else none

/-- Where a packet for `dst` goes over the ports that are UP (R263). -/
def routeOf (s : State) (dst : Nat) : Option (Option Nat) := routeVia (portUp s) s dst

/-- Where a packet goes: a request is new work, a response completes work (R335). -/
def routeFor (s : State) (pkt : Packet) : Option (Option Nat) := routeVia (if pkt.resp then portUp s else portTakes s) s pkt.dst

/-- The broadcast ports that are UP and take new work (R264, R335). -/
def bcastPorts (s : State) : List Nat :=
  (List.range 96).filter (fun k =>
    portTakes s k && (if k < 64 then s.glob.bcast0.testBit k else s.glob.bcast1.testBit (k - 64)))

/-- A packet put into the queue of a port for requester `req`. -/
def enqueue (s : State) (p req : Nat) (pkt : Packet) : State :=
  let q := port s p
  setPort s p { q with queue := q.queue ++ [⟨req, pkt.cls, pkt.bytes⟩] }

/-- A packet on its way out of this device: to the port that its route names, to this device's own checker, or nowhere
(R262, R263). The answer says whether it found a way. -/
def sendPacket (s : State) (req : Nat) (pkt : Packet) : State × Bool :=
  if s.glob.deviceId = 0xFFFFFF then (s, false)
  else if pkt.dst = 0xFFFFFF then ((bcastPorts s).foldl (fun t p => enqueue t p req pkt) s, true)
  else match routeFor s pkt with
    | none => (s, false)
    | some none => ({ s with fab.selfBox := s.fab.selfBox ++ [pkt] }, true)
    | some (some p) => (enqueue s p req pkt, true)

/-- A NEIGHBOUR packet on a port (R257). -/
def sendNeighbour (s : State) (p : Nat) (pkt : Packet) : State :=
  if portUp s p then enqueue s p 1 { pkt with flags := pkt.flags ||| 2 } else s

/-- The response to a packet (R258): the request's TYPE and CLASS with RESP, `status`, and `data` for a READ. -/
def response (s : State) (p : Packet) (status : Nat) (data : List Byte) : Packet :=
  { p with
    flags := (p.flags &&& 0x1A) ||| 1, status := status, dst := p.src, src := s.glob.deviceId,
    length := data.length, hops := 0, payload := data }

/-- The TAG of a MGMT packet: the place of the destination in the job's device list and spare list, so that an answer that names no
destination tells which message it answers (R237, R258; log 47). -/
def mgmtTag (s : State) (dst : Nat) : Nat := (s.job.blk.devices ++ s.job.blk.spares).idxOf dst % 65536

/-- A MGMT packet of this device with `payload`, from the scheduler core (R232, R355). Where the device's own router finds no port for
it, the device that discards it is this one, and its LINK_DOWN answer comes back to it (R254, R258, R263). -/
def sendMgmt (s : State) (dst : Nat) (payload : List Byte) : State :=
  let pkt : Packet :=
    { typ := 6, flags := 8, cls := 2, status := 0, dst := dst, src := s.glob.deviceId, window := 0,
      elemFmt := 0, length := payload.length, tag := mgmtTag s dst, addr := 0, gen := 0, frame := currentFrame s, hops := 0,
      payload := payload }
  let r := sendPacket s 1 pkt
  if r.2 || s.glob.deviceId = 0xFFFFFF then r.1
  else { r.1 with fab.selfBox := r.1.fab.selfBox ++ [response r.1 pkt 0x0C []] }

end Sys2Proof.Machine
end

