-- ==== Sys2Proof/Machine/Flags.lean ====
section
/-! DEFINITION. Status and reporting: counter events (chapter 15), interrupts and records in the rings (R279, R286, R290),
fault records (R348 to R351), and the job state (R291). -/

namespace Sys2Proof.Machine

open Sys2Proof

/-! ### Counters -/

/-- A counter that adds `n` (R365). -/
def Counter.add (c : Counter) (n : Nat) : Counter :=
  { c with val := (c.val + n) % 2 ^ 48, wrapped := c.wrapped || decide (2 ^ 48 ≤ c.val + n) }

/-- Every counter with index in [lo, hi) adds what `f` gives for it. -/
def countIn (s : State) (lo hi : Nat) (f : Counter → Nat) : State :=
  { s with cnt.ctr := s.cnt.ctr.map (fun x =>
      if lo ≤ x.1 && decide (x.1 < hi) then (x.1, x.2.add (f x.2)) else x) }

/-- What an edge or level selector adds for a signal with `occ` occurrences and `cyc` asserted cycles (R367). -/
def signalAdd (code occ cyc : Nat) (c : Counter) : Nat :=
  if c.sel % 256 = code then (if fld c.sel 8 2 = 1 then occ else if fld c.sel 8 2 = 2 then cyc else 0) else 0

/-- A device-wide event. -/
def devSignal (s : State) (code occ cyc : Nat) : State := countIn s 0 32 (signalAdd code occ cyc)
/-- `n` occurrences of a device-wide event, each in a cycle of its own. -/
def devEvent (s : State) (code n : Nat) : State := devSignal s code n n
/-- An event of a lane, or of a port by its lowest lane. -/
def laneSignal (s : State) (n code occ cyc : Nat) : State :=
  countIn s (7520 + 16 * n) (7520 + 16 * n + 16) (signalAdd code occ cyc)
/-- An event of a stack. -/
def stackEvent (s : State) (k code n : Nat) : State :=
  countIn s (9056 + 16 * k) (9056 + 16 * k + 16) (signalAdd code n n)
/-- An event of an LPDDR6 channel. -/
def lpEvent (s : State) (k code n : Nat) : State :=
  countIn s (9184 + 8 * k) (9184 + 8 * k + 8) (signalAdd code n n)

/-- The answer to a packet (R258): back on the port for NEIGHBOUR, and from a device without an id, which routes nothing (R262); else
routed. One that finds no way is lost and counted. Responses are never answered. -/
def respond (s : State) (p : Nat) (pkt : Packet) (status : Nat) (data : List Byte) : State :=
  if pkt.resp then devEvent s 0x59 1
  else
    let r := response s pkt status data
    if pkt.neighbour || s.glob.deviceId = 0xFFFFFF then (if portUp s p then enqueue s p 1 r else devEvent s 0x59 1)
    else
      let t := sendPacket s 1 r
      if t.2 then t.1 else devEvent t.1 0x59 1

/-- What waits to leave a port, the packet that it has sent in part first. -/
def Port.waiting (q : Port) : List Waiting := (if q.cur = [] then [] else [⟨q.curReq, q.curCls, q.curAll⟩]) ++ q.queue

/-- The packets that wait for a port that is down are discarded and answered with LINK_DOWN (R254, R258). -/
def flushDown (s : State) (p : Nat) : State :=
  if portUp s p then s
  else
    let q := port s p
    (q.waiting.filterMap (fun w => takePacket w.bytes)).foldl (fun t x => respond t p x.1 0x0C [])
      (setPort s p { q with queue := [], cur := [], curAll := [], arrived := [], stream := [], opened := [] })

/-- Where a filtered event comes from (R366): PRIV bit, MASTER bit, stroke CLASS, address. -/
structure Origin where
  priv : Nat := 0
  master : Nat := 0
  cls : Option Nat := none
  addr : Option Nat := none
deriving DecidableEq, Repr

/-- Whether an address lies in a range of the block. -/
def CtrRange.holds (r : CtrRange) (a : Nat) : Bool := decide (r.lo ≤ a) && decide (a < r.hi)

/-- The filters of R366. -/
def passes (r0 r1 : CtrRange) (o : Origin) (c : Counter) : Bool :=
  (fld c.sel 8 4 == 0 || (fld c.sel 8 4).testBit o.priv) &&
  (fld c.sel 16 8 == 0 || (fld c.sel 16 8).testBit o.master) &&
  (fld c.sel 24 8 == 0 || (match o.cls with | some k => (fld c.sel 24 8).testBit (k - 1) | none => false)) &&
  (match fld c.sel 32 2, o.addr with
    | 0, _ => true
    | _, none => false
    | 1, some a => r0.holds a
    | 2, some a => r1.holds a
    | _, some a => !r0.holds a)

/-- Range `j` of block `b`: a Folio 0 to 67, or stack k as 68 + k. -/
def ctrRange (s : State) (b j : Nat) : CtrRange := tget s.cnt.range (2 * b + j) {}

/-- A filtered event in the counters [lo, hi) of block `b`. -/
def filtered (s : State) (b lo hi code n : Nat) (o : Origin) : State :=
  countIn s lo hi (fun c =>
    if c.sel % 256 = code && passes (ctrRange s b 0) (ctrRange s b 1) o c then n else 0)

/-- An event of Quill `q` of physical Folio `p`. -/
def quillEvent (s : State) (p q code n : Nat) (o : Origin) : State :=
  filtered s p (32 + 64 * p + 8 * q) (32 + 64 * p + 8 * q + 8) code n o
/-- An event of physical Folio `p`. -/
def folioEvent (s : State) (p code n : Nat) (o : Origin) : State :=
  filtered s p (4384 + 16 * p) (4384 + 16 * p + 16) code n o
/-- An event of Nib `k`. -/
def nibEvent (s : State) (k code n : Nat) (o : Origin) : State :=
  filtered s (68 + k / 32) (5472 + 8 * k) (5472 + 8 * k + 8) code n o

/-! ### Tags in the stroke region (R187): clear before set, in one cycle -/

/-- The tag logic on behalf of a stroke of a class, or of a packet that has landed (Table 15.3). -/
def tagOrigin (cls : Option Nat) : Origin := { priv := if cls.isSome then 0 else 3, master := 5, cls := cls }

/-- TAG_COLLIDE on the Folio that a slot lies in. -/
def tagCollide (s : State) (slot : Nat) (o : Origin) : State :=
  match physOf s (slot / 8192) with
  | some p => folioEvent s p 0x0F 1 o
  | none => s

/-- A slot set FULL on behalf of `o`. One that has been cleared in the same cycle counts TAG_COLLIDE, once. -/
def setTag (o : Origin) (s : State) (slot : Nat) : State :=
  if !s.frame.region then setFull s slot
  else
    let t := { setFull s slot with frame.setNow := insertNat slot s.frame.setNow }
    if s.frame.clearedNow.contains slot && !s.frame.setNow.contains slot then tagCollide t slot o else t

/-- A slot set EMPTY on behalf of `o`. One that has been set in the same cycle ends FULL and counts TAG_COLLIDE, once. -/
def clearTag (o : Origin) (s : State) (slot : Nat) : State :=
  if !s.frame.region then setEmpty s slot
  else
    let t := { s with frame.clearedNow := insertNat slot s.frame.clearedNow }
    if !s.frame.setNow.contains slot then setEmpty t slot
    else if s.frame.clearedNow.contains slot then t else tagCollide t slot o

/-- A variable event that begins in a cycle of the stroke region stalls that cycle: no stroke advances in it any more (R43). -/
def stallNow (s : State) (on : Bool) : State := { s with frame.blocked := s.frame.blocked || (s.frame.region && on) }

/-! ### The ring host -/

/-- A tag for a new transfer. -/
def newTag (s : State) : Nat × State := (s.fab.nextTag, { s with fab.nextTag := (s.fab.nextTag + 1) % 65536 })

/-- A BULK WRITE packet to a peer that hosts the rings (R299). -/
def hostPacket (s : State) (tag a : Nat) (pay : List Byte) : Packet :=
  { typ := 1, flags := 8, cls := 1, status := 0, dst := s.rings.hostDevice, src := s.glob.deviceId,
    window := s.rings.hostWindow, elemFmt := 0, length := pay.length, tag := tag, addr := a, gen := 0,
    frame := currentFrame s, hops := 0, payload := pay }

/-- Data cut into the payloads of its packets: each with its offset. -/
def payloads (bs : List Byte) : List (Nat × List Byte) :=
  (List.range (cdiv bs.length 1024)).map (fun i => (1024 * i, (bs.drop (1024 * i)).take 1024))

/-- The ring host takes writes: a peer, or the PCIe host over a link that is up while Bus Master Enable is set (R278, R295). -/
def hostReady (s : State) : Bool := s.rings.host != 0 || (s.pcie.up && s.pcie.busMaster)

/-- Data other than a record written to the ring host (R299, R315). -/
def hostSend (s : State) (a : Nat) (bs : List Byte) : State :=
  if s.rings.host = 1 then
    (payloads bs).foldl (fun u x => (sendPacket u 1 (hostPacket s 0 (a + x.1) x.2)).1) (hostPoke s a bs)
  else if hostReady s then hostPoke s a bs else s

/-- MSI-X entry `v`. -/
def msixEntry (s : State) (v : Nat) : MsixEntry := tget s.pcie.msix v {}

/-- Vector `v` raised: an MSI-X message, or its pending bit while the entry is masked (R279, R422); a notification write
to a peer that hosts the rings (R299). Without a link, Bus Master Enable or MSI-X Enable no message leaves (log 58). -/
def raiseVector (s : State) (v : Nat) : State :=
  if s.rings.host = 1 then hostSend s s.rings.notifyAddr (leBytes 4 v)
  else if !hostReady s || !s.pcie.msixEn then s
  else if (msixEntry s v).ctrl.testBit 0 then { s with pcie.pba := s.pcie.pba ||| 2 ^ v }
  else { s with out.msix := s.out.msix ++ [v] }

/-- One packet of record `no` for a peer, kept until the peer has answered it; with no way out it has failed (R299). The packet of a
header `waits` until its body stands (R373). -/
def sendRecord (ring no : Nat) (waits : Bool) (s : State) (x : Nat × List Byte) : State :=
  let g := newTag s
  let pkt := hostPacket s g.1 x.1 x.2
  let r := if waits then (g.2, true) else sendPacket g.2 1 pkt
  { r.1 with
    rings.writes := r.1.rings.writes ++ [{ ring := ring, recNo := no, pkt := pkt, failed := !r.2, waits := waits }] }

/-- A record of `ring` written to the ring host: its `body`, if it has one, then `head` at `a`, then the notice of vector `vec` (R279,
R373). A peer that hosts the rings takes each in BULK WRITE packets as it answers them OK (R299). -/
def hostRecord (s : State) (ring : Nat) (body : List (Nat × List Byte)) (a : Nat) (head : List Byte) (vec : Option Nat) : State :=
  if s.rings.host = 1 then
    let no := s.rings.recNo
    let cut := fun (b : Nat × List Byte) => (payloads b.2).map (fun x => (b.1 + x.1, x.2))
    let t := (body.flatMap cut).foldl (sendRecord ring no false) s
    let t := (cut (a, head)).foldl (sendRecord ring no (!body.isEmpty)) t
    { t with rings.recNo := no + 1, rings.notices := t.rings.notices ++ (vec.map (fun v => (no, v))).toList }
  else
    let t := hostPoke (body.foldl (fun u b => hostPoke u b.1 b.2) s) a head
    match vec with | some v => raiseVector t v | none => t

/-- The record write that a response of the ring host answers (R299). -/
def isWrite (s : State) (pkt : Packet) (x : RecWrite) : Bool :=
  pkt.typ == 1 && pkt.src == s.rings.hostDevice && x.pkt.tag == pkt.tag && x.pkt.addr == pkt.addr && !x.waits

/-- A record write sent, again or for the first time. -/
def sendWrite (s : State) (x : RecWrite) : State :=
  let pkt := { x.pkt with frame := tickedFrame s }
  let r := sendPacket s 1 pkt
  { r.1 with rings.writes := r.1.rings.writes ++ [{ x with pkt := pkt, failed := !r.2, waits := false }] }

/-- A part of record `no` stands at the ring host: its header leaves once its body stands, and its notice once the whole record
does (R279, R299, R373). -/
def settleRecord (s : State) (no : Nat) : State :=
  let mine := s.rings.writes.filter (fun y => y.recNo == no)
  if mine.isEmpty then
    (s.rings.notices.filter (fun n => n.1 == no)).foldl (fun t n => raiseVector t n.2)
      { s with rings.notices := s.rings.notices.filter (fun n => n.1 != no) }
  else if mine.all (fun y => y.waits) then
    mine.foldl sendWrite { s with rings.writes := s.rings.writes.filter (fun y => y.recNo != no) }
  else s

/-- A response to a record write: with OK the bytes stand in the ring; with any other they stay queued (R299). -/
def answerWrite (s : State) (pkt : Packet) : State :=
  match s.rings.writes.find? (isWrite s pkt) with
  | none => s
  | some x =>
    if pkt.status = 0 then
      settleRecord { hostPoke s x.pkt.addr x.pkt.payload with rings.writes := s.rings.writes.erase x } x.recNo
    else { s with rings.writes := s.rings.writes.map (fun y => if isWrite s pkt y then { y with failed := true } else y) }

/-- The session ends without RELEASE or has ended: nothing is written again for it (R299). -/
def sessionOpen (s : State) : Bool := s.job.session != 0 && s.glob.jobState != 6

/-- The record writes that failed, tried once in each frame (R299). With the end of the session they are given up, with what waits
for them. -/
def retryWrites (s : State) : State :=
  let due := s.rings.writes.filter (fun x => x.failed)
  if sessionOpen s then
    due.foldl sendWrite { s with rings.writes := s.rings.writes.filter (fun x => !x.failed) }
  else if s.job.session = 0 then
    let keep := fun (no : Nat) => !due.any (fun x => x.recNo == no)
    { s with
      rings.writes := s.rings.writes.filter (fun x => !x.failed && (!x.waits || keep x.recNo))
      rings.notices := s.rings.notices.filter (fun n => keep n.1) }
  else s

/-- Records that wait for completion ring `r`: those queued, and those whose write to the peer failed (R286, R299). -/
def queuedFor (s : State) (r : Nat) : Nat :=
  (cq s r).queue.length + (s.rings.writes.filter (fun x => x.failed && x.ring == r)).length

/-- Entries of a ring of this size field. -/
def entries (size : Nat) : Nat := 2 ^ size

/-- The ring has room for a record. -/
def OutRing.room (r : OutRing) : Bool := r.en && decide ((r.tail + 1) % entries r.size ≠ r.head)

/-- A record can be written to the ring now (R278, R286, R295). -/
def canWrite (s : State) (r : OutRing) : Bool := hostReady s && r.room

/-- The ring after a record has gone in (R282, R283). -/
def OutRing.pushed (r : OutRing) : OutRing :=
  if r.tail + 1 = entries r.size then { r with tail := 0, phase := 1 - r.phase } else { r with tail := r.tail + 1 }

/-- The byte at `i` of a record with bit `k` set to the phase. -/
def withPhase (bs : List Byte) (i k phase : Nat) : List Byte :=
  bs.set i (BitVec.ofNat 8 ((rd bs i 1) ||| (phase * 2 ^ k)))

/-- A count saturating at 32 bits. -/
def sat32 (v : Nat) : Nat := satN 0xFFFFFFFF v

/-- SQ_HEAD of a completion record is the head when the record is written (Table 11.6). -/
def withSqHead (s : State) (bs : List Byte) : List Byte :=
  if rd bs 0 1 = 1 then bs.take 8 ++ leBytes 4 (sq s (rd bs 3 1)).head ++ bs.drop 12 else bs

/-- A completion record written to ring `r` now, with its vector if asked. -/
def writeCq (s : State) (r : Nat) (bs : List Byte) (irq : Bool) : State :=
  let q := cq s r
  let b := withPhase (withSqHead s bs) 2 0 q.phase
  hostRecord (setCq s r q.pushed) r [] (q.base + 32 * q.tail) b (if irq then some r else none)

/-- A completion record for ring `r`: written, or queued while the ring is full, or lost when 64 wait and it is no reply
(R286). -/
def pushCq (s : State) (r : Nat) (bs : List Byte) (irq reply : Bool) : State :=
  let q := cq s r
  if canWrite s q && q.queue.isEmpty then writeCq s r bs irq
  else if queuedFor s r < 64 || reply then setCq s r { q with queue := q.queue ++ [(bs, irq)] }
  else raiseVector (setCq s r { q with lost := sat32 (q.lost + 1) }) 6

/-- The 32 bytes of a completion record (Table 11.6). -/
def cqBytes (s : State) (typ status sqn tag data : Nat) : List Byte :=
  leBytes 1 typ ++ leBytes 1 status ++ leBytes 1 0 ++ leBytes 1 sqn ++ leBytes 4 tag ++ leBytes 4 0 ++
  leBytes 4 (if jobExists s then s.job.step else 0) ++ leBytes 8 (tickedFrame s) ++ leBytes 8 data

/-- The completion of a descriptor: one record in the ring that its CQ names (R290); ring 0 where CQ names none. -/
def complete (s : State) (h : Hdr) (status data : Nat) : State :=
  pushCq s (if h.cq < 4 then h.cq else 0) (cqBytes s 1 status h.sq h.tag data) (h.flags.testBit 0) true

/-- A record of another type, in completion ring 0 (R290). -/
def postRecord (s : State) (typ data : Nat) (irq : Bool) : State :=
  pushCq s 0 (cqBytes s typ 0 0xFF 0 data) irq false

/-- A change of GLOBAL_JOB_STATE posts a JOB_STATE record and raises vector 0 (R290, R291). -/
def setJobState (s : State) (new : Nat) : State :=
  if new = s.glob.jobState then s
  else postRecord { s with glob.jobState := new } 2 (new + 256 * s.glob.jobState) true

/-! ### Fault records -/

/-- The 64 bytes of a fault record (Table 14.1), but for PHASE and MORE. -/
def FaultRec.bytes (r : FaultRec) : List Byte :=
  leBytes 1 r.code ++ leBytes 1 (r.sev + (if r.cause then 64 else 0)) ++ leBytes 6 r.frame ++ leBytes 3 r.device ++
  leBytes 1 r.die ++ leBytes 1 r.folio ++ leBytes 1 r.quill ++ leBytes 1 r.nib ++ leBytes 1 r.valid ++
  leBytes 2 r.ductus ++ leBytes 4 r.stroke ++ leBytes 2 0 ++ leBytes 8 r.addr ++ leBytes 8 r.detail ++
  leBytes 4 r.cycle ++ leBytes 4 r.seq ++ leBytes 16 0

/-- A record written to the fault ring, with vector 4; lost when the ring has no room, with vector 6 (R286, R351). -/
def putFault (s : State) (r : FaultRec) (more : Bool) : State :=
  let q := s.rings.fq
  if canWrite s q then
    let b := withPhase r.bytes 1 4 q.phase
    let b' := if more then b.set 1 (BitVec.ofNat 8 (rd b 1 1 ||| 32)) else b
    hostRecord { s with rings.fq := q.pushed } 4 [] (q.base + 64 * q.tail) b' (some 4)
  else raiseVector { s with rings.fq := { q with lost := sat32 (q.lost + 1) } } 6

/-- A record with the fields that every record takes (R348, R351). Its frame is the one whose tick has come, from which CYCLE counts,
and ADDRESS is local to the device that holds the memory. -/
def stamp (s : State) (r : FaultRec) : FaultRec :=
  let job := jobExists s
  { r with
    frame := if job then tickedFrame s else 0
    addr := r.addr % 2 ^ 48
    device := s.glob.deviceId
    ductus := if r.valid.testBit 4 then (match s.frame.current with | some d => d | none => 0) else 0
    cycle := if job then currentCycle s else 0
    valid := (r.valid &&& 0x3E) ||| (if job then 1 else 0)
    seq := s.flt.seq }

/-- A fault record raised (R351): it waits for the fault collection when raised in a stroke region, for the next one when
raised in a seam, and is written at once otherwise. -/
def raiseFault (s : State) (r : FaultRec) : State :=
  let x := stamp s r
  let t := { s with flt.seq := (s.flt.seq + 1) % 2 ^ 32, flt.last := x.bytes }
  if s.frame.region then { t with flt.region := t.flt.region ++ [x] }
  else if s.frame.seam && s.frame.live then { t with flt.inSeam := t.flt.inSeam ++ [x] }
  else putFault t x false

/-- The place of a record with CAUSE (R86, R106): PLAUSIBILITY, NONFINITE, the sparse checks by Folio, Quill and Nib, the others. -/
def FaultRec.rank (r : FaultRec) : Nat :=
  if r.code = 0x0D then 0 else if r.code = 0x0E then 1
  else if r.code = 3 || r.code = 4 then 2 + (r.folio * 256 + r.quill) * 256 + r.nib else 2 ^ 32

/-- The order of R351 between two records: CAUSE first, by R86 and R106 and as raised, then source, cycle, unit. -/
def FaultRec.before (a b : FaultRec) : Bool :=
  if a.cause && b.cause then decide (a.rank < b.rank) || (a.rank == b.rank && decide (a.seq ≤ b.seq))
  else if a.cause then true
  else if b.cause then false
  else if a.src ≠ b.src then decide (a.src < b.src)
  else if a.cycle ≠ b.cycle then decide (a.cycle < b.cycle)
  else if a.key ≠ b.key then decide (a.key < b.key) else decide (a.seq ≤ b.seq)

/-- A record put into an ordered list. -/
def insertRec (r : FaultRec) : List FaultRec → List FaultRec
  | [] => [r]
  | x :: xs => if r.before x then r :: x :: xs else x :: insertRec r xs

/-- Records in the order of R351. -/
def sortRecs (l : List FaultRec) : List FaultRec := l.foldl (fun acc r => insertRec r acc) []

/-- The waiting records written in the order of R351: at most 64, the rest suppressed and counted, MORE in the 64th. Those
raised in the seam wait on: they join the records of the next region at its tick. -/
def collectFaults (s : State) : State :=
  let l := sortRecs s.flt.region
  let extra := l.length - 64
  let t := { s with flt.region := [], flt.suppressed := sat32 (s.flt.suppressed + extra) }
  ((l.take 64).zipIdx).foldl (fun u x => putFault u x.1 (decide (0 < extra) && x.2 == 63)) t

/-- Records that have no seam to be written in, written at the stop of the frames (R351). -/
def flushFaults (s : State) : State :=
  let l := sortRecs s.flt.region ++ s.flt.inSeam
  l.foldl (fun u r => putFault u r false) { s with flt.region := [], flt.inSeam := [] }

/-- The record of an uncorrectable line (R195). -/
def lineFault (s : State) (l : Nat) (sev : Nat) (cause : Bool) : FaultRec :=
  let a := 64 * l
  if a < 8 * stackBytes then
    { code := 0x0B, sev := sev, cause := cause, die := 8 + a / stackBytes, nib := homeNib a, valid := 0x28, addr := a,
      detail := lineDetail s a, src := 3, key := homeNib a }
  else
    let ch := lineDetail s a % 32
    { code := 0x0B, sev := sev, cause := cause, die := if ch < 16 then 4 else 5, valid := 0x20, addr := a,
      detail := lineDetail s a, src := 4, key := ch }

/-- MEM_CORRECTED where the line lies. -/
def countCorrected (s : State) (a : Nat) : State :=
  if a < 8 * stackBytes then stackEvent s (a / stackBytes) 0x60 1
  else if regionOf s a = 1 then lpEvent s (lineDetail s a % 32) 0x60 1 else s

/-- A read of a line with a correctable error: corrected data, written back, counted; the fourth correction of a line in a
job puts its row on the repair list (R194, R199). -/
def correctLine (s : State) (l : Nat) : State :=
  let a := 64 * l
  let n := tget s.mem.corrCount l 0 + 1
  let t := countCorrected { s with
    mem.corr := eraseNat l s.mem.corr, mem.errs := s.mem.errs.filter (fun e => e.1 ≠ l)
    mem.corrCount := tput s.mem.corrCount l n } a
  if n = 4 && decide (a < 8 * stackBytes) && jobExists s then
    { t with mem.repairList := t.mem.repairList ++ [rowOf a] }
  else t

/-- [a, e] cut at the multiples of `m`: the lines of each part go to `f` with the part's first address. -/
def perPart (m a e : Nat) (f : State → Nat → Nat → State) (s : State) : State :=
  (List.range (e / m - a / m + 1)).foldl (fun t i =>
    let lo := max a ((a / m + i) * m)
    let hi := min e ((a / m + i) * m + m - 1)
    f t lo (hi / 64 - lo / 64 + 1)) s

/-- The lines of a range counted under `code` (0x62 read, 0x63 written), each by its own stack or channel: the channels take 1 KiB in
turn (R199). -/
def countLines (s : State) (a n code : Nat) : State :=
  if n = 0 then s
  else if a < 8 * stackBytes then
    perPart stackBytes a (min (a + n) (8 * stackBytes) - 1) (fun t lo k => stackEvent t (lo / stackBytes) code k) s
  else if regionOf s a = 1 then perPart 1024 a (a + n - 1) (fun t lo k => lpEvent t (lineDetail s lo % 32) code k) s else s

/-- What a read of [a, a + n) does to memory: correctable lines are corrected (R194). -/
def noteRead (s : State) (a n : Nat) : State :=
  (s.mem.corr.filter (fun l => a / 64 ≤ l && l ≤ (a + n - 1) / 64 && decide (0 < n))).foldl correctLine
    (countLines s a n 0x62)

/-- The lines that [a, a + n) covers in part. -/
def partLine (a n l : Nat) : Bool :=
  decide (0 < n) && decide (a / 64 ≤ l) && decide (l ≤ (a + n - 1) / 64) && !(decide (a ≤ 64 * l) && decide (64 * l + 64 ≤ a + n))

/-- A write with its line counts. A line that it covers in part is read first, and a correctable error of it corrected (R194). -/
def store (s : State) (a : Nat) (bs : List Byte) : State :=
  poke ((s.mem.corr.filter (partLine a bs.length)).foldl correctLine (countLines s a bs.length 0x63)) a bs

/-! ### Counter selections (R368, R369, R415) -/

/-- The kind of block that counter `k` lies in: 0 device, 1 Quill, 2 Folio, 3 Nib, 4 lane, 5 stack, 6 LPDDR6 channel. -/
def ctrKind (k : Nat) : Nat :=
  if k < 32 then 0 else if k < 4384 then 1 else if k < 5472 then 2 else if k < 7520 then 3
  else if k < 9056 then 4 else if k < 9184 then 5 else 6

/-- The codes that Table 15.2 lists for each kind of block. -/
def codeListed (kind c : Nat) : Bool :=
  match kind with
  | 0 => (0x40 ≤ c && c ≤ 0x5B) || c == 0x5F
  | 1 => (1 ≤ c && c ≤ 0x0E)
  | 2 => c == 3 || c == 4 || c == 0x0E || (0x0F ≤ c && c ≤ 0x16)
  | 3 => c == 3 || c == 4 || c == 6 || c == 7 || (0x17 ≤ c && c ≤ 0x1D)
  | 4 => (0x70 ≤ c && c ≤ 0x7A)
  | 5 => (0x60 ≤ c && c ≤ 0x64)
  | _ => (0x60 ≤ c && c ≤ 0x63)

/-- The selection that a written value stands for: reserved bits dropped (those of MASTER of Table 15.3 among them), a code
that is not listed or MODE 3 treated as 0x00 (R5, R368, R415, R416). The flag says that it was so treated. -/
def selectOf (k v : Nat) : Nat × Bool :=
  let kind := ctrKind k
  let c := v % 256
  let filt := 1 ≤ kind && kind ≤ 3
  let w := if filt then v % 2 ^ 34 - fld v 12 4 * 2 ^ 12 - fld v 22 2 * 2 ^ 22 else v % 2 ^ 10
  if (c ≠ 0 && !codeListed kind c) || (!filt && fld v 8 2 = 3) then (0, true) else (w, false)

/-- A selector in force: the counter is zeroed, and the next snapshot marks it (R369). -/
def applySel (s : State) (k v : Nat) : State :=
  let r := selectOf k v
  let t := setCtr s k { sel := r.1, val := 0, wrapped := false, resel := true, pend := none }
  if r.2 then devEvent t 0x5F 1 else t

/-- Every counter zeroed; the next snapshot marks each (R369, R372). -/
def clearAll (s : State) : State :=
  { s with cnt.pendClear := false, cnt.reselAll := true, cnt.ctr := s.cnt.ctr.map (fun x => (x.1, { x.2 with val := 0, wrapped := false })) }

/-- What waited for the capture takes effect in the cycle after it (R369, R374), or with the stop of the frames (log 65). -/
def applyPending (s : State) : State :=
  let t := if s.cnt.pendClear then clearAll s else s
  let t := (t.cnt.ctr.filterMap (fun x => x.2.pend.map (fun v => (x.1, v)))).foldl (fun u x => applySel u x.1 x.2) t
  { t with
    cnt.range := t.cnt.range.map (fun x =>
      (x.1, { x.2 with lo := x.2.pendLo.getD x.2.lo, hi := x.2.pendHi.getD x.2.hi, pendLo := none, pendHi := none }))
    cnt.snapEvery := t.cnt.pendEvery.getD t.cnt.snapEvery, cnt.pendEvery := none
    cnt.userRead := t.cnt.pendUser.getD t.cnt.userRead, cnt.pendUser := none }

end Sys2Proof.Machine
end

