-- ==== Sys2Proof/Machine/Flash.lean ====
section
/-! DEFINITION. The xSPI flash: its directory (R393, Table 16.8), the records of Table 12.7 with their protections (R313, R314,
R357, R394), and what the training of a vault makes of the REPAIR record (R193, R194). -/

namespace Sys2Proof.Machine

open Sys2Proof

/-- Zero bytes. -/
def zeros (b : List Byte) (off n : Nat) : Bool := ((b.drop off).take n).all (fun x => x == 0)

/-! ### The directory (R393, Table 16.8) -/

/-- COUNT. -/
def flashCount (f : Flash) : Nat := rd f.dir 6 2

/-- The directory passes: its MAGIC, VERSION and COUNT, and CHECK over bytes 0 to 7 and the entries (R393). A directory that is not one
of Table 16.8 fails as one whose CHECK fails (log 11). -/
def dirOk (f : Flash) : Bool :=
  rd f.dir 0 4 == 0x52494446 && rd f.dir 4 2 == 1 && decide (1 ≤ flashCount f) && decide (flashCount f ≤ 8) &&
  rd f.dir 8 4 == crc32c (slice f.dir 0 8 ++ slice f.dir 16 (16 * flashCount f))

/-- The least bytes of an area: two halves for the records that the NX1 writes (Table 16.8). -/
def areaMin (id : Nat) : Nat := if 0x13 ≤ id && id ≤ 0x15 then 131072 else 65536

/-- The area that the directory's first entry for record `id` names: OFFSET and LENGTH; none where the entry is not one of Table 16.8
(log 11). -/
def flashArea (f : Flash) (id : Nat) : Option (Nat × Nat) :=
  if !dirOk f then none
  else
    (((List.range (flashCount f)).find? (fun e => rd f.dir (16 + 16 * e) 1 == id)).map
      (fun e => (rd f.dir (20 + 16 * e) 4, rd f.dir (24 + 16 * e) 4))).filter
        (fun a => a.1 % 65536 == 0 && a.2 % 65536 == 0 && decide (areaMin id ≤ a.2))

/-- The record has an area, without which it counts as missing. -/
def hasArea (f : Flash) (id : Nat) : Bool := (flashArea f id).isSome

/-! ### Records (R313, R393, R394) -/

/-- K_rec (R312). -/
def recordKey : List Byte := kdf (Config.pufSeed ++ [0x4E, 0x58, 0x31, 0x2D, 0x52, 0x45, 0x43]) 32

/-- The MAC of a record (R313): HMAC with SM3 under K_rec. -/
def recordMac (stored : List Byte) : List Byte := hmacSm3 recordKey stored

/-- The stored bytes of a REPAIR record (log 30). -/
def repairBytes (r : RepairRec) : List Byte :=
  Config.recordBytes 0x13 (r.quarantined ++ r.spares ++ (r.rows ++ r.lanes).flatMap (fun x => [x.1, x.2]))
/-- The stored bytes of an OWNER record (log 30). -/
def ownerBytes (r : OwnerRec) : List Byte := Config.recordBytes 0x14 (b2n r.rootAllowed :: r.key.map (fun b => b.toNat))
/-- The stored bytes of a FLOOR record (log 30). -/
def floorBytes (r : List Nat) : List Byte := Config.recordBytes 0x15 r

/-- A record area: two halves. -/
abbrev Halves (α : Type) := Option (Half α) × Option (Half α)

/-- A half passes its check (R313): it holds the MAC of what it stores. -/
def halfOk {α : Type} (stored : α → List Byte) (h : Half α) : Bool := h.mac == recordMac (stored h.val)

/-- The half in use (R393): the valid one with the greater generation, the first of equals. -/
def bestHalf {α : Type} (stored : α → List Byte) (p : Halves α) : Option (Half α) :=
  match p.1.filter (halfOk stored), p.2.filter (halfOk stored) with
  | some a, some b => if a.gen < b.gen then some b else some a
  | some a, none => some a
  | none, b => b

/-- A record written: the half that is not in use takes it, with the next generation and its MAC (R313, R393). -/
def writeHalf {α : Type} (stored : α → List Byte) (p : Halves α) (v : α) : Halves α :=
  let new := fun g => some ⟨(g + 1) % 2 ^ 32, recordMac (stored v), v⟩
  match p.1.filter (halfOk stored), p.2.filter (halfOk stored) with
  | some a, some b => if a.gen < b.gen then (new b.gen, p.2) else (p.1, new a.gen)
  | some a, none => (p.1, new a.gen)
  | none, some b => (new b.gen, p.2)
  | none, none => (new 0, p.2)

/-- The value of a record of two halves, none where it is missing or invalid (R393). -/
def record {α : Type} (stored : α → List Byte) (f : Flash) (id : Nat) (p : Halves α) : Option α :=
  if hasArea f id then (bestHalf stored p).map (fun h => h.val) else none
/-- The REPAIR record. -/
def repairOf (f : Flash) : Option RepairRec := record repairBytes f 0x13 f.repair
/-- The OWNER record. -/
def ownerOf (f : Flash) : Option OwnerRec := record ownerBytes f 0x14 f.owner
/-- The FLOOR record. -/
def floorOf (f : Flash) : Option (List Nat) := record floorBytes f 0x15 f.floor

/-- The REPAIR record as the NX1 keeps it: the Folios quarantined, and the rows and lanes under spares. -/
def repairNow (f : Flash) : RepairRec := (repairOf f).getD ⟨[], [], [], []⟩

/-- The REPAIR record written. -/
def writeRepair (s : State) (r : RepairRec) : State := { s with flash.repair := writeHalf repairBytes s.flash.repair r }

/-- A Folio recorded as quarantined (R22). -/
def recordQuarantine (s : State) (n : Nat) : State :=
  let r := repairNow s.flash
  writeRepair s { r with quarantined := insertNat n r.quarantined }

/-- A BOARD record that Table 16.9 accepts (R394). -/
def boardOk (b : List Byte) : Bool :=
  b.length == 128 && rd b 0 4 == 0x44524F42 && rd b 4 2 == 1 && (rd b 6 1 == 0 || rd b 6 1 == 16 || rd b 6 1 == 32) &&
  (rd b 7 1 == 1 || rd b 7 1 == 2) && [12, 16, 24, 32, 48].contains (rd b 8 1) && decide (rd b 9 1 ≤ 2) &&
  (decide (rd b 10 1 ≤ 95) || rd b 10 1 == 0xFF) && decide (rd b 11 1 ≤ 1) && zeros b 15 1 &&
  decide (450 ≤ rd b 16 2) && decide (rd b 16 2 ≤ 850) && zeros b 30 2 && zeros b 49 79

/-- The BOARD record in use. -/
def boardOf (f : Flash) : Option (List Byte) := if hasArea f 0x11 then f.board.filter boardOk else none

/-- The first check of R357 that the SCAN record fails; none where in-field test is available. -/
def scanCheck (f : Flash) : Option Nat :=
  if !hasArea f 0x17 then some 9
  else match f.scan with
    | none => some 9
    | some r =>
      let body := (r.drop 256).take (rd r 8 4)
      if rd r 0 4 ≠ 0x4E414353 || rd r 4 2 ≠ 1 || !zeros r 80 48 || !zeros r 192 64 || rd r 6 2 = 0 || 4096 < rd r 6 2 ||
          rd r 8 4 % 64 ≠ 0 then some 1
      else if rd r 12 4 ≠ 0xB0 then some 8
      else if slice r 48 32 ≠ sm3 Config.rootKey then some 4
      else if sm3 body ≠ slice r 16 32 then some 5
      else if !sm2Verify Config.rootKey (r.take 128) (slice r 128 64) then some 6 else none

/-- PUF_HELPER is there and passes its SM3 check value (Table 12.7). -/
def pufGood (f : Flash) : Bool := hasArea f 0x18 && sm3 f.pufHelper.1 == f.pufHelper.2

/-- The voltage code of a BIN record that is signed with the Ploelro root key (Table 12.7, R383). -/
def binCode (f : Flash) : Option Nat :=
  if hasArea f 0x12 then
    (f.bin.filter (fun b => sm2Verify Config.rootKey (Config.recordBytes 0x12 [b.code]) b.sig)).map (fun b => b.code)
  else none

/-- The stored bytes of the device certificate, none of them where the record is missing. -/
def certDer (f : Flash) : List Byte := if hasArea f 0x16 then (f.cert.map (fun c => c.der)).getD [] else []

/-- The subject public key of a certificate that Ploelro's certification authority has signed (R314). -/
def certKey (f : Flash) : Option (List Byte) :=
  if hasArea f 0x16 then (f.cert.filter (fun c => sm2Verify Config.caKey c.tbs c.sig)).map (fun c => c.key) else none

/-! ### Training (R193, R194, R197, R337) -/

/-- A vault trained: its rows on the repair list come under spares (R194), and the spare rows and lanes of its record are applied
(R193). What a repaired row holds stays (DESIGN CHOICE, log 12). -/
def trainVault (s : State) (v : Nat) : State :=
  let rows := s.mem.repairList.filter (fun r => r.1 == v)
  let r := repairNow s.flash
  let t := if rows.isEmpty then s else writeRepair s { r with rows := r.rows ++ rows.filter (fun x => !r.rows.contains x) }
  let now := repairNow t.flash
  let put := fun (old new : List (Nat × Nat)) => old.filter (fun x => decide (x.1 ≠ v)) ++ new.filter (fun x => x.1 == v)
  { t with
    mem.spared := put s.mem.spared now.rows
    mem.laneSpares := put s.mem.laneSpares now.lanes
    mem.repairList := s.mem.repairList.filter (fun x => decide (x.1 ≠ v))
    mem.vaultTrained := tput s.mem.vaultTrained v (tget s.mem.vaultTrained v 0 + 1) }

/-- An LPDDR6 channel trained (R200). -/
def trainChannel (s : State) (c : Nat) : State :=
  { s with mem.channelTrained := tput s.mem.channelTrained c (tget s.mem.channelTrained c 0 + 1) }

end Sys2Proof.Machine
end

