-- ==== Sys2Proof/Machine/Num.lean ====
section
/-! DEFINITION. Numbers (chapter 3): the element formats of Table 3.1, exact values, rounding with saturation (R66), the FP32
and FP64 operations, stochastic rounding (R83, R84) and the functions of bounded error (R80, R141). -/

namespace Sys2Proof.Machine

open Sys2Proof

/-- A value: NaN, an infinity, or ±`m` × 2^`e` exactly; zero keeps its sign. -/
inductive Val where
  | nan
  | inf (neg : Bool)
  | fin (neg : Bool) (m : Nat) (e : Int)
deriving DecidableEq, Repr

/-- +0. -/
def Val.zero : Val := .fin false 0 0

/-- A floating-point format: bits, mantissa bits, bias, the largest finite magnitude, the infinity, the NaN written. -/
structure Fmt where
  bits : Nat
  mb : Nat
  bias : Int
  top : Nat
  inf : Option Nat
  nan : Nat
deriving DecidableEq, Repr

/-- E4M3, also of MXFP8. -/
def e4m3 : Fmt := ⟨8, 3, 7, 0x7E, none, 0x7F⟩
/-- E5M2, also of MXFP8. -/
def e5m2 : Fmt := ⟨8, 2, 15, 0x7B, some 0x7C, 0x7E⟩
/-- E3M2. -/
def e3m2 : Fmt := ⟨6, 2, 3, 0x1F, none, 0⟩
/-- E2M3. -/
def e2m3 : Fmt := ⟨6, 3, 1, 0x1F, none, 0⟩
/-- E2M1. -/
def e2m1 : Fmt := ⟨4, 1, 1, 7, none, 0⟩
/-- BF16. -/
def bf16 : Fmt := ⟨16, 7, 127, 0x7F7F, some 0x7F80, 0x7FC0⟩
/-- FP16. -/
def fp16 : Fmt := ⟨16, 10, 15, 0x7BFF, some 0x7C00, 0x7E00⟩
/-- FP32. -/
def fp32 : Fmt := ⟨32, 23, 127, 0x7F7FFFFF, some 0x7F800000, 0x7FC00000⟩
/-- FP64. -/
def fp64 : Fmt := ⟨64, 52, 1023, 0x7FEFFFFFFFFFFFFF, some 0x7FF0000000000000, 0x7FF8000000000000⟩

/-- The format of a floating-point code of Table 3.1. -/
def fmtOf (c : Nat) : Option Fmt :=
  match c with
  | 1 => some e4m3 | 2 => some e5m2 | 3 => some e4m3 | 4 => some e5m2 | 5 => some e3m2 | 6 => some e2m3 | 7 => some e2m1
  | 8 => some bf16 | 9 => some fp16 | 10 => some fp32 | 11 => some fp64 | _ => none

/-- A code of Table 3.1 (R55). -/
def fmtOk (c : Nat) : Bool := decide (1 ≤ c) && decide (c ≤ 14)

/-- The MX formats (R56). -/
def isMx (c : Nat) : Bool := decide (3 ≤ c) && decide (c ≤ 7)

/-- Bits of an element. -/
def fmtBits (c : Nat) : Nat :=
  match c with
  | 5 => 6 | 6 => 6 | 7 => 4 | 8 => 16 | 9 => 16 | 10 => 32 | 11 => 64 | 13 => 32 | _ => 8

/-- Whole bytes of an element; sub-byte formats count 1. -/
def fmtBytes (c : Nat) : Nat := cdiv (fmtBits c) 8

/-- The exponent of an MX element format's largest finite value (R82). -/
def mxTop (c : Nat) : Int := match c with | 3 => 8 | 4 => 15 | 5 => 4 | _ => 2

/-! ### Decoding -/

/-- The value of a floating-point code. -/
def decF (f : Fmt) (c : Nat) : Val :=
  let neg := c.testBit (f.bits - 1)
  let mag := c % 2 ^ (f.bits - 1)
  if mag ≤ f.top then
    let x := mag / 2 ^ f.mb
    let man := mag % 2 ^ f.mb
    if x = 0 then .fin neg man (1 - f.bias - f.mb) else .fin neg (2 ^ f.mb + man) (x - f.bias - f.mb)
  else if f.inf = some mag then .inf neg else .nan

/-- The integer `i` as a value. -/
def Val.ofInt (i : Int) : Val := .fin (decide (i < 0)) i.natAbs 0

/-- The power of two of an E8M0 scale, `none` for 0xFF. -/
def scaleExp (c : Nat) : Option Int := if c % 256 = 255 then none else some ((c % 256 : Nat) - 127)

/-- The value of an element code, without a shared scale (Table 3.1). -/
def decE (code c : Nat) : Val :=
  match fmtOf code with
  | some f => decF f c
  | none =>
    if code = 14 then (match scaleExp c with | some x => .fin false 1 x | none => .nan)
    else .ofInt (sint (fmtBits code) c)

/-- A value times 2^`x`. -/
def Val.scale (v : Val) (x : Int) : Val := match v with | .fin n m e => .fin n m (e + x) | w => w

/-- A value under a shared scale; a scale of 0xFF makes it NaN (R56). -/
def Val.under (v : Val) (s : Option Int) : Val := match s with | some x => v.scale x | none => .nan

/-- Not finite. -/
def Val.nf : Val → Bool
  | .fin _ _ _ => false
  | _ => true

/-- A zero of either sign. -/
def Val.isZero : Val → Bool
  | .fin _ m _ => m == 0
  | _ => false

/-- The magnitude. -/
def Val.abs : Val → Val
  | .fin _ m e => .fin false m e
  | .inf _ => .inf false
  | .nan => .nan

/-- The sign of a value that is no NaN. -/
def Val.neg? : Val → Bool
  | .fin n _ _ => n
  | .inf n => n
  | .nan => false

/-- floor(log2 |v|) of a non-zero finite value. -/
def expo (m : Nat) (e : Int) : Int := (Nat.log2 m : Int) + e

/-! ### Rounding (R60, R66) -/

/-- `m` × 2^`k` rounded to nearest, ties to even. -/
def rneNat (m : Nat) (k : Int) : Nat :=
  if 0 ≤ k then m * 2 ^ k.toNat
  else
    let d := (-k).toNat
    let q := m / 2 ^ d
    let r := m % 2 ^ d
    if r > 2 ^ (d - 1) || (r = 2 ^ (d - 1) && q % 2 = 1) then q + 1 else q

/-- The same for an integer. -/
def rneInt (i k : Int) : Int := if i < 0 then -(rneNat i.natAbs k : Int) else (rneNat i.natAbs k : Int)

/-- `a` × 2^`x` < `b` × 2^`y`. -/
def magLt (a : Nat) (x : Int) (b : Nat) (y : Int) : Bool :=
  if x ≤ y then decide (a < b * 2 ^ (y - x).toNat) else decide (a * 2 ^ (x - y).toNat < b)

/-- The exponent of the unit in the last place of a format at a magnitude. -/
def ulpExp (f : Fmt) (m : Nat) (e : Int) : Int := max (expo m e) (1 - f.bias) - f.mb

/-- The magnitude code of `q` units of 2^`u`, before saturation. -/
def magOf (f : Fmt) (q : Nat) (u : Int) : Nat := ((u + f.mb + f.bias - 1) * 2 ^ f.mb).toNat + q

/-- A magnitude lies beyond the largest finite value of a format (R66: the exact result decides). -/
def beyond (f : Fmt) (m : Nat) (e : Int) : Bool :=
  match decF f f.top with
  | .fin _ t x => magLt t x m e
  | _ => false

/-- A finite magnitude as a code, given how units of the last place are rounded; the flag is a saturation. -/
def encMag (f : Fmt) (m : Nat) (e : Int) (rnd : Nat → Int → Nat) : Nat × Bool :=
  if m = 0 then (0, false)
  else
    let u := ulpExp f m e
    let c := magOf f (rnd m (e - u)) u
    (min c f.top, beyond f m e)

/-- A value as a code of a floating-point format; E4M3 has no infinity (Table 3.7). -/
def encF (f : Fmt) (v : Val) (rnd : Nat → Int → Nat) : Nat × Bool :=
  match v with
  | .nan => (f.nan, false)
  | .inf n => (match f.inf with | some i => (i + (if n then 2 ^ (f.bits - 1) else 0), false) | none => (f.nan, false))
  | .fin n m e =>
    let r := encMag f m e rnd
    (r.1 + (if n then 2 ^ (f.bits - 1) else 0), r.2)

/-- A value as an integer of `w` bits (Table 3.7). -/
def encI (w : Nat) (v : Val) (rnd : Nat → Int → Nat) : Nat × Bool :=
  match v with
  | .nan => (0, false)
  | .inf n => (if n then 2 ^ (w - 1) else 2 ^ (w - 1) - 1, false)
  | .fin n m e =>
    let lim := if n then 2 ^ (w - 1) else 2 ^ (w - 1) - 1
    let q := min (rnd m e) lim
    (if n && q ≠ 0 then 2 ^ w - q else q, magLt lim 0 m e)

/-- A value rounded to a floating-point format, to nearest (R61, R66). -/
def Val.rnd (f : Fmt) (v : Val) : Val × Bool := let r := encF f v rneNat; (decF f r.1, r.2)

/-- The FP32 bits of an FP32 value. -/
def Val.bits32 (v : Val) : Nat := (encF fp32 v rneNat).1
/-- The value of FP32 bits. -/
def of32 (c : Nat) : Val := decF fp32 (c % 2 ^ 32)

/-! ### Exact operations -/

/-- A signed sum of dyadics; `z` is the sign of an exact zero. -/
def addFin (n : Bool) (m : Nat) (e : Int) (n' : Bool) (m' : Nat) (e' : Int) (z : Bool) : Val :=
  let lo := min e e'
  let a : Int := (m * 2 ^ (e - lo).toNat : Nat)
  let b : Int := (m' * 2 ^ (e' - lo).toNat : Nat)
  let t := (if n then -a else a) + (if n' then -b else b)
  if t = 0 then .fin z 0 0 else .fin (decide (t < 0)) t.natAbs lo

/-- A sum: an exact zero is +0 (R57). -/
def Val.add (a b : Val) : Val :=
  match a, b with
  | .nan, _ => .nan
  | _, .nan => .nan
  | .inf n, .inf n' => if n = n' then .inf n else .nan
  | .inf n, _ => .inf n
  | _, .inf n => .inf n
  | .fin n m e, .fin n' m' e' => addFin n m e n' m' e' false

/-- A sum of IEEE 754: an exact zero is −0 where both terms are −0. -/
def Val.addI (a b : Val) : Val :=
  match a, b with
  | .fin n m e, .fin n' m' e' => addFin n m e n' m' e' (n && n' && m = 0 && m' = 0)
  | x, y => x.add y

/-- The opposite. -/
def Val.opp : Val → Val
  | .fin n m e => .fin (!n) m e
  | .inf n => .inf (!n)
  | .nan => .nan

/-- An exact product. -/
def Val.mul (a b : Val) : Val :=
  match a, b with
  | .nan, _ => .nan
  | _, .nan => .nan
  | .inf n, .inf n' => .inf (n != n')
  | .inf n, .fin n' m _ => if m = 0 then .nan else .inf (n != n')
  | .fin n m _, .inf n' => if m = 0 then .nan else .inf (n != n')
  | .fin n m e, .fin n' m' e' => .fin (n != n') (m * m') (e + e')

/-- A quotient of magnitudes, with a last bit that keeps every rounding right. -/
def divMag (a b : Nat) : Nat × Int :=
  let k := 140 + Nat.log2 b
  (2 * (a * 2 ^ k / b) + (if a * 2 ^ k % b = 0 then 0 else 1), -(k : Int) - 1)

/-- A quotient; a non-zero finite value over zero is the infinity of IEEE 754 (R66). -/
def Val.div (a b : Val) : Val :=
  match a, b with
  | .nan, _ => .nan
  | _, .nan => .nan
  | .inf _, .inf _ => .nan
  | .inf n, .fin n' _ _ => .inf (n != n')
  | .fin n _ _, .inf n' => .fin (n != n') 0 0
  | .fin n m e, .fin n' m' e' =>
    if m' = 0 then (if m = 0 then .nan else .inf (n != n'))
    else let q := divMag m m'; .fin (n != n') q.1 (q.2 + e - e')

/-- The integer square root, `k` bits from the top. -/
def isqrt : Nat → Nat → Nat → Nat
  | 0, _, r => r
  | k + 1, n, r => isqrt k n (if (r + 2 ^ k) * (r + 2 ^ k) ≤ n then r + 2 ^ k else r)

/-- A square root. -/
def Val.sqrt (a : Val) : Val :=
  match a with
  | .nan => .nan
  | .inf n => if n then .nan else .inf false
  | .fin n m e =>
    if m = 0 then .fin n 0 0
    else if n then .nan
    else
      let j : Nat := 160 + (e % 2).toNat
      let x := m * 2 ^ j
      let r := isqrt (Nat.log2 x / 2 + 1) x 0
      .fin false (2 * r + (if r * r = x then 0 else 1)) ((e - j) / 2 - 1)

/-- Strictly below, of values that are no NaN. -/
def Val.lt (a b : Val) : Bool :=
  match a, b with
  | .nan, _ => false
  | _, .nan => false
  | .inf n, .inf n' => n && !n'
  | .inf n, .fin _ _ _ => n
  | .fin _ _ _, .inf n => !n
  | .fin n m e, .fin n' m' e' =>
    match n, n' with
    | false, false => magLt m e m' e'
    | true, true => magLt m' e' m e
    | true, false => m ≠ 0 || m' ≠ 0
    | false, true => false

/-! ### FP32 and FP64 operations with saturation -/

/-- FP32 of an exact result. -/
def r32 (v : Val) : Val × Bool := v.rnd fp32
/-- FP32 addition of chapter 3. -/
def add32 (a b : Val) : Val × Bool := r32 (a.add b)
/-- FP32 multiplication. -/
def mul32 (a b : Val) : Val × Bool := r32 (a.mul b)

/-- A value rounded as IEEE 754 rounds it: an overflow gives the infinity. For the operations outside chapter 3 that no rule
makes saturate. -/
def Val.ieee (f : Fmt) (v : Val) : Val :=
  match v with
  | .fin n m e =>
    let u := ulpExp f m e
    if m ≠ 0 && decide (f.top < magOf f (rneNat m (e - u)) u) then .inf n else (v.rnd f).1
  | w => w

/-- IEEE 754 FP32 addition. -/
def addIeee (a b : Val) : Val := (a.addI b).ieee fp32
/-- IEEE 754 FP32 multiplication. -/
def mulIeee (a b : Val) : Val := (a.mul b).ieee fp32

/-! ### FP32 and FP64 operations of a Nib (R203, R224) -/

/-- An accumulation of results with the number that saturated. -/
abbrev Sat := Val × Nat

/-- A rounded result with its saturation. -/
def sat32of (v : Val) (n : Nat) : Sat := let r := r32 v; (r.1, n + b2n r.2)
/-- Sum. -/
def nAdd (a b : Sat) : Sat := sat32of (a.1.addI b.1) (a.2 + b.2)
/-- Product. -/
def nMul (a b : Sat) : Sat := sat32of (a.1.mul b.1) (a.2 + b.2)
/-- Quotient. -/
def nDiv (a b : Sat) : Sat := sat32of (a.1.div b.1) (a.2 + b.2)
/-- Square root. -/
def nSqrt (a : Sat) : Sat := sat32of a.1.sqrt a.2
/-- A value that no operation has made. -/
def lit (v : Val) : Sat := (v, 0)

/-- One fused multiply-add with a single rounding (R203). -/
def fma (f : Fmt) (c x acc : Val) (n : Nat) : Sat := let r := ((c.mul x).addI acc).rnd f; (r.1, n + b2n r.2)

/-- The sum tree of R64, level by level; `fuel` bounds the levels. -/
def treeLevels : Nat → List (Val × Bool) → Val × Bool
  | 0, l => l.headD (Val.zero, false)
  | n + 1, l =>
    match l with
    | [] => (Val.zero, false)
    | [x] => x
    | _ => treeLevels n (pairUp l)
where
  /-- One level of the tree: pairs in order, an odd last value carried up. -/
  pairUp : List (Val × Bool) → List (Val × Bool)
    | a :: b :: r => (let c := add32 a.1 b.1; (c.1, a.2 || b.2 || c.2)) :: pairUp r
    | r => r

/-- The tree of R64. -/
def tree (l : List (Val × Bool)) : Val × Bool := treeLevels l.length l

/-! ### Element codes with rounding (R81) -/

/-- A value as an element code, under no shared scale. -/
def encE (code : Nat) (v : Val) (rnd : Nat → Int → Nat) : Nat × Bool :=
  match fmtOf code with
  | some f => encF f v rnd
  | none =>
    if code = 14 then
      match v with
      | .fin _ m e => if m = 0 then (0, false) else
          let u := expo m e
          ((clampI 0 254 (u + (if rneNat m (e - u) = 2 then 1 else 0) + 127)).toNat, false)
      | _ => (255, false)
    else encI (fmtBits code) v rnd

/-- The scale exponent of an MX block (R82): from the largest finite magnitude, clamped; `none` where a value is not
finite. -/
def mxScale (code : Nat) (vs : List Val) : Option Int :=
  if vs.any Val.nf then none
  else
    some (vs.foldl (fun x v =>
      match v with
      | .fin _ m e => if m = 0 then x else max x (clampI (-127) 127 (expo m e - mxTop code))
      | _ => x) (-127))

/-- The byte of a scale. -/
def scaleByte (x : Option Int) : Nat := match x with | some i => (i + 127).toNat | none => 255

/-- The elements of an MX block and its scale byte; the elements of a block that is not finite are free (log 32). -/
def encBlock (code : Nat) (vs : List Val) (rnd : Nat → Nat → Int → Nat) : List (Nat × Bool) × Nat :=
  match mxScale code vs with
  | some x => (vs.zipIdx.map (fun p => encE code (p.1.scale (-x)) (rnd p.2)), scaleByte (some x))
  | none =>
    let key := vs.map Val.bits32
    (vs.zipIdx.map (fun p => (Config.mxElem key p.2 % 2 ^ fmtBits code, false)), 255)

/-- Stochastic rounding of a magnitude in units (R83). -/
def srNat (rand16 m : Nat) (k : Int) : Nat :=
  if 0 ≤ k then m * 2 ^ k.toNat
  else
    let d := (-k).toNat
    let q := m / 2 ^ d
    if rand16 < (m % 2 ^ d) * 2 ^ 16 / 2 ^ d then q + 1 else q

/-- One advance of the LFSR of R84. -/
def lfsr (x : Nat) : Nat := if x % 2 = 1 then (x / 2) ^^^ 0x80200003 else x / 2

/-- `n` advances. -/
def lfsrN : Nat → Nat → Nat
  | 0, x => x
  | n + 1, x => lfsrN n (lfsr x)

/-- A 32-bit left rotation. -/
def rotl32 (x n : Nat) : Nat := let y := x % 2 ^ 32; ((y * 2 ^ n) % 2 ^ 32) ||| (y / 2 ^ (32 - n))

/-- The seed of an output tile (R84). -/
def srSeed (step salt row col : Nat) : Nat :=
  let x := (step % 2 ^ 32) ^^^ salt ^^^ rotl32 row 11 ^^^ rotl32 col 23
  if x = 0 then 1 else x

/-- rand16 of `n` positions of a tile in row-major order. -/
def srDraws : Nat → Nat → List Nat
  | 0, _ => []
  | n + 1, x => let y := lfsrN 16 x; (y % 65536) :: srDraws n y

/-! ### The exponential and what is built on it (R80, R141, log 24) -/

/-- ln 2 in units of 2^-240. -/
def ln2 : Nat := (List.range 240).foldl (fun a k => a + 2 ^ 240 / ((k + 1) * 2 ^ (k + 1))) 0

/-- Terms of the series of e^-r in units of 2^-200, for r in units of 2^-200 below ln 2. -/
def expTerms : Nat → Nat → Nat → Int → Int
  | 0, _, _, acc => acc
  | n + 1, r, term, acc =>
    let k := 60 - n
    let t := term * r / (k * 2 ^ 200)
    expTerms n r t (if k % 2 = 1 then acc - t else acc + t)

/-- e^-t for t ≥ 0 in units of 2^-200, as a mantissa and an exponent. -/
def expNeg (t : Nat) : Nat × Int :=
  let t := min t (400 * 2 ^ 200)
  let l := ln2 / 2 ^ 40
  let n := t / l
  ((expTerms 60 (t % l) (2 ^ 200) (2 ^ 200)).toNat, -(n : Int) - 200)

/-- A non-negative dyadic in units of 2^-200. -/
def fix200 (m : Nat) (e : Int) : Nat :=
  let k := min (e + 200) 400
  if 0 ≤ k then m * 2 ^ k.toNat else m / 2 ^ (-k).toNat

/-- A finite FP32 value moved by `k` units in the last place. -/
def ulpMove (v : Val) (k : Int) : Val :=
  let c := v.bits32
  let mag : Int := (c % 2 ^ 31 : Nat)
  let o := (if c.testBit 31 then -mag else mag) + k
  let p := min o.natAbs fp32.top
  if k = 0 then v else of32 (p + (if o < 0 then 2 ^ 31 else 0))

/-- The exponent of the unit in the last place of an FP32 value. -/
def lastPlace (v : Val) : Int := match v with | .fin _ m e => if m = 0 then -149 else max (-149) (expo m e - 23) | _ => -149

/-- An FP32 result within `b` units in its last place of the exact value `a`: the rounded one moved by the free `k`, where that
lies within the bound (log 24). -/
def freeResult (a : Val) (b : Nat) (k : Int) : Val :=
  let r := (r32 a).1
  let y := ulpMove r (clampI (-(2 * b : Nat)) (2 * b : Nat) k)
  if (Val.fin false b (lastPlace y)).lt (a.add y.opp).abs then r else y

/-- exp of R141 for a value that is at most zero: within 2 units in the last place. -/
def expF (v : Val) : Val :=
  match v with
  | .fin _ m e =>
    let r := expNeg (fix200 m e)
    if m = 0 then .fin false 1 0
    else freeResult (.fin false r.1 r.2) 2 (Config.expUlp v.bits32)
  | .inf _ => Val.zero
  | .nan => .nan

/-- x ÷ (1 + e^-y) for y = ±`t` in units of 2^-200. -/
def logistic (x : Val) (yneg : Bool) (t : Nat) : Val :=
  let r := expNeg t
  let ex : Val := .fin false r.1 r.2
  let den := Val.add (.fin false 1 0) ex
  if yneg then (x.mul ex).div den else x.div den

/-- GELU (Table 3.6): 0.5x(1 + tanh z) = x ÷ (1 + e^-2z), z = 0.797884561(x + 0.044715x³). -/
def gelu (v : Val) : Val :=
  match v with
  | .nan => .nan
  | .inf n => if n then Val.zero else v
  | .fin n m e =>
    if !n && !magLt m e 10 0 then v
    else if n && !magLt m e 10 0 then Val.zero
    else
      let x := fix200 m e
      let cube := x * x / 2 ^ 200 * x / 2 ^ 200
      let y := 2 * 797884561 * (x + 44715 * cube / 1000000) / 1000000000
      freeResult (logistic v n y) 4 (Config.geluUlp v.bits32)

/-- SiLU (Table 3.6). -/
def silu (v : Val) : Val :=
  match v with
  | .nan => .nan
  | .inf n => if n then Val.zero else v
  | .fin n m e =>
    if !n && !magLt m e 20 0 then v
    else if n && !magLt m e 100 0 then Val.zero
    else freeResult (logistic v n (fix200 m e)) 4 (Config.siluUlp v.bits32)

end Sys2Proof.Machine
end

