-- ==== Sys2Proof/Machine/Ductus.lean ====
section
/-! DEFINITION. Reading a Ductus from device memory: header, Folio table, stroke lists, slot list and tag image (R40 to R42,
R183, R425 to R427). -/

namespace Sys2Proof.Machine

open Sys2Proof

/-- A stroke record (Table 2.3). -/
structure Stroke where
  start : Nat
  budget : Nat
  cls : Nat
  flags : Nat
  quills : Nat
  res : Nat
  partner : Nat
  op : Nat
  slotIndex : Nat
  inCount : Nat
  outCount : Nat
deriving DecidableEq, Repr

/-- The stroke record in 32 bytes. -/
def strokeOf (b : List Byte) : Stroke :=
  { start := rd b 0 4, budget := rd b 4 4, cls := rd b 8 1, flags := rd b 9 1, quills := rd b 10 1, res := rd b 11 1,
    partner := rd b 12 4, op := rd b 16 8, slotIndex := rd b 24 4, inCount := rd b 28 2, outCount := rd b 30 2 }

/-- The loaded Ductus with an id. -/
def loadedOf (s : State) (id : Nat) : Option Loaded := s.ductus.find? (fun d => d.id == id)

/-- A field of a Ductus header (Table 2.2). -/
def hdrField (s : State) (d : Loaded) (off n : Nat) : Nat := peekN s (d.addr + off) n

/-- The current Ductus. -/
def curDuctus (s : State) : Option Loaded := s.frame.current.bind (loadedOf s)

/-- FLAGS of the current Ductus: 0 LP_USED, 1 STEP_RESTART, 2 STRICT, 3 NP1_COMPAT. -/
def curFlag (s : State) (k : Nat) : Bool :=
  match curDuctus s with | some d => (hdrField s d 38 2).testBit k | none => false

/-- Margin M of the current Ductus. -/
def margin (s : State) : Nat := match curDuctus s with | some d => hdrField s d 12 4 | none => 0
/-- THROTTLE_ALLOW of the current Ductus. -/
def throttleAllow (s : State) : Nat := match curDuctus s with | some d => hdrField s d 16 4 | none => 0

/-- The Folio-table entry of logical Folio `l`: list address and stroke count (R425). -/
def listOf (s : State) (d : Loaded) (l : Nat) : Nat × Nat :=
  let a := hdrField s d 40 6 + 16 * l
  (peekN s a 6, peekN s (a + 8) 4 % 2 ^ 20)

/-- Stroke `i` of logical Folio `l`. -/
def strokeAt (s : State) (d : Loaded) (l i : Nat) : Stroke :=
  strokeOf (peek s ((listOf s d l).1 + 32 * i) 32)

/-- The logical Folios that have a stroke list. -/
def listedFolios (s : State) (d : Loaded) : List Nat :=
  (List.range 64).filter (fun l => (hdrField s d 24 8).testBit l)

/-- Every stroke of a Ductus, by logical Folio and index. -/
def allStrokes (s : State) (d : Loaded) : List (Nat × Nat × Stroke) :=
  (listedFolios s d).flatMap (fun l =>
    (List.range (listOf s d l).2).map (fun i => (l, i, strokeAt s d l i)))

/-- A slot-list entry (Table 8.3). -/
def slotEntry (s : State) (d : Loaded) (i : Nat) : Nat := peekN s (hdrField s d 56 6 + 4 * i) 4

/-- The input entries of a stroke. -/
def inSlots (s : State) (d : Loaded) (k : Stroke) : List Nat :=
  (List.range k.inCount).map (fun i => slotEntry s d (k.slotIndex + i))

/-- The output slots of a stroke. -/
def outSlots (s : State) (d : Loaded) (k : Stroke) : List Nat :=
  (List.range k.outCount).map (fun i => slotEntry s d (k.slotIndex + k.inCount + i) % 2 ^ 19)

/-- The slot of a slot-list entry. -/
def slotNo (e : Nat) : Nat := e % 2 ^ 19
/-- KEEP of a slot-list entry. -/
def slotKeep (e : Nat) : Bool := e.testBit 19

/-- The block of a listed Folio in the tag image starts after those of the listed Folios below it (R426). -/
def tagBlock (s : State) (d : Loaded) (l : Nat) : Nat :=
  hdrField s d 48 6 + 768 * ((listedFolios s d).filter (fun m => decide (m < l))).length

/-- The positions that a block of the tag image marks FULL (R426). -/
def blockMarks (bs : List Byte) : List Nat :=
  bs.zipIdx.flatMap (fun x =>
    if x.1 = 0 then [] else ((List.range 8).filter (fun k => x.1.toNat.testBit k)).map (fun k => 8 * x.2 + k))

/-- The slots that the tag image marks FULL, ascending. -/
def imageSlots (s : State) (d : Loaded) : List Nat :=
  (listedFolios s d).flatMap (fun l => (blockMarks (peek s (tagBlock s d l) 768)).map (fun x => 8192 * l + x))

/-- The chain of NEXT_ID from Ductus `id`, at most `n` members (R428, R51). -/
def chain (s : State) : Nat → Nat → List Loaded
  | 0, _ => []
  | n + 1, id =>
    match loadedOf s id with
    | none => []
    | some d => d :: chain s n (hdrField s d 36 2)

/-- The running rotation: the members of the job's overlay rotation (R51, R428). -/
def rotation (s : State) : List Loaded :=
  if jobExists s then
    match loadedOf s s.job.blk.firstDuctus with
    | none => []
    | some d => chain s (hdrField s d 34 2) d.id
  else []

/-- LP_USED of a Ductus. -/
def lpUsed (s : State) (d : Loaded) : Bool := (hdrField s d 38 2).testBit 0

/-- Nominal cycles of a frame, N (R38). -/
def nominal (s : State) : Nat := s.time.period * 4
/-- Nominal cycles of the stroke region, R (R39). -/
def regionLen (s : State) : Nat := nominal s - 1600
/-- D of R38. -/
def driftBound (s : State) : Nat := cdiv (nominal s) 10000 + 1

end Sys2Proof.Machine
end

