-- ==== Sys2Proof/Machine/Stop.lean ====
section
/-! DEFINITION. Stopping: the abort of a frame (R45), the request for a rollback (R233), and the stop of a job's frames. -/

namespace Sys2Proof.Machine

open Sys2Proof

/-- The 32 bytes of a training-service message (Table 9.6). -/
def SvcMsg.bytes (m : SvcMsg) : List Byte :=
  leBytes 1 m.typ ++ leBytes 1 m.flags ++ leBytes 2 m.job ++ leBytes 3 m.device ++ leBytes 1 m.code ++
  leBytes 4 m.step ++ leBytes 2 m.seq ++ leBytes 2 0 ++ leBytes 8 m.frame ++ leBytes 3 m.spare ++ leBytes 5 0

/-- The device that acts as coordinator (R237): the deputy that took over, or entry 0 of the device list. -/
def coordinator (s : State) : Nat :=
  match s.train.acting with | some d => d | none => s.job.blk.devices.headD s.glob.deviceId

/-- Whether this device acts as coordinator. -/
def isCoordinator (s : State) : Bool := coordinator s == s.glob.deviceId

/-- A training-service message of this device's job. -/
def svc (s : State) (typ flags code step seq frame : Nat) : SvcMsg :=
  { typ := typ, flags := flags, job := s.job.blk.tag, device := s.glob.deviceId, code := code, step := step, seq := seq,
    frame := frame, spare := 0 }

/-- A message to one device. -/
def sendSvc (s : State) (dst : Nat) (m : SvcMsg) : State := sendMgmt s dst (SvcMsg.bytes m)

/-- A message to every device of the job that is not declared lost. -/
def sendAll (s : State) (m : SvcMsg) : State :=
  (s.job.blk.devices.filter (fun d => !s.job.lost.contains d)).foldl (fun t d => sendSvc t d m) s

/-- NO_STEP_RESTART of a request (R233): the Ductus lacks STEP_RESTART, an optimiser or mask stroke has issued, or `force`. -/
def noStepRestart (s : State) (force : Bool) : Bool := force || !curFlag s 1 || s.job.optIssued

/-- ROLLBACK_REQ to the coordinator (R233); the device waits for the answer from this frame on (R234). -/
def requestRollback (s : State) (flags code : Nat) : State :=
  let t := sendSvc s (coordinator s) (svc s 1 flags code s.job.step s.train.obeyed (currentFrame s))
  { t with train.waiting := some (t.train.waiting.getD (currentFrame s)), train.waitCode := code }

/-- The frame stops: no stroke issues, strokes in progress end, nothing more is written (R45). The strokes in progress are kept
to the end of the cycle, for the faults that it raises with the abort. -/
def haltFrame (s : State) : State :=
  { s with
    frame.aborted := true, frame.abortedAt := some s.frame.cycle, frame.waitSlot := none,
    fab.xfers := s.fab.xfers.map (fun x => if x.folio.isSome then { x with stopped := true } else x) }

/-- The frame was aborted in this cycle. -/
def abortedNow (s : State) : Bool := s.frame.live && s.frame.aborted && s.frame.abortedAt == some s.frame.cycle

/-- A fault of the job's work: the record with CAUSE, the abort of the frame and the request for a rollback (R45, R233). A fault
of the cycle of the abort has its record too, and the frame aborts once (R86, R106). When the job exists but no frame of it runs,
the record is written and the request sent all the same (R259). Without a job only the record is written. -/
def abortWith (s : State) (r : FaultRec) (force : Bool) : State :=
  if s.frame.live && !s.frame.aborted then
    let t := haltFrame (raiseFault s { r with cause := true, sev := 2 })
    requestRollback t (if noStepRestart t force then 1 else 0) r.code
  else if abortedNow s then raiseFault s { r with cause := true, sev := 2 }
  else if jobExists s then
    let t := raiseFault s { r with sev := 2 }
    requestRollback t (if noStepRestart t force then 1 else 0) r.code
  else raiseFault s { r with sev := 0 }

/-- A record that a stroke's operation raises names the stroke: its physical Folio and its index (Table 14.1). -/
def FaultRec.ofStroke (s : State) (r : FaultRec) : Option (Nat × Nat) → FaultRec
  | none => r
  | some (l, i) => { r with folio := (physOf s l).getD 0, stroke := i, valid := r.valid ||| 0x12 }

/-- MEM_UNCORRECTABLE for a line that a stroke (logical Folio and index) or another unit met (R195): the frame aborts while a
frame of the job runs, else only the record is written, with FRAME where the frame that runs is aborted already (Table 14.3). So
it is in STARTING and PAUSED, where a job exists and no frame of it runs: no rollback is requested (DESIGN CHOICE, log 61). -/
def lineErrorBy (s : State) (who : Option (Nat × Nat)) (l : Nat) : State :=
  if s.frame.live && (!s.frame.aborted || abortedNow s) then abortWith s ((lineFault s l 2 true).ofStroke s who) false
  else raiseFault s ((lineFault s l (if s.frame.live then 2 else 0) false).ofStroke s who)

/-- MEM_UNCORRECTABLE for a line that no stroke met. -/
def lineError (s : State) (l : Nat) : State := lineErrorBy s none l

/-- What a read by firmware or a sequencer does: its lines count and are corrected, and one that fails raises its fault (R194,
R195). -/
def fwRead (s : State) (a n : Nat) : State := match badLine s a n with | some l => lineError s l | none => noteRead s a n

/-- A record about a stroke: its logical Folio and index, the physical Folio, and an address. -/
def strokeFault (s : State) (l i code addr detail : Nat) : FaultRec :=
  let p := (physOf s l).getD 0
  { code := code, die := p / 17, folio := p, valid := 0x32, stroke := i, addr := addr, detail := detail, src := 1, key := p }

/-- The held descriptors that `p` names, and the state without them. -/
def takeHeld (s : State) (p : HeldOp → Bool) : List Held × State :=
  (s.rings.held.filter (fun x => p x.op), { s with rings.held := s.rings.held.filter (fun x => !p x.op) })

/-- Held descriptors completed in fetch order. -/
def completeAll (s : State) (l : List Held) (status : Nat) : State := l.foldl (fun t x => complete t x.hdr status 0) s

/-- The job's frames stop: no frame of it runs any more, the records that wait are written (R351), and the register writes that
waited for a seam take effect (R369, R401; log 65). -/
def stopFrames (s : State) : State :=
  applyPending (flushFaults { s with
    frame.live := false, frame.region := false, frame.prog := [], frame.waitSlot := none, frame.issued := [],
    streams := [], loss.regs := s.loss.pend.getD s.loss.regs, loss.pend := none })

/-- The job enters PAUSED, or stays ORPHANED with that state saved (R291, R297). -/
def pauseJob (s : State) : State :=
  let t := stopFrames s
  let u := if t.glob.jobState = 6 then { t with job.savedState := 5 } else setJobState t 5
  { u with job.pauseNow := false, train.restart := none }

end Sys2Proof.Machine
end

