-- ==== Sys2Proof/Machine/Tensor.lean ====
section
/-! DEFINITION. Tensor descriptors, owner tables and elements (R157 to R164), shape cells (R153, R154, R430), and how an
operation of a stroke finds its stroke, fails and commits its writes (R45, R195, log 22). -/

namespace Sys2Proof.Machine

open Sys2Proof

/-- Why an operation does not run: code, address and detail of the record. -/
structure Bad where
  code : Nat
  addr : Nat := 0
  detail : Nat := 0
  nib : Option Nat := none
  quill : Option Nat := none
deriving DecidableEq, Repr

/-- DESC_FORMAT about the record at an address. -/
def badDesc (a : Nat) : Bad := { code := 0x11, addr := a }

/-- `x` unless the check fails. -/
def check (ok : Bool) (b : Bad) : Except Bad Unit := if ok then .ok () else .error b

/-! ### Descriptors (Table 7.1) -/

/-- The descriptor in 128 bytes; `spare` collects the reserved fields. -/
def descIn (a : Nat) (b : List Byte) : Desc :=
  { at_ := a, magic := rd b 0 2, rank := rd b 2 1, fmt := rd b 3 1, form := rd b 4 1, flags := rd b 5 1, mxDim := rd b 6 1,
    base := rd b 8 8,
    ext := (List.range 6).map (fun d => rd b (16 + 4 * d) 4)
    str := (List.range 6).map (fun d => sint 40 (rd b (40 + 5 * d) 5))
    blk := (List.range 6).map (fun d => rd b (72 + 2 * d) 2)
    scale := rd b 88 8
    spare := rd b 7 1 + rd b 70 2 + rd b 84 4 + rd b 96 32 }

/-- The descriptor at an address. -/
def descAt (s : State) (a : Nat) : Desc := descIn a (peek s a 128)

/-- DISTRIBUTED. -/
def Desc.distributed (d : Desc) : Bool := d.flags.testBit 0
/-- COMBINE. -/
def Desc.combine (d : Desc) : Bool := d.flags.testBit 1
/-- STRICT. -/
def Desc.strict (d : Desc) : Bool := d.flags.testBit 2
/-- WRAP. -/
def Desc.wrap (d : Desc) : Bool := d.flags.testBit 3
/-- A sparse form. -/
def Desc.sparse (d : Desc) : Bool := d.form ≠ 0
/-- EXTENT_d. -/
def Desc.e (d : Desc) (k : Nat) : Nat := d.ext.getD k 0
/-- STRIDE_d. -/
def Desc.s (d : Desc) (k : Nat) : Int := d.str.getD k 0
/-- BLOCK_d. -/
def Desc.b (d : Desc) (k : Nat) : Nat := d.blk.getD k 0

/-- T24 group record bytes for a format (Table 4.3). -/
def groupBytes (fmt : Nat) : Nat := 1 + fmtBits fmt
/-- T24 tile bytes (Table 4.3). -/
def t24Bytes (fmt : Nat) : Nat := 256 * groupBytes fmt + (if isMx fmt then 64 else 0)
/-- TILE_BYTES of a Hatch tile (R97). -/
def hatchBytes (fmt count masked : Nat) : Nat :=
  let body := 256 + 8 * masked + (count * fmtBits fmt + 7) / 8 + (if isMx fmt then (count + 31) / 32 else 0)
  (body + 63) / 64 * 64
/-- Reserved bytes of a Hatch tile: the dense fallback size (Table 4.3, R98). -/
def hatchReserved (fmt : Nat) : Nat := hatchBytes fmt 4096 0
/-- S of R159. -/
def Desc.tileSize (d : Desc) : Nat := if d.form = 1 then t24Bytes d.fmt else hatchReserved d.fmt

/-- The extent along dimension `k` in units of the form: elements, or tiles along dimensions 0 and 1 of a sparse form. -/
def Desc.units (d : Desc) (k : Nat) : Nat := if d.sparse && k < 2 then d.e k / 64 else d.e k

/-- Bits of one unit: an element, or a tile. -/
def Desc.unitBits (d : Desc) : Nat := if d.sparse then 8 * d.tileSize else fmtBits d.fmt

/-- The fields of a descriptor but for memory (R157 to R161). -/
def Desc.fieldsOk (d : Desc) (wrapOk : Bool) : Bool :=
  let mx := isMx d.fmt
  d.magic == 0x4454 && 1 ≤ d.rank && d.rank ≤ 6 && fmtOk d.fmt && d.form ≤ 2 && d.flags < 16 && d.spare == 0 &&
  d.base < 2 ^ 48 && d.scale < 2 ^ 48 &&
  (if mx then decide (d.mxDim < 2) && decide (d.mxDim < d.rank) else d.mxDim == 0) &&
  (List.range 6).all (fun k =>
    if k < d.rank then decide (0 < d.e k) && decide (0 < d.b k) else d.e k == 0 && d.s k == 0 && d.b k == 0) &&
  (d.form == 0 || d.fmt ≤ 9 || d.fmt == 12) &&
  (!d.sparse || (2 ≤ d.rank && d.e 0 % 64 == 0 && d.e 1 % 64 == 0)) &&
  (!(mx && !d.sparse) || (d.s 0 == 1 && d.e d.mxDim % 32 == 0 &&
    (List.range 6).all (fun k => k = 0 || d.rank ≤ k || (0 < d.s k && d.s k % 32 == 0)))) &&
  ((mx && !d.sparse) || d.scale == 0) &&
  (!d.combine || (!d.sparse && !mx)) && (!d.wrap || wrapOk)

/-- The lowest and highest unit offset over all coordinates within the extents `ns`. -/
def unitSpan (d : Desc) (ns : List Nat) : Int × Int :=
  (List.range d.rank).foldl (fun r k =>
    let x := d.s k * ((ns.getD k 1 : Nat) - 1 : Int)
    (r.1 + min 0 x, r.2 + max 0 x)) (0, 0)

/-- The byte range of the units at `base` (R161): first byte and length; `none` where it starts below zero. -/
def spanBytes (d : Desc) (base : Nat) (ns : List Nat) : Option (Nat × Nat) :=
  let w := unitSpan d ns
  let lo : Int := (8 * base : Int) + w.1 * d.unitBits
  let hi : Int := (8 * base : Int) + (w.2 + 1) * d.unitBits
  if lo < 0 then none else some ((lo / 8).toNat, ((hi + 7) / 8 - lo / 8).toNat)

/-- The units of a tensor along each dimension. -/
def Desc.unitExt (d : Desc) : List Nat := (List.range d.rank).map d.units

/-- The byte range of a tensor that is not distributed. -/
def Desc.range (d : Desc) : Option (Nat × Nat) := spanBytes d d.base d.unitExt

/-- The region rules of Table 8.7 alone, for memory at another device (R161). -/
def regionAny (a n : Nat) : Bool :=
  let reg := fun x => if x < 8 * stackBytes then 0 else if lpBase ≤ x && x < 0x27400000000 then 1
    else if apBase ≤ x && x < apEnd then 2 else 3
  n = 0 || (reg a == reg (a + n - 1) && reg a != 3)

/-! ### Owner tables (R162 to R164) -/

/-- Blocks along dimension `k`. -/
def Desc.nb (d : Desc) (k : Nat) : Nat := cdiv (d.e k) (max 1 (d.b k))

/-- Block linear index of block coordinates. -/
def Desc.beta (d : Desc) (bs : List Nat) : Nat :=
  ((List.range d.rank).foldl (fun (r : Nat × Nat) k => (r.1 + bs.getD k 0 * r.2, r.2 * d.nb k)) (0, 1)).1

/-- The number of blocks. -/
def Desc.blocks (d : Desc) : Nat := (List.range d.rank).foldl (fun r k => r * d.nb k) 1

/-- The entry of block β in memory. -/
def ownerIn (s : State) (base beta : Nat) : Owner :=
  let b := peek s (base + 16 * beta) 16
  { loc := rd b 0 6, device := rd b 6 3, window := rd b 10 1,
    ok := rd b 9 1 == 1 && rd b 11 5 == 0 && rd b 6 3 ≠ 0xFFFFFF }

/-- The descriptor with the entries of its owner table, where it has one in installed memory. -/
def Desc.withOwners (d : Desc) (s : State) : Desc :=
  if d.distributed && installed s d.base (16 * d.blocks) then
    { d with own := (List.range d.blocks).map (ownerIn s d.base) }
  else d

/-- The entry of block β as the decode read it. -/
def Desc.owner (d : Desc) (beta : Nat) : Owner := d.own.getD beta { loc := 0, device := 0, window := 0, ok := false }

/-- Block coordinates of block β. -/
def Desc.blockOf (d : Desc) (beta : Nat) : List Nat :=
  ((List.range d.rank).foldl (fun (r : List Nat × Nat) k => (r.1 ++ [r.2 % d.nb k], r.2 / d.nb k)) ([], beta)).1

/-- The units that a block holds along each dimension; an edge block is cut short. -/
def Desc.blockUnits (d : Desc) (beta : Nat) : List Nat :=
  let bs := d.blockOf beta
  (List.range d.rank).map (fun k =>
    let n := min (d.b k) (d.e k - bs.getD k 0 * d.b k)
    if d.sparse && k < 2 then cdiv n 64 else n)

/-- Where a unit lies: its device and window where it is not this one, and its bit address. -/
structure Place where
  dev : Option (Nat × Nat)
  bit : Int
deriving DecidableEq, Repr

/-- The block of unit coordinates within the extents, and the coordinates within it. -/
def Desc.split (d : Desc) (c : List Nat) : List Nat × List Nat :=
  let f := fun k => if d.sparse && k < 2 then 64 else 1
  let bs := (List.range d.rank).map (fun k => c.getD k 0 * f k / max 1 (d.b k))
  (bs, (List.range d.rank).map (fun k => c.getD k 0 - bs.getD k 0 * d.b k / f k))

/-- The unit offset of coordinates. -/
def Desc.off (d : Desc) (c : List Nat) : Int :=
  (List.range d.rank).foldl (fun r k => r + d.s k * (c.getD k 0 : Nat)) 0

/-- The place of unit coordinates within the extents (R158, R159, R163). -/
def placeOf (s : State) (d : Desc) (c : List Nat) : Place :=
  if d.distributed then
    let p := d.split c
    let o := d.owner (d.beta p.1)
    { dev := if o.device = s.glob.deviceId then none else some (o.device, o.window)
      bit := (8 * o.loc : Int) + d.off p.2 * d.unitBits }
  else { dev := none, bit := (8 * d.base : Int) + d.off c * d.unitBits }

/-- The memory rules of R161. -/
def memOk (s : State) (d : Desc) (remote : Bool) : Bool :=
  if d.distributed then
    installed s d.base (16 * d.blocks) &&
    (List.range d.blocks).all (fun i =>
      let o := d.owner i
      !o.ok || (match spanBytes d o.loc (d.blockUnits i) with
        | none => false
        | some r => if o.device = s.glob.deviceId then installed s r.1 r.2 else regionAny r.1 r.2))
  else match d.range with
    | none => false
    | some r => if remote then regionAny r.1 r.2 else installed s r.1 r.2

/-- A descriptor decoded and checked (R161); the consumer names the record at `a`. -/
def decodeDesc (s : State) (a : Nat) (wrapOk remote : Bool) (who : Nat) : Except Bad Desc := do
  check (installed s a 128 && a % 64 == 0) (badDesc who)
  let d := descAt s a
  check (d.fieldsOk wrapOk) (badDesc who)
  let d := d.withOwners s
  check (memOk s d remote) (badDesc who)
  pure d

/-! ### Elements -/

/-- `w` bits at a bit address. -/
def bitsAt (s : State) (bit : Int) (w : Nat) : Nat :=
  let a := (bit / 8).toNat
  let k := (bit % 8).toNat
  fld (peekN s a (cdiv (k + w) 8)) k w

/-- The offset in the scale array of an element of a dense MX tensor (R160). -/
def Desc.scaleOff (d : Desc) (c : List Nat) : Nat :=
  ((List.range d.rank).foldl (fun (r : Nat × Nat) k =>
    let q := if k = d.mxDim then 32 else 1
    (r.1 + c.getD k 0 / q * r.2, r.2 * (d.e k / q))) (0, 1)).1

/-- The value of the element at coordinates of a dense tensor. -/
def elemVal (s : State) (d : Desc) (c : List Nat) : Val :=
  let v := decE d.fmt (bitsAt s (placeOf s d c).bit (fmtBits d.fmt))
  if isMx d.fmt then v.under (scaleExp (peekN s (d.scale + d.scaleOff c) 1)) else v

/-- The two-dimensional coordinates (column, row) of an operand; every other one is 0 (R429). -/
def at2 (col row : Nat) : List Nat := [col, row, 0, 0, 0, 0]

/-! ### Writes -/

/-- Bytes to be written, by address. -/
abbrev Buf := Tbl Byte

/-- Bytes put into a buffer; later ones replace earlier ones. -/
def putBytes (b : Buf) (a : Nat) : List Byte → Buf
  | [] => b
  | x :: xs => putBytes (tput b a x) (a + 1) xs

/-- `w` bits put at a bit address: the rest of the bytes is what the buffer or memory holds. -/
def putBits (s : State) (b : Buf) (bit : Int) (w v : Nat) : Buf :=
  let a := (bit / 8).toNat
  let k := (bit % 8).toNat
  let n := cdiv (k + w) 8
  let old := leNat ((List.range n).map (fun i => tget b (a + i) (memByte s.mem (a + i))))
  let keep := old - fld old k w * 2 ^ k
  putBytes b a (leBytes n (keep + (v % 2 ^ w) * 2 ^ k))

/-- The contiguous runs of a buffer, in ascending order. -/
def runsOf : Buf → List (Nat × List Byte)
  | [] => []
  | (a, x) :: r =>
    match runsOf r with
    | (c, ys) :: rs => if c = a + 1 then (a, x :: ys) :: rs else (a, [x]) :: (c, ys) :: rs
    | [] => [(a, [x])]

/-- Runs written in order by a stroke or another unit; lines that fail raise their faults after the writes (R195). -/
def commit (s : State) (who : Option (Nat × Nat)) (runs : List (Nat × List Byte)) : State :=
  let bad := runs.flatMap (fun r => failLines s r.1 r.2.length)
  bad.foldl (fun t l => lineErrorBy t who l) (runs.foldl (fun t r => store t r.1 r.2) s)

/-- The first line with an uncorrectable error among some reads. -/
def readsBad (s : State) (rs : List (Nat × Nat)) : Option Nat := rs.findSome? (fun r => badLine s r.1 r.2)

/-- Reads carried out: line counts and corrections. -/
def noteReads (s : State) (rs : List (Nat × Nat)) : State := rs.foldl (fun t r => noteRead t r.1 r.2) s

/-! ### Shape cells (Table 6.5) -/

/-- A shape cell breaks its layout (R430). -/
def cellBad (b : List Byte) : Bool :=
  let rank := rd b 2 1
  rd b 0 2 ≠ 0x4353 || rank = 0 || 6 < rank || 2 ≤ rd b 3 1 || rd b 40 24 ≠ 0 ||
  (List.range 6).any (fun k => rank ≤ k && rd b (8 + 4 * k) 4 ≠ 0) ||
  (!(rd b 3 1).testBit 0 && (rd b 32 4 ≠ 0 || rd b 36 4 ≠ 0))

/-- Extent `k` of a cell where it is supplied, else the compiled maximum (R153). -/
def cellExt (b : List Byte) (k most : Nat) : Nat := if k < rd b 2 1 then rd b (8 + 4 * k) 4 else most

/-- The detail of SHAPE_LIMIT (R154). -/
def shapeDetail (k found most : Nat) : Nat := k + (found % 2 ^ 30) * 2 ^ 4 + (most % 2 ^ 30) * 2 ^ 34

/-- The bytes of a cell that a consumer names, checked against its compiled maxima (R153, R154, R430). The record of a malformed cell holds
the cell's address, which neither R430 nor R45 gives (DESIGN CHOICE, log 71). -/
def useCell (s : State) (a : Nat) (most : List Nat) : Except Bad (List Nat) :=
  if a = 0 then .ok most
  else do
    check (installed s a 64 && a % 64 == 0) (badDesc a)
    let b := peek s a 64
    check (!cellBad b) (badDesc a)
    match (List.range most.length).find? (fun k => decide (most.getD k 0 < cellExt b k (most.getD k 0))) with
    | some k => .error { code := 5, addr := a, detail := shapeDetail k (cellExt b k 0) (most.getD k 0) }
    | none => .ok (most.zipIdx.map (fun p => cellExt b p.2 p.1))

/-! ### The stroke that an operation belongs to (log 22) -/

/-- The stroke in progress, its Ductus and its record. -/
structure Ctx where
  l : Nat
  i : Nat
  p : Nat
  k : Stroke
  run : Running

/-- The stroke `i` of logical Folio `l`, if it has issued, its class is right and its data effect is not made yet. In a stalled
cycle no stroke advances (R43), and after an abort none does. -/
def ctxOf (s : State) (l i cls : Nat) : Option Ctx :=
  if !s.frame.live || s.frame.aborted || s.frame.blocked then none
  else
    match curDuctus s, s.frame.prog.find? (fun r => r.folio == l && r.idx == i && r.cls == cls && !r.done) with
    | some d, some r => some { l := l, i := i, p := (physOf s l).getD 0, k := strokeAt s d l i, run := r }
    | _, _ => none

/-- The stroke's data effect is made. -/
def doneRun (s : State) (l i : Nat) : State :=
  { s with frame.prog := s.frame.prog.map (fun r => if r.folio == l && r.idx == i then { r with done := true } else r) }

/-- The record about a failing stroke. -/
def badRecord (s : State) (l i : Nat) (b : Bad) : FaultRec :=
  let r := strokeFault s l i b.code b.addr b.detail
  let r := match b.quill with | some q => { r with quill := q, valid := r.valid + 4 } | none => r
  match b.nib with | some n => { r with nib := n, die := 8 + n / 32, src := 2, key := n, valid := r.valid + 8 } | none => r

/-- The abort that a failing stroke causes (R45). -/
def failStroke (s : State) (l i : Nat) (b : Bad) : State := abortWith s (badRecord s l i b) false

/-- What a stroke that runs in the cycle of an abort still raises: every fault of the cycle is recorded, and nothing more is
written (R86, R106). -/
def inAbortCycle (s : State) (f : State → State) : State :=
  if !s.frame.aborted then f s
  else if abortedNow s then
    let u := f { s with frame.aborted := false, frame.abortedAt := none }
    { s with flt := u.flt, cnt := u.cnt }
  else s

/-- The backward flag of a stroke (R127). -/
def Ctx.back (c : Ctx) : Bool := c.k.flags.testBit 2
/-- EXACT_ORDER. -/
def Ctx.exact (c : Ctx) : Bool := c.k.flags.testBit 3
/-- An event origin in a stroke: USER, a master, the class. -/
def Ctx.from (c : Ctx) (master : Nat) (addr : Option Nat) : Origin :=
  { priv := 0, master := master, cls := some c.k.cls, addr := addr }
/-- The Quills of the stroke in ascending order: Quill slot j is entry j. -/
def Ctx.quills (c : Ctx) : List Nat := (List.range 8).filter (fun q => c.k.quills.testBit q)

end Sys2Proof.Machine
end

