-- ==== Sys2Proof/Machine/Sched.lean ====
section
/-! DEFINITION. The SCHEDULED traffic of a Ductus: the devices to which its strokes send and the ports that lead to them (R252,
R255, R334). -/

namespace Sys2Proof.Machine

open Sys2Proof

/-! ### Chains of Nib records (R202) -/

/-- Bytes of a Nib record. -/
def nibRecBytes (op : Nat) : Nat := if op = 2 then 64 else 128

/-- The addresses of a chain's records, at most `n`. -/
def nibChain (s : State) : Nat → Nat → Except Bad (List Nat)
  | 0, a => .error (badDesc a)
  | n + 1, a =>
    let op := peekN s a 1
    let next := peekN s (a + 8) 8
    if a % 64 ≠ 0 || !installed s a 64 || op = 0 || 3 < op || !installed s a (nibRecBytes op) || peekN s (a + 1) 7 ≠ 0 ||
       2 ^ 48 ≤ next || next % 64 ≠ 0 then .error (badDesc a)
    else if next = 0 then .ok [a]
    else (nibChain s n next).map (fun r => a :: r)

/-- The addresses of a chain's records; none where one of them breaks its layout. -/
def chainRecs (s : State) (a : Nat) : List Nat := match nibChain s 4096 a with | .ok l => l | .error _ => []

/-! ### What a stroke names -/

/-- The tensor descriptors that a Nib record names: the tensors of a stencil and of its faces, the tensor of a digest, and the sparse
weight of an optimiser (Tables 8.9, 8.10 and 9.4). -/
def nibDescs (s : State) (a : Nat) : List Nat :=
  let f := fun off => peekN s (a + off) 8 % 2 ^ 48
  let op := peekN s a 1
  if op = 1 then (List.range 8).map (fun i => f (32 + 8 * i))
  else if op = 2 then (if peekN s (a + 16) 1 = 0 then [] else [f 24])
  else if (peekN s (a + 19) 1).testBit 0 then [f 24] else []

/-- The tensor descriptors that a mask record names (Table 5.6). -/
def maskDescs (s : State) (a : Nat) : List Nat :=
  let f := fun off => peekN s (a + off) 8 % 2 ^ 48
  f 16 :: (if peekN s a 1 = 2 || peekN s a 1 = 3 then [f 24] else [])

/-- The tensor descriptors that a stroke names, through its record (Tables 5.1, 5.6, 6.1, 7.3, 8.8 and 9.2). -/
def namedDescs (s : State) (k : Stroke) : List Nat :=
  let a := k.op % 2 ^ 48
  let f := fun off => peekN s (a + off) 8 % 2 ^ 48
  (if k.cls = 1 then [f 24, f 32, f 40, f 48]
   else if k.cls = 3 || k.cls = 5 then [f 8, f 16]
   else if k.cls = 4 then (chainRecs s a).flatMap (nibDescs s)
   else if k.cls = 6 then [f 16, f 24]
   else if k.cls = 7 then (if (peekN s (a + 1) 1).testBit 1 then [f 24] else [])
   else if k.cls = 8 then maskDescs s a else []).filter (fun d => d ≠ 0)

/-- The reads of some descriptors and of the owner tables that they name (R114, R164). -/
def descReads (s : State) (descs : List Nat) : List (Nat × Nat) :=
  descs.map (fun y => (y, 128)) ++
  descs.filterMap (fun y => let d := descAt s y; if d.magic = 0x4454 && d.distributed then some (d.base, 16 * d.blocks) else none)

/-- Those of some reads that lie in installed memory. -/
def realReads (s : State) (rs : List (Nat × Nat)) : List (Nat × Nat) := rs.filter (fun r => r.1 ≠ 0 && installed s r.1 r.2)

/-- The entry of replica `q` of expert `e`. -/
def shareAt (s : State) (table reps e q : Nat) : Share :=
  let b := peek s (table + 16 * (reps * e + q)) 16
  { loc := rd b 0 6, dev := rd b 6 3, win := rd b 9 1, share := rd b 10 2, ret := rd b 12 4 }

/-- The devices that hold blocks of a distributed tensor, by the address of its descriptor (R162). -/
def ownersOf (s : State) (a : Nat) : List Nat :=
  let d := descAt s a
  if d.magic = 0x4454 && d.distributed && d.rank ≤ 6 then ((d.withOwners s).own).map (fun o => o.device) else []

/-- The devices to which a stroke sends SCHEDULED packets: a fabric send of TRAFFIC 0 to its destination (Table 7.3), a DISPATCH to
the experts of its share table, with `reps` entries for each (R145), and every stroke to the owners of the blocks that it names
(R163). -/
def strokeDsts (s : State) (reps : Nat) (k : Stroke) : List Nat :=
  let a := k.op % 2 ^ 48
  if k.cls = 5 && peekN s (a + 3) 1 ≠ 0 then []
  else
    let named := (namedDescs s k).flatMap (ownersOf s)
    if k.cls = 5 && (peekN s (a + 1) 1).testBit 4 then peekN s (a + 120) 3 :: named
    else if k.cls = 6 && peekN s a 1 = 1 then
      ((List.range (reps * min 1024 (peekN s (a + 4) 2))).filterMap (fun i =>
        let h := shareAt s (peekN s (a + 32) 8 % 2 ^ 48) 1 i 0
        if h.share = 0 then none else some h.dev)) ++ named
    else named

/-- The other devices to which a Ductus sends SCHEDULED packets. -/
def schedDsts (s : State) (d : Loaded) : List Nat :=
  (((allStrokes s d).flatMap (fun x => strokeDsts s (if (hdrField s d 38 2).testBit 3 then 4 else 1) x.2.2)).filter
    (fun v => decide (v ≠ s.glob.deviceId))).eraseDups

/-- The ports on which a Ductus sends SCHEDULED traffic. -/
def schedPorts (s : State) (d : Loaded) : List Nat :=
  (schedDsts s d).filterMap (fun dst => match routeOf s dst with | some (some p) => some p | _ => none)

end Sys2Proof.Machine
end

