-- ==== Sys2Proof/Machine/Power.lean ====
section
/-! DEFINITION. Power domains: votes, holds, entry, wake (R328 to R340, R412). -/

namespace Sys2Proof.Machine

open Sys2Proof

/-- The prerequisite of a domain (Table 13.1). -/
def prereq (n : Nat) : Option Nat :=
  if n ≤ 67 then some (68 + n / 17)
  else if 72 ≤ n && n ≤ 79 then some (68 + (n - 72) / 2)
  else if 80 ≤ n && n ≤ 111 then some (72 + (n - 80) / 4) else none

/-- A domain that may enter SR: stacks and LPDDR6 groups (Table 13.1). -/
def retainable (n : Nat) : Bool := (72 ≤ n && n ≤ 79) || (124 ≤ n && n ≤ 127)

/-- An in-band interrupt, coalesced per data byte with those that the controller has not taken (R347). -/
def raiseIbi (s : State) (b : Nat) : State :=
  if s.i3c.ibi.contains b then s else { s with i3c.ibi := s.i3c.ibi ++ [b] }

/-- The controller takes the in-band interrupts: it does so before a transfer of its own (log 17). -/
def takeIbi (s : State) : State := { s with out.ibi := s.out.ibi ++ s.i3c.ibi, i3c.ibi := [] }

/-- The counters of a domain's blocks, as index ranges of the snapshot order (R364). -/
def domCounters (n : Nat) : List (Nat × Nat) :=
  if n ≤ 67 then [(32 + 64 * n, 96 + 64 * n), (4384 + 16 * n, 4400 + 16 * n)]
  else if 72 ≤ n && n ≤ 79 then [(9056 + 16 * (n - 72), 9072 + 16 * (n - 72))]
  else if 80 ≤ n && n ≤ 111 then [(5472 + 64 * (n - 80), 5536 + 64 * (n - 80))]
  else if 112 ≤ n && n ≤ 123 then [(7520 + 128 * (n - 112), 7648 + 128 * (n - 112))]
  else if 124 ≤ n && n ≤ 127 then [(9184 + 64 * (n - 124), 9248 + 64 * (n - 124))] else []

/-- A counter's domain is ON; device-wide counters lie outside every domain (R364). -/
def ctrDomain (k : Nat) : Option Nat :=
  (List.range 132).find? (fun n => (domCounters n).any (fun r => r.1 ≤ k && decide (k < r.2)))

/-- The counters of a domain lose their values (R365). -/
def zeroCounters (s : State) (n : Nat) : State :=
  (domCounters n).foldl (fun t r =>
    { t with cnt.ctr := t.cnt.ctr.map (fun x =>
        if r.1 ≤ x.1 && decide (x.1 < r.2) then (x.1, { x.2 with val := 0, wrapped := false }) else x) }) s

/-- The port is TIME_SOURCE: Drutur on a lane of the group, or ETH_n. -/
def isTimeLane (s : State) (p : Nat) : Bool := s.time.source == 3 && s.time.sourceLane == p

/-- The ports of a link group. -/
def groupPorts (s : State) (g : Nat) : List Nat :=
  (List.range 96).filter (fun n => n / 8 == g && portOf s n == n)

/-- A checkpoint slot is being written or mirrored (R229). -/
def ckptBusy (s : State) : Bool := s.train.writing.isSome || (s.train.doneSlot.isSome && !s.train.mirrored)

/-- The hold condition of a domain, as the refuser id of Table 13.6 (Table 13.5). -/
def holdOf (s : State) (n : Nat) : Option Nat :=
  let stackHeld := fun k => jobExists s && s.glob.stackUse.testBit k
  if n ≤ 67 then
    match logicalOf s n with
    | some l => if 3 ≤ jobPhase s && jobPhase s ≤ 5 then some (0x8000 + l) else none
    | none => none
  else if 72 ≤ n && n ≤ 79 then (if stackHeld (n - 72) then some 0x8FFF else none)
  else if 80 ≤ n && n ≤ 111 then (if stackHeld ((n - 80) / 4) then some 0x8FFF else none)
  else if 112 ≤ n && n ≤ 123 then
    let ps := groupPorts s (n - 112)
    match (rotation s).find? (fun d => (schedPorts s d).any (fun p => ps.contains p)) with
    | some d => some (0x9000 + d.id % 4096)
    | none =>
      if ps.any (isTimeLane s) then some 0xA000
      else if (s.glob.jobState == 0 && s.pins.bootSrc == 1 && ps.contains s.boot.bootPort) ||
          (s.rings.host == 1 && ps.any (fun p => routeOf s s.rings.hostDevice == some (some p))) then some 0xB000
      else none
  else if 124 ≤ n && n ≤ 127 then
    match (rotation s).find? (lpUsed s) with
    | some d => some (0x9000 + d.id % 4096)
    | none => if ckptBusy s then some 0xC000 else none
  else if n = 128 then
    (if (s.job.session ≠ 0 && s.glob.jobState ≠ 6 && s.rings.host = 0) || (s.glob.jobState = 0 && s.pins.bootSrc = 0)
      then some 0xB000 else none)
  else if n = 129 || n = 130 then (if s.time.source = n - 128 then some 0xA000 else none)
  else none

/-- A count saturating at 16 bits (R336). -/
def sat16 (v : Nat) : Nat := satN 0xFFFF v

/-- Entry requested for a domain that is ON and holds no vote (R332, R334): refused while a hold condition holds, which counts once
for each withdrawal, else DRAIN. -/
def requestEntry (s : State) (n : Nat) : State :=
  let d := dom s n
  if d.state ≠ 2 || d.votes ≠ 0 then s
  else match holdOf s n with
    | some r =>
      let d' := { d with refusedNow := true, counted := true }
      let t := setDom s n (if d.counted then d' else { d' with refused := sat16 (d.refused + 1), last := r })
      if !d.counted && d.boardWithdrew then raiseIbi t 3 else t
    | none => setDom s n { d with state := 3, refusedNow := false, toSr := retainable n && d.retain }

/-- A domain back to ON out of DRAIN (R335). -/
def abortEntry (s : State) (n refuser : Nat) : State :=
  let d := dom s n
  let t := setDom s n { d with state := 2, aborted := sat16 (d.aborted + 1), last := refuser }
  if d.boardWithdrew then raiseIbi t 3 else t

/-- A vote of a client gained (R332, R335, R339). `info` is bits [11:0] of the refuser id. -/
def gainVote (s : State) (n bit info : Nat) : State :=
  let d := dom s n
  let d' := { d with votes := d.votes ||| 2 ^ bit, refusedNow := false, counted := false, boardWithdrew := d.boardWithdrew && bit ≠ 5 }
  if d.state = 3 then abortEntry (setDom s n { d' with boardWithdrew := d.boardWithdrew }) n ((bit + 1) * 0x1000 + info)
  else if d.state = 4 then setDom s n { d' with wakePending := true }
  else setDom s n d'

/-- A vote of a client withdrawn (R332): a domain that is ON and holds none requests entry. -/
def loseVote (s : State) (n bit : Nat) : State :=
  let d := dom s n
  if !d.votes.testBit bit then s
  else
    requestEntry (setDom s n { d with votes := d.votes ^^^ 2 ^ bit, boardWithdrew := bit == 5, counted := false }) n

/-- The dependant vote of one prerequisite, as its dependants stand: any that is not OFF, or that waits to wake (R331, R338). -/
def refreshOne (s : State) (p : Nat) : State :=
  let want := (List.range 132).any (fun c => prereq c == some p && ((dom s c).state ≠ 0 || (dom s c).votes ≠ 0))
  let has := (dom s p).votes.testBit 6
  if want && !has then gainVote s p 6 0 else if !want && has then loseVote s p 6 else s

/-- The power core is stopped by its watchdog (R304), or between the switch of an activation and its ACCEPT or revert (R324). -/
def powerHeld (s : State) : Bool := s.power.stopped || coreSwitching s 1

/-- The dependant votes of every prerequisite: the stacks, then the uncores. While the power core is held, they stay as they are
(R304). -/
def refreshDeps (s : State) : State :=
  if powerHeld s then s else ((List.range 8).map (· + 72) ++ [68, 69, 70, 71]).foldl refreshOne s

/-- A vote set or withdrawn; queued while the power core is held (R304, R324, R332). Votes for the always-on domain are ignored. -/
def vote (s : State) (n bit : Nat) (on : Bool) (info : Nat) : State :=
  if n = 131 then s
  else if powerHeld s then { s with power.queued := s.power.queued ++ [(n, 8 * info + bit, on)] }
  else refreshDeps (if on then gainVote s n bit info else loseVote s n bit)

/-- A client's vote as it stands once the votes that wait have taken effect (R332). -/
def standing (s : State) (n bit : Nat) : Bool :=
  match (s.power.queued.filter (fun v => v.1 == n && v.2.1 % 8 == bit)).getLast? with
  | some v => v.2.2
  | none => (dom s n).votes.testBit bit

/-- The partner's vote on link group `g` withdrawn once every port on which it voted is down (R254, R333). -/
def dropPartner (s : State) (g : Nat) : State :=
  let mine := s.power.partner.filter (fun p => p / 8 == g)
  if mine.isEmpty || mine.any (portUp s) then s
  else
    let t := { s with power.partner := s.power.partner.filter (fun p => p / 8 != g) }
    if standing t (112 + g) 3 then vote t (112 + g) 3 false 0 else t

/-- Entries in DRAIN for which a hold condition has arisen are aborted (R335). -/
def recheckDrains (s : State) : State :=
  (List.range 132).foldl (fun t n =>
    if (dom t n).state = 3 then (match holdOf t n with | some r => abortEntry t n r | none => t) else t) s

/-- A domain that is ready to wake (R338); emergency level 2 holds back Folios, Nib groups, and stacks and LPDDR6 groups
from OFF (R344). -/
def readyToWake (s : State) (n : Nat) : Bool :=
  let d := dom s n
  (d.state = 0 || d.state = 5) && decide (d.votes ≠ 0) &&
  (match prereq n with | some p => (dom s p).state == 2 | none => true) &&
  !(2 ≤ s.power.level && (n ≤ 67 || (80 ≤ n && n ≤ 111) || (d.state == 0 && retainable n)))

/-- The domains in the row order of Table 13.7. -/
def wakeOrder : List Nat :=
  [68, 69, 70, 71] ++ List.range 68 ++ (List.range 8).map (· + 72) ++ (List.range 32).map (· + 80) ++
  (List.range 12).map (· + 112) ++ (List.range 4).map (· + 124) ++ [128, 129, 130]

/-- The wake slot: at most one wake starts (R338, R339). -/
def opWakeSlot (s : State) : State :=
  match wakeOrder.find? (readyToWake s) with
  | none => s
  | some n =>
    let d := dom s n
    let t := setDom s n { d with state := 1, afterShutdown := false }
    refreshDeps (if d.afterShutdown then devEvent t 0x56 1 else t)

/-- The LANES value of a lane takes effect at its next page exchange (R420): the lanes above it join its port or leave it; a
lane inside the port of a lower lane ignores its own value. -/
def applyLanes (s : State) (n : Nat) : State :=
  if (lane s n).base.isSome then s
  else (List.range 7).foldl (fun t i =>
    let k := n + 1 + i
    let x := lane t k
    if k / 8 ≠ n / 8 then t
    else if i + 1 < (lane t n).lanes then setLane t k { x with base := some n }
    else if x.base = some n then setLane t k { x with base := none } else t) s

/-- A lane's restart at PAGES (R247, R254): a new page, a new NONCE, an empty link layer. -/
def restartPages (s : State) (n : Nat) : State :=
  let r := freshNat (applyLanes s n)
  let l := lane r.2 n
  let u := setLink r.2 n {}
  setLane u n { l with
    state := if l.disable || !domOn s (112 + n / 8) then 0 else 1, reason := 0, rateLatch := l.rateMax, rejoin := false, rate := 0, nonce := r.1 % 2 ^ 64, pageSeq := (l.pageSeq + 1) % 256, echoSeq := 0 }

/-- A lane OFF. -/
def laneOff (s : State) (n : Nat) : State :=
  setLane (setLink s n {}) n { lane s n with state := 0, rate := 0, rejoin := false }

/-- The lanes of a link group. -/
def groupLanes (g : Nat) : List Nat := (List.range 8).map (· + 8 * g)

/-- What reaching ON does beside the state: a link group's lanes enter PAGES, the vaults or channels of a stack or LPDDR6 group that
was OFF are trained (R337); a Folio's banks hold undefined content (R191). -/
def onArrival (s : State) (n : Nat) (fromSr : Bool) : State :=
  if 112 ≤ n && n ≤ 123 then
    (groupLanes (n - 112)).foldl (fun t k => if (lane t k).state = 0 && !(lane t k).disable then restartPages t k else t) s
  else if 72 ≤ n && n ≤ 79 && !fromSr then (List.range 32).foldl (fun t i => trainVault t (32 * (n - 72) + i)) s
  else if 124 ≤ n && n ≤ 127 && !fromSr then
    ((List.range 8).filter (fun i => 8 * (n - 124) + i < s.mem.lpChannels)).foldl (fun t i => trainChannel t (8 * (n - 124) + i)) s
  else if n ≤ 67 then (match logicalOf s n with | some l => forgetFolio s l | none => s)
  else s

/-- The wake sequence ends (R332, R337, R339, R347). A request for entry waits while the power core is held. -/
def opWakeComplete (s : State) (n : Nat) : State :=
  let d := dom s n
  if d.state ≠ 1 then s
  else
    let t := onArrival (setDom s n { d with state := 2, wakePending := false, toSr := false }) n d.toSr
    let u := if d.votes.testBit 5 then raiseIbi t 2 else t
    refreshDeps (if powerHeld u then setDom u n { dom u n with retry := decide (d.votes = 0) } else requestEntry u n)

/-- The last hold condition of an unvoted ON domain clears (R334). -/
def opHoldRelease (s : State) (n : Nat) : State :=
  let d := dom s n
  if d.refusedNow && (holdOf s n).isNone && !powerHeld s then requestEntry s n else s

/-- DRAIN completes; SHUTDOWN begins (R335), unless a hold condition has arisen. -/
def opDrainComplete (s : State) (n : Nat) : State :=
  let d := dom s n
  if d.state ≠ 3 then s
  else match holdOf s n with
    | some r => abortEntry s n r
    | none => zeroCounters (setDom s n { d with state := 4 }) n

/-- DRAIN exceeds its limit (R335). -/
def opDrainTimeout (s : State) (n unit : Nat) : State :=
  if (dom s n).state ≠ 3 then s
  else
    let t := abortEntry s n (0xD000 + unit)
    setDom t n { dom t n with retry := true }

/-- 10 ms after a timeout abort (R335). -/
def opEntryRetry (s : State) (n : Nat) : State :=
  let d := dom s n
  if d.retry && !powerHeld s then requestEntry (setDom s n { d with retry := false }) n else s

/-- The PCIe link down: the configuration of the function is reset (log 58). -/
def pcieDrop (s : State) : State :=
  { s with
    pcie.up := false, pcie.rate := 0, pcie.width := 0, pcie.flit := false, pcie.busMaster := false, pcie.maxPayload := 128
    pcie.maxReadReq := 512, pcie.msixEn := false }

/-- What reaching OFF or SR loses: DRAM contents when OFF, tags and scratchpad of a Folio, lanes, the PCIe link and the
Ethernet link (R328, R330, R333, R340). -/
def onGone (s : State) (n : Nat) (sr : Bool) : State :=
  if n ≤ 67 then (match logicalOf s n with | some l => forgetFolio s l | none => s)
  else if 72 ≤ n && n ≤ 79 then
    (if sr then s else forget s ((n - 72) * stackBytes) ((n - 71) * stackBytes) none)
  else if 112 ≤ n && n ≤ 123 then
    let t := (groupLanes (n - 112)).foldl flushDown ((groupLanes (n - 112)).foldl laneOff s)
    let t := (groupLanes (n - 112)).foldl (fun u p => setPort u p { port u p with removed := 0 }) t
    { t with power.partner := t.power.partner.filter (fun p => p / 8 ≠ n - 112) }
  else if 124 ≤ n && n ≤ 127 then
    (if sr then s else forget s lpBase (lpBase + lpUsable s) (some (s.mem.lpChannels, n - 124)))
  else if n = 128 then pcieDrop s
  else if n = 129 || n = 130 then setEth s (n - 129) { ethPort s (n - 129) with up := false }
  else s

/-- A shutdown reaches OFF or SR, and the votes as they stand decide whether a wake follows (R339). -/
def opShutdownComplete (s : State) (n : Nat) : State :=
  let d := dom s n
  if d.state ≠ 4 then s
  else
    let t := onGone s n d.toSr
    let votes := if 112 ≤ n && n ≤ 123 then d.votes &&& 0x77 else d.votes
    let wake := decide (votes ≠ 0)
    refreshDeps (setDom t n { d with
      state := if d.toSr then 5 else 0, wakePending := wake, afterShutdown := wake, votes := votes })

/-- A vote of the supervisor or the board controller on the domains of a bit mask (R331, R346, R412): a Folio, the
always-on domain and an id beyond the last count under VOTE_BAD. -/
def maskVote (s : State) (first width bits client : Nat) (on : Bool) : State :=
  (List.range width).foldl (fun t k =>
    if !bits.testBit k then t
    else
      let n := first + k
      if n ≤ 67 || 131 ≤ n then devEvent t 0x55 1 else vote t n client on 0) s

/-- The counters and the refuser of one or all domains cleared (R412). -/
def clearDomains (s : State) (v : Nat) : State :=
  (List.range 132).foldl (fun t n =>
    if v.testBit 8 || v % 256 = n then setDom t n { dom t n with refused := 0, aborted := 0, last := 0 } else t) s

/-- The scheduler's vote on a Folio follows its state: ACTIVE and UNDER_TEST have it (R331). -/
def folioVote (s : State) (n : Nat) : State :=
  let st := (folio s n).state
  let want := st = 0 || st = 2
  if want = standing s n 0 then s else vote s n 0 want 0

/-- A Folio in a new state of Table 1.6. -/
def setFolioState (s : State) (n st : Nat) : State := folioVote (setFolio s n { folio s n with state := st }) n

/-! ### The meanings -/

/-- WAKE_SLOT. -/
def execWakeSlot (s : State) : Host.Outcome State Fault Refusal :=
  whenAlive .wakeSlot s (if powerHeld s then s else opWakeSlot s)
/-- WAKE_COMPLETE. -/
def execWakeComplete (d : Nat) (s : State) : Host.Outcome State Fault Refusal :=
  whenAlive (.wakeComplete d) s (opWakeComplete s d)
/-- HOLD_RELEASE. -/
def execHoldRelease (d : Nat) (s : State) : Host.Outcome State Fault Refusal :=
  whenAlive (.holdRelease d) s (opHoldRelease s d)
/-- DRAIN_COMPLETE. -/
def execDrainComplete (d : Nat) (s : State) : Host.Outcome State Fault Refusal :=
  whenAlive (.drainComplete d) s (opDrainComplete s d)
/-- DRAIN_TIMEOUT. -/
def execDrainTimeout (d u : Nat) (s : State) : Host.Outcome State Fault Refusal :=
  whenAlive (.drainTimeout d u) s (opDrainTimeout s d u)
/-- ENTRY_RETRY. -/
def execEntryRetry (d : Nat) (s : State) : Host.Outcome State Fault Refusal :=
  whenAlive (.entryRetry d) s (opEntryRetry s d)
/-- SHUTDOWN_COMPLETE. -/
def execShutdownComplete (d : Nat) (s : State) : Host.Outcome State Fault Refusal :=
  whenAlive (.shutdownComplete d) s (opShutdownComplete s d)
/-- SUPV_VOTE_SET (R331): bit k of register m votes on domain 64m + k. -/
def execSupvVoteSet (m bits : Nat) (s : State) : Host.Outcome State Fault Refusal :=
  whenAlive (.supvVoteSet m bits) s (maskVote s (64 * m) 64 bits 2 true)
/-- SUPV_VOTE_CLR (R412). -/
def execSupvVoteClr (m bits : Nat) (s : State) : Host.Outcome State Fault Refusal :=
  whenAlive (.supvVoteClr m bits) s (maskVote s (64 * m) 64 bits 2 false)
/-- POWER_DOM_CLEAR (R412). -/
def execPowerDomClear (v : Nat) (s : State) : Host.Outcome State Fault Refusal :=
  whenAlive (.powerDomClear v) s (clearDomains s v)
/-- I3C_VOTE_SET (R331). -/
def execI3cVoteSet (bits : Nat) (s : State) : Host.Outcome State Fault Refusal :=
  whenAlive (.i3cVoteSet bits) s (maskVote (takeIbi s) 0 136 bits 5 true)
/-- I3C_VOTE_CLR (R331). -/
def execI3cVoteClr (bits : Nat) (s : State) : Host.Outcome State Fault Refusal :=
  whenAlive (.i3cVoteClr bits) s (maskVote (takeIbi s) 0 136 bits 5 false)

/-- POWER_VOTE (R333): the partner of the arriving port sets or withdraws its vote on the port's link group, which must be ON to
receive it; the partner bit stands while any port of the group holds one. -/
def opPowerVote (s : State) (p : Nat) (pkt : Packet) : State :=
  let b := pkt.payload
  let ok := b.length = 32 && rd b 0 1 = 0x30 && rd b 1 1 ≤ 1 && rd b 2 30 = 0
  let g := p / 8
  if !domOn s (112 + g) then s
  else if !ok then devEvent s 0x55 1
  else
    let hold := rd b 1 1 = 1
    let t := { s with power.partner := if hold then insertNat p s.power.partner else eraseNat p s.power.partner }
    let want := t.power.partner.any (fun q => q / 8 = g)
    if want = standing t (112 + g) 3 then t else vote t (112 + g) 3 want p

/-- POWER_VOTE. -/
def execPowerVote (p : Nat) (pkt : Packet) (s : State) : Host.Outcome State Fault Refusal :=
  whenAlive (.powerVote p pkt) s (opPowerVote s p pkt)

/-! ### Power limit, emergency levels (R341 to R345) -/

/-- A temperature, 1/16 °C, of the hottest sensor of a die. -/
def tempOf (s : State) (d : Nat) : Int := tget s.power.temps d 0

/-- The compute dies. -/
def computeDies : List Nat := [0, 1, 2, 3]
/-- The stacks. -/
def stackDies : List Nat := [8, 9, 10, 11, 12, 13, 14, 15]

/-- The thresholds of Table 13.10 for a die, by level, in °C. -/
def threshold (level d : Nat) : Int :=
  if d < 4 then (if level = 1 then 100 else 105) else (if level = 1 then 88 else 92)

/-- A temperature condition: present from its threshold on, and absent only once the reading is 3 °C below (R343). -/
def hotNow (s : State) (x : Nat × Nat) : Bool :=
  let t := tempOf s x.2
  decide (threshold x.1 x.2 * 16 ≤ t) || (s.power.hot.contains x && decide (threshold x.1 x.2 * 16 - 48 < t))

/-- The temperatures of an update, and the conditions that they leave. -/
def withTemps (s : State) (temps : List Int) : State :=
  let t := { s with power.temps := (temps.zipIdx).map (fun (x : Int × Nat) => (x.2, x.1)) }
  { t with power.hot := ([1, 2].flatMap (fun l => (computeDies ++ stackDies).map (fun d => (l, d)))).filter (hotNow t) }

/-- A die of a list whose condition for a level is present. -/
def hotDie (s : State) (level : Nat) (dies : List Nat) : Option Nat := dies.find? (fun d => s.power.hot.contains (level, d))

/-- The average power exceeds POWER_LIMIT_EFF. -/
def overLimit (s : State) : Bool := decide (8 * s.power.limitEff < s.power.average)

/-- The entry condition of level 1 (Table 13.10). -/
def level1 (s : State) : Bool := overLimit s || (hotDie s 1 (computeDies ++ stackDies)).isSome || s.pins.alertBoard

/-- The cause and die of level 2, if its entry condition holds (Table 13.10, R344). ALERT_N held for 10 ms comes as its own
command. -/
def level2 (s : State) : Option (Nat × Nat) :=
  if s.power.dead then some (5, 4)
  else match hotDie s 2 computeDies with
    | some d => some (2, d)
    | none => match hotDie s 2 stackDies with
      | some d => some (3, d)
      | none =>
        if overLimit s && decide (s.power.window * 1000000 ≤ s.power.allowFrames * s.time.period * 5) &&
            decide (0 < s.power.allowFrames) then some (1, 4) else none

/-- The level is the highest that holds; a change is told over I3C, and ALERT_N is driven while it is 2 or 3 (R343 to R345). -/
def settleLevel (s : State) : State :=
  let l := s.power.conditions.foldl max 0
  if l = s.power.level then s else raiseIbi { s with power.level := l, pins.alertOut := decide (2 ≤ l) } 1

/-- An emergency of level 2 that begins before the old image has sealed returns the activation to pending (R323). -/
def deferAct (s : State) : State :=
  match s.act with
  | some a => if a.stage = 2 then { s with act := some { a with stage := 1, deferred := true } } else s
  | none => s

/-- Entry to level 2: the record, and the pause of the job at the next seam (R344). The record says JOB where a job is there to pause
(R349). -/
def enterLevel2 (s : State) (cause die : Nat) : State :=
  if s.power.conditions.contains 2 then s
  else
    let t := settleLevel { deferAct s with power.conditions := insertNat 2 s.power.conditions, power.cause := cause }
    let pauses := 3 ≤ jobPhase t && jobPhase t ≤ 4
    let u := raiseFault t { code := 0x17, sev := if pauses then 4 else 0, detail := cause + 16 * die, src := 6 }
    if pauses then { u with job.pauseNow := true } else u

/-- The levels as the thresholds give them (R343, R344). -/
def applyLevels (s : State) : State :=
  let t := if level1 s then settleLevel { s with power.conditions := insertNat 1 s.power.conditions } else s
  match level2 t with
  | some (c, d) => enterLevel2 t c d
  | none => t

/-- The trip point of a die, in °C: level 3 (R395, Table 13.10). -/
def tripPoint (d : Nat) : Int := if d < 4 then 110 else 95

/-- A compute die or a stack at its trip point. -/
def tripHot (s : State) : Bool := (computeDies ++ stackDies).any (fun d => decide (tripPoint d * 16 ≤ tempOf s d))

/-- The comparator drives THERMTRIP_N low, and every clock outside the always-on domain stops (R345): level 3. -/
def trip (s : State) : State :=
  if s.pins.thermtrip then s
  else
    let t := raiseIbi { s with pins.thermtrip := true, pins.clocksStopped := true } 4
    settleLevel { t with
      power.conditions := insertNat 3 t.power.conditions,
      lanes := t.lanes.map (fun x => (x.1, { x.2 with state := 0 })), pcie := (pcieDrop t).pcie
      eth := t.eth.map (fun x => (x.1, { x.2 with up := false })) }

/-- The comparator acts on the readings (R395). -/
def checkTrip (s : State) : State := if tripHot s then trip s else s

/-- POWER_UPDATE while the power core is held (R304, R324): the fixed hardware limits stay in force, which are the stall rate as it is
and the emergency thresholds. -/
def opPowerFixed (s : State) (temps : List Int) : State := checkTrip (applyLevels (withTemps s temps))

/-- POWER_UPDATE (R342, R343): the window average, the limit in force, the stall fraction and the levels. -/
def opPowerUpdate (s : State) (est : Nat) (temps : List Int) : State :=
  let e := est * s.power.calib / 1024
  let e := if s.power.uncalibrated then est + est / 10 else e
  let ws := (e :: s.power.samples).take (100 * s.power.window)
  let avg := ws.foldl (· + ·) 0 / ws.length
  let lim := min s.power.limitBoard s.power.limitSupv
  let t := withTemps { s with power.samples := ws, power.average := avg, power.limitEff := lim } temps
  let below := decide (100 * avg < 97 * 8 * lim)
  let t := { t with power.below := if below then t.power.below + 1 else 0 }
  let up := level1 t
  let f := if up then min 1024 (t.power.stallRatio + 16)
    else if 100 * t.power.window ≤ t.power.below then t.power.stallRatio - 1 else t.power.stallRatio
  checkTrip (applyLevels { t with power.stallRatio := f })

/-- The voltage of a rail in mV (Table 16.4, R382). -/
def railMv (s : State) (k : Nat) : Nat :=
  match k with
  | 0 | 1 | 2 | 3 => 650 + 10 * s.pins.vid
  | 4 => 750 | 5 => 1050 | 6 => 1800 | 7 => 500 | 8 => 875 | 9 => 750 | 10 => 1200 | 11 => 750 | 12 => 1800 | _ => 0

/-- The package power that the rail telemetry gives, in 1/8 W. -/
def railPower (s : State) : Nat :=
  ((List.range 13).map (fun k => tget s.power.rails k 0 * railMv s k)).foldl (· + ·) 0 / 1000

/-- POWER_CALIBRATE (R342): the estimate scaled to the rail telemetry (log 16). -/
def opPowerCalibrate (s : State) : State :=
  let raw := s.power.average * 1024 / max 1 s.power.calib
  if s.power.uncalibrated || raw = 0 then s else { s with power.calib := railPower s * 1024 / raw }

/-- EMERGENCY_LEVEL_CLEAR (R343): the level's condition has been absent for 1 s. That the board no longer holds ALERT_N is part of what
the command tells for level 1, and for a level 2 that ALERT_N has caused (log 29). -/
def opLevelClear (s : State) (l : Nat) : State :=
  let t := if l = 1 || s.power.cause = 4 then { s with pins.alertBoard := false } else s
  let still := if l = 1 then level1 t else (level2 t).isSome
  if still || !s.power.conditions.contains l then s
  else settleLevel { t with power.conditions := eraseNat l t.power.conditions }

/-- POWER_UPDATE. -/
def execPowerUpdate (est : Nat) (temps : List Int) (s : State) : Host.Outcome State Fault Refusal :=
  whenAlive (.powerUpdate est temps) s (if powerHeld s then opPowerFixed s temps else opPowerUpdate s est temps)
/-- POWER_CALIBRATE. -/
def execPowerCalibrate (s : State) : Host.Outcome State Fault Refusal :=
  whenAlive .powerCalibrate s (if powerHeld s then s else opPowerCalibrate s)
/-- RAIL_TELEMETRY_TIMEOUT (R346). -/
def execRailTelemetryTimeout (s : State) : Host.Outcome State Fault Refusal :=
  whenAlive .railTelemetryTimeout s { s with power.uncalibrated := true }
/-- EMERGENCY_LEVEL_CLEAR. -/
def execEmergencyLevelClear (l : Nat) (s : State) : Host.Outcome State Fault Refusal :=
  whenAlive (.emergencyLevelClear l) s (opLevelClear s l)
/-- ALERT_N_LOW (R343): level 1, while the NX1 does not drive ALERT_N itself. -/
def execAlertNLow (s : State) : Host.Outcome State Fault Refusal :=
  whenAlive .alertNLow s
    (if 2 ≤ s.power.level then s
     else settleLevel { s with pins.alertBoard := true, power.conditions := insertNat 1 s.power.conditions })
/-- ALERT_N_HOLD_TIMEOUT (R343, R344): level 2 with cause 4. -/
def execAlertNHoldTimeout (s : State) : Host.Outcome State Fault Refusal :=
  whenAlive .alertNHoldTimeout s (if s.pins.alertBoard then enterLevel2 s 4 4 else s)
/-- THERMTRIP (R345, R395): a die's reading at its trip point. -/
def execThermtrip (die : Nat) (temp : Int) (s : State) : Host.Outcome State Fault Refusal :=
  always (.thermtrip die temp)
    (if s.pins.sysReset || decide (temp < tripPoint die * 16) then s
     else trip { s with power.temps := tput s.power.temps die temp })

/-- The votes that waited take effect in order of arrival (R304, R324); the dependant votes are brought up to date, and the requests
for entry that the stop has held up are made (R332, R334, R335). -/
def serveVotes (s : State) : State :=
  let t := s.power.queued.foldl (fun t v => vote t v.1 (v.2.1 % 8) v.2.2 (v.2.1 / 8)) { s with power.queued := [] }
  (List.range 131).foldl (fun u n => opEntryRetry (opHoldRelease u n) n) (refreshDeps t)

/-- POWER_IMAGE_RELOAD (R304): votes unfreeze. -/
def opPowerReload (s : State) : State := serveVotes { s with power.stopped := false }

/-- POWER_IMAGE_RELOAD. -/
def execPowerImageReload (s : State) : Host.Outcome State Fault Refusal :=
  whenAlive .powerImageReload s (if s.power.stopped && !s.power.dead then opPowerReload s else s)

/-! ### The pins of switched domains (R340, Table 13.9) -/

/-- How the part holds an output. -/
inductive Drive where
  | floats
  | driven
  | high
  | low
deriving DecidableEq, Repr

/-- The outputs of Table 13.9: the transmit pairs of a lane, the pins of an LPDDR6 channel, the PCIe and Ethernet transmit pairs. -/
inductive Pad where
  | laneTx (lane : Nat)
  | lpResetN (channel : Nat)
  | lpCs (channel : Nat)
  | lpOther (channel : Nat)
  | pcieTx
  | ethTx (n : Nat)
deriving DecidableEq, Repr

/-- The domain of an output. -/
def Pad.domain : Pad → Nat
  | .laneTx n => 112 + n / 8
  | .lpResetN c | .lpCs c | .lpOther c => 124 + c / 8
  | .pcieTx => 128
  | .ethTx n => 129 + n

/-- An output: it floats while its domain is OFF, and so in cold reset and once the clocks have stopped (R345, R390); in SR the
retention drivers hold RESET_N high and CS low. -/
def padDrive (s : State) (p : Pad) : Drive :=
  let st := (dom s p.domain).state
  if s.pins.sysReset || s.pins.clocksStopped || st = 0 then .floats
  else if st = 5 then (match p with | .lpResetN _ => .high | .lpCs _ => .low | _ => .floats)
  else .driven

end Sys2Proof.Machine
end

