-- ==== Sys2Proof/Machine/Time.lean ====
section
/-! DEFINITION. The time unit (R32 to R35, R303, R404 to R407), time over Drutur links (R275 to R277) and the management
Ethernet ports (R301, R302, R423). Times are in 2^-16 ns. -/

namespace Sys2Proof.Machine

open Sys2Proof

/-- Registers not marked writable at run time are locked while a job exists (R280, R398). -/
def locked (s : State) : State := devEvent s 0x51 1

/-- The time unit in a state of Table 2.1; a change counts under TIME_STATE_CHANGE (R33). -/
def setTimeState (s : State) (st : Nat) : State :=
  if s.time.state = st then s else devEvent { s with time.state := st } 0x47 1

/-- 18 ns (R35). -/
def band : Nat := 18 * 65536

/-- The servo sets the trim by slewing within 50 ppm (R13, R34). The manual gives no law for it: a free value (log 14). -/
def servoTrim (s : State) : State :=
  let r := freshNat s
  { r.2 with time.trim := clampI (-50000000) 50000000 ((r.1 : Int) - 50000000) }

/-- A valid exchange (Table 2.1): its offset, and the figure that the ±18 ns conditions test (R277). -/
def exchangeDone (s : State) (offset : Int) (figure : Nat) : State :=
  let inBand := decide (figure ≤ band)
  let t := servoTrim { s with
    time.offset := clampI (-(2 ^ 31)) (2 ^ 31 - 1) (offset / 256), time.bound := figure, time.exch := none,
    time.missed := 0, time.good := if inBand then s.time.good + 1 else 0,
    time.bad := if inBand then 0 else s.time.bad + 1 }
  let u := if t.time.state = 0 then setTimeState t 1 else t
  if 16 ≤ u.time.good then setTimeState u 2
  else if u.time.state = 2 && 4 ≤ u.time.bad then setTimeState u 3 else u

/-- A missed exchange (Table 2.1). It ends the run of exchanges within ±18 ns, and leaves the count of those outside it as it is
(log 59). -/
def exchangeMissed (s : State) : State :=
  let t := { s with time.exch := none, time.missed := s.time.missed + 1, time.good := 0 }
  if t.time.state = 2 && 4 ≤ t.time.missed then setTimeState t 3 else t

/-- A change of the source (R303): the unit starts afresh without a job, and enters HOLDOVER with one. -/
def changeSource (s : State) (v : Nat) (inJob : Bool) : State :=
  let t := { s with
    time.source := v % 4, time.sourceLane := fld v 8 7, time.pendSource := none, time.exch := none,
    time.good := 0, time.bad := 0, time.missed := 0 }
  recheckDrains (setTimeState t (if inJob then 3 else 0))

/-! ### Registers -/

/-- A read of TIME_SECONDS captures the whole value (R405). -/
def opTimeCapture (s : State) : State := { s with time.capture := s.time.now }

/-- TIME_SECONDS_READ (R405). -/
def execTimeSecondsRead (s : State) : Host.Outcome State Fault Refusal :=
  whenAlive .timeSecondsRead s { opTimeCapture s with out.readData := timeSec s.time.now }

/-- A write of TIME_SECONDS is held (R405). -/
def opTimeSeconds (s : State) (v : Nat) : State :=
  if jobExists s then locked s else { s with time.heldSeconds := v % 2 ^ 48 }

/-- TIME_SECONDS_WRITE. -/
def execTimeSecondsWrite (v : Nat) (s : State) : Host.Outcome State Fault Refusal :=
  whenAlive (.timeSecondsWrite v) s (opTimeSeconds s v)

/-- TIME_STEP (R405): only where R34 allows a step. The frame count restarts from the stepped time (R34). -/
def opTimeStep (s : State) (ns : Nat) : State :=
  if jobExists s || 2 ≤ s.time.state || 1000000000 ≤ ns then locked s
  else
    let t := { s with time.now := s.time.heldSeconds * unitsPerSec + ns * 65536, time.res := 0 }
    { t with frame.number := if s.time.period = 0 then s.frame.number else frameOf t t.time.now }

/-- TIME_STEP. -/
def execTimeStep (ns : Nat) (s : State) : Host.Outcome State Fault Refusal :=
  whenAlive (.timeStep ns) s (opTimeStep s ns)

/-- A write of TIME_TRIM (R406): the servo owns it while there is a source. -/
def opTimeTrim (s : State) (v : Nat) : State :=
  if s.time.source ≠ 0 then locked s else { s with time.trim := clampI (-50000000) 50000000 (sint 32 v) }

/-- TIME_TRIM_WRITE. -/
def execTimeTrimWrite (v : Nat) (s : State) : Host.Outcome State Fault Refusal :=
  whenAlive (.timeTrimWrite v) s (opTimeTrim s v)

/-- A write of TIME_SOURCE (R303): while a job exists, it waits for the next seam. -/
def opTimeSource (s : State) (v : Nat) : State :=
  if jobExists s then { s with time.pendSource := some v } else changeSource s v false

/-- TIME_SOURCE_WRITE. -/
def execTimeSourceWrite (v : Nat) (s : State) : Host.Outcome State Fault Refusal :=
  whenAlive (.timeSourceWrite v) s (opTimeSource s v)

/-! ### Time over Drutur links -/

/-- A TIME packet's payload (Table 10.13). -/
def timePayload (s : State) (msg seq err t : Nat) (withT : Bool) : List Byte :=
  leBytes 1 msg ++ leBytes 1 s.time.state ++ leBytes 2 seq ++ leBytes 4 err ++
  (if withT then ptpBytes t else List.replicate 10 0) ++ leBytes 14 0

/-- A TIME packet of this device on a port. -/
def sendTime (s : State) (p : Nat) (pay : List Byte) : State :=
  sendNeighbour s p { typ := 5, flags := 10, cls := 2, status := 0, dst := 0xFFFFFF, src := s.glob.deviceId, window := 0,
                      elemFmt := 0, length := 32, tag := 0, addr := 0, gen := 0, frame := currentFrame s, hops := 0,
                      payload := pay }

/-- The error bound sent in SYNC, in 1/256 ns (R277): E under a Drutur source, else |offset|. -/
def syncErr (s : State) : Nat :=
  sat32 (if s.time.source = 3 then s.time.bound / 256 else s.time.offset.natAbs)

/-- SYNC_SEND (R275): T is inserted where the flit that carries it leaves. -/
def execSyncSend (n : Nat) (s : State) : Host.Outcome State Fault Refusal :=
  whenAlive (.syncSend n) s
    (let seq := (s.time.syncSeq + 1) % 65536
     sendTime { s with time.syncSeq := seq } (portOf s n) (timePayload s 1 seq (syncErr s) 0 false))

/-- The lane is of the port that TIME_SOURCE names, and its partner supplies time (R275). -/
def timeLane (s : State) (n : Nat) : Bool :=
  s.time.source == 3 && portOf s n == s.time.sourceLane && (lane s n).partnerFeat.testBit 3

/-- SYNC_RECEIVE (R275): the exchange opens and DELAY_REQ is sent. The timestamps t2 and t3 of the command are those of the datapath:
the lane's measured delays take them to its balls. -/
def opSyncReceive (s : State) (n : Nat) (pay : List Byte) (t2 t3 : Nat) : State :=
  if !timeLane s n || rd pay 0 1 ≠ 1 then s
  else
    let e : Exchange :=
      { seq := rd pay 2 2, t1 := ptpTime (pay.drop 8), t2 := t2 - (lane s n).rxDelay, t3 := t3 + (lane s n).txDelay,
        errBound := rd pay 4 4, locked := rd pay 1 1 == 2 }
    sendTime { s with time.exch := some e } (portOf s n) (timePayload s 2 e.seq (syncErr s) 0 false)

/-- SYNC_RECEIVE. -/
def execSyncReceive (n : Nat) (pay : List Byte) (t2 t3 : Nat) (s : State) : Host.Outcome State Fault Refusal :=
  whenAlive (.syncReceive n pay t2 t3) s (opSyncReceive s n pay t2 t3)

/-- DELAY_REQ_RECEIVE (R275): answered with the ingress time at the balls. -/
def execDelayReqReceive (n : Nat) (pay : List Byte) (t4 : Nat) (s : State) : Host.Outcome State Fault Refusal :=
  whenAlive (.delayReqReceive n pay t4) s
    (if rd pay 0 1 ≠ 2 then s
     else sendTime s (portOf s n) (timePayload s 3 (rd pay 2 2) (syncErr s) (t4 - (lane s n).rxDelay) true))

/-- DELAY_RESP_RECEIVE (R276, R277). -/
def opDelayResp (s : State) (n : Nat) (pay : List Byte) : State :=
  match s.time.exch with
  | none => s
  | some e =>
    if !timeLane s n || rd pay 0 1 ≠ 3 || rd pay 2 2 ≠ e.seq then s
    else if !e.locked then { s with time.exch := none }
    else
      let t4 := ptpTime (pay.drop 8)
      let offset := (((e.t2 : Int) - e.t1) - ((t4 : Int) - e.t3) - (lane s n).asym * 256) / 2
      let u := if 3 ≤ (lane s n).rate then 32768 else 65536
      let path := (((e.t2 : Int) - e.t1) + ((t4 : Int) - e.t3)) / 2
      exchangeDone { s with time.pathDelay := path } offset (e.errBound * 256 + offset.natAbs + u)

/-- DELAY_RESP_RECEIVE. -/
def execDelayRespReceive (n : Nat) (pay : List Byte) (s : State) : Host.Outcome State Fault Refusal :=
  whenAlive (.delayRespReceive n pay) s (opDelayResp s n pay)

/-- TIME_EXCHANGE_MISSED (R275). -/
def execTimeExchangeMissed (s : State) : Host.Outcome State Fault Refusal :=
  whenAlive .timeExchangeMissed s (if s.time.source = 3 then exchangeMissed s else s)

/-! ### Management Ethernet ports. PtpMsg kinds: 0 Sync, 1 Follow_Up, 2 Delay_Resp, 3 Pdelay_Resp, 4 Pdelay_Resp_Follow_Up,
5 Announce, 6 Pdelay_Req -/

/-- Event messages go to UDP port 319 and general ones to 320 (IEEE 1588, PRESUMED). -/
def ptpEvent (m : PtpMsg) : Bool := m.kind == 0 || m.kind == 3 || m.kind == 6

/-- A message over UDP/IPv4 that the port terminates (R301): sent to ETH_n_IPV4 or to a PTP multicast group, 224.0.1.129 or
224.0.0.107 (the groups of IEEE 1588, PRESUMED), on the port of its kind. -/
def udpTakes (e : Eth) (m : PtpMsg) : Bool :=
  decide (e.ipv4 ≠ 0) && (m.dstIp == e.ipv4 || m.dstIp == 0xE0000181 || m.dstIp == 0xE000006B) &&
  m.dstPort == (if ptpEvent m then 319 else 320)

/-- Whether a port takes a message (R301, R302): profile, domain, VLAN, transport, and the Sync interval. -/
def ptpTakes (e : Eth) (m : PtpMsg) : Bool :=
  e.up && m.profile == e.profile && (if e.profile = 2 then m.domain == 0 else m.domain == e.domain) &&
  (if e.vlan.testBit 15 then m.vlan == some (e.vlan % 4096) else m.vlan == none) &&
  (!m.udp || (udpTakes e m && e.profile ≠ 2)) &&
  (m.kind ≠ 0 || (decide (-7 ≤ m.log) && decide (m.log ≤ 0)))

/-- An exchange of port `n` completes: it disciplines the time when the port is TIME_SOURCE. -/
def ptpDone (s : State) (n : Nat) (offset : Int) : State :=
  if s.time.source = n + 1 then exchangeDone s offset offset.natAbs else s

/-- The exchange advances once its Sync time is known: it is complete with the delay measurement that follows it (R302). A Sync whose
measurement is under way already leaves that one as it is. -/
def ptpSynced (s : State) (n : Nat) (e : Eth) (x : Exchange) : State :=
  let free := match e.delay with | some d => d.stage != 2 | none => true
  setEth s n { e with exch := none, delay := if free then some { x with stage := 1 } else e.delay }

/-- A peer delay measured: it completes the exchange whose Sync came before it (R302). -/
def peerMeasured (s : State) (n : Nat) (e : Eth) (d : Int) : State :=
  let t := setEth s n { e with pathDelay := d, pdSent := none, pd := none, delay := none }
  match e.delay with
  | some x => ptpDone t n ((x.t2 : Int) - x.t1 - x.corr - d - e.asym * 256 / 2)
  | none => t

/-- The best-master algorithm (R302): a better master, or any other once the Sync of the one followed fails to arrive, is
followed from its Announce on (log 27). -/
def ptpAnnounce (e : Eth) (m : PtpMsg) : Eth :=
  let take := match e.master with
    | some (id, q) => m.master == id || e.masterStale || decide (m.quality < q) || (m.quality == q && decide (m.master < id))
    | none => true
  if take then { e with master := some (m.master, m.quality), masterStale := false } else e

/-- The answers to this port's Pdelay_Req, which carry its number (R302): one message, or two with the correction of both. -/
def ptpPeerResp (s : State) (n : Nat) (e : Eth) (m : PtpMsg) (rx : Nat) : State :=
  match e.pdSent with
  | none => s
  | some t1 =>
    if m.seq ≠ e.pdSeq then s
    else if m.twoStep then
      setEth s n { e with pd := some { seq := m.seq, t1 := t1, t2 := m.t, t3 := rx, corr := m.corr } }
    else peerMeasured s n e ((((rx : Int) - t1) - ((m.t' : Int) - m.t) - m.corr) / 2)

/-- Pdelay_Resp_Follow_Up. -/
def ptpPeerFollow (s : State) (n : Nat) (e : Eth) (m : PtpMsg) : State :=
  match e.pd with
  | some x =>
    if x.seq = m.seq then peerMeasured s n e ((((x.t3 : Int) - x.t1) - ((m.t : Int) - x.t2) - x.corr - m.corr) / 2) else s
  | none => s

/-- PTP_MESSAGE_RECEIVE (R302): ingress time `ts` is corrected by the measured receive delay. A port in DRAIN takes
none (R335). -/
def opPtpMessage (s : State) (n : Nat) (m : PtpMsg) (ts : Nat) : State :=
  let e := ethPort s n
  let rx := ts - e.rxDelay
  if !ptpTakes e m || (dom s (129 + n)).state = 3 then devEvent s 0x54 1
  else if m.kind = 5 then setEth s n (ptpAnnounce e m)
  else if m.kind = 6 then
    (if e.profile = 0 then s else setEth s n { e with pdReplies := e.pdReplies + 1, pdLast := (m.seq, rx) })
  else if m.kind = 3 then (if e.profile = 0 then s else ptpPeerResp s n e m rx)
  else if m.kind = 4 then (if e.profile = 0 then s else ptpPeerFollow s n e m)
  else if (match e.master with | some (id, _) => decide (id ≠ m.master) | none => true) then s
  else if m.kind = 0 then
    let x : Exchange := { seq := m.seq, t1 := m.t, t2 := rx, corr := m.corr, stage := 0 }
    let e' := { e with logInterval := m.log, masterStale := false }
    if m.twoStep then setEth s n { e' with exch := some x } else ptpSynced s n e' x
  else if m.kind = 1 then
    (match e.exch with
      | some x => if x.seq = m.seq then ptpSynced s n e { x with t1 := m.t, corr := x.corr + m.corr } else s
      | none => s)
  else match e.delay with
    | some x =>
      if m.kind = 2 && x.stage = 2 && x.seq = m.seq then
        ptpDone (setEth s n { e with delay := none }) n
          ((((x.t2 : Int) - x.t1 - x.corr) - ((m.t : Int) - x.t3 - m.corr) - e.asym * 256) / 2)
      else s
    | none => s

/-- PTP_MESSAGE_RECEIVE. -/
def execPtpMessageReceive (n : Nat) (m : PtpMsg) (ts : Nat) (s : State) : Host.Outcome State Fault Refusal :=
  whenAlive (.ptpMessageReceive n m ts) s (opPtpMessage s n m ts)

/-- PTP_DELAY_REQ_SEND (R302): the egress time is kept, corrected by the transmit delay, with the number of the request, which its
answer carries. -/
def opPtpDelayReq (s : State) (n ts : Nat) : State :=
  let e := ethPort s n
  let tx := ts + e.txDelay
  let no := (e.pdSeq + 1) % 65536
  if !e.up || (dom s (129 + n)).state = 3 then s
  else if e.profile = 0 then
    (match e.delay with
      | some x => setEth s n { e with pdSeq := no, delay := some { x with t3 := tx, seq := no, stage := 2 } }
      | none => s)
  else setEth s n { e with pdSeq := no, pdSent := some tx, pd := none }

/-- PTP_DELAY_REQ_SEND. -/
def execPtpDelayReqSend (n ts : Nat) (s : State) : Host.Outcome State Fault Refusal :=
  whenAlive (.ptpDelayReqSend n ts) s (opPtpDelayReq s n ts)

/-- PTP_SYNC_MISSED (R302). -/
def execPtpSyncMissed (n : Nat) (s : State) : Host.Outcome State Fault Refusal :=
  whenAlive (.ptpSyncMissed n) s
    (let t := setEth s n { ethPort s n with exch := none, delay := none, masterStale := true }
     if s.time.source = n + 1 then exchangeMissed t else t)

/-- ARP_REQUEST (R301): answered for ETH_n_IPV4; a zero address disables ARP. -/
def execArpRequest (n ip : Nat) (s : State) : Host.Outcome State Fault Refusal :=
  whenAlive (.arpRequest n ip) s
    (let e := ethPort s n
     if e.up && ip = e.ipv4 && ip ≠ 0 then setEth s n { e with arpReplies := e.arpReplies + 1 } else devEvent s 0x54 1)

/-- ETH_DISCARD (R301). -/
def execEthDiscard (n : Nat) (s : State) : Host.Outcome State Fault Refusal :=
  whenAlive (.ethDiscard n) s (devEvent s 0x54 1)

/-- ETH_LINK_UP (R302): the PHY delays are measured at each link-up. -/
def execEthLinkUp (n tx rx : Nat) (s : State) : Host.Outcome State Fault Refusal :=
  whenAlive (.ethLinkUp n tx rx) s
    (if domOn s (129 + n) then setEth s n { ethPort s n with up := true, txDelay := tx, rxDelay := rx } else s)

/-- ETH_LINK_DOWN (R423). -/
def execEthLinkDown (n : Nat) (s : State) : Host.Outcome State Fault Refusal :=
  whenAlive (.ethLinkDown n) s (setEth s n { ethPort s n with up := false, exch := none, delay := none, pdSent := none, pd := none })

/-- ETH_MODE_WRITE (R423): the link restarts, and a port that is TIME_SOURCE puts the time unit in HOLDOVER. -/
def opEthMode (s : State) (n v : Nat) : State :=
  if jobExists s then locked s
  else
    let t := setEth s n { ethPort s n with mode := v % 8, up := false, exch := none, delay := none, pdSent := none, pd := none }
    if s.time.source = n + 1 then setTimeState t 3 else t

/-- ETH_MODE_WRITE. -/
def execEthModeWrite (n v : Nat) (s : State) : Host.Outcome State Fault Refusal :=
  whenAlive (.ethModeWrite n v) s (opEthMode s n v)

end Sys2Proof.Machine
end

