-- ==== Sys2Proof/Machine/Board.lean ====
section
/-! DEFINITION. The board: resets, clocks, the PCIe link, the fault state (R305), JTAG (R391) and the I3C target (R346). -/

namespace Sys2Proof.Machine

open Sys2Proof

/-- Device state discarded by the cold reset (R390): everything but the flash. The ring host's memory, the waiting commands
and what has left the part are no device state. -/
def coldReset (s : State) : State :=
  { State.reset with
    pending := s.pending, free := s.free, hostMem := s.hostMem, flash := s.flash, out := s.out
    pins := { s.pins with
              sysReset := true, xspiReset := true, thermtrip := false, alertOut := false, vid := 15, clocksStopped := false } }

/-- SYS_RESET_N_ASSERT (R390): pulses shorter than 1 µs are ignored. -/
def execSysResetNAssert (ns : Nat) (s : State) : Host.Outcome State Fault Refusal :=
  always (.sysResetNAssert ns) (if ns < 1000 then s else coldReset s)

/-- VDD_AUX_UNDERVOLTAGE (R384): acts as an assertion of SYS_RESET_N. -/
def execVddAuxUndervoltage (s : State) : Host.Outcome State Fault Refusal :=
  always .vddAuxUndervoltage (coldReset s)

/-- The fault state (R305): one last record, written by hardware when the fault ring is enabled; every core and stroke
halts, and the link groups go down. -/
def enterFault (s : State) (code detail : Nat) : State :=
  let x := stamp s { code := code, sev := 5, detail := detail, src := 6 }
  let t := { s with
    flt.seq := (s.flt.seq + 1) % 2 ^ 32, flt.last := x.bytes, flt.region := [], flt.inSeam := [],
    frame.live := false, frame.region := false, frame.prog := [], glob.faultState := true,
    lanes := s.lanes.map (fun l => (l.1, { l.2 with state := 0, rate := 0 })), links := [], ports := [] }
  let u := (List.range 12).foldl (fun u g => setDom u (112 + g) { dom u (112 + g) with state := 0 }) t
  if u.rings.fq.en then putFault u x false else u

/-- REFCLK_SYS_LOSS (R386). -/
def execRefclkSysLoss (s : State) : Host.Outcome State Fault Refusal :=
  whenAlive .refclkSysLoss s { enterFault s 0x10 0xF with pins.lostSys := true }

/-- What the session that ends still waits for completes with BUSY: its held descriptors and its activations (R295, R298). An
activation that has not armed is dropped with its descriptor (log 54). -/
def dropSession (s : State) : State :=
  let x := takeHeld s (fun _ => true)
  let t := completeAll x.2 x.1 0x19
  let t := (t.actHdr.toList ++ t.actQueue.map (fun y => y.1)).foldl (fun u h => complete u h 0x19 0) t
  let gone := fun (y : Transfer) => y.reads && y.folio.isNone && x.1.any (fun h => h.op == .maskOp y.idx)
  { t with
    actHdr := none, actQueue := [], act := t.act.filter (fun a => decide (2 ≤ a.stage))
    fab.xfers := t.fab.xfers.filter (fun y => !gone y) }

/-- The session ends with the loss of the ring host (R295): to IDLE without a job, where what it waits for ends with it, to ORPHANED
with one. -/
def loseSession (s : State) : State :=
  if s.job.session = 0 then s
  else if s.glob.jobState = 2 then setJobState { dropSession s with job := {} } 1
  else if 3 ≤ s.glob.jobState && s.glob.jobState ≤ 5 then
    setJobState { s with job.savedState := s.glob.jobState } 6
  else s

/-- The PCIe link down, with the loss of a PCIe-hosted session (R295). A part that is in its fault state or whose clocks have stopped
has no session left to end. -/
def pcieDown (s : State) : State :=
  if s.rings.host = 0 && alive s then loseSession (pcieDrop s) else pcieDrop s

/-- RING_HOST_LOST (R295): a conventional reset, a hot reset or a link down of PCIe, or every port to the peer down. -/
def execRingHostLost (s : State) : Host.Outcome State Fault Refusal :=
  whenAlive .ringHostLost s (if s.rings.host = 0 then pcieDown s else loseSession s)

/-- REFCLK_PCIE_LOSS (R386), in the fault state too, in which the endpoint keeps its link (R305). -/
def execRefclkPcieLoss (s : State) : Host.Outcome State Fault Refusal :=
  always .refclkPcieLoss (if s.pins.sysReset then s else { pcieDown s with pins.lostPcie := true })

/-- REFCLK_SD_LOSS (R386): the lanes of the I/O die stop, and go down under R254. -/
def execRefclkSdLoss (n : Nat) (s : State) : Host.Outcome State Fault Refusal :=
  whenAlive (.refclkSdLoss n) s
    (if n = 0 then { s with pins.lostSd0 := true } else { s with pins.lostSd1 := true })

/-- PERST_N_ASSERT (R390): the endpoint is reset, and a PCIe-hosted session ends. While both resets are asserted, the cold
reset governs. -/
def execPerstNAssert (s : State) : Host.Outcome State Fault Refusal :=
  always .perstNAssert { pcieDown s with pins.perst := true, pcie.msix := [], pcie.pba := 0 }

/-- PERST_N_DEASSERT (R390): the endpoint becomes ready to train, and its clock counts as running (log 67). -/
def execPerstNDeassert (s : State) : Host.Outcome State Fault Refusal :=
  always .perstNDeassert { s with pins.perst := false, pins.lostPcie := false }

/-- The Device ID of the function (R278). -/
def pcieDeviceId : Nat := 0x0A01
/-- Its Vendor ID, the one assigned to Ploelro, whose number the manual does not give (log 58). -/
def pcieVendorId : Nat := Config.vendorId % 2 ^ 16
/-- Its Class Code, processing accelerator (R278). -/
def pcieClassCode : Nat := 0x120000
/-- The first words of the function's configuration space: IDs and class (R278). -/
def pcieIdentity : Nat × Nat := (pcieVendorId + pcieDeviceId * 2 ^ 16, pcieClassCode * 2 ^ 8)

/-- PCIE_LINK_TRAINED (R12, R337, R422), while the endpoint is ON: the link status, and the configuration that the host's software
gives the function. On a link that is up, it is that software's next configuration (log 58). -/
def execPcieLinkTrained (r w : Nat) (c : PcieCfg) (s : State) : Host.Outcome State Fault Refusal :=
  whenAlive (.pcieLinkTrained r w c) s
    (if s.pins.perst || s.pins.lostPcie || (dom s 128).state ≠ 2 then s
     else { s with
       pcie.rate := r, pcie.width := w, pcie.flit := c.flit, pcie.up := true, pcie.busMaster := c.busMaster
       pcie.maxPayload := c.maxPayload, pcie.maxReadReq := c.maxReadReq, pcie.msixEn := c.msixEn })

/-- The link is degraded (R12). -/
def degraded (s : State) : Bool := s.pcie.up && decide (s.pcie.rate < 4)

/-- Instructions that act on the pins (R391). -/
def TapInstr.drives : TapInstr → Bool
  | .extest | .clamp | .highz | .extestPulse | .extestTrain => true
  | _ => false

/-- IDCODE (R391). -/
def idcode : Nat := 1 * 2 ^ 28 + 0x0A01 * 2 ^ 12 + (Config.jep106 % 2 ^ 11) * 2 + 1

/-- The instruction that takes effect (R391): those that drive pins act as BYPASS unless SYS_RESET_N is asserted, and so does every
code that is not listed. -/
def tapEffective (s : State) : TapInstr :=
  match s.pins.tap with
  | .other _ => .bypass
  | j => if TapInstr.drives j && !s.pins.sysReset then .bypass else j

/-- JTAG_INSTRUCTION (R391). While TRST_N is low, the TAP is in reset, with IDCODE selected; a board that loads an instruction has
released it (log 69). -/
def execJtagInstruction (i : TapInstr) (s : State) : Host.Outcome State Fault Refusal :=
  always (.jtagInstruction i)
    (if i = .trst then { s with pins.tap := .idcode, pins.trst := true }
     else { s with pins.tap := i, pins.trst := false, out.readData := if i = .idcode then idcode else s.out.readData })

/-! ### Straps (R389, Table 16.7) -/

/-- The xSPI bus runs at 8D-8D-8D: FLASH_MODE is set, and the flash has been identified, as it is once the cold start has read its
records (Table 12.5). -/
def xspiOctal (s : State) : Bool := s.pins.flashMode == 1 && decide (s.boot.phase ≠ 0)

/-- The static address of the I3C target. -/
def i3cStatic (s : State) : Nat := 0x50 + s.pins.i3cAddr

/-- The address at which it answers: the dynamic one where it has one. -/
def i3cAddress (s : State) : Nat := if s.i3c.dynamic = 0 then i3cStatic s else s.i3c.dynamic

/-! ### The I3C target (Table 13.11) -/

/-- The fields of the register map: first offset, width, whether readable. -/
def i3cField (s : State) (off : Nat) : Nat × List Byte :=
  let votes := (List.range 132).foldl (fun a n => if (dom s n).votes.testBit 5 then a + 2 ^ n else a) 0
  if off = 0 then
    (0, leBytes 1 (s.power.level + (if s.pins.thermtrip then 4 else 0) + (if s.glob.jobState = 4 then 8 else 0)))
  else if off = 2 || off = 3 then (2, leBytes 2 s.power.limitBoard)
  else if off = 4 || off = 5 then (4, leBytes 2 (sat16 s.power.average))
  else if off = 6 || off = 7 then (6, leBytes 2 s.power.limitEff)
  else if off = 8 || off = 9 then (8, leBytes 2 s.power.stallRatio)
  else if off = 10 || off = 11 then (10, leBytes 2 s.power.window)
  else if 0x10 ≤ off && off < 0x30 then
    let d := (off - 0x10) / 2
    (0x10 + 2 * d, leBytes 2 (if d = 6 || d = 7 then 0x8000 else unsint 16 (tempOf s d)))
  else if 0x50 ≤ off && off < 0x61 then (0x50, leBytes 17 votes)
  else if 0x70 ≤ off && off < 0x81 then (0x70, leBytes 17 votes)
  else if 0x100 ≤ off && off < 0x184 then
    let d := dom s (off - 0x100)
    (off, leBytes 1 (d.state + 8 * b2n d.wakePending + 16 * b2n (d.state = 2 && d.votes = 0)))
  else (off, [0])

/-- One byte read: reading the lowest byte of a field latches it (R346). -/
def i3cByte (s : State) (off : Nat) : Byte × State :=
  let f := i3cField s off
  if off = f.1 then (f.2.headD 0, { s with i3c.latch := f.2, i3c.latchAt := off })
  else if s.i3c.latchAt = f.1 then ((s.i3c.latch.drop (off - f.1)).headD 0, s)
  else ((f.2.drop (off - f.1)).headD 0, s)

/-- `n` bytes read from `off` upward. -/
def i3cBytes : Nat → Nat → State → List Byte × State
  | 0, _, s => ([], s)
  | n + 1, off, s =>
    let r := i3cByte s off
    let q := i3cBytes n (off + 1) r.2
    (r.1 :: q.1, q.2)

/-- I3C_PRIVATE_READ (R346). -/
def execI3cPrivateRead (n : Nat) (s : State) : Host.Outcome State Fault Refusal :=
  always (.i3cPrivateRead n)
    (if s.pins.sysReset then s
     else
       let r := i3cBytes n s.i3c.offset (takeIbi s)
       { r.2 with out.i3cBytes := r.1 })

/-- One byte of a field replaced. -/
def withByte (v i : Nat) (b : Byte) : Nat := v - (fld v (8 * i) 8) * 2 ^ (8 * i) + b.toNat * 2 ^ (8 * i)

/-- A measured rail current (R342, R346): rails 13 to 15 do not exist. -/
def railWrite (s : State) (k v : Nat) : State :=
  { s with power.rails := tset s.power.rails k 0 (if k < 13 then v else 0), power.uncalibrated := false }

/-- One byte written at `off` (Table 13.11); a 16-bit field takes the bytes that the write carries (log 17). Votes reach the power core
only while it runs. -/
def i3cPut (s : State) (off : Nat) (b : Byte) : State :=
  if off = 2 || off = 3 then { s with power.limitBoard := withByte (s.power.limitBoard % 65536) (off - 2) b }
  else if off = 10 || off = 11 then { s with power.window := withByte (s.power.window % 65536) (off - 10) b }
  else if 0x30 ≤ off && off < 0x50 then
    let k := (off - 0x30) / 2
    railWrite s k (withByte (tget s.power.rails k 0 % 65536) (off % 2) b)
  else if !alive s then s
  else if 0x50 ≤ off && off < 0x61 then maskVote s (8 * (off - 0x50)) 8 b.toNat 5 true
  else if 0x70 ≤ off && off < 0x81 then maskVote s (8 * (off - 0x70)) 8 b.toNat 5 false
  else s

/-- Bytes written from `off` upward. -/
def i3cWrite : State → Nat → List Byte → State
  | s, _, [] => s
  | s, off, b :: bs => i3cWrite (i3cPut s off b) (off + 1) bs

/-- I3C_PRIVATE_WRITE (R346): the offset, and the data; LIMIT and WINDOW are clamped. -/
def opI3cWrite (s : State) (bs : List Byte) : State :=
  if bs.length < 2 then s
  else
    let off := rd bs 0 2
    let t := i3cWrite { s with i3c.offset := off } off (bs.drop 2)
    { t with power.limitBoard := clampN 450 850 t.power.limitBoard, power.window := clampN 1 100 t.power.window }

/-- I3C_PRIVATE_WRITE: the target lies in the always-on domain, and answers whenever the part is out of reset. -/
def execI3cPrivateWrite (bs : List Byte) (s : State) : Host.Outcome State Fault Refusal :=
  always (.i3cPrivateWrite bs) (if s.pins.sysReset then s else opI3cWrite (takeIbi s) bs)

/-- I3C_RAIL_WRITE (R342). -/
def execI3cRailWrite (k v : Nat) (s : State) : Host.Outcome State Fault Refusal :=
  always (.i3cRailWrite k v) (if s.pins.sysReset then s else railWrite (takeIbi s) k v)

/-- I3C_DYNAMIC_ADDRESS (R346). -/
def execI3cDynamicAddress (a : Nat) (s : State) : Host.Outcome State Fault Refusal :=
  always (.i3cDynamicAddress a) (if s.pins.sysReset then s else { takeIbi s with i3c.dynamic := a })

end Sys2Proof.Machine
end

