-- ==== Sys2Proof/Machine/Ring.lean ====
section
/-! DEFINITION. Doorbells and rings (R282 to R286, R409), and the BAR4 window (R281). -/

namespace Sys2Proof.Machine

open Sys2Proof

/-- A rejected doorbell (R284): counted, and vector 6. -/
def doorbellBad (s : State) : State := raiseVector (devEvent s 0x52 1) 6

/-- Doorbell writes are ignored while the link is degraded (R280). -/
def doorbellIgnored (s : State) : Bool := degraded s

/-- Distance from `a` to `b` in a ring of `n` entries (R283). -/
def ringDist (n a b : Nat) : Nat := (b + n - a % n) % n

/-- Ring-host memory that the doorbell's writer has written (log 2). -/
def hostWrites (s : State) (l : List (Nat × List Byte)) : State := l.foldl (fun t x => hostPoke t x.1 x.2) s

/-- A submission tail (R284): accepted when below S and when it withdraws no descriptor. -/
def opSqTail (s : State) (n v : Nat) : State :=
  let r := sq s n
  let sz := entries r.size
  if doorbellIgnored s then s
  else if r.en && v < sz && decide (ringDist sz r.head r.tail ≤ ringDist sz r.head v) then setSq s n { r with tail := v }
  else doorbellBad s

/-- SQ_TAIL_DOORBELL. -/
def execSqTailDoorbell (n v : Nat) (host : List (Nat × List Byte)) (s : State) : Host.Outcome State Fault Refusal :=
  whenAlive (.sqTailDoorbell n v host) s (opSqTail (hostWrites s host) n v)

/-- A consumer head (R284). -/
def headOk (r : OutRing) (v : Nat) : Bool :=
  let sz := entries r.size
  r.en && decide (v < sz) && decide (ringDist sz r.head v ≤ ringDist sz r.head r.tail)

/-- A completion-ring head. -/
def opCqHead (s : State) (n v : Nat) : State :=
  if doorbellIgnored s then s
  else if headOk (cq s n) v then setCq s n { cq s n with head := v } else doorbellBad s

/-- CQ_HEAD_DOORBELL. -/
def execCqHeadDoorbell (n v : Nat) (s : State) : Host.Outcome State Fault Refusal :=
  whenAlive (.cqHeadDoorbell n v) s (opCqHead s n v)

/-- The fault-ring head. -/
def opFqHead (s : State) (v : Nat) : State :=
  if doorbellIgnored s then s
  else if headOk s.rings.fq v then { s with rings.fq := { s.rings.fq with head := v } } else doorbellBad s

/-- FQ_HEAD_DOORBELL. -/
def execFqHeadDoorbell (v : Nat) (s : State) : Host.Outcome State Fault Refusal :=
  whenAlive (.fqHeadDoorbell v) s (opFqHead s v)

/-- The counter-ring head. -/
def opCtrHead (s : State) (v : Nat) : State :=
  if doorbellIgnored s then s
  else if headOk s.rings.ctr v then { s with rings.ctr := { s.rings.ctr with head := v } } else doorbellBad s

/-- CTR_HEAD_DOORBELL. -/
def execCtrHeadDoorbell (v : Nat) (s : State) : Host.Outcome State Fault Refusal :=
  whenAlive (.ctrHeadDoorbell v) s (opCtrHead s v)

/-- An output ring enabled: indices zero, phase 1 (R282). -/
def OutRing.enabled (r : OutRing) (lo hi : Nat) : OutRing :=
  if lo ≤ r.size && r.size ≤ hi && !r.en then { r with en := true, head := 0, tail := 0, phase := 1 } else r

/-- EN set (R282, R409): a SIZE outside its range leaves it clear. -/
def opRingEnable (s : State) : RingId → State
  | .sq n =>
    let r := sq s n
    if 4 ≤ r.size && r.size ≤ 16 && !r.en then setSq s n { r with en := true, head := 0, tail := 0 } else s
  | .cq n => setCq s n ((cq s n).enabled 4 16)
  | .fq => { s with rings.fq := s.rings.fq.enabled 4 16 }
  | .ctr => { s with rings.ctr := s.rings.ctr.enabled 2 10 }

/-- RING_ENABLE. -/
def execRingEnable (r : RingId) (s : State) : Host.Outcome State Fault Refusal :=
  whenAlive (.ringEnable r) s (opRingEnable s r)

/-- EN cleared (R409). -/
def opRingDisable (s : State) : RingId → State
  | .sq n => setSq s n { sq s n with en := false }
  | .cq n => setCq s n { cq s n with en := false }
  | .fq => { s with rings.fq := { s.rings.fq with en := false } }
  | .ctr => { s with rings.ctr := { s.rings.ctr with en := false } }

/-- RING_DISABLE. -/
def execRingDisable (r : RingId) (s : State) : Host.Outcome State Fault Refusal :=
  whenAlive (.ringDisable r) s (opRingDisable s r)

/-- Queued records written while the ring has room (R286), at most `k`. -/
def flushQueue : Nat → State → Nat → State
  | 0, s, _ => s
  | k + 1, s, r =>
    let q := cq s r
    match q.queue with
    | [] => s
    | x :: rest =>
      if canWrite s q then flushQueue k (writeCq (setCq s r { q with queue := rest }) r x.1 x.2) r else s

/-- QUEUED_RECORD_FLUSH (R286). -/
def execQueuedRecordFlush (r : Nat) (s : State) : Host.Outcome State Fault Refusal :=
  whenAlive (.queuedRecordFlush r) s (flushQueue (cq s r).queue.length s r)

/-! ### BAR4 -/

/-- The device-local address of a BAR4 offset. -/
def bar4Addr (s : State) (off : Nat) : Nat := s.pcie.bar4Base + off

/-- A BAR4 write (R281): no tags; outside installed memory it is discarded and counted; a failing line stays unwritten. -/
def opBar4Write (s : State) (off : Nat) (data : List Byte) : State :=
  let a := bar4Addr s off
  if !s.pcie.bar4En then s
  else if !installed s a data.length then devEvent s 0x53 1
  else (failLines s a data.length).foldl lineError (store s a data)

/-- BAR4_WRITE. -/
def execBar4Write (off : Nat) (data : List Byte) (s : State) : Host.Outcome State Fault Refusal :=
  whenAlive (.bar4Write off data) s (opBar4Write s off data)

/-- A BAR4 read (R281): zero outside installed memory, Completer Abort on an uncorrectable line. -/
def opBar4Read (s : State) (off n : Nat) : State :=
  let a := bar4Addr s off
  if !s.pcie.bar4En then { s with out.readBytes := List.replicate n 0, out.completerAbort := false }
  else if !installed s a n then
    devEvent { s with out.readBytes := List.replicate n 0, out.completerAbort := false } 0x53 1
  else match badLine s a n with
    | some l => lineError { s with out.readBytes := [], out.completerAbort := true } l
    | none => noteRead { s with out.readBytes := peek s a n, out.completerAbort := false } a n

/-- BAR4_READ. -/
def execBar4Read (off n : Nat) (s : State) : Host.Outcome State Fault Refusal :=
  whenAlive (.bar4Read off n) s (opBar4Read s off n)

end Sys2Proof.Machine
end

