-- ==== Sys2Proof/Machine/Counter.lean ====
section
/-! DEFINITION. Counter selection, capture and snapshots (R364 to R374, R414 to R416). -/

namespace Sys2Proof.Machine

open Sys2Proof

/-- Frames of a job run, so that a selection waits for the seam (R369). -/
def framesRun (s : State) : Bool := s.frame.live

/-- A selector write (R369). -/
def writeSel (s : State) (k v : Nat) : State :=
  if framesRun s then setCtr s k { ctr s k with pend := some v } else applySel s k v

/-- The counter of a selector register, if the offset is one (Tables 17.9, 17.13, 17.14, 17.16). -/
def selAt (off : Nat) : Option Nat :=
  let o := off % 8
  if o ≠ 0 then none
  else if 0x60000 ≤ off && off < 0x60100 then some ((off - 0x60000) / 8)
  else if 0x100000 ≤ off && off < 0x540000 then
    let n := (off - 0x100000) / 0x10000
    let r := (off - 0x100000) % 0x10000
    if 0x400 ≤ r && r < 0x600 then some (32 + 64 * n + (r - 0x400) / 8)
    else if 0x100 ≤ r && r < 0x180 then some (4384 + 16 * n + (r - 0x100) / 8) else none
  else if 0x600000 ≤ off && off < 0x780000 then
    let r := (off - 0x600000) % 0x4000
    if 0x100 ≤ r && r < 0x180 then some (7520 + 16 * ((off - 0x600000) / 0x4000) + (r - 0x100) / 8) else none
  else if 0x780000 ≤ off && off < 0x800000 then
    let n := (off - 0x780000) / 0x10000
    let r := (off - 0x780000) % 0x10000
    if r < 0x80 then some (9056 + 16 * n + r / 8)
    else if 0x800 ≤ r && r < 0x1000 then some (5472 + 256 * n + (r - 0x800) / 8) else none
  else if 0x800000 ≤ off && off < 0x880000 then
    let r := (off - 0x800000) % 0x4000
    if r < 0x40 then some (9184 + 8 * ((off - 0x800000) / 0x4000) + r / 8) else none
  else none

/-- The counter of a value register, if the offset is one. -/
def valAt (off : Nat) : Option Nat :=
  if 0x60100 ≤ off && off < 0x60200 then selAt (off - 0x100)
  else if 0x100000 ≤ off && off < 0x540000 then
    let r := (off - 0x100000) % 0x10000
    if 0x600 ≤ r && r < 0x800 then selAt (off - 0x200) else if 0x180 ≤ r && r < 0x200 then selAt (off - 0x80) else none
  else if 0x600000 ≤ off && off < 0x780000 then
    let r := (off - 0x600000) % 0x4000
    if 0x180 ≤ r && r < 0x200 then selAt (off - 0x80) else none
  else if 0x780000 ≤ off && off < 0x800000 then
    let r := (off - 0x780000) % 0x10000
    if 0x80 ≤ r && r < 0x100 then selAt (off - 0x80) else if 0x1000 ≤ r && r < 0x1800 then selAt (off - 0x800) else none
  else if 0x800000 ≤ off && off < 0x880000 then
    let r := (off - 0x800000) % 0x4000
    if 0x40 ≤ r && r < 0x80 then selAt (off - 0x40) else none
  else none

/-- What a value register reads (Table 17.12). -/
def valueOf (s : State) (k : Nat) : Nat := (ctr s k).val + 2 ^ 48 * b2n (ctr s k).wrapped

/-- The range register at an offset: its index in the table, and whether it is HI (R416). -/
def rangeAt (off : Nat) : Option (Nat × Bool) :=
  if off % 8 ≠ 0 then none
  else if 0x100000 ≤ off && off < 0x540000 then
    let r := (off - 0x100000) % 0x10000
    if 0x200 ≤ r && r < 0x220 then some (2 * ((off - 0x100000) / 0x10000) + (r - 0x200) / 16, r % 16 = 8) else none
  else if 0x780000 ≤ off && off < 0x800000 then
    let r := (off - 0x780000) % 0x10000
    if 0x100 ≤ r && r < 0x120 then some (2 * (68 + (off - 0x780000) / 0x10000) + (r - 0x100) / 16, r % 16 = 8) else none
  else none

/-- A range write (R369, R416). -/
def writeRange (s : State) (i : Nat) (hi : Bool) (v : Nat) : State :=
  let r := tget s.cnt.range i {}
  let v := v % 2 ^ 48
  let r' := if framesRun s then (if hi then { r with pendHi := some v } else { r with pendLo := some v })
    else (if hi then { r with hi := v, pendHi := none } else { r with lo := v, pendLo := none })
  { s with cnt.range := tset s.cnt.range i {} r' }

/-- COUNTER_SELECT_WRITE (R369): a selector or range register. -/
def opSelectWrite (s : State) (off v : Nat) : State :=
  match selAt off with
  | some k => writeSel s k v
  | none => match rangeAt off with
    | some (i, hi) => writeRange s i hi v
    | none => s

/-- COUNTER_SELECT_WRITE. -/
def execCounterSelectWrite (off v : Nat) (s : State) : Host.Outcome State Fault Refusal :=
  whenAlive (.counterSelectWrite off v) s (opSelectWrite s off v)

/-- COUNTER_CTRL CLEAR (R369). -/
def opCounterClear (s : State) : State :=
  if framesRun s then { s with cnt.pendClear := true } else clearAll s

/-- COUNTER_CLEAR. -/
def execCounterClear (s : State) : Host.Outcome State Fault Refusal :=
  whenAlive .counterClear s (opCounterClear s)

/-! ### Capture -/

/-- Whether a counter's domain is ON (R372). -/
def ctrOn (s : State) (k : Nat) : Bool := match ctrDomain k with | some d => domOn s d | none => true

/-- A snapshot entry (Table 15.5). -/
def snapEntry (s : State) (k : Nat) : List Byte :=
  let c := ctr s k
  let on := ctrOn s k
  leBytes 8 ((if on then c.val else 0) + 2 ^ 48 * b2n c.wrapped + 2 ^ 49 * b2n (!on) + 2 ^ 50 * b2n (c.resel || s.cnt.reselAll) +
    2 ^ 56 * (c.sel % 256))

/-- The snapshot header (Table 15.4), its PHASE left zero. -/
def snapHeader (s : State) (periodic requested : Bool) : List Byte :=
  let job := jobExists s
  leBytes 4 0x52544E43 ++ leBytes 2 1 ++ leBytes 1 (2 * b2n periodic + 4 * b2n requested + 8 * b2n (!job)) ++
  leBytes 1 0 ++ leBytes 4 s.cnt.snapSeq ++ leBytes 4 s.cnt.skipped ++ leBytes 8 (if job then (currentFrame s) else 0) ++
  leBytes 4 (if job then s.job.step else 0) ++ leBytes 2 ((s.frame.current).getD 0) ++ leBytes 2 9440 ++
  ptpBytes s.time.now ++ leBytes 22 0

/-- The previous record has not been written whole: packets of it wait for the peer that hosts the rings (R299, R371). -/
def captureBusy (s : State) : Bool := s.rings.writes.any (fun x => x.ring == 5)

/-- A capture (R370 to R373): SEQ advances, the record goes to the counter ring or is lost, WRAPPED and RESEL start afresh. -/
def capture (s : State) (periodic requested : Bool) : State :=
  let t := { s with cnt.snapSeq := (s.cnt.snapSeq + 1) % 2 ^ 32 }
  let q := t.rings.ctr
  let hdr := snapHeader t periodic requested
  let clear := fun (u : State) => { u with
    cnt.skipped := 0, cnt.reselAll := false
    cnt.ctr := u.cnt.ctr.map (fun x => (x.1, { x.2 with wrapped := false, resel := false })) }
  if canWrite t q then
    let at_ := q.base + 77824 * q.tail
    let body := (List.range 9440).flatMap (snapEntry t)
    clear (hostRecord { t with rings.ctr := q.pushed } 5 [(at_ + 64, body)] at_ (withPhase hdr 6 0 q.phase) (some 5))
  else clear (raiseVector { t with rings.ctr := { q with lost := sat32 (q.lost + 1) } } 6)

/-- Held snapshot requests complete once their record is in the ring (Table 11.5). -/
def completeSnaps (s : State) : State :=
  let hs := s.rings.held.filter (fun h => h.op = .snapshot)
  hs.foldl (fun t h => complete t h.hdr 0 0) { s with rings.held := s.rings.held.filter (fun h => h.op ≠ .snapshot) }

/-- COUNTER_CAPTURE, in seam cycle 256 (R370, R371): a periodic capture every COUNTER_SNAP_EVERY frames from f₀ while a job
exists, and any requested one, in one record. One that falls due before the previous record is written whole is skipped, and a
request then waits for the next seam (log 66). -/
def opCapture (s : State) : State :=
  if !s.frame.seam || 1 ≤ s.frame.phase then s
  else
    let s := seamTo s 256
    let per := jobExists s && decide (s.cnt.snapEvery ≠ 0) &&
      decide ((((currentFrame s) : Int) - s.job.f0) % s.cnt.snapEvery = 0)
    let req := s.rings.held.any (fun h => h.op = .snapshot)
    let skip := (per || req) && captureBusy s
    let t := if skip then { s with cnt.skipped := sat32 (s.cnt.skipped + 1) } else if per || req then capture s per req else s
    let u := applyPending { t with frame.phase := 1 }
    if skip then u else completeSnaps u

/-- Requests that wait, with no frame running, for the record before theirs to stand (R371, log 66). -/
def settleSnaps (s : State) : State :=
  if s.frame.live || captureBusy s || !s.rings.held.any (fun h => h.op = .snapshot) then s
  else completeSnaps (capture s false true)

/-- COUNTER_CAPTURE. -/
def execCounterCapture (s : State) : Host.Outcome State Fault Refusal :=
  whenAlive .counterCapture s (opCapture s)

end Sys2Proof.Machine
end

