-- ==== Sys2Proof/Machine/Fabric.lean ====
section
/-! DEFINITION. Routing, windows, the inbound checks, and the answers to this device's own packets (R257 to R274, R403). -/

namespace Sys2Proof.Machine

open Sys2Proof

/-! ### The route table (R263, R403) -/

/-- A route-table entry of 16 bytes. -/
def routeEntry (b : List Byte) : Route :=
  { value := rd b 0 3, mask := rd b 3 3, port := rd b 6 1, alt := rd b 7 1, flags := rd b 8 1 }

/-- Its reserved fields are zero. -/
def routeEntryOk (b : List Byte) : Bool := rd b 8 1 < 4 && rd b 9 7 == 0

/-- The copy into both routers (R263, R403, R195). -/
def routeCopy (s : State) : State :=
  let a := s.glob.routeTable
  let n := s.glob.routeCount
  let t := { s with glob.routePending := false }
  let bad := { t with glob.routeError := true }
  if !installed t a (16 * n) then bad
  else match badLine t a (16 * n) with
    | some l => raiseFault bad (lineFault t l 0 false)
    | none =>
      let es := (List.range n).map (fun i => peek t (a + 16 * i) 16)
      noteRead (if es.all routeEntryOk then recheckDrains { t with fab.routes := es.map routeEntry, glob.routeDone := true } else bad) a
        (16 * n)

/-- ROUTE_LOAD (R403): at once when no frame of a job runs, else in the next seam. -/
def opRouteLoad (s : State) : State :=
  if s.frame.live then { s with glob.routePending := true } else routeCopy s

/-- ROUTE_LOAD. -/
def execRouteLoad (s : State) : Host.Outcome State Fault Refusal := whenAlive .routeLoad s (opRouteLoad s)

/-! ### Windows (R266 to R270) -/

/-- The window that an entry of 32 bytes describes (Table 10.10). -/
def windowOf (b : List Byte) : Window :=
  { isOpen := true, base := rd b 0 6, flags := rd b 7 1, length := rd b 8 6, gen := rd b 14 2, srcId := rd b 16 3,
    srcMask := rd b 19 3, closeFrame := rd b 24 6 }

/-- The descriptor offset of the first byte of an entry that breaks Table 10.10; a field whose value is not allowed counts from
its first byte. -/
def windowBad (b : List Byte) : Option Nat :=
  if rd b 0 6 % 64 ≠ 0 then some 32
  else if rd b 6 1 ≠ 0 then some 38
  else if 16 ≤ rd b 7 1 then some 39
  else if rd b 8 6 % 64 ≠ 0 || rd b 8 6 = 0 then some 40
  else if rd b 14 2 = 0 then some 46
  else ([22, 23, 30, 31].find? (fun i => rd b i 1 ≠ 0)).map (fun i => 32 + i)

/-- A window closed at the checkers (R270); the close is done with WINDOW_CLOSE_DONE. -/
def closeAt (s : State) (w : Nat) : State :=
  if (window s w).isOpen then setWindow s w { window s w with isOpen := false, closing := true, closeFrame := 0 } else s

/-- Descriptors held and waiting, across all rings (R285), apart from parameter-group writes. -/
def heldCount (s : State) : Nat := s.rings.held.length + s.actQueue.length + (if s.actHdr.isSome then 1 else 0)

/-- A close descriptor takes effect: it waits for the close to be done, or is BUSY beyond 256 that wait (R285); of a window that
is not open it completes at once. -/
def applyClose (s : State) (h : Hdr) (w : Nat) : State :=
  if (window s w).isOpen || (window s w).closing then
    if 256 ≤ heldCount s then complete s h 0x19 0 else
    let t := closeAt s w
    { t with rings.held := t.rings.held ++ [{ hdr := h, op := .closing w }] }
  else complete s h 0 0

/-- An open descriptor takes effect (R269): BUSY for a window that is open, DESC_FORMAT for a range that is not installed. -/
def applyOpen (s : State) (h : Hdr) (w : Nat) (b : List Byte) : State :=
  let x := windowOf b
  if (window s w).isOpen then complete s h 0x19 0
  else if !installed s x.base x.length then complete s h 0x11 32
  else
    let t := setWindow s w { x with closing := (window s w).closing }
    complete { t with job.opened := insertNat w t.job.opened } h 0 0

/-- The close is done (R270). -/
def opCloseDone (s : State) (w : Nat) : State :=
  if !(window s w).closing then s
  else
    let t := devEvent (setWindow s w { window s w with closing := false }) 0x5B 1
    let hs := t.rings.held.filter (fun h => h.op = .closing w)
    hs.foldl (fun u h => complete u h.hdr 0 0)
      { t with rings.held := t.rings.held.filter (fun h => h.op ≠ .closing w) }

/-- WINDOW_CLOSE_DONE. -/
def execWindowCloseDone (w : Nat) (s : State) : Host.Outcome State Fault Refusal :=
  whenAlive (.windowCloseDone w) s (opCloseDone s w)

/-! ### Answers -/

/-- A packet taken from where it waited: its port's inbox, or this device's own packets. -/
def takeIn (s : State) (p : Nat) (pkt : Packet) : State :=
  if (port s p).inbox.contains pkt then
    setPort s p { port s p with inbox := (port s p).inbox.erase pkt }
  else { s with fab.selfBox := s.fab.selfBox.erase pkt }

/-- The device takes part in the job, as a device or a spare (R234, R267). -/
def inJob (s : State) (d : Nat) : Bool := s.job.blk.devices.contains d || s.job.blk.spares.contains d

/-- The I/O die of a lane, or of a port by its lowest lane (Table 1.3). -/
def laneDie (p : Nat) : Nat := if p < 48 then 4 else 5

/-- LATE_DATA (R273): counted and answered; the first of a frame writes a record, unless a rollback is under way (R234). -/
def lateData (s : State) (p : Nat) (pkt : Packet) (ahead quiet : Bool) : State :=
  let t := devEvent s 0x57 1
  let f := tickedFrame s
  let t := if quiet || t.fab.lateFrame = some f then t
    else
      let r : FaultRec := { code := 0x18, sev := 0, detail := pkt.src + (if ahead then 2 ^ 63 else 0), src := 5, key := p, die := laneDie p }
      { raiseFault t r with fab.lateFrame := some f }
  respond t p pkt 0x18 []

/-- The fate of an inbound packet at the window checker (Table 10.11). -/
inductive Verdict where
  | late (ahead quiet : Bool)
  | hold
  | refuse (code : Nat)
  | pass
deriving DecidableEq, Repr

/-- Check 1 (R273, R234). -/
def checkFrame (s : State) (pkt : Packet) : Verdict :=
  if pkt.cls ≠ 0 then .pass
  else if (match s.train.restart with | some r => decide (pkt.frame < r) && inJob s pkt.src | none => false) then
    .late false true
  else
    let f := tickedFrame s
    if pkt.frame < f || (pkt.frame = f && s.frame.seam) then .late false false
    else if pkt.frame = f + 1 then .hold else if f + 1 < pkt.frame then .late true false else .pass

/-- Checks 2 to 4 (Table 10.11, R268). -/
def checkWindow (s : State) (pkt : Packet) : Verdict :=
  let w := window s pkt.window
  let flag := if pkt.typ = 1 then 0 else if pkt.typ = 2 then 1 else 2
  if !w.isOpen || (pkt.gen ≠ 0 && pkt.gen ≠ w.gen) then .refuse 0x0A
  else if (pkt.src &&& w.srcMask) ≠ (w.srcId &&& w.srcMask) || !w.flags.testBit flag then .refuse 0x09
  else if w.flags.testBit 3 then
    (if w.base ≤ pkt.addr && pkt.addr < w.base + w.length then .pass else .refuse 0x09)
  else if w.base ≤ pkt.addr && pkt.addr + pkt.length ≤ w.base + w.length then .pass else .refuse 0x09

/-- [a, a + n) cut where it passes the end of a ring; at most `fuel` pieces. -/
def ringPieces (base top : Nat) : Nat → Nat → Nat → List (Nat × Nat)
  | 0, _, _ => []
  | fuel + 1, a, n =>
    if a + n ≤ top || top ≤ a then [(a, n)] else (a, top - a) :: ringPieces base top fuel base (n - (top - a))

/-- Where the bytes of a packet go: past the end of a RING window they continue at BASE (R268). -/
def pieces (s : State) (pkt : Packet) : List (Nat × Nat) :=
  let w := window s pkt.window
  if w.flags.testBit 3 then ringPieces w.base (w.base + w.length) pkt.length pkt.addr pkt.length else [(pkt.addr, pkt.length)]

/-- The bytes that a packet touches: a REDUCE_WRITE of BF16 elements touches an FP32 element for each (R260). -/
def touched (s : State) (pkt : Packet) : List (Nat × Nat) :=
  pieces s (if pkt.typ = 3 && pkt.elemFmt = 8 then { pkt with length := 2 * pkt.length } else pkt)

/-- Check 5: a slot that a write touches is FULL (R186). -/
def checkTags (s : State) (pkt : Packet) : Verdict :=
  if pkt.typ ≠ 2 && (touched s pkt).any (fun x => (slotsOf x.1 x.2).any (isFull s)) then .refuse 0x19 else .pass

/-- The five checks in order. -/
def verdict (s : State) (pkt : Packet) : Verdict :=
  match checkFrame s pkt with
  | .pass => (match checkWindow s pkt with | .pass => checkTags s pkt | v => v)
  | v => v

/-- A refusal (R258, R266): WINDOW_CLOSED is counted; WINDOW_BOUNDS writes a record, and aborts the frame only when the sender
is a device of the job. -/
def refusePacket (s : State) (p : Nat) (pkt : Packet) (code : Nat) : State :=
  let t := if code = 0x0A then devEvent s 0x5A 1
    else if code = 0x09 then
      let r : FaultRec := { code := 9, sev := 0, valid := 0x20, addr := pkt.addr,
                            detail := pkt.src + pkt.window * 2 ^ 24 + pkt.length * 2 ^ 32, src := 5, key := p, die := laneDie p }
      if s.job.blk.devices.contains pkt.src && s.frame.live then abortWith s r false else raiseFault s r
    else s
  respond t p pkt code []

/-- OK for a packet that carries LAST or RESEND (R258). -/
def acknowledge (s : State) (p : Nat) (pkt : Packet) : State :=
  if pkt.last || pkt.resend then respond s p pkt 0 [] else s

/-- A packet that this device refuses before any check: an invalid header (Table 10.8), or a device without an id (R262). -/
def preRefusal (s : State) (pkt : Packet) : Option Nat :=
  if pkt.malformed then some 0x11 else if s.glob.deviceId = 0xFFFFFF && !pkt.neighbour then some 0x0C else none

/-- A WRITE or READ of the register mirror, which passes the control gate and not the windows (R300). -/
def toMirror (s : State) (pkt : Packet) : Bool := (pkt.typ == 1 || pkt.typ == 2) && regionOf s pkt.addr == 3

/-- A packet of the next frame held in its port's receive buffer (R273). -/
def holdPacket (s : State) (p : Nat) (pkt : Packet) : State :=
  setPort { s with fab.holdNext := s.fab.holdNext ++ [(p, pkt)] } p
    { port s p with holdSince := some ((port s p).holdSince.getD s.time.now) }

/-- The arrival of a WRITE, READ or REDUCE_WRITE at the checker: `land` is what a packet that passes does. -/
def inbound (s : State) (p : Nat) (pkt : Packet) (typ : Nat) (land : State → State) : State :=
  let t := takeIn s p pkt
  if pkt.typ ≠ typ || pkt.resp || toMirror s pkt then s
  else match preRefusal t pkt with
    | some c => respond t p pkt c []
    | none =>
      match verdict t pkt with
      | .late a q => lateData t p pkt a q
      | .hold => holdPacket t p pkt
      | .refuse c => refusePacket t p pkt c
      | .pass => land t

/-- The bytes of a packet written where they go, each with its own line errors. -/
def landBytes (s : State) (pkt : Packet) : State :=
  ((pieces s pkt).foldl (fun (x : State × List Byte) q =>
    (let bs := x.2.take q.2
     ((failLines x.1 q.1 bs.length).foldl lineError (store x.1 q.1 bs), x.2.drop q.2))) (s, pkt.payload)).1

/-- What a READ that passes answers (R258, R195). -/
def landRead (p : Nat) (pkt : Packet) (s : State) : State :=
  match (pieces s pkt).findSome? (fun x => badLine s x.1 x.2) with
  | some l => respond (lineError s l) p pkt 0x0B []
  | none =>
    let t := (pieces s pkt).foldl (fun u x => noteRead u x.1 x.2) s
    respond t p pkt 0 ((pieces s pkt).flatMap (fun x => peek s x.1 x.2))

/-- INBOUND_READ. -/
def execInboundRead (p : Nat) (pkt : Packet) (s : State) : Host.Outcome State Fault Refusal :=
  whenAlive (.inboundRead p pkt) s (inbound s p pkt 2 (landRead p pkt))

/-! ### Transfers of this device (R258, R259, R261) -/

/-- The transfer that a response belongs to, by its TAG: that of the device that the transfer addresses, or of a hop (R258). -/
def isXfer (s : State) (pkt : Packet) (x : Transfer) : Bool :=
  decide (pkt.typ ≤ 3) && x.tag == pkt.tag && (x.dst == pkt.src || pkt.dst == s.glob.deviceId)

/-- Every packet of the transfer is answered. -/
def Transfer.settled (x : Transfer) : Bool := x.pkts.isEmpty && !x.stopped && !x.late

/-- OK (R258): to a RESEND packet it answers that packet; with LAST, or without RESEND, every packet that is neither held nor to be
re-sent, nor re-sent and still to be answered on its own. -/
def Transfer.okFor (x : Transfer) (pkt : Packet) : Transfer :=
  let ps := if pkt.resend then x.pkts.filter (fun u => u.pkt.addr ≠ pkt.addr) else x.pkts
  let ps := if pkt.last || !pkt.resend then ps.filter (fun u => u.held || u.busy || u.resent) else ps
  { x with pkts := ps, acked := ps.isEmpty && !x.stopped && !x.late }

/-- A transfer that is done, or stopped with nothing left to answer, leaves the table, unless its end has a successor: a landing cell,
a count cell, or a move that completes with it. A checkpoint's is kept for its commit (R229). -/
def Transfer.gone (x : Transfer) : Bool :=
  x.land.isNone && x.folio.isNone && x.expert.isNone && !x.reads &&
  (x.acked || ((x.stopped || x.late) && x.pkts.isEmpty && decide (x.idx < 2 ^ 48)))

/-- The transfer table with the one that `pkt` answers changed. -/
def updXfer (s : State) (pkt : Packet) (f : Transfer → Transfer) : State :=
  { s with fab.xfers := (s.fab.xfers.map (fun x => if isXfer s pkt x then f x else x)).filter (fun x => !x.gone) }

/-- A response that this device takes: RESP set, and the packet taken from where it waits. -/
def onResponse (s : State) (p : Nat) (pkt : Packet) (f : State → State) : State :=
  if pkt.resp then f (takeIn s p pkt) else s

/-- RESPONSE_OK. -/
def execResponseOk (p : Nat) (pkt : Packet) (s : State) : Host.Outcome State Fault Refusal :=
  whenAlive (.responseOk p pkt) s
    (onResponse s p pkt (fun t =>
      if pkt.status = 0 then settleSnaps (answerWrite (updXfer t pkt (fun x => x.okFor pkt)) pkt) else t))

/-- The packet of the transfer that `pkt` names by TAG and ADDR, changed. -/
def Transfer.mark (x : Transfer) (addr : Nat) (f : Unanswered → Unanswered) : Transfer :=
  { x with pkts := x.pkts.map (fun u => if u.pkt.addr = addr then f u else u) }

/-- A SCHEDULED packet of a transfer, of the current frame, waits for a re-send (R259). -/
def Transfer.busyNow (s : State) (x : Transfer) : Bool :=
  !x.stopped && x.pkts.any (fun u => u.busy && u.pkt.cls == 0 && u.pkt.frame == currentFrame s)

/-- The remote BUSY class of the stall (R259, Table 2.5). -/
def busyWaits (s : State) : Bool := s.fab.xfers.any (Transfer.busyNow s)

/-- RESPONSE_BUSY (R259). -/
def execResponseBusy (p : Nat) (pkt : Packet) (s : State) : Host.Outcome State Fault Refusal :=
  whenAlive (.responseBusy p pkt) s
    (onResponse s p pkt (fun t =>
      if pkt.status = 0x19 then
        let u := answerWrite (updXfer t pkt (fun x => x.mark pkt.addr (fun u => { u with busy := true }))) pkt
        stallNow u (busyWaits u)
      else t))

/-- BUSY_RESEND (R259): with RESEND set, while the frame that sent the packet lasts. The packet then waits for its own answer. -/
def opBusyResend (s : State) (tag addr : Nat) : State :=
  match s.fab.xfers.find? (fun x => x.tag = tag && x.pkts.any (fun u => u.busy && u.pkt.addr = addr)) with
  | none => s
  | some x =>
    match x.pkts.find? (fun u => u.busy && u.pkt.addr = addr) with
    | none => s
    | some u =>
      if x.stopped || u.pkt.frame ≠ currentFrame s || (u.pkt.cls = 0 && s.frame.seam) then s
      else
        let t := (sendPacket s 0 { u.pkt with flags := u.pkt.flags ||| 16 }).1
        { t with fab.xfers := t.fab.xfers.map (fun y =>
            if y.tag = tag && y.dst = x.dst then y.mark addr (fun u => { u with busy := false, resent := true }) else y) }

/-- BUSY_RESEND. -/
def execBusyResend (tag addr : Nat) (s : State) : Host.Outcome State Fault Refusal :=
  whenAlive (.busyResend tag addr) s (opBusyResend s tag addr)

/-- The ports to which the packets that wait for a re-send go: BUSY_WAIT counts there (Table 15.2). -/
def busyPorts (s : State) : List Nat :=
  ((s.fab.xfers.filter (Transfer.busyNow s)).filterMap (fun x =>
    match routeOf s x.dst with | some (some p) => some p | _ => none)).eraseDups

/-- The lowest entry after entry 0 of the device list that is not declared lost (R237). -/
def deputyOf (s : State) : Nat :=
  ((s.job.blk.devices.drop 1).find? (fun d => !s.job.lost.contains d)).getD s.glob.deviceId

/-- A transfer of the checkpoint services (R229, R231, R236): its index lies above every record address. -/
def ckptXfer (x : Transfer) : Bool := x.folio.isNone && decide (2 ^ 48 ≤ x.idx)

/-- An operation of a firmware core that a refusal or a failure ends: it completes with the code (R170, R259). The record is that of
the IO0 cores, or of the links where a response brought the refusal. -/
def failOperation (s : State) (r : FaultRec) : State := raiseFault s { r with sev := 1, valid := 0x20 }

/-- A held MASK_OP whose reads a transfer was to bring completes with a code, and what it has asked for is given up (R259, log 49). -/
def endMaskOp (s : State) (x : Transfer) (code : Nat) : State :=
  if !x.reads then s
  else
    let t := takeHeld s (fun o => o == .maskOp x.idx)
    completeAll { t.2 with fab.xfers := t.2.fab.xfers.filter (fun y => !(y.reads && y.folio.isNone && y.idx == x.idx)) } t.1 code

/-- The end of a transfer that is refused with a code (R259), the refusal having come on port `p`: a stroke's aborts the frame with it;
an operation of an Enael core, of a router count or of the checkpoint services completes with it, and leaves a record but for
WINDOW_BOUNDS and LINK_DOWN, whose records Table 14.3 gives to the owner and to stroke senders. -/
def endTransfer (s : State) (x : Transfer) (p code : Nat) (pkt : Packet) : State :=
  let r : FaultRec := { code := code, valid := 0x20, addr := pkt.addr, detail := x.dst + pkt.window * 2 ^ 24, src := 5, key := p
                        die := laneDie p }
  match x.folio with
  | some l => abortWith s (r.ofStroke s (some (l, x.idx))) false
  | none =>
    let t := if code = 9 || code = 0x0C then s else failOperation s r
    if ckptXfer x then t else endMaskOp t x code

/-- The answer LINK_DOWN to a message that this device sent to the coordinator (R237). -/
def toCoordinator (s : State) (pkt : Packet) : Bool :=
  pkt.typ == 6 && pkt.status == 0x0C && pkt.tag == mgmtTag s (coordinator s)

/-- RESPONSE_REFUSAL (R259): the transfer stops, with its end. A message to the coordinator that is answered LINK_DOWN turns later ones
to the deputy (R237). -/
def opRefusal (s : State) (p : Nat) (pkt : Packet) : State :=
  let x := s.fab.xfers.find? (isXfer s pkt)
  let stop := fun (y : Transfer) =>
    if !isXfer s pkt y then some y else if ckptXfer y then some { y with pkts := [], stopped := true } else none
  let t := { s with fab.xfers := s.fab.xfers.filterMap stop }
  match x with
  | some y => endTransfer t y p pkt.status pkt
  | none =>
    if toCoordinator t pkt && jobExists t && t.train.acting.isNone then
      { t with train.acting := some (deputyOf t) }
    else t

/-- The codes of a refusal that stops a transfer (R259). -/
def refusalCode (c : Nat) : Bool := c == 9 || c == 0x0A || c == 0x0B || c == 0x0C || c == 0x11

/-- RESPONSE_REFUSAL. -/
def execResponseRefusal (p : Nat) (pkt : Packet) (s : State) : Host.Outcome State Fault Refusal :=
  whenAlive (.responseRefusal p pkt) s
    (onResponse s p pkt (fun t => if refusalCode pkt.status then answerWrite (opRefusal t p pkt) pkt else t))

/-- LATE_DATA to a packet of a transfer: it was not written, so the transfer is never acknowledged, and what waits for its
acknowledgement is not sent (R168, R261). Its other packets go on, re-sends among them (R259). -/
def Transfer.lateFor (x : Transfer) (pkt : Packet) : Transfer :=
  { x with pkts := x.pkts.filter (fun u => u.pkt.addr ≠ pkt.addr && !u.held), late := true, acked := false, land := none }

/-- RESPONSE_LATE_DATA (R259): counted, with no record and no abort. -/
def execResponseLateData (p : Nat) (pkt : Packet) (s : State) : Host.Outcome State Fault Refusal :=
  whenAlive (.responseLateData p pkt) s
    (onResponse s p pkt (fun t =>
      if pkt.status = 0x18 then answerWrite (updXfer (devEvent t 0x58 1) pkt (fun x => x.lateFor pkt)) pkt else t))

/-- READ_RESPONSE_RECEIVE (R258): the data gather in the transfer, for the move that asked. -/
def opReadResponse (s : State) (pkt : Packet) : State :=
  updXfer s pkt (fun y =>
    let ps := y.pkts.filter (fun u => u.pkt.addr ≠ pkt.addr)
    { y with
      pkts := ps, acked := ps.isEmpty && !y.stopped && !y.late,
      got := if y.reads then y.got ++ [(pkt.addr, pkt.payload)] else y.got })

/-- SLOT_FILL_SEND (R261): once every earlier packet to the slot has been answered OK. -/
def opSlotFill (s : State) (tag : Nat) : State :=
  match s.fab.xfers.find? (fun x => x.tag = tag && !x.stopped && !x.late && !x.pkts.isEmpty && x.pkts.all (fun u => u.held)) with
  | none => s
  | some x =>
    let t := x.pkts.foldl (fun u y => (sendPacket u 0 { y.pkt with frame := currentFrame s }).1) s
    { t with fab.xfers := t.fab.xfers.map (fun y =>
        if y.tag = tag then { y with pkts := y.pkts.map (fun u => { u with held := false }) } else y) }

/-- SLOT_FILL_SEND. -/
def execSlotFillSend (tag : Nat) (s : State) : Host.Outcome State Fault Refusal :=
  whenAlive (.slotFillSend tag) s (opSlotFill s tag)

/-! ### Forwarding (R263 to R265) -/

/-- The partner of a port lacks REDUCE_WRITE in its FEATURES (R260). -/
def noReduce (s : State) (p : Nat) : Bool := ((lanesOf s p).filter (laneUp s)).any (fun n => !(lane s n).partnerFeat.testBit 0)

/-- PACKET_FORWARD (R263): this device's own packets stay for the checker and a broadcast for BROADCAST_RECEIVE; others leave on the
routed port, or are answered LINK_DOWN. A REDUCE_WRITE to a partner without that feature is answered DESC_FORMAT (R260), as is a header
that no hop forwards (R257, R264). -/
def opForward (s : State) (p : Nat) (pkt : Packet) : State :=
  match preRefusal s pkt with
  | some c => respond (takeIn s p pkt) p pkt c []
  | none =>
    if pkt.neighbour then s
    else if pkt.dst = 0xFFFFFF then (if pkt.typ = 6 then s else respond (takeIn s p pkt) p pkt 0x11 [])
    else
      match routeFor s pkt with
      | some none => s
      | some (some q) =>
        if pkt.typ = 3 && !pkt.resp && noReduce s q then respond (takeIn s p pkt) p pkt 0x11 []
        else enqueue (takeIn s p pkt) q (2 + p) { pkt with hops := satN 0xFFFF (pkt.hops + 1) }
      | none => respond (takeIn s p pkt) p pkt 0x0C []

/-- PACKET_FORWARD. -/
def execPacketForward (p : Nat) (pkt : Packet) (s : State) : Host.Outcome State Fault Refusal :=
  whenAlive (.packetForward p pkt) s (opForward s p pkt)

/-- BROADCAST_RECEIVE (R264): delivered here, and forwarded on every UP broadcast port but the one it came on. Only MGMT may
be broadcast. -/
def opBroadcast (s : State) (p : Nat) (pkt : Packet) : State :=
  let t := takeIn s p pkt
  if pkt.dst ≠ 0xFFFFFF || pkt.neighbour then s
  else match preRefusal s pkt with
    | some c => respond t p pkt c []
    | none =>
      if pkt.typ ≠ 6 then respond t p pkt 0x11 []
      else
        let u := { t with fab.selfBox := t.fab.selfBox ++ [pkt] }
        ((bcastPorts s).filter (fun q => decide (q ≠ p))).foldl
          (fun v q => enqueue v q (2 + p) { pkt with hops := satN 0xFFFF (pkt.hops + 1) }) u

/-- BROADCAST_RECEIVE. -/
def execBroadcastReceive (p : Nat) (pkt : Packet) (s : State) : Host.Outcome State Fault Refusal :=
  whenAlive (.broadcastReceive p pkt) s (opBroadcast s p pkt)

/-- WINDOW_CTRL_QUERY (R269, Table 10.7): answered with the window's state. -/
def opWindowQuery (s : State) (p : Nat) (pkt : Packet) : State :=
  if pkt.typ ≠ 4 || pkt.resp || rd pkt.payload 0 1 ≠ 1 then s
  else match preRefusal s pkt with
    | some c => respond (takeIn s p pkt) p pkt c []
    | none =>
      let n := rd pkt.payload 1 1
      let w := window s n
      let pay := leBytes 1 2 ++ leBytes 1 n ++ leBytes 2 w.gen ++ leBytes 1 (b2n w.isOpen) ++ leBytes 3 0 ++
        leBytes 6 w.length ++ leBytes 1 w.flags ++ leBytes 17 0
      let r : Packet := { pkt with
        flags := (pkt.flags &&& 2) ||| 8, dst := pkt.src, src := s.glob.deviceId, length := 32, hops := 0,
        payload := pay, status := 0 }
      let t := takeIn s p pkt
      if pkt.neighbour then sendNeighbour t p r else (sendPacket t 1 r).1

/-- WINDOW_CTRL_QUERY. -/
def execWindowCtrlQuery (p : Nat) (pkt : Packet) (s : State) : Host.Outcome State Fault Refusal :=
  whenAlive (.windowCtrlQuery p pkt) s (opWindowQuery s p pkt)

/-- WINDOW_CTRL_STATE (R267): taken as information. -/
def execWindowCtrlState (p : Nat) (pkt : Packet) (s : State) : Host.Outcome State Fault Refusal :=
  whenAlive (.windowCtrlState p pkt) s (takeIn s p pkt)

/-- Whether the scheduler core takes a message (R267): one of Table 9.6 or Table 14.5. Without a job it takes the TAKEOVER and the ROLLBACK
that name it as the spare, and those of the job that it has been named for (R234, R236). A spare with too few Folios runs no job,
and takes no place in one (R24). -/
def acceptsMsg (s : State) (src typ job spare : Nat) : Bool :=
  if jobExists s then decide (1 ≤ typ) && decide (typ ≤ 9) && job == s.job.blk.tag && inJob s src
  else (typ == 2 || typ == 6) && s.folios.short.isNone &&
    (spare == s.glob.deviceId || (s.train.asSpare.isSome && job == s.job.blk.tag))

/-- MGMT_MESSAGE_REFUSE (R267): discarded and answered WINDOW_BOUNDS, with no record. -/
def opMsgRefuse (s : State) (p : Nat) (pkt : Packet) : State :=
  let ty := rd pkt.payload 0 1
  if pkt.typ ≠ 6 || pkt.resp || pkt.neighbour || (preRefusal s pkt).isSome || schedAway s || acceptsMsg s pkt.src ty (rd pkt.payload 2 2) (rd pkt.payload 24 3) then s
  else respond (takeIn s p pkt) p pkt 9 []

/-- MGMT_MESSAGE_REFUSE. -/
def execMgmtMessageRefuse (p : Nat) (pkt : Packet) (s : State) : Host.Outcome State Fault Refusal :=
  whenAlive (.mgmtMessageRefuse p pkt) s (opMsgRefuse s p pkt)

end Sys2Proof.Machine
end

