-- ==== Sys2Proof/Machine/Fec.lean ====
section
/-! DEFINITION. Forward error correction: the codewords of the 50 to 200 Gbit/s modes (R243) and the two codes of the 400 Gbit/s mode
(R244, R245). A codeword is a list of 10-bit symbols, the data first. -/

namespace Sys2Proof

/-! ### GF(2^10), with field polynomial x^10 + x^3 + 1 -/

/-- Times α. -/
def gfX (a : Nat) : Nat := if a < 512 then 2 * a else (2 * a) ^^^ 0x409

/-- The lowest `k` bits of `b` times `a`. -/
def gfMulBits : Nat → Nat → Nat → Nat
  | 0, _, _ => 0
  | k + 1, a, b => (if b % 2 = 1 then a else 0) ^^^ gfMulBits k (gfX a) (b / 2)

/-- The product of two elements. -/
def gfMul (a b : Nat) : Nat := gfMulBits 10 a b

/-- α to a power. -/
def gfAlpha : Nat → Nat
  | 0 => 1
  | n + 1 => gfX (gfAlpha n)

/-- An element to a power. -/
def gfPow (a : Nat) : Nat → Nat
  | 0 => 1
  | n + 1 => gfMul a (gfPow a n)

/-- The inverse of an element that is not zero. -/
def gfInv (a : Nat) : Nat := gfPow a 1022

/-- The sum of two lists, element by element. -/
def gfAdd : List Nat → List Nat → List Nat
  | [], bs => bs
  | as, [] => as
  | a :: as, b :: bs => (a ^^^ b) :: gfAdd as bs

/-- A polynomial, the lowest coefficient first, at a point. -/
def gfEval (p : List Nat) (x : Nat) : Nat := p.foldr (fun c r => c ^^^ gfMul r x) 0

/-- The product of two polynomials, the lowest coefficient first. -/
def gfPoly : List Nat → List Nat → List Nat
  | [], _ => []
  | a :: as, bs => gfAdd (bs.map (gfMul a)) (0 :: gfPoly as bs)

/-! ### The RS codes: systematic, the parity after the data -/

/-- The generator of `t` roots, Π (x − α^i), the highest coefficient first. -/
def rsGen (t : Nat) : List Nat :=
  ((List.range t).foldl (fun g i => gfPoly [gfAlpha i, 1] g) [1]).reverse

/-- The `t` parity symbols of data: the rest of the data, shifted by t places, divided by the generator. -/
def rsParity (t : Nat) (data : List Nat) : List Nat :=
  let g := (rsGen t).drop 1
  data.foldl (fun r m => let f := m ^^^ r.headD 0; gfAdd (r.drop 1 ++ [0]) (g.map (gfMul f))) (List.replicate t 0)

/-- A codeword of data with `t` parity symbols. -/
def rsEncode (t : Nat) (data : List Nat) : List Nat := data ++ rsParity t data

/-- The syndromes of a received word: its values at α^0 to α^(t−1). -/
def rsSyndromes (t : Nat) (w : List Nat) : List Nat := (List.range t).map (fun i => gfEval w.reverse (gfAlpha i))

/-- One step of the search for the error locator (Berlekamp and Massey): the locator and its length, the last one before its length
changed, the discrepancy there, and the steps since. -/
def rsStep (syn : List Nat) (n : Nat) (x : List Nat × Nat × List Nat × Nat × Nat) : List Nat × Nat × List Nat × Nat × Nat :=
  let c := x.1; let l := x.2.1; let old := x.2.2.1; let b := x.2.2.2.1; let m := x.2.2.2.2
  let d := (List.range (l + 1)).foldl (fun r i => r ^^^ gfMul (c.getD i 0) (syn.getD (n - i) 0)) 0
  if d = 0 then (c, l, old, b, m + 1)
  else
    let c' := gfAdd c (List.replicate m 0 ++ old.map (gfMul (gfMul d (gfInv b))))
    if 2 * l ≤ n then (c', n + 1 - l, c, d, 1) else (c', l, old, b, m + 1)

/-- The error locator of some syndromes, with its length. -/
def rsLocator (syn : List Nat) : List Nat × Nat :=
  let x := (List.range syn.length).foldl (fun x n => rsStep syn n x) ([1], 0, [1], 1, 1)
  (x.1, x.2.1)

/-- The error value at the place whose locator is `x` (Forney, the first root being α^0). -/
def rsValue (syn loc : List Nat) (x : Nat) : Nat :=
  let y := gfInv x
  let omega := (gfPoly syn loc).take syn.length
  let slope := gfEval ((loc.zipIdx.drop 1).map (fun c => if c.2 % 2 = 1 then c.1 else 0)) y
  gfMul x (gfMul (gfEval omega y) (gfInv slope))

/-- A received word decoded (R245): corrected where at most t ÷ 2 symbols are wrong; none where it cannot be. -/
def rsDecode (t : Nat) (w : List Nat) : Option (List Nat) :=
  let syn := rsSyndromes t w
  if syn.all (fun x => x == 0) then some w
  else
    let loc := rsLocator syn
    let n := w.length
    let at_ := (List.range n).filter (fun j => gfEval loc.1 (gfInv (gfAlpha (n - 1 - j))) == 0)
    let fixed := w.zipIdx.map (fun c => if at_.contains c.2 then c.1 ^^^ rsValue syn loc.1 (gfAlpha (n - 1 - c.2)) else c.1)
    if loc.2 ≤ t / 2 && at_.length == loc.2 && (rsSyndromes t fixed).all (fun x => x == 0) then some fixed else none

/-! ### Flits in codewords (R243, R245): five flits in two codewords, bit 0 of the byte at offset 0 first -/

/-- Digits of a number, the lowest first. -/
def digits (base : Nat) : Nat → Nat → List Nat
  | 0, _ => []
  | n + 1, v => v % base :: digits base n (v / base)

/-- The number that digits spell. -/
def undigits (base : Nat) (ds : List Nat) : Nat := ds.foldr (fun d r => d + base * r) 0

/-- The 512 symbols of the flits in each of the two codewords that five flits fill. -/
def flitSymbols (five : List Byte) : List (List Nat) :=
  let ds := digits 1024 1024 (leNat (five.take 1280))
  [ds.take 512, ds.drop 512]

/-- The codewords, of the two that carry five flits, in which flit `k` lies. -/
def flitWords (k : Nat) : List Nat := if k < 2 then [0] else if k = 2 then [0, 1] else [1]

/-- Flit `k` of the five that the flit symbols of two codewords carry; a codeword that is missing is taken as zero symbols. -/
def wordsFlit (ws : List (Option (List Nat))) (k : Nat) : List Byte :=
  let ds := ((List.range 2).map (fun j => ((ws.getD j none).getD (List.replicate 512 0)))).flatten
  leBytes 256 (undigits 1024 ds / 2 ^ (2048 * k))

/-- A codeword that flit `k` touches did not decode, or has not come. -/
def wordsBad (ws : List (Option (List Nat))) (k : Nat) : Bool := (flitWords k).any (fun j => (ws.getD j none).isNone)

/-- The first two data symbols of a codeword of the 50 to 200 Gbit/s modes: the lane number in bits [6:0] of the 20, and zero (R243,
log 28). -/
def laneMark (n : Nat) : List Nat := [n % 128, 0]

/-- A codeword of RS(544,514) with the lane number of its sender (R243). -/
def kpWord (n : Nat) (flits : List Nat) : List Nat := rsEncode 30 (laneMark n ++ flits)

/-- A codeword of RS(528,512) (R245). -/
def krWord (flits : List Nat) : List Nat := rsEncode 16 flits

/-! ### The inner code (R245): blocks of 66 bits as 34 PAM4 symbols, each named by its two bits, the most significant first -/

/-- The 80 blocks of a codeword of 5,280 bits, in order. -/
def innerBlocks (word : List Nat) : List Nat := digits (2 ^ 66) 80 (undigits 1024 word)

/-- The codeword of 80 blocks. -/
def innerWord (blocks : List Nat) : List Nat := digits 1024 528 (undigits (2 ^ 66) blocks)

/-- Symbol `k` of a block: b_2k the most significant bit, b_2k+1 the least significant one. -/
def innerSymbol (block k : Nat) : Nat := 2 * b2n (block.testBit (2 * k)) + b2n (block.testBit (2 * k + 1))

/-- The XOR of symbols. -/
def symbolParity (l : List Nat) : Nat := l.foldl (fun r x => r ^^^ x) 0

/-- The 34 symbols of a block, the last being the parity symbol. -/
def innerEncode (block : Nat) : List Nat :=
  let l := (List.range 33).map (innerSymbol block)
  l ++ [symbolParity l]

/-- The block of the first 33 symbols. -/
def innerBlock (l : List Nat) : Nat :=
  undigits 4 ((l.take 33).map (fun x => x / 2 % 2 + 2 * (x % 2)))

/-- The parity of a received block passes. -/
def innerPasses (l : List Nat) : Bool := symbolParity l == 0

/-- The PAM4 level of a symbol, 0 for −3 to 3 for +3 (R244): 00, 01, 11, 10. -/
def pamLevel (x : Nat) : Nat := if x = 3 then 2 else if x = 2 then 3 else x
/-- The symbol of a level. -/
def pamSymbol (v : Nat) : Nat := if v = 2 then 3 else if v = 3 then 2 else v

/-- The symbols one level away from a symbol. -/
def pamNear (x : Nat) : List Nat :=
  let v := pamLevel x
  (if 0 < v then [pamSymbol (v - 1)] else []) ++ (if v < 3 then [pamSymbol (v + 1)] else [])

/-- A received block with its least reliable symbol (R245): where the parity fails, that symbol changes by one level in the
direction that restores both parity bits, and one INNER_FIX is counted; a symbol that no such change mends stays (log 28). -/
def innerFix (l : List Nat) (weak : Nat) : List Nat × Nat :=
  if innerPasses l then (l, 0)
  else match (pamNear (l.getD weak 0)).find? (fun x => innerPasses (l.set weak x)) with
    | some x => (l.set weak x, 1)
    | none => (l, 1)

/-- What the receiver makes of the 80 blocks of a codeword, each with its least reliable symbol: the codeword where the outer code
decodes it, and the number of INNER_FIX. -/
def krReceive (blocks : List (List Nat × Nat)) : Option (List Nat) × Nat :=
  let fs := blocks.map (fun b => innerFix b.1 b.2)
  (rsDecode 16 (innerWord (fs.map (fun f => innerBlock f.1))), (fs.map (fun f => f.2)).sum)

/-- A codeword as a lane receives it (R243, R245): decoded where it can be, with the number of INNER_FIX. At 400 Gbit/s it is 80 blocks
of 34 symbols, with the least reliable symbol of each. -/
def lineReceive (rate : Nat) (w weak : List Nat) : Option (List Nat) × Nat :=
  if rate = 4 then
    (if w.length = 2720 then krReceive ((List.range 80).map (fun k => ((w.drop (34 * k)).take 34, weak.getD k 0))) else (none, 0))
  else (if w.length = 544 then rsDecode 30 w else none, 0)

/-- The flit symbols of a decoded codeword. -/
def wordData (rate : Nat) (w : List Nat) : List Nat := (if rate = 4 then w else w.drop 2).take 512

/-- The lane number that a decoded codeword of the 50 to 200 Gbit/s modes names. -/
def wordLane (w : List Nat) : Nat := w.headD 0 % 128

/-- What a lane puts on its line for five flits (R243, R245): at 400 Gbit/s the PAM4 symbols of the two codewords, else their 10-bit
symbols. -/
def lineWords (rate n : Nat) (five : List Byte) : List (List Nat) :=
  if rate = 4 then (flitSymbols five).map (fun w => ((innerBlocks (krWord w)).map innerEncode).flatten)
  else (flitSymbols five).map (kpWord n)

end Sys2Proof
end

