-- ==== Sys2Proof/Machine/Link.lean ====
section
/-! DEFINITION. Lanes: negotiation and training (R243 to R249, R254, R255, R419, R420), and the link layer: flits, replay,
credits, rotation and arbitration (R250 to R253, R271, R272). -/

namespace Sys2Proof.Machine

open Sys2Proof

/-! ### Negotiation -/

/-- A lane or port takes part in SCHEDULED traffic of a Ductus of the running job (R255). -/
def mayRetrain (s : State) (n : Nat) : Bool :=
  !(jobPhase s == 3 || jobPhase s == 4) || (rotation s).all (fun d => !(schedPorts s d).contains (portOf s n))

/-- The ports that carry SCHEDULED traffic of a Ductus: those to which its strokes send, and those on which SCHEDULED packets have
come or gone while it ran (R252, log 28). -/
def carryPorts (s : State) (d : Loaded) : List Nat :=
  schedPorts s d ++ (s.ports.filter (fun x => x.2.schedIn.contains d.id)).map (fun x => x.1)

/-- A lane of a port that carries SCHEDULED traffic of the current Ductus is in retry (R252). -/
def linkRetryStall (s : State) : Bool :=
  match curDuctus s with
  | none => false
  | some d => (carryPorts s d).any (fun p => (lanesOf s p).any (fun n => (link s n).txRetry || (link s n).rxRetry))

/-- A flit that a lane's receive buffer frees: the next report gives its credit back (R253). -/
def freeFlit (s : State) (x : Nat × Nat × Bool) : State :=
  let l := link s x.1
  if 3 ≤ x.2.1 then s else setLink s x.1 { l with freed := l.freed.set x.2.1 ((l.freed[x.2.1]?).getD 0 + 1) }

/-- A lane that was UP leaves its port: what had arrived on it and the packet that it brought in part are discarded, and the packet
that the port had sent in part is sent anew (R254, log 28). -/
def dropFromPort (s : State) (p n : Nat) : State :=
  if !laneUp s n then s
  else
    let q := port s p
    let t := setPort s p { q with
      queue := q.waiting, cur := [], curAll := [], arrived := q.arrived.filter (fun x => decide (x.1 ≠ n)), stream := []
      opened := [], heldCredits := q.heldCredits.filter (fun k => decide (k ≠ n)) }
    (q.opened.filter (fun x => decide (x.1 ≠ n))).foldl freeFlit t

/-- Rates that were removed may be tried again once no lane of the port is UP or trains: the exchanges in progress begin again
(R248, log 28). -/
def freshRates (s : State) (p : Nat) : State :=
  if (port s p).removed = 0 || (lanesOf s p).any (fun k => (lane s k).state = 2 || (lane s k).state = 3) then s
  else (lanesOf s p).foldl (fun t k => if (lane t k).state = 1 then restartPages t k else t) (setPort s p { port s p with removed := 0 })

/-- A peer ring host that no port reaches any more is lost (R295). -/
def peerHostLost (s : State) : State :=
  if s.rings.host = 1 && (routeOf s s.rings.hostDevice).isNone then loseSession s else s

/-- What follows where lanes of a port have gone down (R254, R295, R333). -/
def afterDown (s : State) (p : Nat) : State := dropPartner (peerHostLost (flushDown (freshRates s p) p)) (p / 8)

/-- A lane declared down (R254, R255): its unacknowledged flits are discarded and it starts at PAGES again; a port without UP
lanes answers what waits for it. -/
def laneDown (s : State) (n : Nat) : State :=
  let p := portOf s n
  afterDown (restartPages (dropFromPort s p n) n) p

/-- LANE_SILENCE_DOWN (R254): with its LINK_DOWN record. -/
def opSilence (s : State) (n : Nat) : State :=
  if (lane s n).state ≠ 3 then s
  else
    let p := portOf s n
    laneDown (raiseFault s { code := 0x0C, sev := 0, die := if n < 48 then 4 else 5, detail := n + 256 * p, src := 5,
                             key := n }) n

/-- The SerDes clock of a lane's IO die has gone: the lanes of that die stop (R386). -/
def clockLost (s : State) (n : Nat) : Bool := if n < 48 then s.pins.lostSd0 else s.pins.lostSd1

/-- RATES of a port's pages: what every one of its lanes may run at, so that all settle at one rate (R241, R248), without those
at which a lane failed. -/
def portRates (s : State) (p : Nat) : Nat :=
  (lanesOf s p).foldl (fun r k => r &&& (lane s k).rateLatch) (15 - (port s p).removed % 16)

/-- The page that a lane sends (Table 10.2). -/
def localPage (s : State) (n : Nat) : List Byte :=
  let l := lane s n
  let p := portOf s n
  let b := leBytes 2 0x5244 ++ leBytes 1 l.pageSeq ++ leBytes 1 l.echoSeq ++ leBytes 1 1 ++ leBytes 1 0 ++
    leBytes 1 (portRates s p) ++ leBytes 1 3 ++ leBytes 2 0xF ++ leBytes 1 n ++ leBytes 1 p ++
    leBytes 1 (lanesOf s p).length ++ leBytes 3 s.glob.deviceId ++ leBytes 1 s.time.state ++ leBytes 7 0 ++
    leBytes 8 l.nonce ++ leBytes 28 0
  b ++ leBytes 4 (crc32c b)

/-- The common rates of two pages (R248), given as RATES and FEC bytes. -/
def commonRates (rates rates' fec fec' : Nat) : Nat :=
  let r := rates &&& rates' &&& 15
  let r := if (fec &&& fec').testBit 1 then r else r &&& 7
  if (fec &&& fec').testBit 0 then r else r &&& 8

/-- The highest rate of a RATES field, as LINK_RATE_n codes it: 0 none, 1 to 4 for 50 to 400 Gbit/s. -/
def topRate (r : Nat) : Nat :=
  if r.testBit 3 then 4 else if r.testBit 2 then 3 else if r.testBit 1 then 2 else if r.testBit 0 then 1 else 0

/-- The common rates of a lane's page and its partner's. -/
def ratesWith (s : State) (n : Nat) (page : List Byte) : Nat :=
  commonRates (portRates s (portOf s n)) (rd page 6 1) 3 (rd page 7 1)

/-- The rate at which another lane of the port trains or runs. -/
def portRate (s : State) (n : Nat) : Option Nat :=
  ((lanesOf s (portOf s n)).find? (fun k => decide (k ≠ n) && ((lane s k).state == 2 || (lane s k).state == 3))).map
    (fun k => (lane s k).rate)

/-- The rate that two pages give (R248), which is that of the port where one of its lanes has it already (R241, log 28); 0 for none. -/
def rateWith (s : State) (n : Nat) (page : List Byte) : Nat :=
  let c := ratesWith s n page
  match portRate s n with
  | some r => if c.testBit (r - 1) then r else 0
  | none => topRate c

/-- Why two pages do not agree (R249), as LINK_STATE_n codes it; 0 where they do. -/
def mismatch (s : State) (n : Nat) (page : List Byte) : Nat :=
  let p := portOf s n
  if rd page 4 1 ≠ 1 then 1
  else if rd page 12 1 ≠ (lanesOf s p).length || (rd page 10 1 : Int) - rd page 11 1 ≠ (n : Int) - p then 2
  else if rd page 24 8 = (lane s n).nonce then 3
  else if rateWith s n page = 0 then 4 else 0

/-- Every lane of a port waits (Table 10.3): training has failed at every common rate, and after 100 ms all rates are tried again. -/
def portWaits (s : State) (p : Nat) : State :=
  let t := (lanesOf s p).foldl (fun t k =>
    let l := lane t k
    if l.state = 0 || l.state = 4 then t
    else setLink (setLane (dropFromPort t p k) k { l with state := 5, rate := 0, rejoin := false }) k {}) s
  afterDown (setPort t p { port t p with removed := 0 }) p

/-- CAPABILITY_PAGE_RECEIVE (R247 to R249): a page whose CRC or MAGIC fails is ignored; the exchange ends once the partner's
page echoes the lane's own PAGE_SEQ. A port whose every common rate has failed waits. -/
def opPage (s : State) (n : Nat) (page : List Byte) : State :=
  if clockLost s n || (lane s n).state ≠ 1 || rd page 60 4 ≠ crc32c (page.take 60) || rd page 0 2 ≠ 0x5244 then s
  else
    let l := { lane s n with
      echoSeq := rd page 2 1, partner := rd page 13 3, partnerFeat := rd page 8 2, partnerTime := rd page 16 1 % 4
      partnerLane := rd page 10 1 }
    let t := setLane s n l
    if rd page 3 1 ≠ l.pageSeq then t
    else
      let m := mismatch t n page
      let p := portOf t n
      let all := ratesWith (setPort t p { port t p with removed := 0 }) n page
      if m = 4 && (port t p).removed ≠ 0 && ratesWith t n page = 0 && all ≠ 0 then portWaits t p
      else if m ≠ 0 then setLane t n { l with state := 4, reason := m }
      else setLane t n { l with state := 2, reason := 0, rate := rateWith t n page, common := ratesWith t n page }

/-- CAPABILITY_PAGE_RECEIVE. -/
def execCapabilityPageReceive (n : Nat) (page : List Byte) (s : State) : Host.Outcome State Fault Refusal :=
  whenAlive (.capabilityPageReceive n page) s (opPage s n page)

/-- LANE_TRAINING_DONE (R246): the quality check begins, and the loopback gives the datapath delays (R275), which are free. A receive
pair may be found inverted (LINK_STATE_n [16]). -/
def opTrained (s : State) (n : Nat) (inv : Bool) : State :=
  if clockLost s n || (lane s n).state ≠ 2 || (link s n).quality then s
  else
    let tx := freshNat s
    let rx := freshNat tx.2
    let t := setLane rx.2 n { lane s n with inverted := inv, txDelay := tx.1, rxDelay := rx.1 }
    setLink t n { link s n with quality := true }

/-- LANE_TRAINING_DONE. -/
def execLaneTrainingDone (n : Nat) (inv : Bool) (s : State) : Host.Outcome State Fault Refusal :=
  whenAlive (.laneTrainingDone n inv) s (opTrained s n inv)

/-- A rate fails on a lane (R248): it is removed on every lane of the port, and all of them repeat the exchange; when no common rate
is left, they wait in WAIT (Table 10.3). -/
def rateFails (s : State) (n : Nat) : State :=
  let p := portOf s n
  let r := (lane s n).rate
  if (lane s n).common &&& (15 - 2 ^ (r - 1)) = 0 then portWaits s p
  else
    let t := setPort s p { port s p with removed := (port s p).removed ||| 2 ^ (r - 1) }
    dropPartner (peerHostLost (flushDown ((lanesOf s p).foldl (fun t k =>
      if (lane t k).state = 0 || (lane t k).state = 4 then t else restartPages (dropFromPort t p k) k) t) p)) (p / 8)

/-- LANE_QUALITY_CHECK (R246, R254): at most 1 × 10^-4 symbol errors. A lane that comes UP while frames run rejoins at the next
seam. -/
def opQuality (s : State) (n errs syms : Nat) : State :=
  if clockLost s n || (lane s n).state ≠ 2 || !(link s n).quality then s
  else if errs * 10000 ≤ syms then
    setLink (setLane s n { lane s n with state := 3, rejoin := s.frame.live }) n
      { link s n with quality := false }
  else rateFails s n

/-- LANE_WAIT_RESTART (Table 10.3). -/
def execLaneWaitRestart (n : Nat) (s : State) : Host.Outcome State Fault Refusal :=
  whenAlive (.laneWaitRestart n) s (if (lane s n).state = 5 then restartPages s n else s)

/-- CODEWORD_LOCK (R245): 256 consecutive inner blocks, then eight consecutive flits. -/
def execCodewordLock (n blocks flits : Nat) (s : State) : Host.Outcome State Fault Refusal :=
  whenAlive (.codewordLock n blocks flits) s
    (if (lane s n).rate = 4 && decide (256 ≤ blocks) && decide (8 ≤ flits) then
       setLink s n { link s n with locked := true }
     else s)

/-! ### LINK_CTRL_n (R255, R419) -/

/-- A write to LINK_CTRL_n. -/
def opLinkCtrl (s : State) (n v : Nat) : State :=
  let l := { lane s n with
    bootServe := v.testBit 2, refused := (lane s n).refused && !v.testBit 8 }
  let t := setLane s n l
  let refuse := setLane s n { l with refused := true }
  if v.testBit 0 then
    (if l.disable then t
     else if mayRetrain s n then
       afterDown (laneOff (dropFromPort (setLane t n { l with disable := true }) (portOf s n) n) n) (portOf s n)
     else refuse)
  else if l.disable then restartPages (setLane t n { l with disable := false }) n
  else if v.testBit 1 then (if mayRetrain s n then laneDown t n else refuse)
  else if l.state = 4 then restartPages t n else t

/-- LINK_CTRL_n as it reads (Table 17.15). -/
def linkCtrl (s : State) (n : Nat) : Nat :=
  b2n (lane s n).disable + 4 * b2n (lane s n).bootServe + 256 * b2n (lane s n).refused

/-! ### Sending (R250, R253, R271, R272) -/

/-- The cycles of a flit slot, 5.12 ns at 400 Gbit/s, rounded down. -/
def slotCycles (rate : Nat) : Nat := if rate = 4 then 4 else if rate = 3 then 8 else if rate = 2 then 16 else 32

/-- The lanes of a port that take part in its rotation. -/
def upLanes (s : State) (p : Nat) : List Nat := (lanesOf s p).filter (laneUp s)

/-- The first lane of the rotation at or after `n`. -/
def rotateFrom (ls : List Nat) (n : Nat) : Option Nat :=
  match ls.find? (fun k => decide (n ≤ k)) with | some k => some k | none => ls.head?

/-- Class `c` of three. -/
def nth3 (l : List Nat) (c : Nat) : Nat := (l[c]?).getD 0

/-- The weight of a requester (R271, LINK_BULK_WEIGHT_n): local [7:0], forwarded [15:8]; at least 1. -/
def wrrWeight (s : State) (p req : Nat) : Nat :=
  let w := (lane s p).weight
  max 1 (if req < 2 then w % 256 else fld w 8 8)

/-- The lanes that carry the next `k` flits of the port, from lane `n` on. -/
def lanesAhead (s : State) (p n k : Nat) : List Nat :=
  let ls := upLanes s p
  (List.range k).map (fun j => ls.getD ((ls.idxOf n + j) % max 1 ls.length) n)

/-- A packet may begin at granule `off` of the flit of lane `n` (R253). SCHEDULED may while its first flit has its credit (R271). Another
packet may where every flit that it reaches has its credit, so that no BULK or MGMT packet stops in the middle of the stream and keeps
SCHEDULED waiting (R272, log 28). -/
def canGo (s : State) (p n off : Nat) (w : Waiting) : Bool :=
  if w.cls = 0 then decide (0 < nth3 (link s n).credits 0)
  else
    let ls := lanesAhead s p n (cdiv (off + cdiv w.bytes.length 16) 15)
    ls.eraseDups.all (fun k => decide (ls.count k ≤ nth3 (link s k).credits w.cls))

/-- The first packet of each requester and class: each keeps its order. -/
def heads (q : Port) : List Waiting := q.queue.filter (fun w => q.queue.find? (fun v => v.req == w.req && v.cls == w.cls) == some w)

/-- The next requester by weighted round-robin among those of `ready`, and what is left of its turn (R271). -/
def wrrPick (s : State) (p : Nat) (q : Port) (ready : List Waiting) : Option (Nat × Nat) :=
  let reqs := (List.range 98).filter (fun r => ready.any (fun w => w.req == r))
  if 0 < q.wrrLeft && reqs.contains q.wrrReq then some (q.wrrReq, q.wrrLeft - 1)
  else
    match (reqs.find? (fun r => decide (q.wrrReq < r))).or reqs.head? with
    | some r => some (r, wrrWeight s p r - 1)
    | none => none

/-- The first packet of a class, where it may begin. -/
def classHead (s : State) (p n off : Nat) (q : Port) (c : Nat) : Option Waiting :=
  match q.queue.find? (fun w => w.cls == c) with
  | some w => if canGo s p n off w then some w else none
  | none => none

/-- T of a SYNC is inserted as its first flit leaves: the time at the lane balls (R275, Table 10.13). -/
def stamped (s : State) (n : Nat) (b : List Byte) : List Byte :=
  if rd b 0 1 = 5 && rd b 32 1 = 1 then b.take 40 ++ ptpBytes (s.time.now + (lane s n).txDelay) ++ b.drop 50 else b

/-- The port with a packet taken from its queue and begun on lane `n`. -/
def Port.begin (q : Port) (s : State) (n : Nat) (w : Waiting) (req left : Nat) : Port :=
  let b := stamped s n w.bytes
  { q with queue := q.queue.erase w, cur := b, curAll := b, curCls := w.cls, curReq := w.req, wrrReq := req, wrrLeft := left }

/-- The next packet to begin at granule `off` of the flit of lane `n` (R271): MGMT in a reserved slot, then SCHEDULED, then by weighted
round-robin. The answer is the port with that packet begun. -/
def beginPacket (s : State) (p n off : Nat) (q : Port) (reserved : Bool) : Option Port :=
  match (if reserved then classHead s p n off q 2 else none).or (classHead s p n off q 0) with
  | some w => some (q.begin s n w q.wrrReq q.wrrLeft)
  | none =>
    let ready := (heads q).filter (fun w => w.cls ≠ 0 && canGo s p n off w)
    match wrrPick s p q ready with
    | none => none
    | some (r, k) => (ready.find? (fun w => w.req == r)).map (fun w => q.begin s n w r k)

/-- The body of a DATA flit filled with granules, packet after packet, each of the class that R271 serves next, with the classes whose
granules it holds (R256, log 28). A granule goes out only while the lane holds a credit for its class (R253). -/
def fillBody (s : State) (p n : Nat) (reserved : Bool) : Nat → Port → List Byte → List Nat → Port × List Byte × List Nat
  | 0, q, b, cs => (q, b, cs)
  | k + 1, q, b, cs =>
    let next := if q.cur ≠ [] then (if nth3 (link s n).credits q.curCls = 0 then none else some q) else
      beginPacket s p n (b.length / 16) q reserved
    match next with
    | none => (q, b, cs)
    | some q => fillBody s p n reserved k { q with cur := q.cur.drop 16 } (b ++ q.cur.take 16) (cs.insert q.curCls)

/-- A flit (Table 10.4) with its acknowledgement, NAK and credits; every flit carries ACK_VALID. -/
def flitOf (l : LinkLayer) (typ seq : Nat) (body : List Byte) : List Byte :=
  let b := leBytes 2 (seq + typ * 4096) ++ leBytes 2 ((l.rxNext + 4095) % 4096 + 4096 + (if l.nak then 8192 else 0)) ++
    leBytes 1 (min 255 (nth3 l.freed 0)) ++ leBytes 1 (min 255 (nth3 l.freed 1)) ++ leBytes 1 (min 255 (nth3 l.freed 2)) ++
    leBytes 1 0 ++ slice body 0 240 ++ leBytes 4 0
  b ++ leBytes 4 (crc32c b)

/-- A flit leaves a lane: the report of credits and the NAK go with it, and the slot counter advances. Five flits fill two codewords
(R243, R245). -/
def sendFlit (s : State) (n : Nat) (l : LinkLayer) (typ seq : Nat) (body : List Byte) : State :=
  let f := flitOf l typ seq body
  let g := l.group ++ f
  let full := 1280 ≤ g.length
  let t := setLink s n { l with
    freed := l.freed.map (fun f => f - min 255 f), nak := false, slot := l.slot + 1, group := if full then [] else g }
  { t with
    out.flits := t.out.flits ++ [(n, f)]
    out.words := if full then t.out.words ++ (lineWords (lane s n).rate n g).map (fun w => (n, w)) else t.out.words }

/-- The waits of R272 in a slot, for the port's lowest UP lane: SCHEDULED that waits for credits of the lane whose turn it is, and BULK
that waits. `q` is the port as the slot begins, `cs` the classes that the slot serves. -/
def countWaits (s : State) (p n : Nat) (q : Port) (cyc : Nat) (cs : List Nat) : State :=
  if (upLanes s p).head? ≠ some n then s
  else
    let k := (rotateFrom (upLanes s p) q.txNext).getD n
    let sw := !cs.contains 0 && nth3 (link s k).credits 0 == 0 &&
      ((q.cur ≠ [] && q.curCls = 0) || q.queue.any (fun w => w.cls == 0))
    let bw := !cs.contains 1 && q.queue.any (fun w => w.cls == 1)
    let t := if sw then laneSignal s p 0x77 1 cyc else s
    let t := if bw then laneSignal t p 0x78 1 cyc else t
    setPort t p { port t p with
      schedWait := (port t p).schedWait + (if sw then cyc else 0), bulkWait := (port t p).bulkWait + (if bw then cyc else 0) }

/-- A Ductus under which a port carries SCHEDULED traffic (R252). -/
def Port.carries (q : Port) (s : State) : Port :=
  match s.frame.current with
  | some d => if q.schedIn.contains d then q else { q with schedIn := q.schedIn ++ [d] }
  | none => q

/-- The lane neither sends nor receives: it is not UP, or its SerDes clock has gone. -/
def laneStill (s : State) (n : Nat) : Bool := (lane s n).state ≠ 3 || clockLost s n

/-- FLIT_SLOT (R271). A slot that is reserved for MGMT and falls inside a packet is taken where the packet ends. -/
def opFlitSlot (s : State) (n : Nat) : State :=
  if laneStill s n then s
  else
    let l := link s n
    let p := portOf s n
    let q := port s p
    let cyc := slotCycles (lane s n).rate
    let s := if l.txRetry || l.rxRetry then laneSignal s n 0x70 0 cyc else s
    match l.replay with
    | q0 :: more =>
      let body := ((l.retry.find? (fun f => f.seq == q0)).map (·.body)).getD []
      sendFlit s n { l with replay := more, txRetry := !more.isEmpty } 1 q0 body
    | [] =>
      let turn := laneUp s n && rotateFrom (upLanes s p) q.txNext == some n
      let full := 64 ≤ l.retry.length
      let reserved := l.slot % 64 == 0 || l.mgmtDue
      let mine := turn && !full
      let l := { l with mgmtDue := reserved && (!mine || 240 ≤ q.cur.length) }
      let s := if turn && full && (q.cur ≠ [] || q.queue ≠ []) then laneSignal s n 0x75 1 cyc else s
      let r := if mine then fillBody s p n reserved 15 q [] [] else (q, [], [])
      let cs := r.2.2
      let t := countWaits s p n q cyc cs
      if cs = [] then sendFlit t n l 0 0 []
      else
        let sched := cs.contains 0
        let q2 := { r.1 with
          txNext := n + 1, schedSent := r.1.schedSent + b2n sched, schedWait := (port t p).schedWait, bulkWait := (port t p).bulkWait }
        let t := setPort t p (if sched then q2.carries s else q2)
        let t := if sched then laneSignal t p 0x76 1 1 else t
        let body := slice r.2.1 0 240
        sendFlit t n { l with
          txSeq := (l.txSeq + 1) % 4096, retry := l.retry ++ [⟨l.txSeq, cs.headD 0, body⟩],
          credits := cs.foldl (fun k c => k.set c (nth3 k c - 1)) l.credits } 1 l.txSeq body

/-- FLIT_SLOT. -/
def execFlitSlot (n : Nat) (s : State) : Host.Outcome State Fault Refusal :=
  whenAlive (.flitSlot n) s (opFlitSlot s n)

/-! ### Receiving (R251 to R253) -/

/-- The flits of a retry buffer that an acknowledgement does not cover. -/
def ackTo (l : List TxFlit) (ack : Nat) : List TxFlit :=
  if l.any (fun f => f.seq == ack) then (l.dropWhile (fun f => f.seq ≠ ack)).drop 1 else l

/-- A NAK (R252): the replay starts after its ACK, from every unacknowledged flit, and the lane is in retry from this cycle on. -/
def onNak (s : State) (n ack : Nat) : State :=
  let l := link s n
  let r := ackTo l.retry ack
  let t := laneSignal (setLink s n { l with retry := r, replay := r.map (·.seq), txRetry := !r.isEmpty }) n 0x70 1 0
  stallNow t (linkRetryStall t)

/-- NAK_RECEIVE. -/
def execNakReceive (n ack : Nat) (s : State) : Host.Outcome State Fault Refusal :=
  whenAlive (.nakReceive n ack) s (if (lane s n).state = 3 then onNak s n ack else s)

/-- Zero granules between packets carry nothing. -/
def skipZero : Nat → List Byte → List Byte
  | 0, b => b
  | k + 1, b => if 16 ≤ b.length && (b.take 16).all (fun x => x == 0) then skipZero k (b.drop 16) else b

/-- Whole packets taken from a byte stream. -/
def parseStream : Nat → List Byte → List Packet → List Packet × List Byte
  | 0, b, acc => (acc, b)
  | k + 1, b, acc =>
    let b' := skipZero (b.length / 16 + 1) b
    match takePacket b' with
    | some (p, rest) => parseStream k rest (acc ++ [p])
    | none => (acc, b')

/-- A flit of a packet that the receiver holds keeps its credit (R273); another one is freed. -/
def settleFlit (p : Nat) (held : Bool) (s : State) (x : Nat × Nat × Bool) : State :=
  if (held || x.2.2) && x.2.1 = 0 then setPort s p { port s p with heldCredits := (port s p).heldCredits ++ [x.1] } else freeFlit s x

/-- A flit body delivered in rotation (R253): its packets reach the inbox. A flit is freed for a class once the packets of that class
in it have arrived whole (log 28), but for the flits of a SCHEDULED packet of the next frame, which R273 holds. -/
def deliver (s : State) (p n : Nat) (body : List Byte) : State :=
  let q := port s p
  let r := parseStream 16 (q.stream ++ body) []
  let late := fun (k : Packet) => k.cls == 0 && k.frame == tickedFrame s + 1
  let part := if r.2 = [] then [] else [rd r.2 2 1 % 4]
  let me := (r.1.map (fun k => k.cls) ++ part).eraseDups.map (fun c => (n, c, r.1.any (fun k => k.cls == c && late k)))
  let whole := if r.1 = [] then [] else q.opened
  let q := { q with
    stream := r.2, inbox := q.inbox ++ r.1, rxNext := n + 1
    opened := (if r.1 = [] then q.opened else []) ++ me.filter (fun x => part.contains x.2.1) }
  let t := setPort s p (if r.1.any (fun k => k.cls == 0) then q.carries s else q)
  let t := whole.foldl (settleFlit p (r.1.head?.any late)) t
  (me.filter (fun x => !part.contains x.2.1)).foldl (settleFlit p false) t

/-- The flits that have arrived, delivered in the rotation of the port. -/
def deliverAll : Nat → State → Nat → State
  | 0, s, _ => s
  | k + 1, s, p =>
    let q := port s p
    match rotateFrom (upLanes s p) q.rxNext with
    | none => s
    | some n =>
      match q.arrived.find? (fun x => x.1 == n) with
      | none => s
      | some x => deliverAll k (deliver (setPort s p { q with arrived := q.arrived.erase x }) p n x.2) p

/-- A failed or out-of-sequence flit (R252): the lane enters retry and sends NAK with its next flit. -/
def rxFail (s : State) (n : Nat) (again : Bool) : State :=
  let l := link s n
  if l.rxRetry then (if again then setLink s n { l with nak := true } else s)
  else
    let t := laneSignal (setLink s n { l with rxRetry := true, nak := true }) n 0x70 1 0
    stallNow t (linkRetryStall t)

/-- ACK, NAK and CREDITS of a flit that passes. -/
def onReport (s : State) (n : Nat) (f : List Byte) : State :=
  let a := rd f 2 2
  let l := link s n
  let add := fun c cap => min cap (nth3 l.credits c + rd f (4 + c) 1)
  let l := { l with credits := [add 0 160, add 1 64, add 2 16] }
  let t := setLink s n (if a.testBit 12 then { l with retry := ackTo l.retry (a % 4096) } else l)
  if a.testBit 13 then onNak t n (a % 4096) else t

/-- A wrong lane number in a codeword (R243): LANE_SWAP, and the lane is in MISMATCH for its port wiring (R249). -/
def laneSwap (s : State) (n : Nat) : State :=
  let p := portOf s n
  let t := dropFromPort (laneSignal s n 0x71 1 1) p n
  afterDown (setLink (setLane t n { lane t n with state := 4, reason := 2, rate := 0, rejoin := false }) n {}) p

/-- A flit that has come (R251 to R253); `lost`: a codeword that it touches was not decoded. -/
def opFlit (s : State) (n : Nat) (f : List Byte) (lost : Bool) : State :=
  let crc := rd f 252 4 = crc32c (f.take 252)
  let s := if crc then s else laneSignal s n 0x74 1 1
  let typ := rd f 0 2 / 4096
  if lost || !crc || 2 ≤ typ then rxFail s n true
  else
    let t := onReport s n f
    if typ = 0 then t
    else
      let l := link t n
      if rd f 0 2 % 4096 ≠ l.rxNext then rxFail t n false
      else
        let p := portOf t n
        let u := setLink t n { l with rxNext := (l.rxNext + 1) % 4096, rxRetry := false }
        let q := port u p
        deliverAll (q.arrived.length + 1) (setPort u p { q with arrived := q.arrived ++ [(n, slice f 8 240)] }) p

/-- The codewords that come in on a lane (R243, R245): the lane number of each is compared, its INNER_FIX and a failure to decode are
counted, and its flit symbols are kept for the flits of its five; with the first of them the two before it are done with. -/
def takeWords (s : State) (n place : Nat) (words weak : List (List Nat)) : State :=
  let rate := (lane s n).rate
  let got := words.zipIdx.map (fun x => lineReceive rate x.1 (weak.getD x.2 []))
  if rate ≠ 4 && got.any (fun w => w.1.any (fun w => wordLane w != (lane s n).partnerLane)) then laneSwap s n
  else
    let fix := (got.map (fun w => w.2)).sum
    let lost := got.countP (fun w => w.1.isNone)
    let s := if fix = 0 then s else laneSignal s n 0x72 fix fix
    let s := if lost = 0 then s else laneSignal s n 0x73 lost lost
    setLink s n { link s n with
      rxWords := ((if place = 0 then [] else (link s n).rxWords) ++ got.map (fun w => w.1.map (wordData rate))).take 2 }

/-- FLIT_RECEIVE (R243, R251 to R253). -/
def opFlitReceive (s : State) (n place : Nat) (words weak : List (List Nat)) : State :=
  if laneStill s n || ((lane s n).rate = 4 && !(link s n).locked) then s
  else
    let t := takeWords s n place words weak
    if (lane t n).state ≠ 3 then t else opFlit t n (wordsFlit (link t n).rxWords place) (wordsBad (link t n).rxWords place)

/-- FLIT_RECEIVE. -/
def execFlitReceive (n place : Nat) (words weak : List (List Nat)) (s : State) : Host.Outcome State Fault Refusal :=
  whenAlive (.flitReceive n place words weak) s (opFlitReceive s n place words weak)

/-- The frame of the held packets begins: their credits return, and FRAME_HOLD counts the cycles that each port held them (R273). The
port's counts of the frame start again (R272). -/
def freeHeld (s : State) : State :=
  (s.ports.map (·.1)).foldl (fun t p =>
    let q := port t p
    let t := match q.holdSince with
      | some a => laneSignal t p 0x7A 1 ((t.time.now - a) / unitsPerCycle)
      | none => t
    let t := q.heldCredits.foldl (fun u n => freeFlit u (n, 0, false)) t
    setPort t p { port t p with heldCredits := [], holdSince := none, schedSent := 0, schedWait := 0, bulkWait := 0 }) s

/-- Lanes that returned to UP rejoin their port at the seam (R254). -/
def rejoinLanes (s : State) : State :=
  { s with lanes := s.lanes.map (fun x => (x.1, { x.2 with rejoin := false })) }

end Sys2Proof.Machine
end

