-- ==== Sys2Proof/Machine/Image.lean ====
section
/-! DEFINITION. Images and their checks (R306, R307), the flash records (R313, R393, R394), the cold start (R308 to R311,
Table 12.5), chain boot (R310), and the agreement word (R319, R320). -/

namespace Sys2Proof.Machine

open Sys2Proof

/-! ### Images -/

/-- A field of an image header. -/
def imgF (i : Image) (off n : Nat) : Nat := rd i off n
/-- CORE. -/
def imgCore (i : Image) : Nat := imgF i 6 1
/-- SVN. -/
def imgSvn (i : Image) : Nat := imgF i 8 4
/-- BUNDLE_MAJOR. -/
def imgMajor (i : Image) : Nat := imgF i 12 2
/-- BUNDLE_MINOR. -/
def imgMinor (i : Image) : Nat := imgF i 14 2
/-- FEATURES. -/
def imgFeatures (i : Image) : Nat := imgF i 40 8
/-- REQUIRED. -/
def imgRequired (i : Image) : Nat := imgF i 48 8

/-- The body limit of a CORE (Table 12.3). -/
def bodyLimit (c : Nat) : Nat := if c ≤ 1 then 2 ^ 20 else if c = 2 then 8 * 2 ^ 20 else 4 * 2 ^ 20

/-- The image of CORE `c` in a table of images. -/
def imageOf (t : Tbl Image) (c : Nat) : Option Image := (t.find? (fun x => x.1 == c)).map (·.2)

/-- The key that KEY_DIGEST names (check 0x04), with the owner record as it stands. -/
def signer (s : State) (i : Image) : Option (List Byte) :=
  let kd := slice i 96 32
  if (s.boot.rootAllowed || s.boot.ownerKey = []) && kd = sm3 Config.rootKey then some Config.rootKey
  else if s.boot.ownerKey ≠ [] && kd = sm3 s.boot.ownerKey then some s.boot.ownerKey else none

/-- The first check of Table 12.4 that an image fails (R307); `cold` applies check 0x03. -/
def checkImage (s : State) (i : Image) (bytes : Nat) (cold : Bool) : Option Nat :=
  let body := i.drop 512
  if imgF i 0 4 ≠ 0x4C414E45 || imgF i 4 2 ≠ 1 || !zeros i 7 1 || !zeros i 34 6 || !zeros i 56 8 || !zeros i 128 256 ||
      !zeros i 448 64 then some 1
  else if 3 < imgCore i || imgF i 20 4 % 64 ≠ 0 || bodyLimit (imgCore i) < imgF i 20 4 || imgF i 20 4 ≤ imgF i 24 4 ||
      bytes ≠ 512 + imgF i 20 4 || imgF i 32 2 < imgF i 30 2 then some 2
  else if cold && s.boot.held.any (fun x => imgMajor x.2 ≠ imgMajor i) then some 3
  else match signer s i with
    | none => some 4
    | some k =>
      if sm3 body ≠ slice i 64 32 then some 5
      else if !sm2Verify k (i.take 384) (slice i 384 64) then some 6
      else if imgSvn i < (s.boot.floors[imgCore i]?).getD 0 then some 7 else none

/-- DATA of a failing image (R307). -/
def checkData (id : Nat) : Nat := id + 2 ^ 63

/-! ### The agreement word -/

/-- The cluster image that a physical Folio runs: its own where an activation has given it one (R306, R326). -/
def clusterImage (s : State) (n : Nat) : Image := (folio s n).image.getD ((imageOf s.boot.running 3).getD [])

/-- The Folios in state ACTIVE or SPARE. -/
def liveFolios (s : State) : List Nat := (List.range 68).filter (fun n => (folio s n).state ≤ 1)

/-- The agreement word (R320) of a scheduler image and the cluster images of the Folios. -/
def wordOf (sched : Image) (cl : List Image) : Nat := cl.foldl (fun a i => a &&& imgFeatures i) (imgFeatures sched)

/-- The word agrees. -/
def agreesWith (w : Nat) (is : List Image) : Bool := is.all (fun i => imgRequired i &&& w == imgRequired i)

/-- The word formed afresh, and whether it agrees. -/
def formAgreement (s : State) : State :=
  let sc := (imageOf s.boot.running 2).getD []
  let cl := (liveFolios s).map (clusterImage s)
  let w := wordOf sc cl
  { s with glob.agreement := w, boot.agrees := agreesWith w (sc :: cl) }

/-- A session's restriction (R294, R320). -/
def restrictedFor (s : State) (driver : Nat) : Bool :=
  driver ≠ imgMajor ((imageOf s.boot.running 2).getD []) || !s.boot.agrees

/-! ### Cold start (Table 12.5) -/

/-- The states of the Folios at cold start (R21, R22): recorded ones QUARANTINED; on a die with all 17 others the designated
position SPARE; the rest ACTIVE. -/
def bootState (r : RepairRec) (n : Nat) : Nat :=
  let d := n / 17
  let full := (List.range 17).all (fun p => !r.quarantined.contains (17 * d + p))
  let sp := (r.spares[d]?).getD 16
  if r.quarantined.contains n then 3 else if full && n % 17 = sp then 1 else 0

/-- The Folios in their states at cold start, each with all banks on. -/
def bootFolios (s : State) (r : RepairRec) : State :=
  (List.range 68).foldl (fun t n => setFolio t n { state := bootState r n }) { s with folios := {} }

/-- Logical Folio l on the ACTIVE Folios of its die, in ascending position (R18, log 9). -/
def mapFolios (s : State) : State :=
  let pick := fun l => ((List.range 17).map (fun p => 17 * (l / 16) + p)).filter (fun n => (folio s n).state = 0)
  let at_ := fun l => (pick l)[l % 16]?
  { s with
    folios.map := (List.range 64).foldl (fun t l => tset t l (mapStart l) ((at_ l).getD (mapStart l))) [],
    folios.unmapped := (List.range 64).filter (fun l => (at_ l).isNone) }

/-- The seed and the keys derived from it (R312). -/
def deviceKey : Nat := 1 + beNat (kdf (Config.pufSeed ++ [0x4E, 0x58, 0x31, 0x2D, 0x44, 0x45, 0x56]) 40) % (sm2N - 1)
/-- The values that the BOARD record gives (R262, R394); without it, those of Table 12.7. -/
def applyBoard (s : State) : State :=
  match boardOf s.flash with
  | none => { s with glob.deviceId := 0xFFFFFF, boot.bootPort := 0, pcie.bar4En := false }
  | some b =>
    let t := { s with
      glob.deviceId := rd b 12 3, boot.bootPort := if rd b 10 1 = 0xFF then 0 else rd b 10 1,
      pcie.bar4En := rd b 11 1 = 1, power.limitBoard := rd b 16 2, power.limitEff := min 850 (rd b 16 2) }
    setEth (setEth t 0 { ethPort t 0 with mac := rd b 18 6 }) 1 { ethPort t 1 with mac := rd b 24 6 }

/-- The boot port's link group is powered, and its lanes begin negotiation (Table 12.5). Lanes 0 to 7 are one port where the
record names none (R308). -/
def openBootPort (s : State) : State :=
  let named := match boardOf s.flash with | some b => decide (rd b 10 1 ≠ 0xFF) | none => false
  let p := s.boot.bootPort
  let t := if named then s else setLane s 0 { lane s 0 with lanes := 8 }
  let u := setDom t (112 + p / 8) { dom t (112 + p / 8) with state := 2 }
  let u := applyLanes u p
  (lanesOf u p).foldl restartPages u

/-- The pins as SYS_RESET_N rises: the straps are sampled (R308, R389), domain 131 is ON, and the clocks run (log 67). -/
def strapsSampled (s : State) (src mode addr : Nat) (f : Flash) : State :=
  let t := { s with
    flash := f, pins.sysReset := false, pins.xspiReset := false, pins.bootSrc := src, pins.flashMode := mode,
    pins.i3cAddr := addr, pins.lostSys := false, pins.lostSd0 := false, pins.lostSd1 := false, pins.lostPcie := false
    boot.phase := 1 }
  setDom t 131 { dom t 131 with state := 2 }

/-- What the ROM takes from the seed and from the flash records (Table 12.5, Table 12.7), where `v` is the voltage code of BIN. -/
def coldBoot (s : State) (f : Flash) (v : Nat) : State :=
  let o := ownerOf f
  let u := applyBoard (mapFolios (bootFolios s (repairNow f)))
  { u with
    pins.vid := v % 16, boot.devKey := deviceKey, boot.recKey := recordKey,
    boot.ownerKey := (o.map (·.key)).getD [], boot.rootAllowed := (o.map (·.rootAllowed)).getD false,
    mem.spared := (repairNow f).rows, mem.laneSpares := (repairNow f).lanes
    boot.floors := (floorOf f).getD [0, 0, 0, 0], boot.helloDue := s.pins.bootSrc = 1,
    glob.certMatch := certKey f == some (sm2Public deviceKey),
    scan.available := (scanCheck f).isNone, scan.failId := (scanCheck f).getD 0 }

/-- The source that BOOT_SRC selects opens: the PCIe domain, or the boot port (Table 12.5). -/
def openSource (s : State) : State :=
  if s.pins.bootSrc = 0 then setDom s 128 { dom s 128 with state := 2 } else openBootPort s

/-- COLD_START (R308, Table 12.5): SYS_RESET_N is deasserted. -/
def opColdStart (s : State) (src mode addr : Nat) (pufOk : Bool) (fl : Option Flash) : State :=
  let f := fl.getD s.flash
  let t := strapsSampled s src mode addr f
  if !pufOk || !dirOk f || !pufGood f then enterFault t 0x10 1
  else match binCode f with
    | none => enterFault t 0x10 0
    | some v => openSource (coldBoot t f v)

/-- COLD_START. -/
def execColdStart (src mode addr : Nat) (pufOk : Bool) (fl : Option Flash) (s : State) :
    Host.Outcome State Fault Refusal :=
  always (.coldStart src mode addr pufOk fl) (if s.pins.sysReset then opColdStart s src mode addr pufOk fl else s)

/-- An image accepted by the ROM: it replaces an earlier one of its CORE (Table 12.5). -/
def holdImage (s : State) (i : Image) : State := { s with boot.held := tput s.boot.held (imgCore i) i }

/-- SECURITY_IMAGE_START (R311): the four images are held, and the security image takes over, once the completion record of the
last one is written (R309). -/
def execSecurityImageStart (s : State) : Host.Outcome State Fault Refusal :=
  whenAlive .securityImageStart s
    (if s.boot.phase = 1 && s.boot.held.length = 4 && (List.range 4).all (fun k => decide ((cq s k).queue = [])) then
       { s with boot.phase := 2, boot.running := s.boot.held, boot.coresUp := [0] }
     else s)

/-- The policy client's votes at cold start (R331). -/
def policyVotes (s : State) : State :=
  let ds := match boardOf s.flash with
    | some b => (List.range 131).filter (fun n => decide (68 ≤ n) && (rd b 32 17).testBit n)
    | none => (List.range 45).map (· + 68) ++ [128]
  ds.foldl (fun t n => vote t n 4 true 0) s

/-- The scheduler core runs (Table 12.5): it votes for its Folios, and LPDDR6 is reported as trained (R198). -/
def schedulerUp (s : State) (lpTrained : Bool) : State :=
  let t := match boardOf s.flash with
    | none => s
    | some b =>
      if lpTrained then
        { s with mem.lpChannels := rd b 6 1, mem.lpRanks := rd b 7 1, mem.lpGib := rd b 8 1, mem.lpRate := rd b 9 1 }
      else { s with mem.lpMismatch := decide (rd b 6 1 ≠ 0) }
  (List.range 68).foldl folioVote t

/-- CORE_READY (R311): the order is power, scheduler, cluster; cores 3 + n are the cluster cores of the Folios n. -/
def opCoreReady (s : State) (c : Nat) (lpTrained : Bool) : State :=
  if c = 1 && s.boot.phase = 2 then policyVotes { s with boot.phase := 3, boot.coresUp := insertNat 1 s.boot.coresUp }
  else if c = 2 && s.boot.phase = 3 then
    schedulerUp { s with boot.phase := 4, boot.coresUp := insertNat 2 s.boot.coresUp } lpTrained
  else if 3 ≤ c && 4 ≤ s.boot.phase && (folio s (c - 3)).state ≠ 3 then
    setFolio s (c - 3) { folio s (c - 3) with started := true }
  else s

/-- CORE_READY. -/
def execCoreReady (c : Nat) (lpTrained : Bool) (s : State) : Host.Outcome State Fault Refusal :=
  whenAlive (.coreReady c lpTrained) s (opCoreReady s c lpTrained)

/-- CLUSTER_START_TIMEOUT (Table 12.5, R24). -/
def opClusterTimeout (s : State) (n : Nat) : State :=
  if s.boot.phase ≠ 4 || (folio s n).started || (folio s n).state = 3 then s
  else
    let t := recordQuarantine (setFolioState s n 3) n
    let d := n / 17
    -- the die's spare takes the place of a Folio that did not start
    match ((List.range 17).map (· + 17 * d)).find? (fun k => (folio t k).state = 1) with
    | some k => mapFolios (setFolioState t k 0)
    | none => mapFolios t

/-- CLUSTER_START_TIMEOUT. -/
def execClusterStartTimeout (n : Nat) (s : State) : Host.Outcome State Fault Refusal :=
  whenAlive (.clusterStartTimeout n) s (opClusterTimeout s n)

/-- A die with fewer than 16 Folios outside QUARANTINED (R24). -/
def shortDie (s : State) : Option Nat :=
  (List.range 4).find? (fun d => decide (((List.range 17).filter (fun p => (folio s (17 * d + p)).state ≠ 3)).length < 16))

/-- BOOT_COMPLETE (R320): once every cluster core outside QUARANTINED has reported. A missing FLOOR record is written afresh
(R318). -/
def opBootComplete (s : State) : State :=
  if s.boot.phase ≠ 4 || (List.range 68).any (fun n => (folio s n).state ≠ 3 && !(folio s n).started) then s
  else
    let t := formAgreement { s with boot.phase := 6, folios.short := shortDie s }
    let fl := (List.range 4).map (fun c => imgSvn ((imageOf s.boot.running c).getD []))
    let t := if (floorOf s.flash).isSome then t
      else { t with boot.floors := fl, glob.floorRebuilt := true, flash.floor := writeHalf floorBytes t.flash.floor fl }
    setJobState t 1

/-- BOOT_COMPLETE. -/
def execBootComplete (s : State) : Host.Outcome State Fault Refusal := whenAlive .bootComplete s (opBootComplete s)

/-! ### Chain boot (R310) -/

/-- A chain-boot packet on a port. -/
def sendBoot (s : State) (p : Nat) (pay : List Byte) : State :=
  sendNeighbour s p { typ := 6, flags := 10, cls := 2, status := 0, dst := 0xFFFFFF, src := s.glob.deviceId, window := 0,
                      elemFmt := 0, length := pay.length, tag := 0, addr := 0, gen := 0, frame := currentFrame s,
                      hops := 0, payload := pay }

/-- A chain-boot payload (Table 12.6). -/
def bootPayload (typ core flags status off len dev : Nat) (data : List Byte) : List Byte :=
  leBytes 1 typ ++ leBytes 1 core ++ leBytes 1 flags ++ leBytes 1 status ++ leBytes 4 off ++ leBytes 2 len ++
  leBytes 3 dev ++ leBytes 3 0 ++ data ++ List.replicate (16 - data.length) 0

/-- CHAIN_BOOT_HELLO: while the ROM waits for a server. -/
def execChainBootHello (s : State) : Host.Outcome State Fault Refusal :=
  whenAlive .chainBootHello s
    (if s.pins.bootSrc = 1 && s.boot.phase = 1 && s.boot.helloDue then
       sendBoot s s.boot.bootPort (bootPayload 0x20 0 0 0 0 0 s.glob.deviceId (sm3 (certDer s.flash)))
     else s)

/-- The server sends DATA up to 64 KiB ahead of the last ACK OFFSET. -/
def serveMore : Nat → State → Nat → State
  | 0, s, _ => s
  | k + 1, s, p =>
    let v := tget s.serve p {}
    let img := (imageOf s.boot.running v.core).getD []
    let len := min 224 (min img.length (v.acked + 65536) - v.offset)
    if !v.active || len = 0 then s
    else
      let last := v.offset + len = img.length
      let t := sendBoot s p (bootPayload 0x21 v.core (if last then 1 else 0) 0 v.offset len 0 ((img.drop v.offset).take len))
      serveMore k { t with serve := tset t.serve p {} { v with offset := v.offset + len } } p

/-- CHAIN_BOOT_HELLO_RECEIVE: served only through a port with BOOT_SERVE, by a device whose firmware runs. -/
def opHello (s : State) (p : Nat) (pay : List Byte) : State :=
  if rd pay 0 1 ≠ 0x20 || !(lane s p).bootServe || s.boot.phase ≠ 6 then s
  else serveMore 300 { s with serve := tset s.serve p {} { active := true } } p

/-- CHAIN_BOOT_HELLO_RECEIVE. -/
def execChainBootHelloReceive (p : Nat) (pay : List Byte) (s : State) : Host.Outcome State Fault Refusal :=
  whenAlive (.chainBootHelloReceive p pay) s (opHello s p pay)

/-- CHAIN_BOOT_ACK_RECEIVE: the window moves; at the end of an image the next follows; BUSY and a failed check end the
service. -/
def opBootAck (s : State) (p : Nat) (pay : List Byte) : State :=
  let v := tget s.serve p {}
  let img := (imageOf s.boot.running v.core).getD []
  if rd pay 0 1 ≠ 0x22 || !v.active || rd pay 1 1 ≠ v.core then s
  else if rd pay 3 1 ≠ 0 then { s with serve := tset s.serve p {} {} }
  else
    let v' : Serve := if rd pay 4 4 = img.length then { core := v.core + 1, offset := 0, acked := 0, active := v.core < 3 }
      else { v with acked := max v.acked (rd pay 4 4) }
    serveMore 300 { s with serve := tset s.serve p {} v' } p

/-- CHAIN_BOOT_ACK_RECEIVE. -/
def execChainBootAckReceive (p : Nat) (pay : List Byte) (s : State) : Host.Outcome State Fault Refusal :=
  whenAlive (.chainBootAckReceive p pay) s (opBootAck s p pay)

/-- An ACK of the ROM. -/
def bootAck (s : State) (p core flags status off : Nat) : State :=
  sendBoot s p (bootPayload 0x22 core flags status off 0 0 [])

/-- The last packet of an image has arrived: the checks of Table 12.4, and after the fourth image the control gate. -/
def bootLast (s : State) (p src : Nat) (core : Nat) (img : Image) : State :=
  let t := { s with boot.rxBytes := [], boot.rxAcked := 0 }
  match checkImage s img img.length true with
  | some id => bootAck { t with boot.helloDue := true } p core 0 (0x80 + id) img.length
  | none =>
    let u := holdImage t img
    let done := u.boot.held.length = 4
    let u := bootAck u p core (if done then 2 else 0) 0 img.length
    if done then { u with glob.gateEn := true, glob.gateSrc := src, glob.gateMask := 0xFFFFFF } else u

/-- CHAIN_BOOT_DATA (R310). -/
def opBootData (s : State) (p src : Nat) (pay : List Byte) : State :=
  let core := rd pay 1 1
  let off := rd pay 4 4
  let len := rd pay 8 2
  if s.pins.bootSrc ≠ 1 || s.boot.phase ≠ 1 || p ≠ s.boot.bootPort || rd pay 0 1 ≠ 0x21 || len % 16 ≠ 0 || len = 0 ||
      224 < len || pay.length < 16 + len then s
  else match s.boot.server with
    | some v => if v = src then opData s core off len else bootAck s p core 0 0x19 0
    | none => opData { s with boot.server := some src } core off len
where
  opData (s : State) (core off len : Nat) : State :=
    let s := { s with boot.helloDue := false }
    let s := if core ≠ s.boot.rxCore || off = 0 then { s with boot.rxCore := core, boot.rxBytes := [], boot.rxAcked := 0 } else s
    if off ≠ s.boot.rxBytes.length then s
    else
      let b := s.boot.rxBytes ++ (pay.drop 16).take len
      if rd pay 2 1 % 2 = 1 then bootLast s p src core b
      else
        let t := { s with boot.rxBytes := b }
        if s.boot.rxAcked + 65536 ≤ b.length then bootAck { t with boot.rxAcked := b.length } p core 0 0 b.length else t

/-- CHAIN_BOOT_DATA. -/
def execChainBootData (p src : Nat) (pay : List Byte) (s : State) : Host.Outcome State Fault Refusal :=
  whenAlive (.chainBootData p src pay) s (opBootData s p src pay)

/-- LOAD_IMAGE taken by the ROM (R309): the image is checked and held. -/
def opLoadImage (s : State) (h : Hdr) (src bytes : Nat) : State :=
  let img := hostPeek s src bytes
  match checkImage s img bytes true with
  | some id => complete s h 0x11 (checkData id)
  | none => complete (holdImage s img) h 0 0

end Sys2Proof.Machine
end

