-- ==== Sys2Proof/Machine/Sparse.lean ====
section
/-! DEFINITION. T24 and Hatch tiles (chapter 4): the patterns, loading, the checks of Table 4.7, and writing. A position
within a tile is 64 × row + column. -/

namespace Sys2Proof.Machine

open Sys2Proof

/-! ### Patterns and positions -/

/-- The row nibbles of a pattern, two of four bits. -/
def twoOfFour : List Nat := [3, 5, 6, 9, 10, 12]

/-- Set bits of column `c` of a group mask (R92). -/
def colBits (m c : Nat) : Nat := ((List.range 4).filter (fun k => m.testBit (4 * k + c))).length

/-- The 90 patterns in ascending mask order (R92). -/
def t24Table : List Nat :=
  (twoOfFour.flatMap (fun a => twoOfFour.flatMap (fun b => twoOfFour.flatMap (fun c => twoOfFour.map (fun d =>
    4096 * a + 256 * b + 16 * c + d))))).filter (fun m => (List.range 4).all (fun c => colBits m c == 2))

/-- The mask of a pattern index. -/
def maskOf (i : Nat) : Nat := t24Table.getD i 0
/-- The pattern index of a mask, if it is valid. -/
def indexOf (m : Nat) : Option Nat := t24Table.findIdx? (fun x => x == m)

/-- Set bits of a `w`-bit mask, in ascending order. -/
def setBits (w m : Nat) : List Nat := (List.range w).filter (fun p => m.testBit p)

/-- The position of bit `p` of group `g` (R91). -/
def t24Pos (g p : Nat) : Nat := 64 * (4 * (g / 16) + p / 4) + 4 * (g % 16) + p % 4
/-- The position of bit `p` of block `b` (R95). -/
def hatchPos (b p : Nat) : Nat := 64 * (8 * (b / 8) + p / 8) + 8 * (b % 8) + p % 8
/-- The block of a position. -/
def blockOfPos (x : Nat) : Nat := 8 * (x / 64 / 8) + x % 64 / 8
/-- The bit of a position within its block. -/
def bitOfPos (x : Nat) : Nat := 8 * (x / 64 % 8) + x % 64 % 8

/-- A loaded tile: `masks` holds 256 pattern indices (T24) or 64 block masks (Hatch); `order` the position of each stored
value; `codes` and `vals` what it holds. -/
structure Tile where
  masks : List Nat
  order : List Nat
  codes : List Nat
  vals : List Val
  budget : Nat
  gen : Nat
deriving DecidableEq, Repr

/-- The empty tile. -/
def Tile.none_ : Tile := { masks := [], order := [], codes := [], vals := [], budget := 0, gen := 0 }

/-- The storage index of a position, if it is present. -/
def Tile.find (t : Tile) (x : Nat) : Option Nat := t.order.findIdx? (fun y => y == x)
/-- The stored value at a position. -/
def Tile.at_ (t : Tile) (x : Nat) : Option Val := (t.find x).map (fun v => t.vals.getD v Val.zero)

/-! ### Loading -/

/-- Little-endian bits of a record. -/
def bitsIn (b : List Byte) (bit w : Nat) : Nat := fld (rd b (bit / 8) (cdiv (bit % 8 + w) 8)) (bit % 8) w

/-- A T24 tile (R93). -/
def loadT24 (fmt : Nat) (b : List Byte) : Tile :=
  let gb := groupBytes fmt
  let w := fmtBits fmt
  let idx := (List.range 256).map (fun g => rd b (gb * g) 1)
  let codes := (List.range 256).flatMap (fun g => (List.range 8).map (fun i => bitsIn b (8 * (gb * g + 1) + w * i) w))
  let sc := fun v => scaleExp (rd b (256 * gb + v / 32) 1)
  { masks := idx
    order := (idx.zipIdx).flatMap (fun p => (setBits 16 (maskOf p.1)).map (t24Pos p.2))
    codes := codes
    vals := codes.zipIdx.map (fun p => if isMx fmt then (decE fmt p.1).under (sc p.2) else decE fmt p.1)
    budget := 0, gen := 0 }

/-- Mode of block `b` in a Hatch header. -/
def modeOf (b : List Byte) (k : Nat) : Nat := fld (rd b 16 16) (2 * k) 2

/-- The element mask of each block: all ones for a dense one. -/
def hatchMasks (b : List Byte) : List Nat :=
  ((List.range 64).foldl (fun (r : List Nat × Nat) k =>
    if modeOf b k = 1 then (r.1 ++ [2 ^ 64 - 1], r.2)
    else if modeOf b k = 2 then (r.1 ++ [rd b (256 + 8 * r.2) 8], r.2 + 1) else (r.1 ++ [0], r.2)) ([], 0)).1

/-- The storage order of block masks (R97). -/
def hatchOrder (masks : List Nat) : List Nat := (masks.zipIdx).flatMap (fun p => (setBits 64 p.1).map (hatchPos p.2))

/-- A Hatch tile (R96, R97). -/
def loadHatch (fmt : Nat) (b : List Byte) : Tile :=
  let w := fmtBits fmt
  let n := rd b 4 2 % 8192
  let start := 256 + 8 * rd b 7 1
  let masks := hatchMasks b
  let codes := (List.range n).map (fun v => bitsIn b (8 * start + w * v) w)
  let sc := fun v => scaleExp (rd b (start + (n * w + 7) / 8 + v / 32) 1)
  { masks := masks, order := hatchOrder masks, codes := codes
    vals := codes.zipIdx.map (fun p => if isMx fmt then (decE fmt p.1).under (sc p.2) else decE fmt p.1)
    budget := rd b 6 1, gen := rd b 164 4 }

/-! ### Checks (Table 4.7) -/

/-- A failing check: id, group or block, found, expected. -/
abbrev TileFail := Nat × Nat × Nat × Nat

/-- Check 0x01. -/
def checkT24 (fmt : Nat) (b : List Byte) : Option TileFail :=
  (List.range 256).findSome? (fun g =>
    let x := rd b (groupBytes fmt * g) 1
    if 90 ≤ x then some (1, g, x, 89) else none)

/-- The checks 0x10 to 0x17, which use the header alone. -/
def checkHeader (fmt : Nat) (b : List Byte) : Option TileFail :=
  let form := rd b 2 1
  let count := rd b 4 2
  let all := List.range 64
  if rd b 0 2 ≠ 0x4854 then some (0x10, 0, rd b 0 2, 0x4854)
  else if form ≠ 1 && form ≠ 2 then some (0x11, 0, form, 1)
  else if 8192 ≤ count then some (0x11, 0, 5, 0)
  else match (List.range 88).find? (fun i => rd b (168 + i) 1 ≠ 0) with
  | some i => some (0x11, 0, 168 + i, 0)
  | none =>
  if rd b 3 1 ≠ fmt then some (0x12, 0, rd b 3 1, fmt)
  else if 64 < rd b 6 1 then some (0x13, 0, rd b 6 1, 64)
  else if 4096 < count then some (0x13, 0, count, 4096)
  else if 64 < rd b 7 1 then some (0x13, 0, rd b 7 1, 64)
  else match all.find? (fun k => modeOf b k == 3) with
  | some k => some (0x14, k, 3, 0)
  | none =>
  match all.find? (fun k => (rd b 8 8).testBit k != (modeOf b k != 0)) with
  | some k => some (0x15, k, b2n ((rd b 8 8).testBit k), modeOf b k)
  | none =>
  let masked := (all.filter (fun k => modeOf b k == 2)).length
  if rd b 7 1 ≠ masked then some (0x16, 0, rd b 7 1, masked)
  else if form = 2 then
    match all.find? (fun k => modeOf b k != 1) with
    | some k => some (0x17, k, modeOf b k, 1)
    | none => if rd b 6 1 ≠ 64 then some (0x17, 0, rd b 6 1, 64) else none
  else none

/-- n_b of each block. -/
def blockCounts (b : List Byte) : List Nat := (hatchMasks b).map (popc 64)

/-- Entry `k` of OFFSETS. -/
def offsetAt (b : List Byte) (k : Nat) : Nat := rd b (32 + 2 * k) 2

/-- The checks 0x18 to 0x21. Check 0x19 names the block whose entry of OFFSETS is wrong, b + 1 where entry b + 1 is, and check 0x1B expects
the reserved size where TILE_BYTES equals R97's formula and exceeds it: Table 4.7 says neither (DESIGN CHOICE, log 71). -/
def checkBody (fmt : Nat) (b : List Byte) (budget : Option Nat) : Option TileFail :=
  let all := List.range 64
  let ns := blockCounts b
  let count := rd b 4 2
  match all.find? (fun k => modeOf b k == 2 && (ns.getD k 0 == 0 || ns.getD k 0 == 64)) with
  | some k => some (0x18, k, ns.getD k 0, if ns.getD k 0 = 64 then 63 else 1)
  | none =>
  if offsetAt b 0 ≠ 0 then some (0x19, 0, offsetAt b 0, 0)
  else match (List.range 63).find? (fun k => offsetAt b (k + 1) ≠ offsetAt b k + ns.getD k 0) with
  | some k => some (0x19, k + 1, offsetAt b (k + 1), offsetAt b k + ns.getD k 0)
  | none =>
  let sum := offsetAt b 63 + ns.getD 63 0
  if sum ≠ count then some (0x1A, 0, sum, count)
  else
    let size := hatchBytes fmt count (rd b 7 1)
    let tb := rd b 160 4
    if tb ≠ size then some (0x1B, 0, tb, size)
    else if hatchReserved fmt < tb then some (0x1B, 0, tb, hatchReserved fmt)
    else
      let present := popc 64 (rd b 8 8)
      if rd b 6 1 < present then some (0x20, 0, present, rd b 6 1)
      else match budget with
        | some c => if c < rd b 6 1 then some (0x21, 0, rd b 6 1, c) else none
        | none => none

/-- The detail field of R106. -/
def tileDetail (f : TileFail) (col : Bool) : Nat :=
  f.1 + (f.2.1 % 256) * 2 ^ 8 + (f.2.2.1 % 65536) * 2 ^ 16 + (f.2.2.2 % 65536) * 2 ^ 32 + (if col then 2 ^ 48 else 0)

/-- The fault code of a check. -/
def tileCode (id : Nat) : Nat :=
  if id = 0x20 || id = 0x21 || id = 0x30 || id = 0x31 || id = 0x40 then 4 else 3

/-- The bytes that a decoder reads of a tile (R98). -/
def tileSpan (s : State) (form fmt a : Nat) : Nat :=
  if form = 1 then t24Bytes fmt
  else
    let h := peek s a 256
    if (checkHeader fmt h).isSome then 256 else min (hatchReserved fmt) (hatchBytes fmt (rd h 4 2) (rd h 7 1))

/-- The reads of a tile's metadata alone (R114): the index bytes of T24, or the header and the element masks of Hatch. -/
def metaReads (s : State) (form fmt a : Nat) : List (Nat × Nat) :=
  if form = 1 then (List.range 256).map (fun g => (a + groupBytes fmt * g, 1))
  else
    let h := peek s a 256
    [(a, if (checkHeader fmt h).isSome then 256 else 256 + 8 * rd h 7 1)]

/-- The first failing check of the tile at `a` (R105). -/
def tileFail (s : State) (form fmt a : Nat) (budget : Option Nat) : Option TileFail :=
  let b := peek s a (tileSpan s form fmt a)
  if form = 1 then checkT24 fmt b
  else match checkHeader fmt b with
    | some f => some f
    | none => checkBody fmt b budget

/-- The tile at `a`. -/
def loadTile (s : State) (form fmt a : Nat) : Tile :=
  let b := peek s a (tileSpan s form fmt a)
  if form = 1 then loadT24 fmt b else loadHatch fmt b

/-- A tile's check as a reason to stop (R106). -/
def tileBad (s : State) (form fmt a : Nat) (budget : Option Nat) (col : Bool) (quill nib : Option Nat) : Option Bad :=
  (tileFail s form fmt a budget).map (fun f =>
    { code := tileCode f.1, addr := a, detail := tileDetail f col, quill := quill, nib := nib })

/-! ### Writing -/

/-- Codes packed from the low bits up. -/
def packBits (w : Nat) (cs : List Nat) : Nat := cs.foldr (fun c a => a * 2 ^ w + c % 2 ^ w) 0

/-- The bytes of packed codes, the last one padded with zero. -/
def packBytes (w : Nat) (cs : List Nat) : List Byte := leBytes ((cs.length * w + 7) / 8) (packBits w cs)

/-- A list cut into chunks of `n`. -/
def chunks {α : Type} (n : Nat) : Nat → List α → List (List α)
  | 0, _ => []
  | k + 1, l => if l.isEmpty then [] else l.take n :: chunks n k (l.drop n)

/-- Stored values as codes with their saturations, and the MX scales over each 32 of them (R89, R82). -/
def encStored (fmt : Nat) (vs : List Val) : List (Nat × Bool) × List Nat :=
  if isMx fmt then
    let bs := (chunks 32 vs.length vs).map (fun c => encBlock fmt c (fun _ => rneNat))
    (bs.flatMap (fun b => b.1), bs.map (fun b => b.2))
  else (vs.map (fun v => encE fmt v rneNat), [])

/-- OFFSETS of block counts. -/
def offsetsOf (ns : List Nat) : List Nat := (ns.foldl (fun (r : List Nat × Nat) n => (r.1 ++ [r.2], r.2 + n)) ([], 0)).1

/-- The bytes of a Hatch tile from its block masks (R96, R97). -/
def buildHatch (fmt form budget gen : Nat) (masks codes scales : List Nat) : List Byte :=
  let ns := masks.map (popc 64)
  let mode := fun n => if n = 0 then 0 else if n = 64 then 1 else 2
  let masked := masks.filter (fun m => decide (0 < popc 64 m) && decide (popc 64 m < 64))
  let count := ns.sum
  let size := hatchBytes fmt count masked.length
  let body := leBytes 2 0x4854 ++ leBytes 1 form ++ leBytes 1 fmt ++ leBytes 2 count ++ leBytes 1 budget ++
    leBytes 1 masked.length ++ leBytes 8 (packBits 1 (ns.map (fun n => if n = 0 then 0 else 1))) ++
    leBytes 16 (packBits 2 (ns.map mode)) ++ (offsetsOf ns).flatMap (leBytes 2) ++ leBytes 4 size ++ leBytes 4 gen ++
    leBytes 88 0 ++ masked.flatMap (leBytes 8) ++ packBytes (fmtBits fmt) codes ++ scales.flatMap (leBytes 1)
  body ++ List.replicate (size - body.length) 0

/-- The bytes of a T24 tile from its pattern indices (R93). -/
def buildT24 (fmt : Nat) (idx codes scales : List Nat) : List Byte :=
  (idx.zipIdx).flatMap (fun p =>
    BitVec.ofNat 8 p.1 :: leBytes (fmtBits fmt) (packBits (fmtBits fmt) ((codes.drop (8 * p.2)).take 8))) ++
  scales.flatMap (leBytes 1)

/-- A tile's bytes from its metadata and stored values. -/
def buildTile (form fmt budget gen : Nat) (masks : List Nat) (vs : List Val) : List Byte :=
  let e := encStored fmt vs
  if form = 1 then buildT24 fmt masks (e.1.map (fun x => x.1)) e.2
  else buildHatch fmt 1 budget gen masks (e.1.map (fun x => x.1)) e.2

/-! ### SPARSE_TILE_LOAD (R104) -/

/-- The load of a tile by a decoding unit of a stroke in progress: it is read and checked, and the first failing check
aborts the frame. -/
def opTileLoad (s : State) (u : TileLoad) : State :=
  inAbortCycle s (fun s =>
  if !(s.frame.live && !s.frame.blocked && s.frame.prog.any (fun r => r.folio == u.folio && r.idx == u.idx)) ||
     (u.form ≠ 1 && u.form ≠ 2) || !(decide (u.fmt ≤ 9) && decide (1 ≤ u.fmt) || u.fmt = 12) ||
     !installed s u.addr (if u.form = 1 then t24Bytes u.fmt else hatchReserved u.fmt) then s
  else
    let n := tileSpan s u.form u.fmt u.addr
    match badLine s u.addr n with
    | some l => lineErrorBy s (some (u.folio, u.idx)) l
    | none =>
      let t := noteRead s u.addr n
      match tileBad t u.form u.fmt u.addr (if u.nib.isSome then none else u.budget) u.colMajor
          (if u.nib.isSome then none else some u.quill) u.nib with
      | some b => failStroke t u.folio u.idx b
      | none => t)

/-- SPARSE_TILE_LOAD. -/
def execSparseTileLoad (u : TileLoad) (s : State) : Host.Outcome State Fault Refusal :=
  whenAlive (.sparseTileLoad u) s (opTileLoad s u)

end Sys2Proof.Machine
end

