-- ==== Sys2Proof/Machine/Move.lean ====
section
/-! DEFINITION. Moves (R165 to R180): the move record, COPY, GATHER and SCATTER, edges, collisions, overlap, streams, and the
fabric packets of a move (R256, R261, R168). -/

namespace Sys2Proof.Machine

open Sys2Proof

/-! ### The move record (Table 7.3) -/

/-- OPCODE. -/
def Move.op (m : Move) : Nat := rd m.b 0 1
/-- A flag of FLAGS. -/
def Move.flag (m : Move) (k : Nat) : Bool := bit (rd m.b 1 1) k
/-- p_d. -/
def Move.perm (m : Move) (k : Nat) : Nat := fld (rd m.b 4 4) (3 * k) 3

/-- The extents of a move's cell against its compiled maxima (R153, R154). The extents of a cell whose RANK is above the tensors' are not
looked at beyond it, which R153 leaves open (DESIGN CHOICE, log 71). -/
def moveExtents (s : State) (b : List Byte) (rank : Nat) : Except Bad (List Nat) :=
  let a := rd b 112 8
  let most := if rd b 0 1 = 1 then (List.range rank).map (fun k => rd b (64 + 4 * k) 4) else [rd b 32 4]
  if a = 0 then .ok most
  else do
    check (installed s a 64 && a % 64 == 0) (badDesc a)
    let c := peek s a 64
    check (!cellBad c && (rd b 0 1 = 1 || rd c 2 1 = 1)) (badDesc a)
    match (List.range most.length).find? (fun k => decide (most.getD k 0 < cellExt c k (most.getD k 0))) with
    | some k => .error { code := 5, addr := a, detail := shapeDetail k (cellExt c k 0) (most.getD k 0) }
    | none => .ok (most.zipIdx.map (fun p => cellExt c p.2 p.1))

/-- The fields of a move record; `cls` is the stroke's class, `none` for firmware. -/
def moveFieldsOk (b : List Byte) (cls : Option Nat) : Bool :=
  let op := rd b 0 1
  let fl := rd b 1 1
  decide (1 ≤ op) && decide (op ≤ 3) && decide (fl < 32) && (if bit fl 2 then decide (rd b 2 1 < 16) else rd b 2 1 == 0) &&
  (if cls = some 5 then decide (rd b 3 1 < 2) else rd b 3 1 == 0) && decide (rd b 4 4 < 2 ^ 18) &&
  decide (rd b 8 8 < 2 ^ 48) && decide (rd b 16 8 < 2 ^ 48) && decide (rd b 24 8 < 2 ^ 48) && decide (rd b 112 8 < 2 ^ 48) &&
  rd b 36 4 == 0 && rd b 124 4 == 0 &&
  (if op = 1 then rd b 24 8 == 0 && rd b 32 4 == 0
   else decide (1 ≤ rd b 32 4) && decide (rd b 32 4 ≤ 65536) && rd b 24 8 % 64 == 0 && rd b 40 72 == 0) &&
  (if bit fl 4 then rd b 120 3 ≠ 0xFFFFFF else rd b 120 4 == 0) &&
  (!bit fl 1 || (cls = some 5 && op = 1 && rd b 112 8 ≠ 0 && bit fl 4))

/-- The rules between the record and its two descriptors (R165). -/
def movePairOk (b : List Byte) (src dst : Desc) (cls : Option Nat) : Bool :=
  let op := rd b 0 1
  let fl := rd b 1 1
  let n := src.rank
  let p := fun k => fld (rd b 4 4) (3 * k) 3
  let ks := List.range n
  let mx := isMx src.fmt
  src.rank == dst.rank && src.fmt == dst.fmt && src.form == dst.form &&
  ks.all (fun k => ks.any (fun d => p d == k)) && (bit fl 0 || ks.all (fun k => p k == k)) &&
  (List.range 6).all (fun k => decide (k < n) ||
    (p k == 0 && rd b (40 + 4 * k) 4 == 0 && rd b (64 + 4 * k) 4 == 0 && rd b (88 + 4 * k) 4 == 0)) &&
  !(bit fl 0 && (src.sparse || mx)) &&
  (bit fl 4 == (cls = some 5 && !dst.distributed)) &&
  (op ≠ 1 || !mx || src.sparse ||
    (rd b (40 + 4 * src.mxDim) 4 % 32 == 0 && rd b (64 + 4 * src.mxDim) 4 % 32 == 0 && rd b (64 + 4 * dst.mxDim) 4 % 32 == 0 &&
     rd b (88 + 4 * dst.mxDim) 4 % 32 == 0)) &&
  (op ≠ 1 || !src.sparse || (List.range 2).all (fun k =>
    rd b (40 + 4 * k) 4 % 64 == 0 && rd b (64 + 4 * k) 4 % 64 == 0 && rd b (88 + 4 * k) 4 % 64 == 0)) &&
  (op = 1 || ks.all (fun k => src.b k == dst.b k))

/-- The byte ranges of a tensor by device; one that is not distributed lies at `home`. -/
def devRanges (home : Nat) (d : Desc) : List (Nat × Nat × Nat) :=
  if d.distributed then
    (List.range d.blocks).filterMap (fun i =>
      let o := d.owner i
      if o.ok then (spanBytes d o.loc (d.blockUnits i)).map (fun r => (o.device, r)) else none)
  else (d.range.map (fun r => (home, r))).toList

/-- The lowest byte that two sets of ranges share on one device. -/
def common (xs ys : List (Nat × Nat × Nat)) : Option Nat :=
  (xs.flatMap (fun x => ys.filterMap (fun y =>
    let lo := max x.2.1 y.2.1
    if x.1 = y.1 && lo < x.2.1 + x.2.2 && lo < y.2.1 + y.2.2 then some lo else none))).foldl
      (fun r a => some (match r with | some b => min a b | none => a)) none

/-- The two overlaps that are allowed (R175). -/
def overlapAllowed (s : State) (b : List Byte) (src dst : Desc) : Bool :=
  let fl := rd b 1 1
  let ks := List.range src.rank
  (!bit fl 0 && !src.sparse && !dst.sparse && ks.all (fun k => src.s k == dst.s k) && ks.all (fun k => dst.s k ≠ 0)) ||
  (rd b 0 1 = 1 && src.rank = 2 && bit fl 0 && fld (rd b 4 4) 0 3 = 1 && fld (rd b 4 4) 3 3 = 0 && !src.sparse &&
    !src.distributed && (src.at_ = dst.at_ || peek s src.at_ 128 = peek s dst.at_ 128) &&
    rd b 40 8 = 0 && rd b 88 8 = 0 && rd b 64 4 = rd b 68 4 && rd b 64 4 ≤ 64 &&
    (match src.range with
      | some r =>
        let x := (r.1 - apBase) % 0x2000000
        decide (apBase ≤ r.1) && decide (r.1 + r.2 ≤ apEnd) && decide (0x1000000 ≤ x) && decide (x < 0x1800000) &&
        decide (x / 0x100000 = (x + r.2 - 1) / 0x100000)
      | none => false))

/-- Every byte of a range lies in value registers of the register mirror (R374). -/
def allValues (a n : Nat) : Bool :=
  decide (mirrorBase ≤ a) && decide (n ≤ 75520) &&
  (List.range (cdiv (a % 8 + n) 8)).all (fun i => (valAt (a - mirrorBase - a % 8 + 8 * i)).isSome)

/-- A source of a move in the register mirror that COUNTER_USER_READ lets strokes read (R374). -/
def userReads (s : State) (d : Desc) : Bool :=
  s.cnt.userRead && !d.distributed && d.scale == 0 && (match d.range with | some r => allValues r.1 r.2 | none => false)

/-- The source of a move (R161, R374). -/
def decodeSource (s : State) (a : Nat) (who : Nat) : Except Bad Desc := do
  check (installed s a 128 && a % 64 == 0) (badDesc who)
  let d := descAt s a
  check (d.fieldsOk true) (badDesc who)
  let d := d.withOwners s
  check (memOk s d false || userReads s d) (badDesc who)
  pure d

/-- A range lies in an open RING window of this device. -/
def inRing (s : State) (r : Nat × Nat) : Bool :=
  s.fab.windows.any (fun w => w.2.isOpen && w.2.flags.testBit 3 && decide (w.2.base ≤ r.1) &&
    decide (r.1 + r.2 ≤ w.2.base + w.2.length))

/-- The moves that may carry WRAP (R171): those of Enael cores, and those whose destination lies in a window opened as a ring
buffer. Whether a window of another device is one, this device does not know: it takes the move (DESIGN CHOICE, log 35). -/
def wrapMove (s : State) (remote : Option (Nat × Nat)) (cls : Option Nat) (dst : Desc) : Bool :=
  if cls.isNone then true
  else match remote with
    | some r => if r.1 = s.glob.deviceId then (window s r.2).isOpen && (window s r.2).flags.testBit 3 else true
    | none =>
      if dst.distributed then
        (List.range dst.blocks).all (fun i =>
          let o := dst.owner i
          o.device ≠ s.glob.deviceId || (match spanBytes dst o.loc (dst.blockUnits i) with | some r => inRing s r | none => false))
      else match dst.range with | some r => inRing s r | none => false

/-- A move record decoded and checked (R161, R165, R175), with its extents and its cell. -/
def decodeMove (s : State) (at_ : Nat) (cls : Option Nat) : Except Bad Move := do
  let bad := badDesc at_
  check (installed s at_ 128) bad
  let b := peek s at_ 128
  check (moveFieldsOk b cls) bad
  let remote := if bit (rd b 1 1) 4 then some (rd b 120 3, rd b 123 1) else none
  let src ← decodeSource s (rd b 8 8) at_
  let dst ← decodeDesc s (rd b 16 8) true remote.isSome at_
  check ((!src.wrap && !dst.wrap) || wrapMove s remote cls dst) bad
  check (movePairOk b src dst cls) bad
  check (rd b 0 1 = 1 || installed s (rd b 24 8) (4 * src.rank * rd b 32 4)) bad
  let home := match remote with | some r => r.1 | none => s.glob.deviceId
  match common (devRanges s.glob.deviceId src) (devRanges home dst) with
  | some a => check (overlapAllowed s b src dst) { code := 6, addr := at_, detail := a }
  | none => pure ()
  let e ← moveExtents s b src.rank
  let cell := if rd b 112 8 = 0 then [] else peek s (rd b 112 8) 64
  check (!bit (rd b 1 1) 1 || bit (rd cell 3 1) 0) bad
  pure { at_ := at_, b := b, src := src, dst := dst, remote := remote,
         traffic := if cls = some 5 then rd b 3 1 else 1, ext := e, cell := cell }

/-! ### The iteration -/

/-- Coordinates of an iteration space, dimension 0 fastest. -/
def coordsOf : List Nat → List (List Nat)
  | [] => [[]]
  | n :: r => (coordsOf r).flatMap (fun t => (List.range n).map (fun i => i :: t))

/-- The unit of a dimension: 64 elements along dimensions 0 and 1 of a sparse form. -/
def Desc.q (d : Desc) (k : Nat) : Nat := if d.sparse && k < 2 then 64 else 1

/-- A signed 32-bit field. -/
def rdS (b : List Byte) (off : Nat) : Int := sint 32 (rd b off 4)

/-- Block coordinates of linear index β, the last one not bounded. -/
def Desc.blockOpen (d : Desc) (beta : Nat) : List Nat :=
  ((List.range d.rank).foldl (fun (r : List Nat × Nat) k =>
    if k + 1 = d.rank then (r.1 ++ [r.2], 0) else (r.1 ++ [r.2 % d.nb k], r.2 / d.nb k)) ([], beta)).1

/-- Source and destination coordinates of every move index, ascending (R166, R167). -/
def Move.pairs (m : Move) (s : State) : List (List Int × List Int) :=
  let n := m.src.rank
  let ks := List.range n
  if m.op = 1 then
    (coordsOf (ks.map (fun k => cdiv (m.ext.getD k 0) (m.dst.q k)))).map (fun i =>
      let at_ := fun k => ((i.getD k 0 : Nat) : Int)
      (ks.map (fun k => rdS m.b (40 + 4 * k) / (m.src.q k : Int) +
          at_ ((ks.find? (fun d => m.perm d == k)).getD k)),
       ks.map (fun k => rdS m.b (88 + 4 * k) / (m.dst.q k : Int) + at_ k)))
  else
    let count := m.ext.getD 0 0
    (List.range count).flatMap (fun e =>
      let entry := ks.map (fun k => sint 32 (peekN s (rd m.b 24 8 + 4 * (n * e + k)) 4))
      let lin := fun (d : Desc) => (d.blockOpen e).map (fun x => (x : Int))
      let sb := if m.op = 2 then entry else lin m.src
      let db := if m.op = 2 then lin m.dst else entry
      (coordsOf (ks.map (fun k => cdiv (m.src.b k) (m.src.q k)))).map (fun y =>
        let f := fun (bs : List Int) => ks.map (fun k =>
          bs.getD k 0 * (cdiv (m.src.b k) (m.src.q k) : Nat) + (y.getD k 0 : Nat))
        (f sb, f db)))

/-- A coordinate outside the tensor, in a dimension without WRAP. -/
def outside (d : Desc) (k : Nat) (c : Int) : Bool := !d.wrap && (decide (c < 0) || decide ((d.units k : Int) ≤ c))

/-- The first coordinate that STRICT makes a fault (R170). -/
def strictBad (m : Move) (strict : Bool) (ps : List (List Int × List Int)) : Option Bad :=
  let ks := List.range m.src.rank
  ps.findSome? (fun p => ks.findSome? (fun k =>
    let det := fun (d : Desc) (dst : Nat) (c : Int) => ({ code := 8, addr := m.at_, detail :=
      k + 8 * dst + (unsint 32 c) * 16 + (d.units k % 2 ^ 28) * 2 ^ 36 } : Bad)
    if (strict || m.src.strict) && outside m.src k (p.1.getD k 0) then some (det m.src 0 (p.1.getD k 0))
    else if (strict || m.dst.strict) && outside m.dst k (p.2.getD k 0) then some (det m.dst 1 (p.2.getD k 0))
    else none))

/-- One move index to be carried out: the source unit, clamped or wrapped, and the destination unit. -/
abbrev Pair := List Nat × List Nat

/-- A coordinate resolved: wrapped, or clamped. -/
def resolve (d : Desc) (k : Nat) (c : Int) : Nat :=
  let n : Int := (max 1 (d.units k) : Nat)
  if d.wrap then (c % n).toNat else (clampI 0 (n - 1) c).toNat

/-- The move indices that write, and the number that counts under ADDR_EDGE (R169). -/
def Move.resolved (m : Move) (ps : List (List Int × List Int)) : List Pair × Nat :=
  let ks := List.range m.src.rank
  let out := fun (d : Desc) (c : List Int) => ks.any (fun k => outside d k (c.getD k 0))
  let go := fun (d : Desc) (c : List Int) => ks.map (fun k => resolve d k (c.getD k 0))
  ((ps.filter (fun p => !out m.dst p.2)).map (fun p => (go m.src p.1, go m.dst p.2)),
   (ps.filter (fun p => out m.src p.1 || out m.dst p.2)).length)

/-- The first block that a move touches and may not (R164). -/
def blockBad (s : State) (m : Move) (cls : Option Nat) (ps : List Pair) : Option Bad :=
  let test := fun (d : Desc) (c : List Nat) =>
    if !d.distributed then none
    else
      let i := d.beta (d.split c).1
      let o := d.owner i
      if !o.ok || (cls = some 3 && o.device ≠ s.glob.deviceId) then
        some ({ code := 0x11, addr := m.at_, detail := i } : Bad) else none
  ps.findSome? (fun p => match test m.src p.1 with | some b => some b | none => test m.dst p.2)

/-! ### Reading and writing units -/

/-- Data fetched from other devices, by device and address. -/
abbrev Fetched := List (Nat × Buf)

/-- Bytes of value registers, live (R365, R374). -/
def counterBytes (s : State) (a n : Nat) : List Byte :=
  (List.range n).map (fun i =>
    let o := a + i - mirrorBase
    match valAt (o - o % 8) with
    | some k => BitVec.ofNat 8 (valueOf s k / 256 ^ (o % 8))
    | none => 0)

/-- Bytes at a place: local memory, value registers, or what was fetched. -/
def placeBytes (s : State) (f : Fetched) (dev : Option (Nat × Nat)) (a n : Nat) : List Byte :=
  match dev with
  | none => if mirrorBase ≤ a then counterBytes s a n else peek s a n
  | some d => (List.range n).map (fun i => tget (((f.find? (fun x => x.1 == d.1)).map (fun x => x.2)).getD []) (a + i) 0)

/-- The bytes that a unit occupies. -/
def unitSpanOf (d : Desc) (p : Place) : Nat × Nat :=
  ((p.bit / 8).toNat, ((p.bit + d.unitBits + 7) / 8 - p.bit / 8).toNat)

/-- The code of an element at a place. -/
def codeAt (s : State) (f : Fetched) (d : Desc) (p : Place) : Nat :=
  let r := unitSpanOf d p
  fld (leNat (placeBytes s f p.dev r.1 r.2)) (p.bit % 8).toNat (fmtBits d.fmt)

/-- A write of a move: device and window where it is not this one, bit address, width and value. -/
structure Put where
  dev : Option (Nat × Nat)
  bit : Int
  w : Nat
  v : Nat

/-- The bytes of a sparse tile that move: all of T24, the first min(TILE_BYTES, S) of Hatch (R159). -/
def tileMoved (s : State) (f : Fetched) (d : Desc) (p : Place) : List Byte :=
  let a := (p.bit / 8).toNat
  let size := d.tileSize
  if d.form = 1 then placeBytes s f p.dev a size
  else placeBytes s f p.dev a (min size (leNat (placeBytes s f p.dev (a + 160) 4)))

/-- The destination of a unit: REMOTE_DST turns a local place into one at DST_DEVICE. -/
def Move.target (m : Move) (s : State) (c : List Nat) : Place :=
  let p := placeOf s m.dst c
  match m.remote with | some r => { p with dev := some r } | none => p

/-- One term added to an INT32 sum, which saturates as R66 has it. -/
def sumInt (a b : Int) : Int := clampI (-(2 ^ 31)) (2 ^ 31 - 1) (a + b)

/-- The sum of what a move writes to one element (R174). -/
def combineCodes (fmt : Nat) (cs : List Nat) : Nat :=
  match cs with
  | [] => 0
  | [c] => c
  | c :: r =>
    if fmt = 12 || fmt = 13 then
      (encE fmt (.ofInt (r.foldl (fun a x => sumInt a (sint (fmtBits fmt) x)) (sint (fmtBits fmt) c))) rneNat).1
    else
      let f := if fmt = 11 then fp64 else fp32
      (encE fmt (r.foldl (fun a x => ((a.add (decE fmt x)).rnd f).1) (decE fmt c)) rneNat).1

/-- The writes of a move in order, and the number of elements that COMBINE summed. -/
def Move.puts (m : Move) (s : State) (f : Fetched) (ps : List Pair) : List Put × Nat :=
  let w := fmtBits m.dst.fmt
  if m.src.sparse then
    (ps.flatMap (fun p =>
      let t := m.target s p.2
      [{ dev := t.dev, bit := t.bit, w := 8 * (tileMoved s f m.src (placeOf s m.src p.1)).length,
         v := leNat (tileMoved s f m.src (placeOf s m.src p.1)) }]), 0)
  else
    let base := ps.map (fun p =>
      let t := m.target s p.2
      ({ dev := t.dev, bit := t.bit, w := w, v := codeAt s f m.src (placeOf s m.src p.1) } : Put))
    if m.dst.combine then
      let keys := (base.map (fun p => (p.dev, p.bit))).eraseDups
      let sums := keys.map (fun k =>
        let mine := base.filter (fun p => p.dev == k.1 && p.bit == k.2)
        (({ dev := k.1, bit := k.2, w := w, v := combineCodes m.dst.fmt (mine.map (fun p => p.v)) } : Put), mine.length))
      (sums.map (fun x => x.1), (sums.filter (fun x => decide (1 < x.2))).length)
    else if isMx m.dst.fmt then
      (base ++ ps.map (fun p =>
        let t := m.target s p.2
        ({ dev := t.dev, bit := (8 * (m.dst.scale + m.dst.scaleOff p.2) : Nat), w := 8,
           v := peekN s (m.src.scale + m.src.scaleOff p.1) 1 } : Put)), 0)
    else (base, 0)

/-- The bytes that a move writes at one device. -/
def bufFor (s : State) (dev : Option (Nat × Nat)) (ps : List Put) : Buf :=
  let z := if dev.isNone then s else { s with mem := { s.mem with cells := [], undef := [] } }
  (ps.filter (fun p => p.dev == dev)).foldl (fun b p => putBits z b p.bit p.w p.v) []

/-- The local reads of a move. -/
def Move.reads (m : Move) (s : State) (ps : List Pair) : List (Nat × Nat) :=
  ps.filterMap (fun p =>
    let x := placeOf s m.src p.1
    if x.dev.isSome then none
    else if m.src.sparse then some ((x.bit / 8).toNat, (tileMoved s [] m.src x).length) else some (unitSpanOf m.src x))

/-! ### Packets -/

/-- A run cut into pieces of at most 1,024 bytes (R256). -/
def cutRun : Nat → Nat → List Byte → List (Nat × List Byte)
  | 0, _, _ => []
  | n + 1, a, bs => if bs.isEmpty then [] else (a, bs.take 1024) :: cutRun n (a + 1024) (bs.drop 1024)

/-- Runs cut at slot boundaries of the aperture, by slot. -/
def cutSlots (runs : List (Nat × List Byte)) : List (Nat × List Byte) :=
  runs.flatMap (fun r =>
    (List.range ((r.1 + r.2.length + 4095) / 4096 - r.1 / 4096)).filterMap (fun i =>
      let lo := max r.1 (4096 * (r.1 / 4096 + i))
      let hi := min (r.1 + r.2.length) (4096 * (r.1 / 4096 + i + 1))
      if lo < hi then some (lo, (r.2.drop (lo - r.1)).take (hi - lo)) else none))

/-- A WRITE of this device. -/
def writePacket (s : State) (dev : Nat × Nat) (cls tag a : Nat) (flags : Nat) (bs : List Byte) : Packet :=
  { typ := 1, flags := flags, cls := cls, status := 0, dst := dev.1, src := s.glob.deviceId, window := dev.2, elemFmt := 0,
    length := bs.length, tag := tag, addr := a, gen := 0, frame := currentFrame s, hops := 0, payload := bs }

/-- LINK_DOWN for a packet that finds no way out of this device (R258, R259): its transfer stops. The refusal is that of the port to
which it was routed, or of port 0 where no route names one. -/
def noWay (s : State) (x : Transfer) (pkt : Packet) : State :=
  let stop := fun (y : Transfer) => if y.tag = pkt.tag && y.dst = pkt.dst then { y with pkts := [], stopped := true } else y
  endTransfer { s with fab.xfers := s.fab.xfers.map stop } { x with dst := pkt.dst } (match routeOf s pkt.dst with | some (some p) => p | _ => 0) 0x0C pkt

/-- The packets of a transfer sent, and the transfer entered: the last one carries LAST. With `fill`, the last is the
SLOT_FILL packet of its slot; it is held while earlier packets wait for their answer (R261). -/
def sendTransfer (s : State) (x : Transfer) (dev : Nat × Nat) (cut : List (Nat × List Byte)) (fill : Bool) : State :=
  let n := cut.length
  let tag := newTag s
  let mk := cut.zipIdx.map (fun p =>
    let lastOne := p.2 + 1 = n
    let hold := fill && lastOne && decide (1 < n)
    let ack := lastOne || (fill && p.2 + 2 = n)
    ({ pkt := writePacket s dev x.cls tag.1 p.1.1 ((if ack then 8 else 0) + (if fill && lastOne then 4 else 0)) p.1.2,
       held := hold } : Unanswered))
  let t := { tag.2 with fab.xfers := tag.2.fab.xfers ++
    [{ x with tag := tag.1, dst := dev.1, window := dev.2, frame := currentFrame s, pkts := mk, acked := mk.isEmpty }] }
  (mk.filter (fun u => !u.held)).foldl (fun u p =>
    let r := sendPacket u 0 p.pkt
    if r.2 then r.1 else noWay r.1 x p.pkt) t

/-- What an operation writes at another device: a transfer for each slot of its aperture, with SLOT_FILL where `fill` says so, and one for
the rest; with `land`, one transfer for all (R261, R168). -/
def sendBuf (s : State) (x : Transfer) (dev : Nat × Nat) (b : Buf) (land fill : Bool) : State :=
  let runs := runsOf b
  let isAp := fun (r : Nat × List Byte) => decide (apBase ≤ r.1) && decide (r.1 < apEnd)
  let cutAll := fun (l : List (Nat × List Byte)) => l.flatMap (fun r => cutRun r.2.length r.1 r.2)
  if land then sendTransfer s x dev (cutAll runs) false
  else
    let rest := runs.filter (fun r => !isAp r)
    let slots := cutSlots (runs.filter isAp)
    let ids := (slots.map (fun r => r.1 / 4096)).eraseDups
    let t := if rest.isEmpty then s else sendTransfer s x dev (cutAll rest) false
    ids.foldl (fun u i => sendTransfer u x dev (cutAll (slots.filter (fun r => r.1 / 4096 = i))) fill) t

/-- The bytes that a move must fetch from other devices, by device and window. -/
def Move.needs (m : Move) (s : State) (ps : List Pair) : List ((Nat × Nat) × Buf) :=
  let places := (ps.map (fun p => placeOf s m.src p.1)).filter (fun p => p.dev.isSome)
  ((places.filterMap (fun p => p.dev)).eraseDups).map (fun d =>
    (d, (places.filter (fun p => p.dev == some d)).foldl (fun b p =>
      let r := unitSpanOf m.src p
      putBytes b r.1 (List.replicate r.2 0)) []))

/-- READ requests for a buffer's bytes (R163, R258). -/
def sendReads (s : State) (x : Transfer) (dev : Nat × Nat) (b : Buf) : State :=
  let tag := newTag s
  let cut := (runsOf b).flatMap (fun r => cutRun r.2.length r.1 r.2)
  let mk := cut.map (fun r =>
    ({ pkt := { writePacket s dev x.cls tag.1 r.1 8 [] with typ := 2, length := r.2.length } } : Unanswered))
  let t := { tag.2 with fab.xfers := tag.2.fab.xfers ++
    [{ x with tag := tag.1, dst := dev.1, window := dev.2, frame := currentFrame s, pkts := mk, reads := true }] }
  mk.foldl (fun u p => let r := sendPacket u 0 p.pkt; if r.2 then r.1 else noWay r.1 { x with reads := true } p.pkt) t

/-- The transfers that fetch for a move. -/
def fetching (s : State) (x : Transfer) : List Transfer :=
  s.fab.xfers.filter (fun y => y.reads && y.folio == x.folio && y.idx == x.idx)

/-- What they have fetched. -/
def fetchedOf (ts : List Transfer) : Fetched :=
  ts.map (fun t => (t.dst, t.got.foldl (fun b g => putBytes b g.1 g.2) []))

/-! ### Blocks at other devices, for products and routing (R163, log 63) -/

/-- An address at another device, through a window there, as one number above this device's own 48-bit addresses. -/
def virtAt (dev win a : Nat) : Nat := 2 ^ 48 * (1 + 256 * dev + win) + a

/-- The tensor with the blocks of other devices at such numbers. -/
def Desc.virt (d : Desc) (self : Nat) : Desc :=
  { d with own := d.own.map (fun o =>
      if o.device = self then o else { o with loc := virtAt o.device o.window o.loc, device := self }) }

/-- Device and window of such a number. -/
def virtDev (a : Nat) : Nat × Nat := ((a / 2 ^ 48 - 1) / 256, (a / 2 ^ 48 - 1) % 256)

/-- The reads at other devices, by device and window. -/
def farReads (rs : List (Nat × Nat)) : List ((Nat × Nat) × Buf) :=
  let far := rs.filter (fun r => decide (2 ^ 48 ≤ r.1))
  ((far.map (fun r => virtDev r.1)).eraseDups).map (fun d =>
    (d, (far.filter (fun r => virtDev r.1 == d)).foldl (fun b r => putBytes b (r.1 % 2 ^ 48) (List.replicate r.2 0)) []))

/-- Bytes of other devices, by their numbers. -/
abbrev Far := List (Nat × List Byte)

/-- The memory as a reader of those bytes sees it. -/
def withFar (s : State) (f : Far) : State := { s with mem.cells := f.foldl (fun c g => writeBytes c g.1 g.2) s.mem.cells }

/-- What transfers have fetched. -/
def farOf (ts : List Transfer) : Far := ts.flatMap (fun t => t.got.map (fun g => (virtAt t.dst t.window g.1, g.2)))

/-- The reads at other devices that transfers have not fetched. -/
def stillFar (ts : List Transfer) (rs : List (Nat × Nat)) : List ((Nat × Nat) × Buf) :=
  let got := ts.flatMap (fun t => t.got.map (fun g => (virtAt t.dst t.window g.1, g.2.length)))
  ((farReads rs).map (fun n => (n.1, n.2.filter (fun b =>
    let a := virtAt n.1.1 n.1.2 b.1
    !got.any (fun g => decide (g.1 ≤ a) && decide (a < g.1 + g.2)))))).filter (fun n => !n.2.isEmpty)

/-- What an operation reads at other devices. `need` says what it reads, as it sees it in what it has: a Hatch tile's header comes
first, and says how far the tile goes (R98). A call sends the requests for what is missing; once all is here, it is answered. -/
def gather (s : State) (x : Transfer) (need : State → List (Nat × Nat)) : State × Option Far :=
  let ts := fetching s x
  if ts.any (fun t => !t.acked) then (s, none)
  else
    let miss := stillFar ts (need (withFar s (farOf ts)))
    if miss.isEmpty then ({ s with fab.xfers := s.fab.xfers.filter (fun y => !ts.contains y) }, some (farOf ts))
    else (miss.foldl (fun u n => sendReads u x n.1 n.2) s, none)

/-- Writes of an operation: those to this device, and those to blocks at other devices, which go out as SCHEDULED writes. -/
def commitAll (s : State) (x : Transfer) (runs : List (Nat × List Byte)) : State :=
  let far := runs.filter (fun r => decide (2 ^ 48 ≤ r.1))
  let t := commit s (x.folio.map (fun l => (l, x.idx))) (runs.filter (fun r => decide (r.1 < 2 ^ 48)))
  ((far.map (fun r => virtDev r.1)).eraseDups).foldl (fun u d =>
    sendBuf u x d ((far.filter (fun r => virtDev r.1 == d)).foldl (fun b r => putBytes b (r.1 % 2 ^ 48) r.2) []) false false) t

/-- The transfers of a stroke. -/
def strokeXfer (l i : Nat) : Transfer := { tag := 0, dst := 0, folio := some l, idx := i }

/-! ### Carrying a move out -/

/-- The address after the range of a LAND_CELL move (R168). -/
def Move.landAt (m : Move) (cell : List Byte) : Nat :=
  let o := (List.range m.dst.rank).foldl (fun r k => r + m.dst.s k * rdS m.b (88 + 4 * k)) (0 : Int)
  (((8 * m.dst.base : Int) + o * fmtBits m.dst.fmt) / 8).toNat + rd cell 32 4 * rd cell 36 4

/-- The bytes that a move transfers (R172): each unit that is read counts, and each scale that is carried. -/
def Move.bytes (m : Move) (s : State) (f : Fetched) (ps : List Pair) : Nat :=
  if m.src.sparse then (ps.map (fun p => (tileMoved s f m.src (placeOf s m.src p.1)).length)).sum
  else (ps.length * fmtBits m.src.fmt + 7) / 8 +
    (if isMx m.src.fmt then ((ps.map (fun p => m.dst.scaleOff p.2)).eraseDups).length else 0)

/-- Who moves: the physical Folio at which the events count, the event of the bytes, and the events' origin. -/
structure Mover where
  xfer : Transfer
  cls : Option Nat
  strict : Bool
  folio : Nat
  moved : Nat
  origin : Origin

/-- An event of the Folio. -/
def Mover.event (v : Mover) (s : State) (code n addr : Nat) : State :=
  if n = 0 then s else folioEvent s v.folio code n { v.origin with addr := some addr }

/-- A decoded move carried out: the first call fetches what other devices hold, and the call that finds it all here
writes (log 35). The answer says why the move stops, and whether it is done. -/
def runMove (s : State) (v : Mover) (m : Move) : State × Option Bad × Bool :=
  let raw := m.pairs s
  match strictBad m v.strict raw with
  | some b => (s, some b, false)
  | none =>
    let r := m.resolved raw
    match blockBad s m v.cls r.1 with
    | some b => (s, some b, false)
    | none =>
      let needs := m.needs s r.1
      let ts := fetching s v.xfer
      if !needs.isEmpty && ts.isEmpty then
        (needs.foldl (fun u n => sendReads u { v.xfer with cls := m.traffic } n.1 n.2) s, none, false)
      else if ts.any (fun t => !t.acked) then (s, none, false)
      else
        match readsBad s (m.reads s r.1) with
        | some l => (s, some { code := 0x0B, addr := 64 * l, detail := lineDetail s (64 * l) }, false)
        | none =>
          let p := m.puts s (fetchedOf ts) r.1
          let u := noteReads { s with fab.xfers := s.fab.xfers.filter (fun y => !ts.contains y) } (m.reads s r.1)
          let u := commit u (v.xfer.folio.map (fun l => (l, v.xfer.idx))) (runsOf (bufFor s none p.1))
          let devs := ((p.1.filterMap (fun x => x.dev)).eraseDups)
          let x := { v.xfer with cls := m.traffic, land := if m.flag 1 then some (m.landAt m.cell, m.cell) else none }
          let devs := if m.flag 1 then m.remote.toList else devs
          let u := devs.foldl (fun t d => sendBuf t x d (bufFor s (some d) p.1) (m.flag 1) (v.cls == some 5)) u
          let bytes := m.bytes s (fetchedOf ts) r.1
          let a := ((placeOf s m.src ((r.1.headD ([], [])).1)).bit / 8).toNat
          let u := v.event u v.moved bytes a
          let u := v.event u 0x14 r.2 a
          (v.event u 0x15 p.2 a, none, true)

/-! ### The commands -/

/-- The move may run: it arms no stream, or it is the active move of the one that it arms. -/
def onStream (s : State) (l i : Nat) (m : Move) : Bool := !m.flag 2 || (stream s l (rd m.b 2 1)).active.any (fun y => y.idx == i)

/-- Where the context of a move stroke is: CLASS 0x03 or 0x05. -/
def moveCtx (s : State) (l i : Nat) : Option Ctx :=
  match ctxOf s l i 3 with | some x => some x | none => ctxOf s l i 5

/-- A move of a stroke (R165): the one that it named as it issued, where its OPCODE is the command's. -/
def opMoveStroke (s : State) (l i opcode : Nat) : State :=
  inAbortCycle s (fun s =>
  match moveCtx s l i with
  | none => s
  | some x =>
    match x.run.dec with
    | .move m =>
      if m.op ≠ opcode || !onStream s l i m then s
      else
        let v : Mover :=
          { xfer := strokeXfer l i, cls := some x.k.cls, strict := curFlag s 2
            folio := x.p, moved := 3 + b2n x.back, origin := x.from 1 none }
        let r := runMove s v m
        match r.2.1 with
        | some e => if e.code = 0x0B then lineErrorBy r.1 (some (l, i)) (e.addr / 64) else failStroke r.1 l i e
        | none => if r.2.2 then doneRun r.1 l i else r.1
    | _ => s)

/-- A firmware move that stops: the record of an operation, of the IO0 cores (R170). -/
def failFirmware (s : State) (e : Bad) : State :=
  if e.code = 0x0B then lineError s (e.addr / 64)
  else failOperation s { code := e.code, addr := e.addr, detail := e.detail, src := 6 }

/-- The reads of a move record, its descriptors, their tables and its cell. -/
def moveRecReads (s : State) (a : Nat) : List (Nat × Nat) :=
  let f := fun off => peekN s (a + off) 8 % 2 ^ 48
  realReads s ((a, 128) :: descReads s ([f 8, f 16].filter (fun d => d ≠ 0)) ++ [(f 112, 64)])

/-- A move of an Enael core (R165, R171). Its events count under FIRMWARE (R366), at a Folio that the command does not name: a
free one (log 35). -/
def opMoveFirmware (s : State) (a opcode : Nat) : State :=
  let b := peek s a 128
  let recs := moveRecReads s a
  if 1 ≤ rd b 0 1 && rd b 0 1 ≤ 3 && rd b 0 1 ≠ opcode then s
  else match readsBad s recs with
  | some l => lineError s l
  | none =>
    let s := noteReads s recs
    match decodeMove s a none with
    | .error e => failFirmware s e
    | .ok m =>
      let v : Mover := { xfer := { tag := 0, dst := 0, idx := a }, cls := none, strict := false
                         folio := Config.firmwareFolio a % 68, moved := 3, origin := { priv := 1, master := 1 } }
      let r := runMove s v m
      match r.2.1 with
      | some e => failFirmware r.1 e
      | none => r.1

/-- A move command. -/
def opMove (s : State) (src : MoveSrc) (opcode : Nat) : State :=
  match src with
  | .stroke l i => opMoveStroke s l i opcode
  | .firmware a => opMoveFirmware s a opcode

/-- COPY. -/
def execCopy (src : MoveSrc) (s : State) : Host.Outcome State Fault Refusal := whenAlive (.copy src) s (opMove s src 1)
/-- GATHER. -/
def execGather (src : MoveSrc) (s : State) : Host.Outcome State Fault Refusal := whenAlive (.gather src) s (opMove s src 2)
/-- SCATTER. -/
def execScatter (src : MoveSrc) (s : State) : Host.Outcome State Fault Refusal := whenAlive (.scatter src) s (opMove s src 3)

/-- STREAM_ARM (R177, Table 7.5), of the move that the stroke named as it issued. -/
def opStreamArm (s : State) (l i : Nat) : State :=
  match moveCtx s l i with
  | none => s
  | some x =>
    match x.run.dec with
    | .move mv =>
      let t := rd mv.b 2 1
      let st := stream s l t
      let m : StreamMove := { folio := l, idx := i }
      if !mv.flag 2 || st.active.any (fun y => y.idx == i) || st.shadow.any (fun y => y.idx == i) then s
      else match st.active, st.shadow with
        | none, _ => setStream s l t { st with active := some m }
        | some _, none => setStream s l t { st with shadow := some m }
        | some _, some y =>
          if mv.flag 3 then
            folioEvent (doneRun (setStream s l t { st with shadow := some m }) l y.idx) x.p 0x16 1 (x.from 1 (some mv.at_))
          else failStroke s l i { code := 7, addr := mv.at_, detail := t + y.idx * 16 }
    | _ => s

/-- STREAM_ARM. -/
def execStreamArm (l i : Nat) (s : State) : Host.Outcome State Fault Refusal :=
  whenAlive (.streamArm l i) s (opStreamArm s l i)

/-- MOVE_COMPLETE (R177): the active move has made its effect; the shadow is promoted and starts. -/
def opMoveComplete (s : State) (l t : Nat) : State :=
  let st := stream s l t
  match st.active with
  | none => s
  | some m =>
    if s.frame.blocked || s.frame.aborted || s.frame.prog.any (fun r => r.folio == l && r.idx == m.idx && !r.done) then s
    else setStream s l t { active := st.shadow, shadow := none }

/-- MOVE_COMPLETE. -/
def execMoveComplete (l t : Nat) (s : State) : Host.Outcome State Fault Refusal :=
  whenAlive (.moveComplete l t) s (opMoveComplete s l t)

/-- LAND_CELL_SEND (R168): once every write of the move is acknowledged, within its frame. -/
def opLandCell (s : State) (tag : Nat) : State :=
  match s.fab.xfers.find? (fun x => x.tag == tag && x.acked && x.land.isSome) with
  | none => s
  | some x =>
    match x.land with
    | none => s
    | some c =>
      if x.frame ≠ s.frame.number || !s.frame.region then s
      else
        let t := { s with fab.xfers := s.fab.xfers.map (fun y => if y.tag == tag then { y with land := none } else y) }
        sendTransfer t { x with land := none, acked := false } (x.dst, x.window) [c] false

/-- LAND_CELL_SEND. -/
def execLandCellSend (tag : Nat) (s : State) : Host.Outcome State Fault Refusal :=
  whenAlive (.landCellSend tag) s (opLandCell s tag)

end Sys2Proof.Machine
end

