-- ==== Sys2Proof/Machine/Lig.lean ====
section
/-! DEFINITION. Accumulation (R60 to R75), Ligature (R76 to R87), Blotter (R107 to R111) and the loss monitor (R239,
R240). -/

namespace Sys2Proof.Machine

open Sys2Proof

/-! ### The window (R60, R61, R68) -/

/-- A window and the FP32 accumulator of its element. -/
structure Win where
  w : Int := 0
  e : Int := 0
  empty : Bool := true
  count : Nat := 0
  acc : Val := Val.zero
  sat : Bool := false
  nan : Bool := false
  pos : Bool := false
  neg : Bool := false
deriving DecidableEq, Repr

/-- Renormalisation (R61). -/
def Win.renorm (x : Win) : Win :=
  let c := r32 (.fin (decide (x.w < 0)) x.w.natAbs (x.e - 38))
  let a := add32 x.acc (if x.w = 0 then Val.zero else c.1)
  { x with w := 0, empty := true, count := 0, acc := a.1, sat := x.sat || c.2 || a.2 }

/-- A product enters (R60, R68). -/
def Win.enter (x : Win) (p : Val) : Win :=
  let y : Win :=
    match p with
    | .nan => { x with nan := true }
    | .inf n => if n then { x with neg := true } else { x with pos := true }
    | .fin n m e =>
      if m = 0 then x
      else
        let ep := expo m e
        let b : Win :=
          if x.empty then { x with e := ep, empty := false }
          else if x.e < ep then { x with w := rneInt x.w (x.e - ep), e := ep } else x
        { b with w := b.w + rneInt (if n then -(m : Int) else m) (e + 38 - b.e) }
  let z := { y with count := y.count + 1 }
  if z.count = 256 then z.renorm else z

/-- The result of a chain (R61, R68), and whether it saturated. -/
def Win.result (x : Win) : Val × Bool :=
  let y := x.renorm
  (if y.nan || (y.pos && y.neg) then .nan else if y.pos then .inf false else if y.neg then .inf true else y.acc, y.sat)

/-! ### Chains (R432, R64, R67, R70 to R73) -/

/-- A partial result: an FP32 or FP64 value, or an INT32 sum that may hold a bound. -/
structure Part where
  v : Val := Val.zero
  i : Int := 0
  held : Bool := false
  sat : Bool := false
deriving DecidableEq, Repr

/-- hi and lo of R70. -/
def split32 (x : Val) : Val × Val × Bool :=
  if x.nf then (x, Val.zero, false)
  else
    let hi := x.rnd bf16
    let lo := (x.add hi.1.opp).rnd bf16
    (hi.1, lo.1, hi.2 || lo.2)

/-- One FP32 term: three passes, or the one product of a term that is not finite, which counts as three (R70). -/
def Win.term32 (x : Win) (t : Val × Val) : Win :=
  if t.1.nf || t.2.nf then ((x.enter (t.1.mul t.2)).enter Val.zero).enter Val.zero
  else
    let a := split32 t.1
    let b := split32 t.2
    let y := ((x.enter (a.1.mul b.1)).enter (a.1.mul b.2.1)).enter (a.2.1.mul b.1)
    { y with sat := y.sat || a.2.2 || b.2.2 }

/-- The integer of an integer value. -/
def Val.toInt (v : Val) : Int :=
  match v with
  | .fin n m e => let k : Nat := m * 2 ^ e.toNat; if n then -(k : Int) else k
  | _ => 0

/-- An INT32 sum continued: it holds the bound it crosses (R67). -/
def Part.addInt (x : Part) (i : Int) : Part :=
  if x.held then x
  else
    let s := x.i + i
    if s < -(2 ^ 31) then { x with i := -(2 ^ 31), held := true, sat := true }
    else if 2 ^ 31 - 1 < s then { x with i := 2 ^ 31 - 1, held := true, sat := true } else { x with i := s }

/-- The largest exponent of the non-zero finite values, 0 where there is none (R71). -/
def topExp (l : List Val) : Int :=
  (l.foldl (fun (r : Option Int) v =>
    match v with
    | .fin _ m e => if m = 0 then r else some (match r with | some x => max x (expo m e) | none => expo m e)
    | _ => r) none).getD 0

/-- The slices of an element (R71). -/
def slicesOf (v : Val) (E : Int) (s : Nat) : List Int :=
  match v with
  | .fin n m e =>
    let k := e + 7 * s - 1 - E
    let q : Nat := if 0 ≤ k then m * 2 ^ k.toNat else m / 2 ^ (-k).toNat
    (List.range s).map (fun t => let c : Int := (q / 2 ^ (7 * (s - 1 - t)) % 128 : Nat); if n then -c else c)
  | _ => List.replicate s 0

/-- FP64 addition of chapter 3. -/
def add64 (a b : Val) : Val × Bool := (a.add b).rnd fp64

/-- A piece (R72, R73). -/
def pieceSum (s : Nat) (ts : List (Val × Val)) : Val × Bool :=
  let E := topExp (ts.map (fun t => t.1))
  let F := topExp (ts.map (fun t => t.2))
  let ds := ts.map (fun t => (slicesOf t.1 E s, slicesOf t.2 F s))
  let pairs := (List.range s).flatMap (fun n => (List.range (n + 1)).map (fun t => (t, n - t)))
  pairs.foldl (fun (r : Val × Bool) p =>
    let S : Int := (ds.map (fun d => d.1.getD p.1 0 * d.2.getD p.2 0)).sum
    let x := ((Val.ofInt S).scale (E + F + 2 - 7 * (p.1 + p.2 + 2))).rnd fp64
    let y := add64 r.1 x.1
    (y.1, r.2 || x.2 || y.2)) (Val.zero, false)

/-- The terms that one Quill sums for one element, in order. -/
def chainSum (k : SumKind) (ts : List (Val × Val)) : Part :=
  match k with
  | .float => let r := (ts.foldl (fun (x : Win) t => x.enter (t.1.mul t.2)) ({} : Win)).result; { v := r.1, sat := r.2 }
  | .three => let r := (ts.foldl Win.term32 ({} : Win)).result; { v := r.1, sat := r.2 }
  | .int => ts.foldl (fun (x : Part) t => x.addInt (t.1.toInt * t.2.toInt)) ({} : Part)
  | .slices s =>
    let r := (chunks (2 ^ 17) ts.length ts).foldl (fun (r : Val × Bool) p =>
      let x := pieceSum s p
      let y := add64 r.1 x.1
      (y.1, r.2 || x.2 || y.2)) (Val.zero, false)
    { v := r.1, sat := r.2 }

/-- What R68 gives a dot product with operands that are not finite (R75). -/
def nfResult (ts : List (Val × Val)) : Option Val :=
  if !ts.any (fun t => t.1.nf || t.2.nf) then none
  else
    let r := (ts.filter (fun t => t.1.nf || t.2.nf)).foldl (fun (x : Win) t => x.enter (t.1.mul t.2)) ({} : Win)
    some r.result.1

/-- A list taken in a free order: `pick n` chooses among what is left (R62, log 31). -/
def freely {α : Type} (pick : Nat → Nat) : Nat → List α → List α
  | 0, _ => []
  | n + 1, l =>
    let k := pick n % max 1 l.length
    (l.drop k).take 1 ++ freely pick n (l.take k ++ l.drop (k + 1))

/-- The partial strips of an element combined (R118): exact order by the tree, FP64 and INT32 in ascending slot order, the
rest in the order of arrival. -/
def combineParts (k : SumKind) (exact : Bool) (pick : Nat → Nat) (ps : List Part) : Part :=
  let sat := ps.any (fun p => p.sat)
  match k with
  | .int =>
    match ps with
    | [] => {}
    | p :: r => r.foldl (fun (x : Part) y =>
        if x.held then x else if y.held then { y with sat := true } else x.addInt y.i) { p with sat := sat }
  | .slices _ =>
    match ps with
    | [] => {}
    | p :: r => r.foldl (fun (x : Part) y => let z := add64 x.v y.v; { x with v := z.1, sat := x.sat || z.2 }) { p with sat := sat }
  | _ =>
    if exact then let r := tree (ps.map (fun p => (p.v, p.sat))); { v := r.1, sat := r.2 }
    else (freely pick ps.length ps).foldl (fun (x : Part) y =>
      let z := add32 x.v y.v; { x with v := z.1, sat := x.sat || z.2 }) { sat := sat }

/-! ### The Ligature block (Table 3.5) -/

/-- A Ligature block breaks R78; `slice` is slice mode, `row` the output row length. A BOUND of −0 is accepted as not negative
(DESIGN CHOICE, log 62). -/
def ligBad (b : List Byte) (slice : Bool) (row : Nat) : Bool :=
  let act := rd b 28 1
  let out := rd b 29 1
  let lo := of32 (rd b 16 4)
  let hi := of32 (rd b 20 4)
  let bound := of32 (rd b 24 4)
  2 ^ 48 ≤ rd b 0 8 || 2 ^ 48 ≤ rd b 8 8 || 32 ≤ rd b 31 1 || rd b 44 20 ≠ 0 || 4 < act || 1 < rd b 30 1 ||
  !fmtOk out || out == 14 || (isMx out && row % 32 ≠ 0) ||
  (act = 4 && (lo = .nan || hi = .nan || hi.lt lo)) ||
  bound = .nan || (bound.neg? && !bound.isZero) ||
  (rd b 30 1 = 1 && (out = 10 || out = 11 || out = 13)) ||
  (if slice then out ≠ 11 || act ≠ 0 || rd b 31 1 % 4 ≠ 0 else out == 11)

/-- Stage 3 (Table 3.6). A zero input is returned unchanged also where zero lies outside [CLAMP_LO, CLAMP_HI] (DESIGN CHOICE,
log 46). -/
def activate (act : Nat) (lo hi x : Val) : Val :=
  match act with
  | 1 => if x = .nan then x else if Val.zero.lt x then x else Val.zero
  | 2 => gelu x
  | 3 => silu x
  | 4 => if x = .nan || x.isZero then x else if x.lt lo then lo else if hi.lt x then hi else x
  | _ => x

/-- Stages 1 to 3 of an element in column `j` (R79, R80). -/
def stages (s : State) (b : List Byte) (j : Nat) (p : Part) (k : SumKind) : Val × Bool :=
  match k with
  | .slices _ => (p.v, p.sat)
  | _ =>
    let x := if k = .int then r32 (Val.ofInt p.i) else (p.v, false)
    let y := if bit (rd b 31 1) 0 then mul32 x.1 (of32 (peekN s (rd b 0 8 + 4 * j) 4)) else (x.1, false)
    let z := if bit (rd b 31 1) 1 then add32 y.1 (of32 (peekN s (rd b 8 8 + 4 * j) 4)) else (y.1, false)
    (activate (rd b 28 1) (of32 (rd b 16 4)) (of32 (rd b 20 4)) z.1, p.sat || y.2 || z.2)

/-- An element of an output tile after stage 4: its position, the value before, the code, the value stored, whether it
counts as not finite, and whether a stage saturated. -/
structure Out4 where
  pos : Nat
  x : Val
  code : Nat
  y : Val
  nf : Bool
  sat : Bool
deriving DecidableEq, Repr

/-- Stage 4 without a shared scale. -/
def narrow (fmt : Nat) (pos : Nat) (x : Val × Bool) (rnd : Nat → Int → Nat) : Out4 :=
  let r := encE fmt x.1 rnd
  let y := decE fmt r.1
  { pos := pos, x := x.1, code := r.1, y := y, nf := y.nf || x.1.nf, sat := x.2 || r.2 }

/-- Stage 4 of an MX block; it answers the scale byte too. -/
def narrowMx (fmt : Nat) (xs : List (Nat × Val × Bool)) (rnd : Nat → Nat → Int → Nat) : List Out4 × Nat :=
  let r := encBlock fmt (xs.map (fun x => x.2.1)) (fun i => rnd (xs.getD i (0, Val.zero, false)).1)
  (xs.zipIdx.map (fun p =>
    let c := r.1.getD p.2 (0, false)
    let y := (decE fmt c.1).under (scaleExp r.2)
    { pos := p.1.1, x := p.1.2.1, code := c.1, y := y, nf := y.nf, sat := p.1.2.2 || c.2 }), r.2)

/-- The first plausibility failure of a tile in row-major order (R85). -/
def plausFails (b : List Byte) (es : List Out4) : List Out4 :=
  let bound := of32 (rd b 24 4)
  es.filter (fun e => !e.nf && bound.lt e.y.abs)

/-- The detail of R85 and R86. R85 does not say how a value that FP32 cannot hold is brought into its 32 bits: it is rounded to nearest
with saturation (DESIGN CHOICE, log 72). -/
def elemDetail (v : Val) (pos : Nat) : Nat := (r32 v).1.bits32 + pos * 2 ^ 32

/-- The tile status word (Table 3.8); `blot` holds bits [15:8]. -/
def statusWord (sat nfIn long sr : Bool) (nfs plaus blot : Nat) : Nat :=
  b2n sat + 2 * b2n nfIn + 4 * b2n (decide (0 < nfs)) + 8 * b2n (decide (0 < plaus)) + 16 * b2n long + 32 * b2n sr +
  blot * 256 + satN 0xFFFF nfs * 65536

/-! ### Blotter -/

/-- A Blotter block breaks R108 for an output. -/
def blotBad (b : List Byte) (outFmt form : Nat) : Bool :=
  2 ≤ rd b 0 1 || rd b 1 1 ≠ 0 || 4096 < rd b 2 2 || rd b 4 12 ≠ 0 ||
  (rd b 0 1 = 1 && (isMx outFmt || outFmt = 10 || outFmt = 11 || outFmt = 13 || form ≠ 2))

/-- A tile as Blotter writes it (R109, R110): its bytes and status bits [15:8]. `es` holds the elements within the extents,
by position; every other position is zero. -/
def blotTile (thresh fmt gen : Nat) (es : List Out4) : List Byte × Nat :=
  let code : Nat → Nat := fun x => match es.find? (fun e => e.pos == x) with | some e => e.code | none => 0
  let nz : Nat → Bool := fun x => match es.find? (fun e => e.pos == x) with | some e => !e.y.isZero | none => false
  let stored : Nat → Nat := fun x => bif nz x then code x else 0
  let masks := (List.range 64).map (fun b => packBits 1 ((List.range 64).map (fun p => b2n (nz (hatchPos b p)))))
  let small := buildHatch fmt 1 64 gen masks ((hatchOrder masks).map code) []
  let count := (hatchOrder masks).length
  let size := decide (hatchReserved fmt < rd small 160 4)
  let many := decide (thresh < count)
  if size || many then
    let full := List.replicate 64 (2 ^ 64 - 1)
    (buildHatch fmt 2 64 gen full ((hatchOrder full).map stored) [], 1 + 2 * b2n size + 4 * b2n many)
  else (small, 0)

/-! ### The loss monitor and values that are not finite (R239, R240) -/

/-- Step `n` is skipped on this device (R240). -/
def markSkip (s : State) (n : Nat) : State :=
  if s.job.skipped.contains n then s else devEvent { s with job.skipped := insertNat n s.job.skipped } 0x4A 1

/-- SKIP of the current step sent to every device of the job, once (R240); the sender skips too. -/
def sendSkip (s : State) (code : Nat) : State :=
  if s.job.skipSent then s
  else markSkip (sendAll { s with job.skipSent := true } (svc s 4 0 code s.job.step s.train.obeyed (currentFrame s))) s.job.step

/-- A flag of the monitor. -/
def lossFlag (s : State) (x : Val) (spike : Bool) : State :=
  let first := !s.job.lossFlagged
  let t := { s with
    loss.spike := s.loss.spike || spike, loss.nonfinite := s.loss.nonfinite || !spike, job.lossFlagged := true }
  let u := if first then postRecord t 4 (x.bits32 + t.loss.avg * 2 ^ 32) true else t
  if u.loss.regs.ctrl.testBit 0 then sendSkip u 0x0D else u

/-- One sample (R239). -/
def lossSample (s : State) (x : Val) : State :=
  let a := of32 s.loss.avg
  if x.nf then lossFlag s x false
  else if s.loss.regs.warmup ≤ s.loss.count && (mulIeee (of32 s.loss.regs.ratio) a).lt x then lossFlag s x true
  else
    let b := if s.loss.count = 0 then x
      else addIeee a (mulIeee (of32 s.loss.regs.alpha) (addIeee x a.opp))
    { s with loss.avg := b.bits32, loss.count := sat32 (s.loss.count + 1) }

/-- Values counted under NONFINITE_OUT: with NF_HOLD the step is skipped (R240). -/
def noteNonfinite (s : State) (n : Nat) : State :=
  if n = 0 then s
  else
    let t := { s with job.nonfinite := true }
    if t.loss.regs.ctrl.testBit 1 && jobExists t then sendSkip t 0x0E else t

end Sys2Proof.Machine
end

