-- ==== Sys2Proof/Machine/Product.lean ====
section
/-! DEFINITION. Products in the Quills: the product descriptor (R112 to R115, R429), placement and the sums (R116 to R119),
the outputs of each opcode (R120, R121), the epilogue (R85 to R87, R109 to R111), and QUILL_VECTOR (R125, log 23). -/

namespace Sys2Proof.Machine

open Sys2Proof

/-! ### The product descriptor (Table 5.2) -/

/-- OPCODE. -/
def Prod.op (d : Prod) : Nat := rd d.b 0 1
/-- TRANS_B. -/
def Prod.transB (d : Prod) : Bool := bit (rd d.b 1 1) 0
/-- PARTS. -/
def Prod.parts (d : Prod) : Nat := rd d.b 6 2
/-- Compiled M. -/
def Prod.cm (d : Prod) : Nat := rd d.b 8 4
/-- Compiled N. -/
def Prod.cn (d : Prod) : Nat := rd d.b 12 4
/-- Compiled K. -/
def Prod.ck (d : Prod) : Nat := rd d.b 16 4
/-- PART_K. -/
def Prod.partK (d : Prod) : Nat := rd d.b 20 4

/-- The operand pairs of Table 3.2. -/
def pairKind (a b slices : Nat) : Option SumKind :=
  let low := fun x => decide (1 ≤ x) && decide (x ≤ 6)
  if (a = 8 && b = 8) || (a = 9 && b = 9) || (low a && low b) || (a = 7 && low b) || (a = 7 && b = 7) then some .float
  else if a = 12 && b = 12 then some .int
  else if a = 10 && b = 10 then some .three
  else if a = 11 && b = 11 then some (.slices slices)
  else none

/-- Contraction steps per cycle as a fraction (Table 5.3). -/
def stepRate (a b : Nat) (k : SumKind) : Nat × Nat :=
  match k with
  | .three => (1, 3)
  | .slices s => (2, s * (s + 1))
  | .int => (2, 1)
  | .float => if a = 8 || a = 9 then (1, 1) else if a = 7 && b = 7 then (4, 1) else (2, 1)

/-- Columns and rows that an operand must have (R113, R157), and its contraction dimension. -/
def needA (op m k : Nat) : Nat × Nat × Nat := if op = 2 then (m, k, 1) else (k, m, 0)
/-- The same for B. -/
def needB (op n k : Nat) (trans : Bool) : Nat × Nat × Nat := if op ≤ 2 && !trans then (n, k, 1) else (k, n, 0)

/-- The operand has the extents, and its MX blocks run along the contraction dimension (R114, R160). -/
def operandOk (d : Desc) (need : Nat × Nat × Nat) : Bool :=
  need.1 ≤ d.e 0 && need.2.1 ≤ d.e 1 && (!isMx d.fmt || d.sparse || d.mxDim = need.2.2)

/-- The blocks of a distributed tensor that the part `cols` × `rows` at coordinate 0 of every further dimension touches have
entries (R164, R429; log 63). -/
def blocksOk (d : Desc) (cols rows : Nat) : Bool :=
  !d.distributed || (List.range (cdiv cols (max 1 (d.b 0)))).all (fun i => (List.range (cdiv rows (max 1 (d.b 1)))).all (fun j =>
    (d.owner (d.beta [i, j, 0, 0, 0, 0])).ok))

/-- The rules of R114 and R58 to R59 on forms and budgets. -/
def formsOk (b : List Byte) (a bb c p : Desc) (quills : Nat) (exact : Bool) : Bool :=
  let op := rd b 0 1
  let w := if op = 3 then p else a
  let hatchW := op ≤ 3 && w.form = 2
  let parts := rd b 6 2
  let partK := rd b 20 4
  let k := rd b 16 4
  (if op ≤ 2 then bb.form ≠ 1 && c.form ≠ 1 else a.form = 0 && bb.form = 0) &&
  (!(rd b 1 1 == 1) || (op ≤ 2 && bb.form = 0)) &&
  (if a.fmt = 11 && bb.fmt = 11 then 3 ≤ rd b 2 1 && rd b 2 1 ≤ 10 else rd b 2 1 = 0) &&
  (if hatchW then rd b 3 1 ≤ 64 else rd b 3 1 = 0) &&
  (if op ≤ 2 && bb.form = 2 then rd b 4 1 = 64 else rd b 4 1 = 0) &&
  (if op = 4 then 1 ≤ rd b 5 1 && rd b 5 1 ≤ 64 else rd b 5 1 = 0) &&
  (if exact then 1 ≤ parts && parts ≤ quills && partK % 64 = 0 && 0 < partK && parts = cdiv k partK &&
      (op ≤ 2 || parts = 1)
   else parts = 0 && partK = 0)

/-- The output rules of R114 and R108. -/
def outputOk (op : Nat) (c p : Desc) (lig blot : List Byte) : Bool :=
  let out := rd lig 29 1
  out = c.fmt && (blot.isEmpty || !blotBad blot out c.form) &&
  (if op ≤ 2 then c.form = 0 || rd blot 0 1 = 1
   else !isMx out && rd blot 0 1 = 0 &&
     (if op = 3 then p.form ≠ 0 && c.form = p.form && c.units 0 = p.units 0 && c.units 1 = p.units 1 else c.form = 2)) &&
  (!(isMx out) || c.mxDim = 0)

/-- A product decoded and checked (R114), with the extents of its shape cell (R115) and the chain limit of R63. The record of
ACC_LIMIT holds the product descriptor's address and DETAIL 0, which R63 does not give (DESIGN CHOICE, log 62). -/
def decodeProduct (s : State) (x : Ctx) : Except Bad Prod := do
  let at_ := x.k.op % 2 ^ 48
  let bad := badDesc at_
  check (installed s at_ 128 && decide (x.k.op < 2 ^ 48)) bad
  let b := peek s at_ 128
  let op := rd b 0 1
  let f := fun i => rd b (24 + 8 * i) 8
  check (decide (1 ≤ op) && decide (op ≤ 4) && decide (rd b 1 1 < 2) && rd b 88 40 == 0 &&
    (List.range 8).all (fun i => decide (f i < 2 ^ 48)) && (3 ≤ op || f 3 == 0)) bad
  let a ← decodeDesc s (f 0) false false at_
  let bb ← decodeDesc s (f 1) false false at_
  let c ← decodeDesc s (f 2) false false at_
  let p ← if op = 3 then decodeDesc s (f 3) false false at_ else pure c
  let m := rd b 8 4
  let n := rd b 12 4
  let k := rd b 16 4
  check (0 < m && 0 < n && 0 < k && operandOk a (needA op m k) && operandOk bb (needB op n k (rd b 1 1 == 1)) &&
    decide (n ≤ c.e 0) && decide (m ≤ c.e 1) && (op ≠ 3 || (decide (n ≤ p.e 0) && decide (m ≤ p.e 1)))) bad
  check (formsOk b a bb c p (x.quills.length) x.exact) bad
  let kind ← match pairKind a.fmt bb.fmt (rd b 2 1) with | some z => pure z | none => throw bad
  check (!(kind = .three || (match kind with | .slices _ => true | _ => false)) || (a.form = 0 && bb.form = 0)) bad
  check (f 4 ≠ 0 && installed s (f 4) 64 && (f 5 = 0 || installed s (f 5) 16) &&
    installed s (f 6) (4 * cdiv m 64 * cdiv n 64) && (op ≠ 4 || installed s (f 3) (8 * cdiv m 64 * cdiv n 64))) bad
  let lig := peek s (f 4) 64
  let blot := if f 5 = 0 then [] else peek s (f 5) 16
  check (!ligBad lig (match kind with | .slices _ => true | _ => false) n && outputOk op c p lig blot) bad
  check ((!bit (rd lig 31 1) 0 || installed s (rd lig 0 8) (4 * n)) &&
    (!bit (rd lig 31 1) 1 || installed s (rd lig 8 8) (4 * n))) bad
  let len := (if x.exact then rd b 20 4 else k) * (if kind = .three then 3 else 1)
  let long := decide (2 ^ 20 < len) && (kind = .float || kind = .three)
  check (!(long && curFlag s 2)) { code := 0x14, addr := at_ }
  let e ← useCell s (f 7) [m, n, k]
  let m' := e.getD 0 0
  let n' := e.getD 1 0
  let k' := e.getD 2 0
  let na := needA op m' k'
  let nb := needB op n' k' (rd b 1 1 == 1)
  check (m' = 0 || n' = 0 || k' = 0 || (blocksOk a na.1 na.2.1 && blocksOk bb nb.1 nb.2.1 && blocksOk c n' m' &&
    (op ≠ 3 || blocksOk p n' m'))) bad
  pure { at_ := at_, b := b, a := a, bb := bb, c := c, p := p, lig := lig, blot := blot, kind := kind,
         m := m', n := n', k := k' }

/-- The product with the blocks that other devices hold at the addresses of `Desc.virt`. -/
def Prod.atDev (d : Prod) (self : Nat) : Prod :=
  { d with a := d.a.virt self, bb := d.bb.virt self, c := d.c.virt self, p := d.p.virt self }

/-- A chain longer than R63 bounds, without STRICT: LONG_CHAIN. -/
def Prod.long (d : Prod) (exact : Bool) : Bool :=
  let len := (if exact then d.partK else d.ck) * (if d.kind = .three then 3 else 1)
  decide (2 ^ 20 < len) && (d.kind = .float || d.kind = .three)

/-! ### Tiles and elements of the operands -/

/-- The address of a tile by tile column and row. -/
def tileAddr (s : State) (d : Desc) (tc tr : Nat) : Nat := ((placeOf s d (at2 tc tr)).bit / 8).toNat

/-- The tiles of a sparse operand that cover `cols` × `rows`, by 65536 × row + column. -/
def tilesOf (s : State) (d : Desc) (cols rows : Nat) : Tbl Tile :=
  if !d.sparse then []
  else (List.range (cdiv rows 64)).flatMap (fun tr => (List.range (cdiv cols 64)).map (fun tc =>
    (65536 * tr + tc, loadTile s d.form d.fmt (tileAddr s d tc tr))))

/-- The value at (column, row) of an operand, where one is present. -/
def operandAt (s : State) (d : Desc) (ts : Tbl Tile) (col row : Nat) : Option Val :=
  if d.sparse then (tget ts (65536 * (row / 64) + col / 64) Tile.none_).at_ (64 * (row % 64) + col % 64)
  else some (elemVal s d (at2 col row))

/-- A as A(i, k). -/
def Prod.aAt (d : Prod) (s : State) (ts : Tbl Tile) (i k : Nat) : Option Val :=
  if d.op = 2 then operandAt s d.a ts i k else operandAt s d.a ts k i

/-- B as B(k, j); an absent position is +0 (R432), so an infinite A against it gives NaN by R68 (DESIGN CHOICE, log 62). -/
def Prod.bAt (d : Prod) (s : State) (ts : Tbl Tile) (k j : Nat) : Val :=
  (if d.op ≤ 2 && !d.transB then operandAt s d.bb ts j k else operandAt s d.bb ts k j).getD Val.zero

/-- The read of one element of a dense tensor, with its scale. -/
def elemReads (s : State) (d : Desc) (c : List Nat) : List (Nat × Nat) :=
  let b := (placeOf s d c).bit
  ((b / 8).toNat, ((b + fmtBits d.fmt + 7) / 8 - b / 8).toNat) ::
    (if isMx d.fmt then [(d.scale + d.scaleOff c, 1)] else [])

/-- The scales that the part `cols` × `rows` from (`c0`, `r0`) of a dense operand uses. -/
def scaleReads (d : Desc) (c0 cols r0 rows : Nat) : List (Nat × Nat) :=
  if !isMx d.fmt then []
  else (List.range rows).flatMap (fun r => (List.range cols).filterMap (fun c =>
    if (if d.mxDim = 0 then c == 0 || (c0 + c) % 32 == 0 else r == 0 || (r0 + r) % 32 == 0) then
      some (d.scale + d.scaleOff (at2 (c0 + c) (r0 + r)), 1)
    else none))

/-- The reads of the part `cols` × `rows` from (`c0`, `r0`) of a dense operand: one range a row where columns lie side by
side; and its scales. -/
def rectReads (s : State) (d : Desc) (c0 cols r0 rows : Nat) : List (Nat × Nat) :=
  if cols = 0 then []
  else scaleReads d c0 cols r0 rows ++ (List.range rows).flatMap (fun r =>
    if d.s 0 = 1 && !d.distributed then
      let b := (placeOf s d (at2 c0 (r0 + r))).bit
      [((b / 8).toNat, ((b + cols * fmtBits d.fmt + 7) / 8 - b / 8).toNat)]
    else (List.range cols).map (fun c =>
      let b := (placeOf s d (at2 (c0 + c) (r0 + r))).bit
      ((b / 8).toNat, ((b + fmtBits d.fmt + 7) / 8 - b / 8).toNat)))

/-- The reads of the tiles `cols` × `rows` from tile (`c0`, `r0`) of a sparse operand. -/
def tileReads (s : State) (d : Desc) (c0 cols r0 rows : Nat) : List (Nat × Nat) :=
  (List.range rows).flatMap (fun tr => (List.range cols).map (fun tc =>
    let a := tileAddr s d (c0 + tc) (r0 + tr)
    (a, tileSpan s d.form d.fmt a)))

/-- The reads of the part `cols` × `rows` from (`c0`, `r0`) of an operand; both are multiples of 64 where it is sparse. -/
def operandReads (s : State) (d : Desc) (c0 cols r0 rows : Nat) : List (Nat × Nat) :=
  if d.sparse then tileReads s d (c0 / 64) (cdiv cols 64) (r0 / 64) (cdiv rows 64) else rectReads s d c0 cols r0 rows

/-! ### Placement (R116, R117, R119) -/

/-- A placement unit of a pass: the contraction tile and, for a Hatch A, the block. -/
abbrev Unit_ := Nat × Option Nat

/-- The blocks of a Hatch tile in traversal order (R101). -/
def blockOrder (col : Bool) : List Nat := (List.range 64).map (fun k => if col then 8 * (k % 8) + k / 8 else k)

/-- The units of pass `t`, in order. -/
def Prod.units (d : Prod) (ts : Tbl Tile) (t : Nat) : List Unit_ :=
  (List.range (cdiv d.k 64)).flatMap (fun kt =>
    if d.a.form = 2 then
      let x := tget ts (if d.op = 2 then 65536 * kt + t else 65536 * t + kt) Tile.none_
      ((blockOrder (d.op == 2)).filter (fun b => x.masks.getD b 0 ≠ 0)).map (fun b => (kt, some b))
    else [(kt, none)])

/-- The Quill slot of unit number `i`. -/
def Prod.slotOf (d : Prod) (exact : Bool) (quills i : Nat) (u : Unit_) : Nat :=
  if exact then u.1 * 64 / max 1 d.partK else i % max 1 quills

/-- The contraction indices of a unit for row `i` of C, ascending. -/
def Prod.ksOf (d : Prod) (i : Nat) (u : Unit_) : List Nat :=
  (match u.2 with
    | none => (List.range 64).map (fun x => 64 * u.1 + x)
    | some b =>
      let kb := if d.op = 2 then b / 8 else b % 8
      let mb := if d.op = 2 then b % 8 else b / 8
      if i % 64 / 8 = mb then (List.range 8).map (fun x => 64 * u.1 + 8 * kb + x) else []).filter (fun k => decide (k < d.k))

/-- The terms of a unit for element (i, j): those at which A holds a value (R432). -/
def Prod.terms (d : Prod) (s : State) (ta tb : Tbl Tile) (i j : Nat) (u : Unit_) : List (Val × Val) :=
  (d.ksOf i u).filterMap (fun k => (d.aAt s ta i k).map (fun a => (a, d.bAt s tb k j)))

/-- Whether the order of a sum is free (R62, R73). -/
def Prod.free (d : Prod) (exact : Bool) : Bool := !exact && (match d.kind with | .slices _ => false | _ => true)

/-- Element (i, j) of PRODUCT or PRODUCT_T (R118). -/
def Prod.elem (d : Prod) (s : State) (exact : Bool) (quills : Nat) (us : List Unit_) (ta tb : Tbl Tile) (i j : Nat) : Part :=
  let run := s.free + (i * d.n + j)
  let pick := fun x => Config.freeOrder run x
  let placed := us.zipIdx.map (fun p => (d.slotOf exact quills p.2 p.1, p.1))
  let slots := List.range (if exact then d.parts else quills)
  let parts := slots.map (fun q =>
    let mine := placed.filter (fun p => p.1 == q)
    let lists := mine.map (fun p => d.terms s ta tb i j p.2)
    let ordered :=
      if !d.free exact then lists.flatten
      else if d.a.form = 0 then let l := lists.flatten; freely (fun x => pick (4096 * q + x)) l.length l
      else (lists.zipIdx).flatMap (fun z => freely (fun x => pick (4096 * q + 64 * z.2 + x)) z.1.length z.1)
    chainSum d.kind ordered)
  let r := combineParts d.kind exact (fun x => pick (2 ^ 20 + x)) parts
  match d.kind with
  | .slices _ => (match nfResult (us.flatMap (fun u => d.terms s ta tb i j u)) with | some v => { r with v := v } | none => r)
  | _ => r

/-- Element (i, j) of MASKED_OUTER or PROBE: the whole chain in one Quill, ascending (R119). -/
def Prod.outer (d : Prod) (s : State) (i j : Nat) : Part :=
  let ts := (List.range d.k).filterMap (fun k => (d.aAt s [] i k).map (fun a => (a, d.bAt s [] k j)))
  let r := chainSum d.kind ts
  match d.kind with
  | .slices _ => (match nfResult ts with | some v => { r with v := v } | none => r)
  | _ => r

/-! ### The epilogue of a tile -/

/-- rand16 of every position of output tile (t, n), when rounding is stochastic (R84). -/
def Prod.draws (d : Prod) (s : State) (t n : Nat) : List Nat :=
  if rd d.lig 30 1 = 1 then
    srDraws 4096 (srSeed s.job.step (rd d.lig 32 4) ((rd d.lig 36 4 + t) % 2 ^ 32) ((rd d.lig 40 4 + n) % 2 ^ 32))
  else []

/-- The rounding of a position. -/
def roundAt (draws : List Nat) (pos : Nat) : Nat → Int → Nat :=
  if draws.isEmpty then rneNat else srNat (draws.getD pos 0)

/-- What a tile gives: what is written, its status word, and what its elements raise. -/
structure TileOut where
  runs : List (Nat × List Byte) := []
  cells : List (Int × Nat) := []
  scales : List (Nat × Nat) := []
  status : Nat := 0
  elems : List Out4 := []
  plaus : List Out4 := []
  blot : Option (Nat × Bool) := none
deriving Repr

/-- The elements of the tile (t, n) after stage 4, for the positions that `ps` lists: in extents computed, outside +0. -/
def Prod.narrowAll (d : Prod) (s : State) (t n : Nat) (ps : List Nat) (f : Nat → Nat → Part) : List Out4 :=
  let draws := d.draws s t n
  ps.map (fun x =>
    let i := 64 * t + x / 64
    let j := 64 * n + x % 64
    let v := if i < d.m && j < d.n then stages s d.lig j (f i j) d.kind else (Val.zero, false)
    narrow d.c.fmt x v (roundAt draws x))

/-- A dense output tile: the elements within the tensor's extents. -/
def Prod.denseTile (d : Prod) (s : State) (t n : Nat) (f : Nat → Nat → Part) : TileOut :=
  let inside := (List.range 4096).filter (fun x => decide (64 * n + x % 64 < d.c.e 0) && decide (64 * t + x / 64 < d.c.e 1))
  let cell := fun (x : Nat) => (placeOf s d.c (at2 (64 * n + x % 64) (64 * t + x / 64))).bit
  if isMx d.c.fmt then
    let draws := d.draws s t n
    let blocks := (List.range 128).filterMap (fun q =>
      let ps := inside.filter (fun x => decide (32 * q ≤ x) && decide (x < 32 * q + 32))
      if ps.isEmpty then none
      else
        let xs := ps.map (fun x =>
          let i := 64 * t + x / 64
          let j := 64 * n + x % 64
          (x, if i < d.m && j < d.n then stages s d.lig j (f i j) d.kind else (Val.zero, false)))
        let r := narrowMx d.c.fmt xs (roundAt draws)
        let x0 := 32 * q
        some (r.1, (d.c.scale + d.c.scaleOff (at2 (64 * n + x0 % 64) (64 * t + x0 / 64)), r.2)))
    let es := blocks.flatMap (fun b => b.1)
    { cells := es.map (fun e => (cell e.pos, e.code)), scales := blocks.map (fun b => b.2), elems := es }
  else
    let es := d.narrowAll s t n inside f
    { cells := es.map (fun e => (cell e.pos, e.code)), elems := es }

/-- A Hatch output tile through Blotter (R109). -/
def Prod.blotted (d : Prod) (s : State) (t n : Nat) (f : Nat → Nat → Part) : TileOut :=
  let inside := (List.range 4096).filter (fun x => decide (64 * n + x % 64 < d.n) && decide (64 * t + x / 64 < d.m))
  let es := d.narrowAll s t n inside f
  let r := blotTile (rd d.blot 2 2) d.c.fmt s.job.step es
  { runs := [(tileAddr s d.c n t, r.1)], elems := es, blot := some (rd r.1 160 4, r.2 % 2 == 1), status := r.2 * 256 }

/-- An output tile in a given pattern (R120, R121). -/
def Prod.patterned (d : Prod) (s : State) (t n : Nat) (form budget gen fh : Nat) (masks order : List Nat) : TileOut :=
  let es := d.narrowAll s t n order (d.outer s)
  let codes := es.map (fun e => e.code)
  let bytes := if form = 1 then buildT24 d.c.fmt masks codes [] else buildHatch d.c.fmt fh budget gen masks codes []
  { runs := [(tileAddr s d.c n t, bytes)], elems := es }

/-- The tile's elements that lie in the extents: those that Ligature wrote as results. -/
def Prod.finish (d : Prod) (o : TileOut) (nfIn long : Bool) : TileOut :=
  let nfs := (o.elems.filter (fun e => e.nf)).length
  let pl := plausFails d.lig o.elems
  { o with
    plaus := pl
    status := statusWord (o.elems.any (fun e => e.sat)) nfIn long (rd d.lig 30 1 == 1) nfs pl.length (o.status / 256) }

/-! ### Loads and checks (R69, R104, R106) -/

/-- The placement units of a tile, by the BITMAP of its header where they are blocks. -/
def unitCount (s : State) (d : Desc) (a : Nat) : Nat := if d.form = 2 then popc 64 (peekN s (a + 8) 8) else 1

/-- The Quill slots that units `start` to `start + n` − 1 go to, ascending; a tile without a unit goes to the decoder that takes
the next one (DESIGN CHOICE, log 33). -/
def slotsFrom (quills start n : Nat) : List Nat :=
  (List.range (max 1 quills)).filter (fun q => (List.range (min (max 1 n) quills)).any (fun j => (start + j) % max 1 quills == q))

/-- Address of the A tile of pass `t` at contraction tile `kt`. -/
def Prod.aTile (d : Prod) (s : State) (t kt : Nat) : Nat :=
  if d.op = 2 then tileAddr s d.a t kt else tileAddr s d.a kt t

/-- The Quill slots whose decoders load the A and B tiles of contraction tile `kt` in pass `t` (R106, R116, R117). -/
def Prod.loaders (d : Prod) (s : State) (exact : Bool) (quills t kt : Nat) : List Nat :=
  if exact then [kt * 64 / max 1 d.partK]
  else
    let n := fun k => if d.a.sparse then unitCount s d.a (d.aTile s t k) else 1
    slotsFrom quills ((List.range kt).map n).sum (n kt)

/-- One failing check, as each decoder that loads the tile finds it. -/
def decoderFails (s : State) (d : Desc) (a budget : Nat) (col : Bool) (quills slots : List Nat) : List Bad :=
  slots.filterMap (fun q => tileBad s d.form d.fmt a (some budget) col (some (quills.getD q 0)) none)

/-- The first tile of pass `t` that fails, in load order: of each contraction tile the A tile, then those of B. -/
def Prod.passBad (d : Prod) (s : State) (x : Ctx) (t : Nat) : List Bad :=
  ((List.range (cdiv d.k 64)).findSome? (fun kt =>
    let slots := d.loaders s x.exact x.quills.length t kt
    let a := if d.a.sparse then decoderFails s d.a (d.aTile s t kt) (rd d.b 3 1) (d.op == 2) x.quills slots else []
    if !a.isEmpty then some a
    else if !d.bb.sparse then none
    else (List.range (cdiv d.n 64)).findSome? (fun j =>
      let b := decoderFails s d.bb (tileAddr s d.bb j kt) (rd d.b 4 1) false x.quills slots
      if b.isEmpty then none else some b))).getD []

/-- A candidate bitmap above BUDGET_C (R121). -/
def probeBad (s : State) (d : Prod) (map : Nat) : Option Bad :=
  let cols := cdiv d.cn 64
  (List.range (cdiv d.cm 64 * cols)).findSome? (fun i =>
    let c := popc 64 (peekN s (map + 8 * i) 8)
    if rd d.b 5 1 < c then
      some { code := 4, addr := tileAddr s d.c (i % cols) (i / cols), detail := tileDetail (0x30, 0, c, rd d.b 5 1) false }
    else none)

/-- The blocks of output tile `i` of MASKED_OUTER or PROBE, in row-major order of the tiles in the extents. -/
def Prod.blocksAt (d : Prod) (s : State) (i : Nat) : List Nat :=
  let cols := max 1 (cdiv d.n 64)
  setBits 64 (if d.op = 4 then peekN s (rd d.b 48 8 + 8 * (i / cols * cdiv d.cn 64 + i % cols)) 8
    else peekN s (tileAddr s d.p (i % cols) (i / cols) + 8) 8)

/-- The units of output tile `i`: itself for a T24 P, else its blocks (R119). -/
def Prod.tileUnits (d : Prod) (s : State) (i : Nat) : Nat := if d.op = 3 && d.p.form = 1 then 1 else (d.blocksAt s i).length

/-- The units before those of output tile `i`. -/
def Prod.unitStart (d : Prod) (s : State) (i : Nat) : Nat := ((List.range i).map (d.tileUnits s)).sum

/-- The checks of the P tile of output tile `i`. -/
def Prod.patternBad (d : Prod) (s : State) (x : Ctx) (i : Nat) : List Bad :=
  if d.op ≠ 3 then []
  else
    let cols := max 1 (cdiv d.n 64)
    let a := tileAddr s d.p (i % cols) (i / cols)
    decoderFails s d.p a (rd d.b 3 1) false x.quills
      (slotsFrom x.quills.length (d.unitStart s i) (unitCount s d.p a))

/-- The reads of contraction tile `kt` in pass `t`: its A tile, and with the first pass its rows of B, which stay for all passes. -/
def Prod.kReads (d : Prod) (s : State) (t kt : Nat) : List (Nat × Nat) :=
  let rows := min 64 (d.m - 64 * t)
  let ks := min 64 (d.k - 64 * kt)
  (if d.op = 2 then operandReads s d.a (64 * t) rows (64 * kt) ks else operandReads s d.a (64 * kt) ks (64 * t) rows) ++
  (if t ≠ 0 then []
   else if d.transB then operandReads s d.bb (64 * kt) ks 0 d.n else operandReads s d.bb 0 d.n (64 * kt) ks)

/-- The reads of pass `t`, by the slot of the first Quill that loads them. The manual does not say at which Quill a tile that several
load is counted (R365; DESIGN CHOICE, log 33). -/
def Prod.passReads (d : Prod) (s : State) (exact : Bool) (quills t : Nat) : List (Nat × List (Nat × Nat)) :=
  (List.range (cdiv d.k 64)).map (fun kt => ((d.loaders s exact quills t kt).headD 0, d.kReads s t kt))

/-- The reads of output tile `i` of MASKED_OUTER or PROBE, by the slot of its first Quill: A with the first tile of its row, B with the
first of its column, and of its pattern the metadata (R114). -/
def Prod.outerReads (d : Prod) (s : State) (quills i : Nat) : List (Nat × List (Nat × Nat)) :=
  let cols := max 1 (cdiv d.n 64)
  let n := i % cols
  let t := i / cols
  [((slotsFrom quills (d.unitStart s i) (d.tileUnits s i)).headD 0,
    (if n = 0 then operandReads s d.a 0 d.k (64 * t) (min 64 (d.m - 64 * t)) else []) ++
    (if t = 0 then operandReads s d.bb 0 d.k (64 * n) (min 64 (d.n - 64 * n)) else []) ++
    (if d.op = 3 then metaReads s d.p.form d.p.fmt (tileAddr s d.p n t) else []))]

/-- Tiles of C in the extents, row-major. -/
def Prod.tiles (d : Prod) : Nat := cdiv d.m 64 * cdiv d.n 64

/-- Every read of a product. -/
def Prod.reads (d : Prod) (s : State) : List (Nat × Nat) :=
  if d.op ≤ 2 then
    (List.range (cdiv d.m 64)).flatMap (fun t => (List.range (cdiv d.k 64)).flatMap (d.kReads s t))
  else (List.range d.tiles).flatMap (fun i => (d.outerReads s 1 i).flatMap (fun p => p.2))

/-- Elements that are not finite among the A elements of some units for tile row `t`. Of an MX block whose scale is 0xFF those that are read
count, which R69 leaves open where not all of it is (DESIGN CHOICE, log 72). -/
def Prod.nfA (d : Prod) (s : State) (ta : Tbl Tile) (t : Nat) (us : List Unit_) : Nat :=
  (us.map (fun u => ((List.range 64).map (fun i =>
    if 64 * t + i < d.m then
      ((d.ksOf (64 * t + i) u).filter (fun k => match d.aAt s ta (64 * t + i) k with | some v => v.nf | none => false)).length
    else 0)).sum)).sum

/-- The contraction indices that some units read: of a present block all eight, those that face an absent column or row of its element
mask among them, which R69 leaves open (DESIGN CHOICE, log 72). -/
def Prod.ksRead (d : Prod) (us : List Unit_) : List Nat :=
  (us.flatMap (fun u => match u.2 with
    | none => (List.range 64).map (fun x => 64 * u.1 + x)
    | some b => (List.range 8).map (fun x => 64 * u.1 + 8 * (if d.op = 2 then b / 8 else b % 8) + x))).eraseDups.filter
      (fun k => decide (k < d.k))

/-- Elements that are not finite in columns [`j0`, `j1`) of B at some contraction indices. -/
def Prod.nfB (d : Prod) (s : State) (tb : Tbl Tile) (ks : List Nat) (j0 j1 : Nat) : Nat :=
  (ks.map (fun k => ((List.range (j1 - j0)).filter (fun j => (d.bAt s tb k (j0 + j)).nf)).length)).sum

/-- The rows and the columns of an output tile that some of its blocks touch; all of them for a T24 P. -/
def sides (whole : Bool) (bs : List Nat) : List Nat × List Nat :=
  if whole then (List.range 64, List.range 64)
  else ((List.range 64).filter (fun i => bs.any (fun b => b / 8 == i / 8)), (List.range 64).filter (fun j => bs.any (fun b => b % 8 == j / 8)))

/-- Elements that are not finite among what those rows and columns read. -/
def Prod.nfOuter (d : Prod) (s : State) (t n : Nat) (rc : List Nat × List Nat) : Nat :=
  ((List.range d.k).map (fun k =>
    (rc.1.filter (fun i => decide (64 * t + i < d.m) && (match d.aAt s [] (64 * t + i) k with | some v => v.nf | none => false))).length +
    (rc.2.filter (fun j => decide (64 * n + j < d.n) && (d.bAt s [] k (64 * n + j)).nf)).length)).sum

/-! ### Running -/

/-- The output tile (t, n). -/
def Prod.tile (d : Prod) (s : State) (x : Ctx) (ta tb : Tbl Tile) (t n : Nat) : TileOut :=
  if d.op = 3 then
    let a := tileAddr s d.p n t
    let p := loadTile s d.p.form d.p.fmt a
    d.patterned s t n d.p.form p.budget p.gen (peekN s (a + 2) 1) p.masks p.order
  else if d.op = 4 then
    let map := peekN s (rd d.b 48 8 + 8 * (t * cdiv d.cn 64 + n)) 8
    let masks := (List.range 64).map (fun b => if map.testBit b then 2 ^ 64 - 1 else 0)
    d.patterned s t n 2 (rd d.b 5 1) s.job.step 1 masks (hatchOrder masks)
  else
    let f := d.elem s x.exact x.quills.length (d.units ta t) ta tb
    if d.c.form = 2 then d.blotted s t n f else d.denseTile s t n f

/-- The units of pass `t` that go to Quill slot `q`. -/
def Prod.mine (d : Prod) (x : Ctx) (ta : Tbl Tile) (t q : Nat) : List Unit_ :=
  ((d.units ta t).zipIdx.filter (fun p => d.slotOf x.exact x.quills.length p.2 p.1 == q)).map (fun p => p.1)

/-- The array cycles of Table 5.4 of Quill slot `q` in pass `t`. -/
def Prod.passCycles (d : Prod) (x : Ctx) (ta : Tbl Tile) (t q : Nat) : Nat :=
  let r := stepRate d.a.fmt d.bb.fmt d.kind
  let mine := (d.mine x ta t q).length
  (if d.a.form = 2 then 8 * cdiv mine 8 else if d.a.form = 1 then 32 * mine else 64 * mine) * cdiv d.cn 32 * r.2 / r.1

/-- The array cycles of Table 5.4 of Quill slot `q` in MASKED_OUTER or PROBE. -/
def Prod.outerCycles (d : Prod) (s : State) (x : Ctx) (q : Nat) : Nat :=
  let r := stepRate d.a.fmt d.bb.fmt d.kind
  let per := cdiv (d.ck * r.2) r.1
  let mine := (d.unitStart s d.tiles + x.quills.length - 1 - q) / max 1 x.quills.length
  (if d.op = 3 && d.p.form = 1 then mine else cdiv mine 32) * per

/-- The first of some elements in row-major order (R86). -/
def firstElem (es : List Out4) : Option Out4 :=
  es.foldl (fun b e => match b with | some y => if e.pos < y.pos then some e else b | none => some e) none

/-- The records that a tile's epilogue raises (R85, R86): the first failure of the stroke, PLAUSIBILITY before NONFINITE. -/
def epilogue (s : State) (x : Ctx) (d : Prod) (addr : Nat) (o : TileOut) (seen : Bool) : State :=
  let flags := rd d.lig 31 1
  let rec_ := fun code (e : Out4) (v : Val) => strokeFault s x.l x.i code addr (elemDetail v e.pos)
  let pl := if seen then none else firstElem o.plaus
  let nf := if bit flags 3 then firstElem (o.elems.filter (fun e => e.nf)) else none
  let nfv := fun (e : Out4) => if e.y.nf then e.y else e.x
  let stopP := bit flags 2
  match pl, nf with
  | none, none => s
  | some e, none =>
    if stopP then abortWith s (rec_ 0x0D e e.y) false else raiseFault s (rec_ 0x0D e e.y)
  | none, some e => abortWith s (rec_ 0x0E e (nfv e)) false
  | some e, some f =>
    if stopP then
      let t := raiseFault s { rec_ 0x0D e e.y with cause := true, sev := 2 }
      abortWith t (rec_ 0x0E f (nfv f)) false
    else abortWith (raiseFault s (rec_ 0x0D e e.y)) (rec_ 0x0E f (nfv f)) false

/-- The writes of an output tile to C, in ascending order. -/
def tileRuns (s : State) (d : Prod) (o : TileOut) : List (Nat × List Byte) :=
  let buf := o.cells.foldl (fun b c => putBits s b c.1 (fmtBits d.c.fmt) c.2) ([] : Buf)
  runsOf (o.scales.foldl (fun b c => putBytes b c.1 (leBytes 1 c.2)) buf) ++ o.runs

/-- The writes of an output tile and its status word. -/
def putTile (s : State) (x : Ctx) (d : Prod) (o : TileOut) (idx : Nat) : State :=
  commitAll s (strokeXfer x.l x.i) (tileRuns s d o ++ [(rd d.b 72 8 + 4 * idx, leBytes 4 o.status)])

/-- Accesses of a Quill counted as moved bytes, each at its own address (R127, R366). -/
def moved (s : State) (x : Ctx) (q : Nat) (rs : List (Nat × Nat)) : State :=
  rs.foldl (fun t r => if r.2 = 0 then t else quillEvent t x.p q (3 + b2n x.back) r.2 (x.from 1 (some (r.1 % 2 ^ 48)))) s

/-- The events of an output tile (Table 15.2). ACC_LONG_CHAIN counts once for each output tile (DESIGN CHOICE, log 62). -/
def tileEvents (s : State) (x : Ctx) (q addr : Nat) (o : TileOut) : State :=
  let ev := fun t code n m => if n = 0 then t else quillEvent t x.p q code n (x.from m (some addr))
  let nfs := (o.elems.filter (fun e => e.nf)).length
  let t := ev s 0x06 nfs 3
  let t := ev t 0x07 (o.status % 2) 0
  let t := ev t 0x08 o.plaus.length 3
  let t := ev t 0x09 (if o.status.testBit 4 then 1 else 0) 0
  let t := match o.blot with
    | some (n, dense) => ev (ev (ev t 0x0A 1 4) 0x0B (b2n dense) 4) 0x0C n 4
    | none => t
  noteNonfinite t nfs

/-- One output tile: its writes, its status word, its events and what it raises. `v` is the memory as the product reads it; `r`
holds the state, and whether an element of the stroke has failed the plausibility check. LOSS_TAP takes element (0, 0) where
the tile writes it; where the pattern of MASKED_OUTER or PROBE lacks it, no sample is taken (DESIGN CHOICE, log 62). -/
def stepTile (d : Prod) (x : Ctx) (ta tb : Tbl Tile) (v : State) (nfIn : Bool) (r : State × Bool) (t n : Nat) : State × Bool :=
  if r.1.frame.aborted then r
  else
    let idx := t * cdiv d.cn 64 + n
    let o := d.finish (d.tile v x ta tb t n) nfIn (d.long x.exact)
    let addr := ((placeOf v d.c (if d.c.sparse then at2 n t else at2 (64 * n) (64 * t))).bit / 8).toNat
    let q := x.quills.getD (idx % max 1 x.quills.length) 0
    let u := tileEvents (putTile r.1 x d o idx) x q addr o
    let u := moved u x q ((tileRuns r.1 d o).map (fun w => (w.1, w.2.length)))
    let u := if bit (rd d.lig 31 1) 4 && idx = 0 then
        (match o.elems.find? (fun e => e.pos == 0) with | some e => lossSample u (r32 e.y).1 | none => u) else u
    (epilogue u x d addr o r.2, r.2 || !o.plaus.isEmpty)

/-- What a part of a product's loads does, by Quill slot: a line that fails, or the decoders that do, abort the frame; else the reads
count. -/
def loadPart (s : State) (x : Ctx) (parts : List (Nat × List (Nat × Nat))) (bad : List Bad) : State :=
  let rs := parts.flatMap (fun p => p.2)
  match readsBad s rs with
  | some l => lineErrorBy s (some (x.l, x.i)) l
  | none =>
    if bad.isEmpty then parts.foldl (fun t p => moved t x (x.quills.getD p.1 0) p.2) (noteReads s rs)
    else bad.foldl (fun t b => failStroke t x.l x.i b) s

/-- An event at each Quill slot with a count that is not zero. -/
def slotEvents (s : State) (x : Ctx) (code : Nat) (f : Nat → Nat) : State :=
  x.quills.zipIdx.foldl (fun u q => let n := f q.2; if n = 0 then u else quillEvent u x.p q.1 code n (x.from 0 none)) s

/-- Pass `t` of PRODUCT or PRODUCT_T (R116). -/
def stepPass (d : Prod) (x : Ctx) (ta tb : Tbl Tile) (v : State) (r : State × Bool) (t : Nat) : State × Bool :=
  if r.1.frame.aborted then r
  else
    let u := loadPart r.1 x (d.passReads v x.exact x.quills.length t) (d.passBad v x t)
    if u.frame.aborted then (u, r.2)
    else
      let us := d.units ta t
      let u := slotEvents u x (1 + b2n x.back) (d.passCycles x ta t)
      let u := slotEvents u x 5 (fun q =>
        let mine := d.mine x ta t q
        d.nfA v ta t mine + d.nfB v tb (d.ksRead mine) 0 d.n)
      (List.range (cdiv d.n 64)).foldl (fun p n =>
        stepTile d x ta tb v (decide (0 < d.nfA v ta t us + d.nfB v tb (d.ksRead us) (64 * n) (min d.n (64 * n + 64)))) p t n) (u, r.2)

/-- Output tile `i` of MASKED_OUTER or PROBE (R119). -/
def stepOuter (d : Prod) (x : Ctx) (v : State) (r : State × Bool) (i : Nat) : State × Bool :=
  if r.1.frame.aborted then r
  else
    let cols := max 1 (cdiv d.n 64)
    let t := i / cols
    let n := i % cols
    let u := loadPart r.1 x (d.outerReads v x.quills.length i) (d.patternBad v x i)
    if u.frame.aborted then (u, r.2)
    else
      let whole := d.op = 3 && d.p.form = 1
      let bs := d.blocksAt v i
      let start := d.unitStart v i
      let q := max 1 x.quills.length
      let u := slotEvents u x 5 (fun k =>
        if whole then (if start % q = k then d.nfOuter v t n (sides true []) else 0)
        else d.nfOuter v t n (sides false ((bs.zipIdx.filter (fun p => (start + p.2) % q == k)).map (fun p => p.1))))
      stepTile d x [] [] v (decide (0 < d.nfOuter v t n (sides whole bs))) (u, r.2) t n

/-- The status words of the tiles wholly outside the actual extents (R155). -/
def putOutside (s : State) (x : Ctx) (d : Prod) : State :=
  let out := ((List.range (cdiv d.cm 64)).flatMap (fun t => (List.range (cdiv d.cn 64)).map (fun n => (t, n)))).filter
    (fun g => decide (d.k = 0) || decide (d.m ≤ 64 * g.1) || decide (d.n ≤ 64 * g.2))
  commit s (some (x.l, x.i)) (out.map (fun g => (rd d.b 72 8 + 4 * (g.1 * cdiv d.cn 64 + g.2), leBytes 4 0)))

/-- S of R178: the largest tile that an operand can hold. -/
def Desc.largestTile (d : Desc) : Nat := if d.sparse then d.tileSize else 512 * fmtBits d.fmt

/-- The Well slots that a product's slot list names and neither its tensors nor its status words touch: those of its tile buffers, in
buffer order (R178; log 64). -/
def loaderSlots (s : State) (x : Ctx) (d : Prod) : List Nat :=
  match curDuctus s with
  | none => []
  | some du =>
    let own := (([d.a, d.bb, d.c, d.p].flatMap (fun t => t.range.toList)) ++ [(rd d.b 72 8, 4 * cdiv d.cm 64 * cdiv d.cn 64)]).flatMap
      (fun r => slotsOf r.1 r.2)
    (((inSlots s du x.k).map slotNo ++ outSlots s du x.k).eraseDups).filter (fun n => decide (4096 ≤ n % 8192) && !own.contains n)

/-- The Quill whose Well holds a slot. -/
def wellQuill (n : Nat) : Nat := (n % 8192 - 4096) / 256

/-- Tile buffer `j` of four of operand `o` (0 A, 1 B) at Quill `q`: its slots among those of the loader. -/
def Prod.buffer (d : Prod) (slots : List Nat) (q o j : Nat) : List Nat :=
  let n := fun (t : Desc) => cdiv t.largestTile 4096
  let w := n (if o = 0 then d.a else d.bb)
  ((slots.filter (fun x => wellQuill x == q)).drop ((if o = 0 then 0 else 4 * n d.a) + w * j)).take w

/-- The sparse tiles of operand `o` that Quill slot `q` loads in PRODUCT and PRODUCT_T, in the order in which the array uses them (R116). -/
def Prod.stream (d : Prod) (s : State) (x : Ctx) (q o : Nat) : List Nat :=
  (List.range (cdiv d.m 64)).flatMap (fun t => (List.range (cdiv d.k 64)).flatMap (fun kt =>
    if !(d.loaders s x.exact x.quills.length t kt).contains q then []
    else if o = 0 then (if d.a.sparse then [d.aTile s t kt] else [])
    else if d.bb.sparse then (List.range (cdiv d.n 64)).map (fun j => tileAddr s d.bb j kt) else []))

/-- What the tile loaders leave in their buffers (R178): tile i of an operand's stream lies in buffer i mod 4, from its first byte on.
What else lies there, and how a dense tile lies in its buffer, the manual does not give: it is free (log 64). `v` is the memory as the
product reads it. -/
def fillBuffers (s v : State) (x : Ctx) (d : Prod) : State :=
  let slots := loaderSlots s x d
  let t := slots.foldl (fun t n => forget t (apBase + 4096 * n) (apBase + 4096 * n + 4096) none) s
  if 3 ≤ d.op then t
  else x.quills.zipIdx.foldl (fun t q => [0, 1].foldl (fun t o =>
    let tiles := d.stream v x q.2 o
    let form := if o = 0 then d.a else d.bb
    (tiles.zipIdx.drop (tiles.length - 4)).foldl (fun t a =>
      let buf := d.buffer slots q.1 o (a.2 % 4)
      let n := tileSpan v form.form form.fmt a.1
      if buf.length = cdiv form.largestTile 4096 then poke t (apBase + 4096 * buf.headD 0) (peek v a.1 n) else t) t) t) t

/-- A decoded product runs; `v` is the memory that it reads. An extent of zero computes nothing (R154). -/
def runOn (s v : State) (x : Ctx) (d : Prod) : State :=
  if d.m = 0 || d.n = 0 || d.k = 0 then doneRun (putOutside s x d) x.l x.i
  else match (if d.op = 4 then probeBad v d (rd d.b 48 8) else none) with
    | some b => failStroke s x.l x.i b
    | none =>
      let na := needA d.op d.m d.k
      let nb := needB d.op d.n d.k d.transB
      let r := if d.op ≤ 2 then
          let ta := tilesOf v d.a na.1 na.2.1
          let tb := tilesOf v d.bb nb.1 nb.2.1
          (List.range (cdiv d.m 64)).foldl (stepPass d x ta tb v) (fillBuffers s v x d, false)
        else (List.range d.tiles).foldl (stepOuter d x v) (slotEvents (fillBuffers s v x d) x (1 + b2n x.back) (d.outerCycles v x), false)
      if r.1.frame.aborted then r.1
      else
        let u := putOutside r.1 x d
        doneRun { u with free := u.free + d.m * d.n } x.l x.i

/-- A product runs (R116 to R121). The blocks that other devices hold are fetched first (R163, log 63). -/
def runProduct (s : State) (x : Ctx) (d : Prod) : State :=
  let e := d.atDev s.glob.deviceId
  let g := gather s (strokeXfer x.l x.i) (if e.m = 0 || e.n = 0 || e.k = 0 then fun _ => [] else e.reads)
  match g.2 with
  | some f => runOn g.1 (withFar g.1 f) x e
  | none => g.1

/-- A product command: the product that a stroke in progress named as it issued, where its OPCODE is the command's. -/
def opProduct (s : State) (l i opcode : Nat) : State :=
  inAbortCycle s (fun t =>
    match ctxOf t l i 1 with
    | none => t
    | some x =>
      match x.run.dec with
      | .product d => if d.op = opcode then runProduct t x d else t
      | _ => t)

/-- PRODUCT. -/
def execProduct (l i : Nat) (s : State) : Host.Outcome State Fault Refusal :=
  whenAlive (.product l i) s (opProduct s l i 1)
/-- PRODUCT_T. -/
def execProductT (l i : Nat) (s : State) : Host.Outcome State Fault Refusal :=
  whenAlive (.productT l i) s (opProduct s l i 2)
/-- MASKED_OUTER. -/
def execMaskedOuter (l i : Nat) (s : State) : Host.Outcome State Fault Refusal :=
  whenAlive (.maskedOuter l i) s (opProduct s l i 3)
/-- PROBE. -/
def execProbe (l i : Nat) (s : State) : Host.Outcome State Fault Refusal :=
  whenAlive (.probe l i) s (opProduct s l i 4)

/-- QUILL_VECTOR (R125, log 23): the stroke occupies its Quills; the manual gives vector code no data effect. -/
def opQuillVector (s : State) (l i : Nat) : State :=
  match ctxOf s l i 2 with
  | none => s
  | some x => doneRun s x.l x.i

/-- QUILL_VECTOR. -/
def execQuillVector (l i : Nat) (s : State) : Host.Outcome State Fault Refusal :=
  whenAlive (.quillVector l i) s (opQuillVector s l i)

end Sys2Proof.Machine
end

