-- ==== Sys2Proof/Machine/Route.lean ====
section
/-! DEFINITION. Expert routing (R138 to R151): the routing record, scoring and selection, admission, dispatch, count cells and
combination; and the packets that land in this device's memory (R146, R184, R260, R266). -/

namespace Sys2Proof.Machine

open Sys2Proof

/-! ### The routing record (Table 6.1) -/

/-- K. -/
def Routing.k (r : Routing) : Nat := rd r.b 2 1
/-- ASSIGN. -/
def Routing.assign (r : Routing) : Nat := rd r.b 3 1
/-- EXPERTS. -/
def Routing.experts (r : Routing) : Nat := rd r.b 4 2
/-- ROW_BYTES. -/
def Routing.rowBytes (r : Routing) : Nat := rd r.b 12 4

/-- An entry that R139 accepts. -/
def Share.ok (x : Share) : Bool :=
  x.share == 0 || (x.loc % 4096 == 0 && x.dev != 0xFFFFFF && x.ret % 4096 == 0)

/-- The entry of a share of the record, as the decode read it. -/
def Routing.at_share (r : Routing) (e q : Nat) : Share := r.shares.getD (r.reps * e + q) ⟨0, 0, 0, 0, 0⟩

/-- The fields of a routing record (R138, R139). -/
def routingFieldsOk (b : List Byte) : Bool :=
  let f := fun i => rd b (16 + 8 * i) 8
  decide (1 ≤ rd b 0 1) && decide (rd b 0 1 ≤ 2) && decide (rd b 1 1 < 2) && rd b 6 2 == 0 &&
  decide (1 ≤ rd b 2 1) && decide (rd b 2 1 ≤ 8) && decide (1 ≤ rd b 3 1) && decide (rd b 3 1 ≤ rd b 2 1) &&
  decide (rd b 2 1 ≤ rd b 4 2) && decide (rd b 4 2 ≤ 1024) && decide (1 ≤ rd b 8 4) && decide (rd b 8 4 ≤ 65536) &&
  rd b 12 4 % 64 == 0 && decide (64 ≤ rd b 12 4) && decide (rd b 12 4 ≤ 65536) &&
  (List.range 6).all (fun i => decide (f i < 2 ^ 48)) && (List.range 3).all (fun i => f (2 + i) % 64 == 0)

/-- A format of the gate scores and of combined rows. -/
def wideFmt (c : Nat) : Bool := c == 8 || c == 9 || c == 10

/-- A routing record decoded and checked (R139), with its share table and its token count (R153). Blocks of the tensors that
other devices hold stand at the addresses of `Desc.virt` (log 63). -/
def decodeRouting (s : State) (x : Ctx) : Except Bad Routing := do
  let at_ := x.k.op % 2 ^ 48
  let bad := badDesc at_
  check (installed s at_ 64 && decide (x.k.op < 2 ^ 48)) bad
  let b := peek s at_ 64
  check (routingFieldsOk b) bad
  let reps := if curFlag s 3 then 4 else 1
  let score ← decodeDesc s (rd b 16 8) false false at_
  let token ← decodeDesc s (rd b 24 8) false false at_
  check (score.form == 0 && wideFmt score.fmt && score.rank == 2 && score.e 0 == rd b 4 2 && score.e 1 == rd b 8 4) bad
  check (token.form == 0 && token.rank == 2 && decide (rd b 8 4 ≤ token.e 1) &&
    token.e 0 * fmtBits token.fmt == 8 * rd b 12 4) bad
  check (rd b 0 1 ≠ 2 || wideFmt token.fmt) bad
  check (installed s (rd b 32 8) (16 * reps * rd b 4 2) && installed s (rd b 40 8) (8 * rd b 3 1 * rd b 8 4)) bad
  let shares := (List.range (reps * rd b 4 2)).map (fun i => shareAt s (rd b 32 8) 1 i 0)
  check (shares.all Share.ok) bad
  let e ← useCell s (rd b 56 8) [rd b 8 4]
  check ((rd b 0 1 = 2 || blocksOk score (score.e 0) (e.getD 0 0)) && blocksOk token (token.e 0) (e.getD 0 0)) bad
  pure { at_ := at_, b := b, score := score.virt s.glob.deviceId, token := token.virt s.glob.deviceId, reps := reps
         tokens := e.getD 0 0, shares := shares }

/-! ### Scoring and selection (R140, R141) -/

/-- A score as the router ranks it: −0 becomes +0, NaN becomes −∞. -/
def scoreVal (v : Val) : Val := match v with | .nan => .inf true | w => if w.isZero then Val.zero else w

/-- The scores of a token, with whether each was NaN. -/
def Routing.scores (r : Routing) (s : State) (t : Nat) : List (Nat × Val × Bool) :=
  (List.range r.experts).map (fun e =>
    let v := elemVal s r.score (at2 e t)
    (e, scoreVal v, v == .nan))

/-- The first of the largest: a later one replaces it only where it is larger. -/
def bestOf (l : List (Nat × Val × Bool)) : Option (Nat × Val × Bool) :=
  l.foldl (fun r x => match r with | some y => if y.2.1.lt x.2.1 then some x else some y | none => some x) none

/-- The `k` experts with the largest scores, descending; of two equal ones the lower index first. -/
def choose : Nat → List (Nat × Val × Bool) → List (Nat × Val × Bool)
  | 0, _ => []
  | k + 1, l => match bestOf l with | none => [] | some x => x :: choose k (l.filter (fun y => y.1 ≠ x.1))

/-- The gate weights of a choice list (R141). -/
def weights (soft : Bool) (cs : List (Nat × Val × Bool)) : List Val :=
  if !soft then cs.map (fun c => if c.2.2 then Val.zero else c.2.1)
  else
    match (cs.headD (0, Val.zero, false)).2.1 with
    | .inf false =>
      let n := (cs.filter (fun c => c.2.1 == .inf false)).length
      cs.map (fun c => if c.2.1 == .inf false then (r32 ((Val.ofInt 1).div (Val.ofInt n))).1 else Val.zero)
    | .inf true => cs.map (fun _ => Val.zero)
    | top =>
      let es := cs.map (fun c => expF (add32 c.2.1 top.opp).1)
      let sum := match es with | [] => Val.zero | e :: r => r.foldl (fun a x => (add32 a x).1) e
      es.map (fun e => (r32 (e.div sum)).1)

/-! ### Admission (R142 to R145, R151) -/

/-- The rows of an expert over all its replicas. -/
def Routing.total (r : Routing) (e : Nat) : Nat := ((List.range r.reps).map (fun q => (r.at_share e q).share)).sum

/-- Replica and row of the `n`-th row of an expert: replica 0 fills first. -/
def Routing.replica (r : Routing) (e n : Nat) : Nat × Nat :=
  (List.range r.reps).foldl (fun (x : Nat × Nat) q =>
    let m := (r.at_share e q).share
    if x.1 = q && m ≤ x.2 then (q + 1, x.2 - m) else x) (0, n)

/-- An admission of a token: expert, replica, row within the share range, weight. -/
structure Admit where
  e : Nat
  q : Nat
  row : Nat
  w : Val

/-- One token's walk down its choice list (R143): the admissions, the rows admitted so far, and the experts found full. -/
def Routing.walk (r : Routing) (n : Tbl Nat) :
    List ((Nat × Val × Bool) × Val) → List Admit → List Nat → List Admit × Tbl Nat × List Nat
  | [], acc, over_ => (acc, n, over_)
  | (c, w) :: rest, acc, over_ =>
    if acc.length = r.assign then (acc, n, over_)
    else
      let used := tget n c.1 0
      if used < r.total c.1 then
        let p := r.replica c.1 used
        r.walk (tput n c.1 (used + 1)) rest (acc ++ [{ e := c.1, q := p.1, row := p.2, w := w }]) over_
      else r.walk n rest acc (over_ ++ [c.1])

/-- The admission-list entry (Table 6.3). -/
def Admit.bytes (a : Admit) : List Byte := leBytes 2 (a.e + 1024 * a.q) ++ leBytes 2 a.row ++ leBytes 4 a.w.bits32

/-- The bytes of a token's row. -/
def Routing.row (r : Routing) (s : State) (t : Nat) : List Byte :=
  let w := fmtBits r.token.fmt
  packBytes w ((List.range (r.token.e 0)).map (fun j => bitsAt s (placeOf s r.token (at2 j t)).bit w))

/-- The reads of one row of a dense tensor. -/
def rowReads (s : State) (d : Desc) (t : Nat) : List (Nat × Nat) := rectReads s d 0 (d.e 0) t 1

/-- The run of a routing stroke. -/
def routeRun (s : State) (l i : Nat) : RouteRun := tget s.experts.run (l + 64 * i) {}
/-- The state with it replaced. -/
def setRun (s : State) (l i : Nat) (x : RouteRun) : State := { s with experts.run := tput s.experts.run (l + 64 * i) x }

/-- A count of an expert changed. -/
def bumpExpert (s : State) (e : Nat) (f : Expert → Expert) : State := setExpert s e (f (expert s e))

/-- Accesses of the expert router counted as moved bytes of the Folio, each at its own address: what it reads, sends and writes (R127; log
74). -/
def routerMoved (s : State) (x : Ctx) (rs : List (Nat × Nat)) : State :=
  rs.foldl (fun t r => if r.2 = 0 then t else folioEvent t x.p (3 + b2n x.back) r.2 (x.from 2 (some (r.1 % 2 ^ 48)))) s

/-- One admission: the row goes out at once (R145). -/
def sendRow (s : State) (x : Ctx) (r : Routing) (row : List Byte) (a : Admit) : State :=
  let h := r.at_share a.e a.q
  let at_ := h.loc + a.row * r.rowBytes
  let t := bumpExpert s a.e (fun x => { x with admitted := sat32 (x.admitted + 1) })
  sendTransfer (routerMoved t x [(at_, row.length)]) { strokeXfer x.l x.i with expert := some (a.e + 1024 * a.q) } (h.dev, h.win)
    (cutRun row.length at_ row) false

/-- The entries that a token leaves unused: EXPERT 0xFFFF; the rest of an unused entry is free. -/
def unusedEntries : Nat → State → List Byte × State
  | 0, s => ([], s)
  | n + 1, s =>
    let f := freshBytes 6 s
    let r := unusedEntries n f.2
    (leBytes 2 0xFFFF ++ f.1 ++ r.1, r.2)

/-- Token `t`, with memory `v` as the stroke reads it, is scored and admitted (R140 to R145). -/
def admitFrom (s v : State) (x : Ctx) (r : Routing) (t : Nat) (reads : List (Nat × Nat)) : State :=
  let sc := r.scores v t
  let cs := choose r.k sc
  let run := routeRun s x.l x.i
  let w := r.walk run.shares (cs.zip (weights (bit (rd r.b 1 1) 0) cs)) [] []
  let first := (cs.headD (0, Val.zero, false)).1
  let nans := (sc.filter (fun y => y.2.2)).length
  let ev := fun u code n => if n = 0 then u else folioEvent u x.p code n (x.from 2 none)
  let u := ev (routerMoved (noteReads s reads) x reads) 0x12 nans
  let u := w.2.2.foldl (fun u e => bumpExpert u e (fun y => { y with overflow := sat32 (y.overflow + 1) })) u
  let u := bumpExpert u first (fun y => { y with first := sat32 (y.first + 1) })
  let u := if w.1.isEmpty then bumpExpert u first (fun y => { y with dropped := sat32 (y.dropped + 1) })
    else if w.1.length < r.assign then ev u 0x13 1 else u
  let f := unusedEntries (r.assign - w.1.length) u
  let list := (rd r.b 40 8 + 8 * r.assign * t, w.1.flatMap Admit.bytes ++ f.1)
  let u := routerMoved (commit f.2 (some (x.l, x.i)) [list]) x [(list.1, list.2.length)]
  let u := setRun u x.l x.i { run with token := t + 1, shares := w.2.1 }
  let row := r.row v t
  let u := w.1.foldl (fun u a => if u.frame.aborted then u else sendRow u x r row a) u
  if t + 1 = r.tokens then doneRun u x.l x.i else u

/-- Token `t` is admitted once its rows are here; rows of other devices are asked for first (log 63). -/
def admitToken (s : State) (x : Ctx) (r : Routing) (t : Nat) : State :=
  let reads := rowReads s r.score t ++ rowReads s r.token t
  match readsBad s reads with
  | some l => lineErrorBy s (some (x.l, x.i)) l
  | none =>
    let g := gather s (strokeXfer x.l x.i) (fun _ => reads)
    match g.2 with
    | some f => admitFrom g.1 (withFar g.1 f) x r t reads
    | none => g.1

/-- Tokens admitted in order, while each is there and no fault stops them. -/
def admitUpTo (x : Ctx) (r : Routing) : Nat → State → State
  | 0, s => s
  | n + 1, s =>
    let u := admitUpTo x r n s
    if u.frame.aborted || (routeRun u x.l x.i).token ≠ n then u else admitToken u x r n

/-- The routing stroke in progress, with the record that it named as it issued: `opcode` is the command's. -/
def withRouting (s : State) (l i opcode : Nat) (f : State → Ctx → Routing → State) : State :=
  inAbortCycle s (fun t =>
    match ctxOf t l i 6 with
    | none => t
    | some x =>
      match x.run.dec with
      | .routing r => if rd r.b 0 1 = opcode then f t x r else t
      | _ => t)

/-- DISPATCH (R143): the tokens whose scores are in the Well, `rows` of them, are admitted. -/
def opDispatch (s : State) (l i rows : Nat) : State :=
  withRouting s l i 1 (fun s x r =>
    if s.experts.run.any (fun y => y.1 == l + 64 * i) then s
    else
      let t := setRun s l i { tokens := r.tokens, record := some r }
      if r.tokens = 0 then doneRun t l i else admitUpTo x r (min rows r.tokens) t)

/-- DISPATCH. -/
def execDispatch (l i rows : Nat) (s : State) : Host.Outcome State Fault Refusal :=
  whenAlive (.dispatch l i rows) s (opDispatch s l i rows)

/-- TOKEN_ADMIT (R145): the next token of a dispatch under way. -/
def opTokenAdmit (s : State) (l i token : Nat) : State :=
  withRouting s l i 1 (fun s x r =>
    let run := routeRun s l i
    if s.experts.run.any (fun y => y.1 == l + 64 * i) && run.token = token && decide (token < run.tokens) then
      admitToken s x r token
    else s)

/-- TOKEN_ADMIT. -/
def execTokenAdmit (l i token : Nat) (s : State) : Host.Outcome State Fault Refusal :=
  whenAlive (.tokenAdmit l i token) s (opTokenAdmit s l i token)

/-! ### Count cells (R145) -/

/-- The 64 bytes of a count cell (Table 6.5). -/
def countCell (step n share rowBytes : Nat) : List Byte :=
  leBytes 2 0x4353 ++ leBytes 1 1 ++ leBytes 1 1 ++ leBytes 4 step ++ leBytes 4 n ++ leBytes 20 0 ++ leBytes 4 share ++
  leBytes 4 rowBytes ++ leBytes 24 0

/-- The rows of the first `n` of an expert that lie in replica `q`. -/
def Routing.rowsIn (r : Routing) (e q n : Nat) : Nat :=
  min (r.at_share e q).share (n - ((List.range q).map (fun j => (r.at_share e j).share)).sum)

/-- COUNT_CELL_SEND (R145): after the last admission, once every row write to the share ranges is acknowledged. -/
def opCountCell (s : State) (l i e : Nat) : State :=
  let run := routeRun s l i
  let mine := fun (x : Transfer) => x.folio == some l && x.idx == i && (match x.expert with | some y => y % 1024 == e | none => false)
  if !s.frame.region || s.frame.aborted || !s.experts.run.any (fun y => y.1 == l + 64 * i) || run.token < run.tokens ||
      run.sent.contains e || s.fab.xfers.any (fun x => mine x && !x.acked) then s
  else
    match run.record with
    | none => s
    | some r =>
      if r.experts ≤ e then s
      else
        let n := tget run.shares e 0
        let t := setRun s l i { run with sent := insertNat e run.sent }
        (List.range r.reps).foldl (fun u q =>
          let h := r.at_share e q
          if h.share = 0 then u
          else sendTransfer u { tag := 0, dst := 0 } (h.dev, h.win)
            [(h.loc + h.share * r.rowBytes, countCell s.job.step (r.rowsIn e q n) h.share r.rowBytes)] false) t

/-- COUNT_CELL_SEND. -/
def execCountCellSend (l i e : Nat) (s : State) : Host.Outcome State Fault Refusal :=
  whenAlive (.countCellSend l i e) s (opCountCell s l i e)

/-! ### Combination (R148) -/

/-- The admissions of a token as the list holds them, by ascending expert. -/
def Routing.entries (r : Routing) (s : State) (t : Nat) : List Admit :=
  let es := (List.range r.assign).filterMap (fun a =>
    let b := peek s (rd r.b 40 8 + 8 * (r.assign * t + a)) 8
    if rd b 0 2 = 0xFFFF then none
    else some ({ e := rd b 0 2 % 1024, q := fld (rd b 0 2) 10 2, row := rd b 2 2, w := of32 (rd b 4 4) } : Admit))
  es.mergeSort (fun a b => decide (a.e ≤ b.e))

/-- The address of an admission's row in its return range. -/
def Routing.retAt (r : Routing) (a : Admit) : Nat :=
  rd r.b 48 8 + (r.at_share a.e a.q).ret + a.row * r.rowBytes

/-- Element `j` of a token's combined row. -/
def Routing.sum (r : Routing) (s : State) (es : List Admit) (j : Nat) : Val :=
  let w := fmtBits r.token.fmt
  es.foldl (fun acc a => addIeee acc (mulIeee (decE r.token.fmt (bitsAt s (8 * r.retAt a + j * w : Nat) w)) a.w)) Val.zero

/-- COMBINE (R148). NONFINITE_OUT counts at Quill 0 of the Folio (log 36). -/
def runCombine (s : State) (x : Ctx) (r : Routing) : State :=
  let toks := List.range r.tokens
  let reads := toks.flatMap (fun t => (rd r.b 40 8 + 8 * r.assign * t, 8 * r.assign) ::
    (r.entries s t).map (fun a => (r.retAt a, r.rowBytes)))
  match readsBad s reads with
  | some l => lineErrorBy s (some (x.l, x.i)) l
  | none =>
    let w := fmtBits r.token.fmt
    let outs := toks.flatMap (fun t =>
      let es := r.entries s t
      (List.range (r.token.e 0)).map (fun j =>
        ((placeOf s r.token (at2 j t)).bit, encE r.token.fmt (r.sum s es j) rneNat)))
    let buf := outs.foldl (fun b o => putBits s b o.1 w o.2.1) ([] : Buf)
    let nf := (outs.filter (fun o => (decE r.token.fmt o.2.1).nf)).length
    let runs := runsOf buf
    let u := routerMoved (commitAll (noteReads s reads) (strokeXfer x.l x.i) runs) x (reads ++ runs.map (fun w => (w.1, w.2.length)))
    let u := if nf = 0 then u else quillEvent u x.p 0 0x06 nf (x.from 3 none)
    doneRun (noteNonfinite u nf) x.l x.i

/-- COMBINE. -/
def execCombine (l i : Nat) (s : State) : Host.Outcome State Fault Refusal :=
  whenAlive (.combine l i) s (withRouting s l i 2 runCombine)

/-! ### Landing (R146, R184, R195) -/

/-- A write that lands as a shape cell with LAND set: one aligned unit of 64 bytes in the aperture that R430 accepts. R146 does
not say how the receiver knows a cell; a malformed one lands as plain data (DESIGN CHOICE, log 71). -/
def landsCell (pkt : Packet) : Bool :=
  pkt.payload.length == 64 && pkt.addr % 64 == 0 && decide (apBase ≤ pkt.addr) && decide (pkt.addr < apEnd) &&
  !cellBad pkt.payload && bit (rd pkt.payload 3 1) 0

/-- Slots set FULL by what lands; an aborted frame changes no tag after the abort (R184). -/
def fillSlots (s : State) (slots : List Nat) : State := if s.frame.live && s.frame.aborted then s else slots.foldl (setTag (tagOrigin none)) s

/-- What the landing of a cell does (R146): zero rows, then FULL on every slot of the range; or SHAPE_LIMIT (R154). A range
that would begin below the aperture begins with it (log 37). -/
def landCell (s : State) (p a : Nat) (b : List Byte) : State :=
  let n := rd b 8 4
  let rows := rd b 32 4
  let size := rd b 36 4
  if rows < n then
    abortWith s { code := 5, valid := 0x20, addr := a, detail := shapeDetail 0 n rows, src := 5, key := p,
                  die := if p < 48 then 4 else 5 } false
  else
    let from_ := fun k => max apBase (a - k * size)
    let lo := from_ (rows - n)
    let t := commit s none [(lo, List.replicate (a - lo) 0)]
    let base := from_ rows
    fillSlots t (slotsOf base (a + 64 - base))

/-- A WRITE that has passed the checks: its bytes, SLOT_FILL, a landing cell, and its answer (R195, R258). -/
def landWrite (p : Nat) (pkt : Packet) (s : State) : State :=
  let t := landBytes s pkt
  let t := if pkt.slotFill then fillSlots t ((pieces s pkt).flatMap (fun x => slotsOf x.1 x.2)) else t
  let t := if landsCell pkt then landCell t p pkt.addr pkt.payload else t
  acknowledge t p pkt

/-- INBOUND_WRITE. -/
def execInboundWrite (p : Nat) (pkt : Packet) (s : State) : Host.Outcome State Fault Refusal :=
  whenAlive (.inboundWrite p pkt) s (inbound s p pkt 1 (landWrite p pkt))

/-- The address of the `i`-th FP32 element that a REDUCE_WRITE adds to; a RING window wraps (R268). -/
def reduceAt (s : State) (pkt : Packet) (i : Nat) : Nat :=
  let w := window s pkt.window
  let a := pkt.addr + 4 * i
  if w.flags.testBit 3 then w.base + (a - w.base) % max 1 w.length else a

/-- A REDUCE_WRITE that has passed the checks (R260): the elements in turn, each widened and added to the FP32 element at its address.
Lines that hold an error stay unwritten (R195). -/
def landReduce (p : Nat) (pkt : Packet) (s : State) : State :=
  let w := fmtBits pkt.elemFmt / 8
  if !(pkt.elemFmt == 8 || pkt.elemFmt == 10) || pkt.addr % 4 ≠ 0 then respond s p pkt 0x11 []
  else
    let es := (List.range (pkt.payload.length / w)).map (fun i =>
      (reduceAt s pkt i, decE pkt.elemFmt (rd pkt.payload (w * i) w)))
    let bad := ((es.filterMap (fun e => badLine s e.1 4)).eraseDups)
    let good := es.filter (fun e => (badLine s e.1 4).isNone)
    let buf := good.foldl (fun (b : Buf) e =>
      let old := leNat ((List.range 4).map (fun k => tget b (e.1 + k) (memByte s.mem (e.1 + k))))
      putBytes b e.1 (leBytes 4 ((add32 (of32 old) e.2).1.bits32))) []
    let t := noteReads s ((runsOf buf).map (fun r => (r.1, r.2.length)))
    acknowledge (bad.foldl lineError (commit t none (runsOf buf))) p pkt

/-- INBOUND_REDUCE_WRITE. -/
def execInboundReduceWrite (p : Nat) (pkt : Packet) (s : State) : Host.Outcome State Fault Refusal :=
  whenAlive (.inboundReduceWrite p pkt) s (inbound s p pkt 3 (landReduce p pkt))

end Sys2Proof.Machine
end

