-- ==== Sys2Proof/Machine/Update.lean ====
section
/-! DEFINITION. Live update (R321 to R327), the security mailbox (R315 to R318) and attestation (R317). -/

namespace Sys2Proof.Machine

open Sys2Proof

/-! ### Staging and activation -/

/-- CORE `c` is among those that an activation changes. -/
def Activation.changes (a : Activation) (c : Nat) : Bool := a.core == c || a.all

/-- An activation of CORE `c` is pending or in progress, or held behind another (R321, R322). -/
def activating (s : State) (c : Nat) : Bool :=
  (match s.act with | some a => a.changes c | none => false) || s.actQueue.any (fun x => x.2.changes c)

/-- An activation is pending: accepted, and not yet armed (R317, R322). -/
def actPending (s : State) : Bool := (match s.act with | some a => a.stage == 1 | none => false) || !s.actQueue.isEmpty

/-- UPDATE_STAGE taken (R321). -/
def opStage (s : State) (h : Hdr) (src bytes : Nat) : State :=
  let img := hostPeek s src bytes
  match checkImage s img bytes false with
  | some id => complete s h 0x11 (checkData id)
  | none =>
    if activating s (imgCore img) then complete s h 0x19 0
    else complete { s with boot.staged := tput s.boot.staged (imgCore img) img } h 0 0

/-- The staged image of CORE `c`. -/
def stagedImage (s : State) (c : Nat) : Image := (imageOf s.boot.staged c).getD []

/-- The running image of a core other than the cluster cores. -/
def runningImage (s : State) (c : Nat) : Image := (imageOf s.boot.running c).getD []

/-- The image that an activation brings to CORE `c`. -/
def Activation.image (a : Activation) (c : Nat) : Image := (imageOf a.imgs c).getD []

/-- The spare of the die of Folio `n` is in state SPARE. -/
def spareReady (s : State) (n : Nat) : Bool :=
  (List.range 17).any (fun k => (folio s (17 * (n / 17) + k)).state == 1)

/-- The ACTIVE Folios that an activation targets. -/
def activeTargets (s : State) (f : Nat) : List Nat :=
  ((List.range 68).filter (fun n => (folio s n).state = 0)).filter (fun n => f = 0xFF || n = f)

/-- The activation of CORE `c` changes the bundle major. -/
def majorDiffers (s : State) (c : Nat) : Bool := imgMajor (stagedImage s c) != imgMajor (runningImage s c)

/-- R327 allows the change of the bundle major. -/
def majorChange (s : State) (c : Nat) : Bool :=
  let m := imgMajor (stagedImage s c)
  s.glob.jobState == 2 && (List.range 4).all (fun k => match imageOf s.boot.staged k with | some i => imgMajor i == m | none => false)

/-- The agreement word that would result agrees (R322, condition 3). -/
def wouldAgree (s : State) (c f : Nat) (all : Bool) : Bool :=
  let sc := if c = 2 || all then stagedImage s 2 else runningImage s 2
  let cl := (liveFolios s).map (fun n => if all || (c = 3 && (f = 0xFF || n = f)) then stagedImage s 3 else clusterImage s n)
  agreesWith (wordOf sc cl) (sc :: cl)

/-- The activation of CORE `c` goes to all four cores (R327). -/
def goesToAll (s : State) (c : Nat) : Bool := majorDiffers s c && majorChange s c

/-- The cores whose images an activation of CORE `c` would change. -/
def changedCores (s : State) (c : Nat) : List Nat := if goesToAll s c then List.range 4 else [c]

/-- The first condition of R322 that fails, as status and DATA; an activation of R327 is held to it for all four cores. -/
def activateBad (s : State) (c f : Nat) : Option (Nat × Nat) :=
  let f := if goesToAll s c then 0xFF else f
  if (imageOf s.boot.staged c).isNone then some (0x11, 0)
  else if (changedCores s c).any (fun k => decide (imgSvn (stagedImage s k) < (s.boot.floors[k]?).getD 0)) then some (0x11, checkData 7)
  else if !wouldAgree s c f (majorDiffers s c) then some (0x13, 0)
  else if majorDiffers s c && !majorChange s c then some (0x13, 0)
  else if (changedCores s c).contains 3 && !(activeTargets s f).all (spareReady s) then some (0x15, 1) else none

/-- The activation that UPDATE_ACTIVATE asks for, pending. -/
def activationFor (s : State) (c f : Nat) : Activation :=
  if majorDiffers s c then { core := 0, folio := 0xFF, stage := 1, all := true, imgs := s.boot.staged }
  else { core := c, folio := f, stage := 1, target := if c = 3 then f else 0, rolling := c == 3 && f == 0xFF, imgs := s.boot.staged }

/-- A cluster image on Folio `n`; the one image of the store once every Folio runs it (R306, R326). -/
def giveImage (i : Image) (s : State) (n : Nat) : State :=
  let u := setFolio s n { folio s n with image := some i }
  if (List.range 68).all (fun k => clusterImage u k == i) then
    { u with boot.running := tput u.boot.running 3 i, folios.phys := u.folios.phys.map (fun x => (x.1, { x.2 with image := none })) }
  else u

/-- A session's restriction judged afresh (R327). -/
def rejudge (s : State) : State :=
  if s.job.session = 0 then s else { s with job.restricted := restrictedFor s s.job.driver }

/-- The agreement word formed afresh after an activation of a scheduler or cluster image (R320). -/
def reform (s : State) : State := rejudge (formAgreement s)

/-- The activation ends with a status: its descriptor completes. -/
def endAct (s : State) (status data : Nat) : State :=
  let t := { s with act := none, actHdr := none }
  match s.actHdr with | some h => complete t h status data | none => t

/-- The staged image of CORE `c` is no longer staged. -/
def unstage (s : State) (c : Nat) : State := { s with boot.staged := tdel s.boot.staged c }

/-- DATA of a rolling update that stops at Folio `n` (R326). -/
def stopData (a : Activation) (n : Nat) : Nat := n * 2 ^ 8 + a.updated * 2 ^ 16

/-- A rolling update goes on to the ACTIVE Folio after `n`, or ends (R326). -/
def rollOn (s : State) (a : Activation) (n : Nat) : State :=
  match (activeTargets s 0xFF).find? (fun k => decide (n < k)) with
  | some k => { s with act := some { a with target := k, stage := 1 } }
  | none => endAct (unstage s 3) 0 0

/-- Step 7 of Table 12.11: the old bank is released (R324, R326, R327). -/
def finishAct (s : State) (a : Activation) : State :=
  if a.all then
    if a.core < 3 then { s with act := some { a with core := a.core + 1, stage := 1 } }
    else
      endAct (reform { s with
        boot.running := a.imgs, boot.staged := []
        folios.phys := s.folios.phys.map (fun x => (x.1, { x.2 with image := none })) }) 0 0
  else if a.core < 3 then
    let t := unstage { s with boot.running := tput s.boot.running a.core (a.image a.core) } a.core
    endAct (if a.core = 2 then reform t else t) 0 0
  else
    let t := reform (giveImage (a.image 3) s a.target)
    if a.rolling then rollOn t { a with updated := a.updated + 1 } a.target else endAct (unstage t 3) 0 0

/-- A rollback, a takeover or a test is in progress (R323). -/
def updateBlocked (s : State) : Bool :=
  s.train.waiting.isSome || s.train.restart.isSome || s.train.restoring || s.scan.running.isSome ||
  !s.folios.waiting.isEmpty || !s.folios.remaps.isEmpty

/-- An activation of a cluster core whose Folio is no longer ACTIVE: it holds no state, and the image is marked on it (R326). -/
def passIdle (s : State) (a : Activation) : State :=
  let t := reform (giveImage (a.image 3) s a.target)
  if a.rolling then rollOn t a a.target else endAct (unstage t 3) 0 0

/-- The arming of a pending activation (R323, R326). -/
def armAct (s : State) (a : Activation) : State :=
  if 2 ≤ s.power.level then { s with act := some { a with deferred := true } }
  else if updateBlocked s then s
  else if a.core = 3 && !a.all && (folio s a.target).state ≠ 0 then passIdle s a
  else if a.rolling && !spareReady s a.target then endAct (reform s) 0x15 (stopData a a.target)
  else { s with act := some { a with stage := 2 } }

/-- What the Ductus-switch phase does to an activation, or any moment while no frame runs (R323, R324). -/
def seamAct (s : State) : State :=
  match s.act with
  | none => s
  | some a =>
    if a.stage = 1 then armAct s a
    else if a.stage = 3 then { s with act := some { a with stage := 4, frame := currentFrame s } }
    else if a.stage = 5 then finishAct s a else s

/-- A rolling update marks the new image on every Folio that is not ACTIVE, and begins with the lowest ACTIVE one (R326). -/
def beginRolling (s : State) (a : Activation) : State :=
  let idle := (List.range 68).filter (fun n => (folio s n).state ≠ 0)
  let t := idle.foldl (giveImage (a.image 3)) s
  match (activeTargets s 0xFF).head? with
  | none => endAct (reform (unstage t 3)) 0 0
  | some n => { t with act := some { a with target := n } }

/-- The activation that waits first begins, where none is under way (R322). -/
def nextAct (s : State) : State :=
  match s.act, s.actQueue with
  | none, (h, a) :: rest =>
    let t := { s with act := some a, actHdr := some h, actQueue := rest }
    if a.rolling then beginRolling t a else t
  | _, _ => s

/-- Steps that wait for a seam take place at once while no frame runs (R324). -/
def settleAct (s : State) : State :=
  if s.frame.live then nextAct s
  else (List.range (4 * (s.actQueue.length + 4))).foldl (fun t _ => seamAct (nextAct t)) s

/-- UPDATE_ACTIVATE taken: checked when it is received, then held behind those before it (R322). -/
def opActivate (s : State) (h : Hdr) (c f : Nat) : State :=
  match activateBad s c f with
  | some (st, d) => complete s h st d
  | none =>
    let t := { s with actQueue := s.actQueue ++ [(h, activationFor s c f)] }
    if s.act.isSome then t else settleAct t

/-- FOLIO of the handoff blocks (Table 12.12): an activation of all Folios at once has one for each ACTIVE Folio (R327). -/
def Activation.folios (a : Activation) (s : State) : List Nat :=
  if a.core ≠ 3 then [0xFF] else if a.all then activeTargets s 0xFF else [a.target]

/-- The handoff block of FOLIO `n` (Table 12.12). -/
def handoffBlock (s : State) (a : Activation) (payload : List Byte) (n : Nat) : List Byte :=
  let old := if a.core = 3 then clusterImage s n else runningImage s a.core
  let hd := leBytes 4 0x464F4448 ++ leBytes 2 (imgF old 28 2) ++ leBytes 1 a.core ++
    leBytes 1 n ++ leBytes 4 (imgSvn old) ++ leBytes 4 (imgF old 16 4) ++
    leBytes 8 (currentFrame s) ++ leBytes 4 (if jobExists s then s.job.step else 0) ++ leBytes 4 payload.length ++
    leBytes 8 s.glob.agreement ++ leBytes 56 0
  hd ++ sm3 (hd ++ payload) ++ payload

/-- HANDOFF_SEAL (R324): an armed activation is sealed; an emergency that began before the seal returns it to pending. -/
def opSeal (s : State) (payload : List Byte) : State :=
  match s.act with
  | none => s
  | some a =>
    if a.stage ≠ 2 then s
    else if 2 ≤ s.power.level then deferAct s
    else
      let bs := (a.folios s).map (fun n => (n, handoffBlock s a payload n))
      settleAct { s with act := some { a with stage := 3, blocks := bs } }

/-- HANDOFF_SEAL. -/
def execHandoffSeal (payload : List Byte) (s : State) : Host.Outcome State Fault Refusal :=
  whenAlive (.handoffSeal payload) s (opSeal s payload)

/-- A descriptor that waited for the security core is served (R324). -/
def serveHeld (s : State) (x : Held) : State :=
  match x.op with
  | .stage src bytes => opStage s x.hdr src bytes
  | .activate c f => opActivate s x.hdr c f
  | _ => s

/-- A descriptor that waits for the security core. -/
def HeldOp.ofSecurity : HeldOp → Bool
  | .stage _ _ | .activate _ _ => true
  | _ => false

/-- The core serves what waited for it, in fetch order (R324). -/
def servedBy (s : State) (a : Activation) : State :=
  if a.core = 1 then serveVotes s
  else if a.core = 0 then
    let x := takeHeld s HeldOp.ofSecurity
    x.1.foldl serveHeld x.2
  else s

/-- A rejected handoff (R324, R326, R327): hardware switches back, and the old image serves what waited. -/
def rejectAct (s : State) (a : Activation) (reason : Nat) : State :=
  let t := endAct (if a.rolling then reform s else s) 0x13 (if a.rolling then reason + stopData a a.target else reason)
  settleAct (servedBy t a)

/-- The reason for which the new image refuses the block of FOLIO `n` (Table 12.13), if any. -/
def blockRefused (a : Activation) (n : Nat) (b : List Byte) : Option Nat :=
  let i := a.image a.core
  let v := rd b 4 2
  if rd b 0 4 ≠ 0x464F4448 || rd b 6 1 ≠ a.core || rd b 7 1 ≠ n || rd b 16 6 ≠ a.frame then some 1
  else if v < imgF i 30 2 || imgF i 32 2 < v then some 2
  else if slice b 96 32 ≠ sm3 (b.take 96 ++ b.drop 128) then some 3 else none

/-- The reason of the first block that is refused. -/
def handoffBad (a : Activation) : Option Nat := a.blocks.findSome? (fun x => blockRefused a x.1 x.2)

/-- HANDOFF_ACCEPT. -/
def opAccept (s : State) : State :=
  match s.act with
  | none => s
  | some a =>
    if a.stage ≠ 4 then s
    else match handoffBad a with
      | some r => rejectAct s a r
      | none => settleAct (servedBy { s with act := some { a with stage := 5 } } a)

/-- HANDOFF_ACCEPT. -/
def execHandoffAccept (s : State) : Host.Outcome State Fault Refusal := whenAlive .handoffAccept s (opAccept s)

/-- HANDOFF_REJECT. -/
def opReject (s : State) (reason : Nat) : State :=
  match s.act with
  | none => s
  | some a => if a.stage = 4 then rejectAct s a reason else s

/-- HANDOFF_REJECT. -/
def execHandoffReject (reason : Nat) (s : State) : Host.Outcome State Fault Refusal :=
  whenAlive (.handoffReject reason) s (opReject s reason)

/-- The record of a watchdog expiry (R304). -/
def watchdogRec (kind fol sev : Nat) (window : Bool) : FaultRec :=
  { code := 0x10, sev := sev, die := if kind = 3 then fol / 17 else 4, folio := if kind = 3 then fol else 0,
    valid := if kind = 3 then 2 else 0, detail := kind + 16 * (if kind = 3 then fol else 0) + (if window then 2 ^ 11 else 0),
    src := if kind = 3 then 1 else 6, key := if kind = 3 then fol else 0 }

/-- No ACCEPT in time, or the new image's watchdog, on physical Folio `n` for a cluster core. -/
def opTimeout (s : State) (wd : Bool) (n : Nat) : State :=
  match s.act with
  | none => s
  | some a =>
    if a.stage ≠ 4 then s
    else rejectAct (if wd then raiseFault s (watchdogRec a.core n 1 true) else s) a (if wd then 6 else 5)

/-- HANDOFF_TIMEOUT. -/
def execHandoffTimeout (wd : Bool) (s : State) : Host.Outcome State Fault Refusal :=
  whenAlive (.handoffTimeout wd) s (opTimeout s wd (match s.act with | some a => a.target | none => 0))

/-- The activation that runs on a core has this stage. -/
def actStage (s : State) (k core n : Nat) : Bool :=
  match s.act with | some a => a.stage == k && a.core == core && (core ≠ 3 || a.all || a.target == n) | none => false

/-- The activation whose validation window is open on a core (R304, R324). -/
def inValidation (s : State) (core n : Nat) : Bool := actStage s 4 core n

/-- The image of a core has sealed its block and halted: its watchdog is suspended (R324, step 3). -/
def watchSuspended (s : State) (core n : Nat) : Bool := actStage s 3 core n

/-- ACTIVATION_DEFER_RETEST (R323). -/
def execActivationDeferRetest (s : State) : Host.Outcome State Fault Refusal :=
  whenAlive .activationDeferRetest s
    (if s.frame.live then s else settleAct s)

/-- ACTIVATION_EXPIRE (R323): the image stays staged. -/
def execActivationExpire (s : State) : Host.Outcome State Fault Refusal :=
  whenAlive .activationExpire s
    (match s.act with
      | some a => if a.stage = 1 && a.deferred then settleAct (endAct (if a.rolling then reform s else s) 0x17 0) else s
      | none => s)

/-! ### Attestation (R317) -/

/-- The straps as sampled (R317). -/
def strapBytes (s : State) : List Byte := leBytes 1 s.pins.bootSrc ++ leBytes 1 s.pins.flashMode ++ leBytes 1 s.pins.i3cAddr

/-- The half of an area that is measured: the one in use, or, where none passes its check, the first that is there (log 30). -/
def storedHalf {α : Type} (stored : α → List Byte) (p : Halves α) : Option (Half α) :=
  match bestHalf stored p with | some h => some h | none => (match p.1 with | some h => some h | none => p.2)

/-- The bytes that measure a flash record, as they are stored; none where it is missing. -/
def recordBytes (s : State) (id : Nat) : Option (List Byte) :=
  let f := s.flash
  if id = 0x10 then some (strapBytes s)
  else if !hasArea f id then none
  else match id with
    | 0x11 => f.board
    | 0x12 => f.bin.map (fun b => Config.recordBytes 0x12 [b.code] ++ b.sig)
    | 0x13 => (storedHalf repairBytes f.repair).map (fun h => repairBytes h.val ++ h.mac)
    | 0x14 => (storedHalf ownerBytes f.owner).map (fun h => ownerBytes h.val ++ h.mac)
    | 0x15 => (storedHalf floorBytes f.floor).map (fun h => floorBytes h.val ++ h.mac)
    | 0x16 => f.cert.map (fun c => c.der)
    | _ => f.scan

/-- A measurement entry (Table 12.10) of an image. -/
def imageEntry (kind core folios : Nat) (i : Image) : List Byte :=
  leBytes 1 kind ++ leBytes 1 core ++ leBytes 2 0 ++ leBytes 4 (imgSvn i) ++ leBytes 2 (imgMajor i) ++
  leBytes 2 (imgMinor i) ++ leBytes 4 (imgF i 16 4) ++ leBytes 9 folios ++ leBytes 7 0 ++ sm3 i

/-- The Folios that run a cluster image, as a mask: a SPARE or QUARANTINED Folio is powered down and a Folio under test isolated
(Table 1.6), and one of them only has the image marked on it that it will start with (R326). -/
def runningOn (s : State) (i : Image) : Nat :=
  ((List.range 68).filter (fun n => decide ((folio s n).state = 0) && ((folio s n).started || decide (s.boot.phase = 6)) &&
    clusterImage s n == i)).foldl (fun a n => a + 2 ^ n) 0

/-- The cluster images that run: that of the store, then those that an activation has brought to some Folios (R306, R326). -/
def clusterImages (s : State) : List Image :=
  ((imageOf s.boot.running 3).toList ++ (List.range 68).filterMap (fun n => (folio s n).image)).eraseDups

/-- The measurement entries in the order of Table 12.9. -/
def entriesOf (s : State) : List (List Byte) :=
  ((s.boot.running.filter (fun x => decide (x.1 < 3))).map (fun x => imageEntry 1 x.1 0 x.2)) ++
  ((clusterImages s).map (fun i => imageEntry 1 3 (runningOn s i) i)) ++
  (s.boot.staged.map (fun x => imageEntry 2 x.1 0 x.2)) ++
  ((List.range 8).map (fun k =>
    leBytes 1 3 ++ leBytes 1 (0x10 + k) ++ leBytes 30 0 ++ sm3 ((recordBytes s (0x10 + k)).getD [])))

/-- The report before its signature (Table 12.9). -/
def reportBody (s : State) (nonce : List Byte) : List Byte :=
  let es := entriesOf s
  leBytes 4 0x50455241 ++ leBytes 2 1 ++ leBytes 2 es.length ++ leBytes 3 s.glob.deviceId ++ leBytes 1 s.glob.jobState ++
  leBytes 4 (b2n s.glob.certMatch + 2 * b2n (s.boot.ownerKey ≠ []) + 4 * b2n s.boot.rootAllowed +
    8 * b2n s.glob.floorRebuilt + 16 * b2n (actPending s)) ++ ptpBytes s.time.now ++ leBytes 6 0 ++ nonce ++
  sm3 (certDer s.flash) ++ s.boot.floors.flatMap (leBytes 4) ++ leBytes 8 s.glob.agreement ++ leBytes 136 0 ++ es.flatten

/-! ### The mailbox (R315) -/

/-- A mailbox command done, with its result code; any command but CHALLENGE consumes the challenge. -/
def mbDone (s : State) (code : Nat) : State :=
  { s with mb.status := 2, mb.result := code, mb.challenge := none, mb.cmd := 0 }

/-- A write of SECMB_CMD (R315, R410): the command is BUSY until the security core has run it; one written while another runs is
ignored and counted. An unknown code is done at once. -/
def mbStart (s : State) (code : Nat) (bad : State) : State :=
  if s.mb.status = 1 then { s with mb.ignored := sat32 (s.mb.ignored + 1) }
  else if 1 ≤ code && code ≤ 5 then { s with mb.status := 1, mb.cmd := code, mb.runBuf := s.mb.buf } else bad

/-- The security core runs a command: the one that SECMB_CMD started, whose request lies in the buffer that SECMB_BUF named then, or one
that starts with it. It is ignored and counted while another runs. -/
def mbRun (s : State) (code : Nat) (req : List Byte) (f : State → List Byte → State) : State :=
  if s.mb.status = 1 then
    (if s.mb.cmd = code then f s (hostPeek s s.mb.runBuf 4096) else { s with mb.ignored := sat32 (s.mb.ignored + 1) })
  else f { s with mb.runBuf := s.mb.buf } req

/-- Commands are refused with BUSY before the security image runs and in the validation window of its activation. -/
def mbRefused (s : State) : Bool :=
  decide (s.boot.phase < 2) || (match s.act with | some a => a.core == 0 && a.stage == 4 | none => false)

/-- A result written to the buffer from offset 64. -/
def mbResult (s : State) (b : List Byte) : State := hostSend s (s.mb.runBuf + 64) b

/-- A command that needs the session's tag and state CLAIMED. -/
def mbOwned (s : State) (req : List Byte) (run : State) : State :=
  if mbRefused s then mbDone s 0x19
  else if rd req 0 8 ≠ s.job.session then mbDone s 0x12
  else if s.glob.jobState ≠ 2 then mbDone s 0x19 else run

/-- ATTEST (R317), signed with the device key. -/
def opAttest (s : State) (req : List Byte) : State :=
  if mbRefused s then mbDone s 0x19
  else if !zeros req 8 24 then mbDone s 0x11
  else
    let b := reportBody s (slice req 32 32)
    let r := freshNat s
    mbDone (mbResult r.2 (b ++ sm2Sign s.boot.devKey (1 + r.1 % (sm2N - 1)) b)) 0

/-- ATTEST. -/
def execAttest (req : List Byte) (s : State) : Host.Outcome State Fault Refusal :=
  whenAlive (.attest req) s (mbRun s 1 req opAttest)

/-- CHALLENGE: 32 random bytes, valid for the next command only. -/
def opChallenge (s : State) (req : List Byte) : State :=
  if mbRefused s then mbDone s 0x19
  else if !zeros req 8 56 then mbDone s 0x11
  else
    let r := freshBytes 32 s
    { mbDone (mbResult r.2 r.1) 0 with mb.challenge := some r.1 }

/-- CHALLENGE. -/
def execChallenge (req : List Byte) (s : State) : Host.Outcome State Fault Refusal :=
  whenAlive (.challenge req) s (mbRun s 2 req opChallenge)

/-- RAISE_FLOOR (R318). -/
def opRaiseFloor (s : State) (req : List Byte) : State :=
  mbOwned s req
    (if 16 ≤ rd req 8 1 || !zeros req 9 55 then mbDone s 0x11
     else if s.act.isSome || actPending s then mbDone s 0x19
     else
       let fl := (List.range 4).map (fun c =>
         let old := (s.boot.floors[c]?).getD 0
         if (rd req 8 1).testBit c then max old (imgSvn ((imageOf s.boot.running c).getD [])) else old)
       mbDone { s with boot.floors := fl, flash.floor := writeHalf floorBytes s.flash.floor fl } 0)

/-- RAISE_FLOOR. -/
def execRaiseFloor (req : List Byte) (s : State) : Host.Outcome State Fault Refusal :=
  whenAlive (.raiseFloor req) s (mbRun s 3 req opRaiseFloor)

/-- The owner key and ROOT_ALLOWED set, in the OWNER record too (R316). A key of all zeros is none. -/
def setOwner (s : State) (key : List Byte) (root : Bool) : State :=
  let k := if key.all (fun b => b == 0) then [] else key
  { s with boot.ownerKey := k, boot.rootAllowed := root, flash.owner := writeHalf ownerBytes s.flash.owner ⟨k, root⟩ }

/-- ENROLL_OWNER (R316): only when no owner key is enrolled. -/
def opEnroll (s : State) (req : List Byte) : State :=
  mbOwned s req
    (if 2 ≤ rd req 8 1 || !zeros req 9 55 then mbDone s 0x11
     else if s.boot.ownerKey ≠ [] then mbDone s 0x19
     else mbDone (setOwner s (slice req 64 64) (rd req 8 1 = 1)) 0)

/-- ENROLL_OWNER. -/
def execEnrollOwner (req : List Byte) (s : State) : Host.Outcome State Fault Refusal :=
  whenAlive (.enrollOwner req) s (mbRun s 4 req opEnroll)

/-- What the owner signs for REPLACE_OWNER (Table 12.8). -/
def replaceMessage (s : State) (ch req : List Byte) : List Byte :=
  leBytes 1 5 ++ leBytes 3 s.glob.deviceId ++ ch ++ leBytes 1 (rd req 8 1) ++ slice req 64 64

/-- REPLACE_OWNER (R316). -/
def opReplace (s : State) (req : List Byte) : State :=
  mbOwned s req
    (match s.mb.challenge with
      | none => mbDone s 0x11
      | some ch =>
        if 2 ≤ rd req 8 1 || !zeros req 9 55 || s.boot.ownerKey = [] ||
            !sm2Verify s.boot.ownerKey (replaceMessage s ch req) (slice req 128 64) then mbDone s 0x11
        else mbDone (setOwner s (slice req 64 64) (rd req 8 1 = 1)) 0)

/-- REPLACE_OWNER. -/
def execReplaceOwner (req : List Byte) (s : State) : Host.Outcome State Fault Refusal :=
  whenAlive (.replaceOwner req) s (mbRun s 5 req opReplace)

end Sys2Proof.Machine
end

