-- ==== Sys2Proof/Machine/Load.lean ====
section
/-! DEFINITION. The checks that every descriptor takes (R287, R288, R292 to R294), and LOAD_DUCTUS with the load check of R42,
R48, R183 and R425 to R428. -/

namespace Sys2Proof.Machine

open Sys2Proof

/-! ### Descriptors (R287, R288) -/

/-- The offset of the first header field that breaks Table 11.4. -/
def headBad (h : Hdr) : Option Nat := if 4 ≤ h.flags then some 1 else if 4 ≤ h.cq then some 2 else none

/-- The lowest of several offsets of offending bytes. -/
def firstOf (l : List (Option Nat)) : Option Nat :=
  l.foldl (fun a b => match a, b with | some x, some y => some (min x y) | some x, none => some x | none, y => y) none

/-- The first non-zero byte of bits [63:48] of an 8-byte field at `off`, where those bits are reserved (R287). -/
def hiAt (off v : Nat) : Option Nat := if fld v 48 8 ≠ 0 then some (off + 6) else if fld v 56 8 ≠ 0 then some (off + 7) else none

/-- The same for a ring-host address: reserved while the fabric hosts the rings (R287). -/
def hostHi (s : State) (off a : Nat) : Option Nat := if s.rings.host = 1 then hiAt off a else none

/-- A field at `off` that lies outside its encodings. -/
def badIf (c : Bool) (off : Nat) : Option Nat := if c then some off else none

/-- The states of Table 11.5 that "CLAIMED onward" names. -/
def onward : List Nat := [2, 3, 4, 5]

/-- A descriptor other than CLAIM and LOAD_IMAGE: header, BOOT, owner, restriction, state, reserved fields, in this order
(log 43). While the link is degraded no descriptor is accepted (R12, R280): it stays in its ring, as it does while the scheduler core
does not serve it (R304, R324). -/
def gate (s : State) (h : Hdr) (restrictedOk : Bool) (states : List Nat) (bad : Option Nat) (run : State) : State :=
  if degraded s || schedAway s then s
  else match headBad h with
  | some o => complete s h 0x11 o
  | none =>
    if s.glob.jobState = 0 then complete s h 0x19 0
    else if s.job.session ≠ 0 && h.owner ≠ s.job.session then complete s h 0x12 0
    else if s.job.restricted && !restrictedOk then complete s h 0x13 0
    else if !states.contains s.glob.jobState then complete s h 0x19 0
    else match bad with
      | some o => complete s h 0x11 o
      | none => run

/-- The Ductus switch of the seam that runs has begun, so that what arrives is held until the following seam (R50). -/
def pastSwitch (s : State) : Bool := s.frame.seam && decide (4 ≤ s.frame.phase)

/-- A descriptor held for its moment, or BUSY beyond 256 (R285). -/
def hold (s : State) (h : Hdr) (op : HeldOp) : State :=
  if 256 ≤ heldCount s then complete s h 0x19 0 else { s with rings.held := s.rings.held ++ [⟨h, op, pastSwitch s⟩] }

/-! ### The load check (R42) -/

/-- [a, a + n) lies within the bytes that the load copied. -/
def Loaded.has (d : Loaded) (a n : Nat) : Bool := n == 0 || (decide (d.addr ≤ a) && decide (a + n ≤ d.addr + d.bytes))

/-- The strokes of one list. -/
def strokesOf (s : State) (d : Loaded) (l : Nat) : List Stroke := (List.range (listOf s d l).2).map (strokeAt s d l)

/-- The length of the slot list (R427). -/
def slotCount (s : State) (d : Loaded) : Nat :=
  (allStrokes s d).foldl (fun m x => max m (x.2.2.slotIndex + x.2.2.inCount + x.2.2.outCount)) 0

/-- The bytes of the tag image (R426). -/
def tagBytes (s : State) (d : Loaded) : Nat := 768 * (listedFolios s d).length

/-- A Folio-table entry: reserved fields zero; all zero without a list (R425). -/
def entryOk (s : State) (d : Loaded) (l : Nat) : Bool :=
  let e := peek s (hdrField s d 40 6 + 16 * l) 16
  if (hdrField s d 24 8).testBit l then
    rd e 6 2 == 0 && decide (rd e 8 4 < 2 ^ 20) && rd e 12 4 == 0 && d.has (rd e 0 6) (32 * rd e 8 4)
  else e.all (fun b => b == 0)

/-- The reserved fields of a stroke record (Table 2.3). -/
def strokeOk (k : Stroke) : Bool :=
  decide (k.flags < 32) && k.res == 0 && decide (k.partner < 2 ^ 20) && (k.flags % 4 != 0 || k.partner == 0) &&
  decide (k.op < 2 ^ 48)

/-- Condition 1. The reserved bits of the slot-list entries (Table 8.3) and a PARTNER without a pair flag count under it
(log 60). -/
def cond1 (s : State) (d : Loaded) : Bool :=
  let b := peek s d.addr 128
  d.has d.addr 128 && rd b 0 4 == 0x54435544 && rd b 6 2 == 1 && decide (rd b 38 2 < 16) && rd b 46 2 == 0 &&
  rd b 54 2 == 0 && rd b 62 2 == 0 && zeros b 96 32 && d.has (rd b 40 6) 1024 &&
  (List.range 64).all (entryOk s d) && (allStrokes s d).all (fun x => strokeOk x.2.2) &&
  d.has (rd b 56 6) (4 * slotCount s d) && d.has (rd b 48 6) (tagBytes s d) &&
  (List.range (slotCount s d)).all (fun i => decide (slotEntry s d i < 2 ^ 20))

/-- The message of DIGEST (Table 2.2). -/
def digestMessage (s : State) (d : Loaded) : List Byte :=
  peek s d.addr 64 ++ peek s (hdrField s d 40 6) 1024 ++
  (listedFolios s d).flatMap (fun l => peek s (listOf s d l).1 (32 * (listOf s d l).2)) ++
  peek s (hdrField s d 56 6) (4 * slotCount s d) ++ peek s (hdrField s d 48 6) (tagBytes s d)

/-- Values in ascending order. -/
def ascending : List Nat → Bool
  | a :: b :: r => decide (a ≤ b) && ascending (b :: r)
  | _ => true

/-- Condition 4. -/
def cond4 (s : State) (d : Loaded) : Bool :=
  (listedFolios s d).all (fun l =>
    ascending ((strokesOf s d l).map (fun k => k.start)) &&
    (strokesOf s d l).all (fun k =>
      decide (1 ≤ k.cls) && decide (k.cls ≤ 8) && ((k.quills != 0) == (k.cls == 1 || k.cls == 2)) &&
      decide (k.start + k.budget ≤ hdrField s d 20 4)))

/-- E_ref of Table 2.5. -/
def refreshTerm (s : State) (d : Loaded) : Nat :=
  cdiv (regionLen s) 3120 * 48 + (if lpUsed s d then cdiv (regionLen s) 6240 * 64 else 0)

/-- Two lists have no slot in common. -/
def apart (xs ys : List Nat) : Bool := xs.all (fun x => !ys.contains x)

/-- P of a ready pair (R47). -/
def pairLen (a b : Stroke) : Nat := max a.budget b.budget

/-- A ready pair meets R47 and R48. A pair flag without a partner that names this stroke back, and both flags on one stroke,
make no pair of R47 and fail condition 8 (log 60). -/
def pairOk (s : State) (d : Loaded) (ks : List Stroke) (i : Nat) (k : Stroke) : Bool :=
  match k.flags % 4 with
  | 0 => true
  | 1 =>
    match ks[k.partner]? with
    | none => false
    | some m =>
      let ins := fun x => (inSlots s d x).map slotNo
      m.flags % 4 == 2 && m.partner == i && m.start == k.start + pairLen k m && apart (outSlots s d k) (outSlots s d m) &&
      apart (ins k) (outSlots s d m) && apart (ins m) (outSlots s d k) &&
      (ks.zipIdx).all (fun o => o.2 == i || o.2 == k.partner ||
        !(decide (k.start ≤ o.1.start) && decide (o.1.start < k.start + 2 * pairLen k m)))
  | 2 => (match ks[k.partner]? with | some m => m.flags % 4 == 1 && m.partner == i | none => false)
  | _ => false

/-- Condition 8. -/
def cond8 (s : State) (d : Loaded) : Bool :=
  (listedFolios s d).all (fun l =>
    let ks := strokesOf s d l
    (ks.zipIdx).all (fun x => pairOk s d ks x.2 x.1))

/-- Condition 9 (an OVERLAY_COUNT outside 1 to 64 fails it, log 43). -/
def cond9 (s : State) (d : Loaded) : Bool :=
  let c := hdrField s d 34 2
  decide (1 ≤ c) && decide (c ≤ 64) && decide (hdrField s d 32 2 < c) &&
  (c != 1 || hdrField s d 36 2 == hdrField s d 4 2)

/-- The bank of a slot position is on under bank masks (R190, Table 8.3). -/
def bankOn (fb well : Nat) (slot : Nat) : Bool :=
  let x := slot % 8192
  if x < 4096 then fb.testBit (x / 64) else if x < 6144 then well.testBit ((x - 4096) % 256 / 16) else false

/-- Condition 10. -/
def cond10 (s : State) (d : Loaded) (fb well : Nat) : Bool :=
  (List.range (slotCount s d)).all (fun i => bankOn fb well (slotNo (slotEntry s d i)))

/-- The raw output entries of a stroke. -/
def outEntries (s : State) (d : Loaded) (k : Stroke) : List Nat :=
  (List.range k.outCount).map (fun i => slotEntry s d (k.slotIndex + k.inCount + i))

/-- Condition 11. -/
def cond11 (s : State) (d : Loaded) : Bool :=
  (allStrokes s d).all (fun x => (outEntries s d x.2.2).all (fun e => !slotKeep e))

/-- Condition 12. -/
def cond12 (s : State) (d : Loaded) : Bool :=
  (allStrokes s d).all (fun x => (outSlots s d x.2.2).eraseDups.length == (outSlots s d x.2.2).length)

/-- Condition 13. -/
def cond13 (s : State) (d : Loaded) (fb well : Nat) : Bool := (imageSlots s d).all (bankOn fb well)

/-- The first condition of R42 that the loaded bytes fail; 0 when they pass. -/
def loadCheck (s : State) (d : Loaded) (fb well : Nat) : Nat :=
  let m := hdrField s d 12 4
  let thr := hdrField s d 16 4
  if !cond1 s d then 1
  else if s.time.period = 0 || hdrField s d 8 4 ≠ s.time.period then 2
  else if sm3 (digestMessage s d) ≠ peek s (d.addr + 64) 32 then 3
  else if !cond4 s d then 4
  else if regionLen s < hdrField s d 20 4 + m + driftBound s then 5
  else if nominal s / 4 < thr then 6
  else if m < refreshTerm s d + thr then 7
  else if !cond8 s d then 8
  else if !cond9 s d then 9
  else if !cond10 s d fb well then 10
  else if !cond11 s d then 11
  else if !cond12 s d then 12
  else if !cond13 s d fb well then 13 else 0

/-- The bank masks in force (R190): the job's while one exists, else every bank on. -/
def fbInForce (s : State) : Nat := if jobExists s then s.job.blk.fbMask else 2 ^ 64 - 1
/-- The Well bank mask in force. -/
def wellInForce (s : State) : Nat := if jobExists s then s.job.blk.wellMask else 2 ^ 16 - 1

/-- DESC_FORMAT of a Ductus load: its completion and its record (R42, Table 14.3). -/
def rejectLoad (s : State) (h : Hdr) (n : Nat) : State :=
  complete (raiseFault s { code := 0x11, sev := 1, detail := n, src := 6 }) h 0x11 n

/-- LOAD_DUCTUS accepted: the copy, the check, and the entry of the Ductus under its id. A Ductus that stood at DST is
gone, and so is one of which a byte lies there: what it held is no longer the Ductus that was checked (R42). -/
def opLoadDuctus (s : State) (h : Hdr) (src bytes dst : Nat) : State :=
  if 6 ≤ bytes && (rotation s).any (fun d => d.id == leNat (hostPeek s (src + 4) 2)) then complete s h 0x19 0
  else if !installed s dst bytes then rejectLoad s h 0
  else
    let fail := failLines s dst bytes
    let t := store s dst (hostPeek s src bytes)
    let t := { t with ductus := t.ductus.filter (fun d => decide (d.addr + d.bytes ≤ dst) || decide (dst + bytes ≤ d.addr)) }
    match fail with
    | l :: _ => complete (lineError t l) h 0x0B (lineDetail t (64 * l))
    | [] =>
      let d : Loaded := { id := peekN t (dst + 4) 2, addr := dst, bytes := bytes }
      let n := loadCheck t d (fbInForce s) (wellInForce s)
      if n ≠ 0 then rejectLoad t h n
      else complete { t with ductus := t.ductus.filter (fun x => x.id ≠ d.id) ++ [d] } h 0 0

/-- The whole LOAD_DUCTUS; `rsv` is the first reserved byte of the descriptor that is not zero. -/
def runLoadDuctus (s : State) (h : Hdr) (rsv : Option Nat) (src bytes dst : Nat) : State :=
  gate s h false onward (firstOf [rsv, hostHi s 16 src, hiAt 32 dst]) (opLoadDuctus s h src bytes dst)

/-- LOAD_DUCTUS. -/
def execLoadDuctus (h : Hdr) (src bytes dst : Nat) (s : State) : Host.Outcome State Fault Refusal :=
  whenAlive (.loadDuctus h src bytes dst) s (runLoadDuctus s h none src bytes dst)

end Sys2Proof.Machine
end

