-- ==== Sys2Proof/Machine/Mask.lean ====
section
/-! DEFINITION. Mask operations in the Nibs (R128 to R137): PRUNE, REGROW, SWAP and MASK_SET as strokes, and MASK_OP. -/

namespace Sys2Proof.Machine

open Sys2Proof

/-! ### The mask record (Table 5.6) -/

/-- A decoded mask record. -/
structure MaskRec where
  at_ : Nat
  b : List Byte
  w : Desc
  g : Option Desc
  back : Bool := false

/-- OPCODE. -/
def MaskRec.op (r : MaskRec) : Nat := rd r.b 0 1
/-- Block grain. -/
def MaskRec.block (r : MaskRec) : Bool := bit (rd r.b 1 1) 0
/-- GROUP_TILES. -/
def MaskRec.group (r : MaskRec) : Nat := rd r.b 2 2
/-- K_COUNT. -/
def MaskRec.k (r : MaskRec) : Nat := rd r.b 4 4
/-- COMP_COUNT. -/
def MaskRec.comps (r : MaskRec) : Nat := fld (rd r.b 1 1) 2 2
/-- The value of a new position. -/
def MaskRec.init (r : MaskRec) : Val := if bit (rd r.b 1 1) 1 then of32 (rd r.b 8 4) else Val.zero

/-- The tile grid of a tensor: tiles along dimensions 0 and 1, coordinates along the others. -/
def Desc.grid (d : Desc) : List Nat := (List.range d.rank).map (fun k => if k < 2 then cdiv (d.e k) 64 else d.e k)
/-- Tiles of a tensor. -/
def Desc.tiles (d : Desc) : Nat := d.grid.foldl (fun a b => a * b) 1
/-- The tile coordinates of linear index `l`, dimension 0 fastest. -/
def Desc.tileAt (d : Desc) (l : Nat) : List Nat :=
  (d.grid.foldl (fun (r : List Nat × Nat) n => (r.1 ++ [r.2 % max 1 n], r.2 / max 1 n)) ([], l)).1

/-- The element coordinates of the positions of tile `l` that lie in a dense tensor. -/
def Desc.denseCoords (d : Desc) (l : Nat) : List (Nat × List Nat) :=
  let c := d.tileAt l
  (List.range 4096).filterMap (fun p =>
    let x := 64 * c.getD 0 0 + p % 64
    let y := 64 * c.getD 1 0 + p / 64
    if x < d.e 0 && y < d.e 1 then some (p, x :: y :: c.drop 2) else none)

/-- Every block that tile `l` touches has a valid entry (log 49). -/
def tileKnown (d : Desc) (l : Nat) : Bool :=
  let known := fun (c : List Nat) => (d.owner (d.beta (d.split c).1)).ok
  !d.distributed || (if d.sparse then known (d.tileAt l) else (d.denseCoords l).all (fun p => known p.2))

/-- The address of tile `l` of a sparse tensor. -/
def tileOfLinear (s : State) (d : Desc) (l : Nat) : Nat := ((placeOf s d (d.tileAt l)).bit / 8).toNat

/-- A mask record decoded and checked (R129). A K_COUNT above the 262,144 of Table 5.6 is rejected, a TILE_COUNT of 0 does nothing, and a
GAIN of −0 is not negative (DESIGN CHOICE, log 73). -/
def decodeMask (s : State) (a : Nat) : Except Bad MaskRec := do
  let bad := badDesc a
  check (installed s a 64) bad
  let b := peek s a 64
  let op := rd b 0 1
  let gain := of32 (rd b 12 4)
  check (decide (1 ≤ op) && decide (op ≤ 4) && decide (rd b 1 1 < 16) &&
    (List.range 5).all (fun i => decide (rd b (16 + 8 * i) 8 < 2 ^ 48)) &&
    (List.range 3).all (fun i => i < fld (rd b 1 1) 2 2 || rd b (32 + 8 * i) 8 == 0)) bad
  check (decide (1 ≤ rd b 2 2) && decide (rd b 2 2 ≤ 64) && rd b 60 4 % rd b 2 2 == 0 && decide (rd b 4 4 ≤ 262144)) bad
  let w ← decodeDesc s (rd b 16 8) false false a
  let gd := rd b 24 8
  check (w.sparse && (!(op = 2 || op = 3) || gd ≠ 0) && (op ≠ 1 || gd = 0) &&
    decide (rd b 56 4 + rd b 60 4 ≤ w.tiles)) bad
  let known := fun (d : Desc) => (List.range (rd b 60 4)).all (fun i => tileKnown d (rd b 56 4 + i))
  let g ← if op = 2 || op = 3 then (do let d ← decodeDesc s gd false false a; pure (some d)) else pure none
  check (match g with
    | some d => d.grid == w.grid && known d
    | none => true) bad
  check (known w) bad
  check (op ≠ 4 || installed s gd (512 * rd b 60 4)) bad
  check (!(w.form = 1) || (op ≠ 1 && op ≠ 2 && rd b 4 4 = 0 && !bit (rd b 1 1) 0)) bad
  check ((w.form = 1 || rd b 12 4 = 0) && gain ≠ .nan && !(gain.neg? && !gain.isZero) && !(of32 (rd b 8 4)).nf) bad
  check ((List.range (fld (rd b 1 1) 2 2)).all (fun i =>
    installed s (rd b (32 + 8 * i) 8 + 16384 * rd b 56 4) (16384 * rd b 60 4))) bad
  pure { at_ := a, b := b, w := w, g := g }

/-! ### A scope -/

/-- A tile of a scope: its linear index, its address, what it holds, and the probe tile. -/
structure ScopeTile where
  l : Nat
  a : Nat
  t : Tile
  g : Option Tile

/-- A candidate: place of the tile in the scope, the position or block within it, and its magnitude. -/
abbrev Cand := Nat × Nat × Val

/-- A candidate put into a list in order: `before` says when the new one goes ahead of an old one. -/
def insertCand (before : Val → Val → Bool) (c : Cand) : List Cand → List Cand
  | [] => [c]
  | x :: xs => if before c.2.2 x.2.2 then c :: x :: xs else x :: insertCand before c xs

/-- Candidates in order; equal magnitudes stay in the order of their linear index (R131). -/
def sortCands (before : Val → Val → Bool) (l : List Cand) : List Cand :=
  l.foldl (fun acc c => insertCand before c acc) []

/-- The FP32 sum of the magnitudes of stored values (R131, R203). -/
def sumMags (vs : List Val) : Sat := vs.foldl (fun a v => nAdd a (lit v.abs)) (lit Val.zero)

/-- The stored values of block `b`, in storage order. -/
def Tile.blockVals (t : Tile) (b : Nat) : List Val :=
  ((t.order.zip t.vals).filter (fun p => blockOfPos p.1 == b)).map (fun p => p.2)

/-- Blocks present in a tile: those in which it holds a value. -/
def Tile.blocks (t : Tile) : List Nat := (List.range 64).filter (fun b => t.order.any (fun p => blockOfPos p == b))

/-- A candidate and the saturations of its sum. -/
abbrev SumCand := Cand × Nat

/-- The candidate of block `b`. -/
def blockCand (n b : Nat) (t : Tile) : SumCand := let m := sumMags (t.blockVals b); ((n, b, m.1), m.2)

/-- The drop candidates of a tile, NaN included. -/
def dropCands (block : Bool) (n : Nat) (x : ScopeTile) : List SumCand :=
  if block then x.t.blocks.map (fun b => blockCand n b x.t)
  else (List.range 4096).filterMap (fun p => (x.t.at_ p).map (fun v => ((n, p, v.abs), 0)))

/-- The add candidates of a tile, NaN included (R133). -/
def addCands (block : Bool) (n : Nat) (x : ScopeTile) : List SumCand :=
  match x.g with
  | none => []
  | some g =>
    if block then
      (g.blocks.filter (fun b => x.t.masks.getD b 0 == 0)).map (fun b => blockCand n b g)
    else (List.range 4096).filterMap (fun p =>
      if (x.t.find p).isSome then none else (g.at_ p).map (fun v => ((n, p, v.abs), 0)))

/-- The block masks of the tiles of a scope. -/
abbrev Masks := List (List Nat)

/-- The masks with one position or block of tile `n` set present or absent. -/
def change (block : Bool) (ms : Masks) (n p : Nat) (on : Bool) : Masks :=
  let m := ms.getD n []
  let b := if block then p else blockOfPos p
  let v := if block then (if on then 2 ^ 64 - 1 else 0)
    else
      let old := m.getD b 0
      let k := bitOfPos p
      if on then old ||| 2 ^ k else if old.testBit k then old - 2 ^ k else old
  ms.set n (m.set b v)

/-- Every tile meets its budget and its reservation (R132). -/
def feasible (fmt : Nat) (xs : List ScopeTile) (ms : Masks) : Bool :=
  (xs.zip ms).all (fun p =>
    let ns := p.2.map (popc 64)
    let present := (ns.filter (fun n => decide (0 < n))).length
    let masked := (ns.filter (fun n => decide (0 < n) && decide (n < 64))).length
    decide (present ≤ p.1.t.budget) && decide (hatchBytes fmt ns.sum masked ≤ hatchReserved fmt))

/-- What a selection has done. -/
structure Sel where
  ms : Masks
  dropped : Nat := 0
  added : Nat := 0
  skips : Nat := 0
  done : Nat := 0

/-- PRUNE (on = false) or REGROW (on = true) (R133). -/
def selectOne (ok : Masks → Bool) (block on : Bool) : List Cand → Nat → Sel → Sel
  | [], _, r => r
  | _, 0, r => r
  | c :: cs, k + 1, r =>
    let ms := change block r.ms c.1 c.2.1 on
    if ok ms then
      selectOne ok block on cs k
        { r with ms := ms, done := r.done + 1, added := r.added + b2n on, dropped := r.dropped + b2n (!on) }
    else selectOne ok block on cs (k + 1) { r with skips := r.skips + 1 }

/-- SWAP (R133). -/
def selectSwap (ok : Masks → Bool) (block : Bool) : List Cand → List Cand → Nat → Sel → Sel
  | _, [], _, r => r
  | [], _, _, r => r
  | _, _, 0, r => r
  | d :: ds, g :: gs, k + 1, r =>
    let ms := change block (change block r.ms d.1 d.2.1 false) g.1 g.2.1 true
    if ok ms then
      selectSwap ok block ds gs k
        { r with ms := ms, done := r.done + 1, added := r.added + 1, dropped := r.dropped + 1 }
    else selectSwap ok block (d :: ds) gs (k + 1) { r with skips := r.skips + 1 }

/-! ### T24 (R134) -/

/-- The scores of the 16 positions of group `g`. -/
def groupScores (gain : Val) (x : ScopeTile) (g : Nat) : List Sat :=
  (List.range 16).map (fun p =>
    match x.t.at_ (t24Pos g p) with
    | some w => lit w.abs
    | none => nMul (lit gain) (lit ((x.g.bind (fun t => t.at_ (t24Pos g p))).getD Val.zero).abs))

/-- The sum of a pattern's scores, with the saturations of the sum alone. -/
def patternSum (sc : List Sat) (m : Nat) : Sat :=
  let at_ := fun p => lit (sc.getD p (lit Val.zero)).1
  match setBits 16 m with
  | [] => lit Val.zero
  | p :: ps => ps.foldl (fun a q => nAdd a (at_ q)) (at_ p)

/-- The pattern that a group takes, and the saturations of its scores and sums. -/
def bestPattern (sc : List Sat) (old : Nat) : Nat × Nat :=
  let sums := (t24Table.map (patternSum sc)).zipIdx
  let best := sums.foldl (fun (r : Option (Nat × Val)) p =>
      if p.1.1 = .nan then r
      else match r with | none => some (p.2, p.1.1) | some b => if b.2.lt p.1.1 then some (p.2, p.1.1) else r) none
  ((best.map (fun b => b.1)).getD old, (sc.map (fun x => x.2)).sum + (sums.map (fun p => p.1.2)).sum)

/-! ### Writing back (R136) -/

/-- Storage order of new metadata. -/
def orderOf (form : Nat) (masks : List Nat) : List Nat :=
  if form = 1 then (masks.zipIdx).flatMap (fun p => (setBits 16 (maskOf p.1)).map (t24Pos p.2)) else hatchOrder masks

/-- The stored values of a rewritten tile as codes and scales: kept codes stay as they are, but for an MX tile, which is
scaled anew. -/
def keptCodes (r : MaskRec) (x : ScopeTile) (order : List Nat) : List Nat × List Nat :=
  if isMx r.w.fmt then
    let e := encStored r.w.fmt (order.map (fun p => (x.t.at_ p).getD r.init))
    (e.1.map (fun c => c.1), e.2)
  else
    (order.map (fun p => match x.t.find p with
      | some v => x.t.codes.getD v 0
      | none => (encE r.w.fmt r.init rneNat).1), [])

/-- The companion entries of a rewritten tile. -/
def companions (s : State) (r : MaskRec) (x : ScopeTile) (order : List Nat) : List (Nat × List Byte) :=
  (List.range r.comps).map (fun c =>
    let base := rd r.b (32 + 8 * c) 8 + 16384 * x.l
    (base, order.flatMap (fun p => match x.t.find p with
      | some v => peek s (base + 4 * v) 4
      | none => leBytes 4 (if c = 0 then r.init.bits32 else 0))))

/-- The writes of a tile with new metadata. -/
def tileWrites (s : State) (r : MaskRec) (x : ScopeTile) (masks : List Nat) : List (Nat × List Byte) :=
  if masks = x.t.masks then
    let b := peek s x.a (tileSpan s r.w.form r.w.fmt x.a)
    [(x.a, if r.w.form = 2 then b.take 164 ++ leBytes 4 s.job.step ++ b.drop 168 else b)]
  else
    let order := orderOf r.w.form masks
    let e := keptCodes r x order
    (x.a, if r.w.form = 1 then buildT24 r.w.fmt masks e.1 e.2
      else buildHatch r.w.fmt 1 x.t.budget s.job.step masks e.1 e.2) :: companions s r x order

/-- Positions, or at block grain blocks, that `new` holds and `old` does not. -/
def gained (r : MaskRec) (old new : List Nat) : Nat :=
  if r.block && r.w.form = 2 then
    ((List.range 64).filter (fun b => new.getD b 0 ≠ 0 && old.getD b 0 == 0)).length
  else
    let o := orderOf r.w.form old
    ((orderOf r.w.form new).filter (fun p => !o.contains p)).length

/-! ### Running -/

/-- Tile `l` of a dense tensor, as a probe: every position in the extents holds a value. -/
def denseTileOf (s : State) (d : Desc) (l : Nat) : Tile :=
  let ps := d.denseCoords l
  { Tile.none_ with order := ps.map (fun p => p.1), vals := ps.map (fun p => elemVal s d p.2) }

/-- The reads of tile `l` of a probe. -/
def probeReads (s : State) (d : Desc) (l : Nat) : List (Nat × Nat) :=
  if d.sparse then let a := tileOfLinear s d l; [(a, tileSpan s d.form d.fmt a)]
  else (d.denseCoords l).flatMap (fun p => elemReads s d p.2)

/-- Tile `l` of a probe, checked where it is sparse. -/
def loadProbe (s : State) (d : Desc) (l nib : Nat) : Except Bad Tile :=
  if !d.sparse then .ok (denseTileOf s d l)
  else
    let a := tileOfLinear s d l
    match tileBad s d.form d.fmt a none false none (some nib) with
    | some b => .error b
    | none => .ok (loadTile s d.form d.fmt a)

/-- The home Nib of the scope that holds tile `l` (R130). -/
def homeOf (s : State) (r : MaskRec) (l : Nat) : Nat :=
  let first := rd r.b 56 4
  homeNib (tileOfLinear s r.w (first + r.group * ((l - first) / max 1 r.group)) % 2 ^ 48) % 256

/-- The tiles of a scope, checked as R104 has it, without check 0x21. -/
def loadScope (s : State) (r : MaskRec) (first : Nat) (nib : Nat) : Except Bad (List ScopeTile) :=
  (List.range r.group).mapM (fun i => do
    let l := first + i
    let a := tileOfLinear s r.w l
    match tileBad s r.w.form r.w.fmt a none false none (some nib) with
    | some b => throw b
    | none =>
      let g ← (match r.g with
        | none => pure none
        | some d => do
          let t ← loadProbe s d l nib
          pure (some t))
      pure { l := l, a := a, t := loadTile s r.w.form r.w.fmt a, g := g })

/-- The reads of a scope. -/
def scopeReads (s : State) (r : MaskRec) (first : Nat) : List (Nat × Nat) :=
  (List.range r.group).flatMap (fun i =>
    let a := tileOfLinear s r.w (first + i)
    (a, tileSpan s r.w.form r.w.fmt a) :: (match r.g with
      | none => []
      | some d => probeReads s d (first + i)) ++
    (List.range r.comps).map (fun c => (rd r.b (32 + 8 * c) 8 + 16384 * (first + i), 16384)))

/-- The selection of a scope: new metadata and the counts, with the NaN candidates and the saturations (R131, R133, R134). -/
def selectScope (r : MaskRec) (xs : List ScopeTile) : Sel × Nat × Nat :=
  let old := xs.map (fun x => x.t.masks)
  if r.w.form = 1 then
    let gain := of32 (rd r.b 12 4)
    let scores := xs.map (fun x => (List.range 256).map (groupScores gain x))
    let ms := (xs.zip scores).map (fun p => p.2.zipIdx.map (fun q => bestPattern q.1 (p.1.t.masks.getD q.2 0)))
    ({ ms := ms.map (fun l => l.map (fun p => p.1)) },
      (scores.map (fun l => (l.map (fun sc => (sc.filter (fun v => v.1 == .nan)).length)).sum)).sum,
      (ms.map (fun l => (l.map (fun p => p.2)).sum)).sum)
  else
    let ds := if r.op = 2 then [] else xs.zipIdx.flatMap (fun p => dropCands r.block p.2 p.1)
    let gs := if r.op = 1 then [] else xs.zipIdx.flatMap (fun p => addCands r.block p.2 p.1)
    let nans := ((ds ++ gs).filter (fun c => c.1.2.2 == .nan)).length
    let good := fun (l : List SumCand) => (l.map (fun c => c.1)).filter (fun c => c.2.2 != .nan)
    let D := sortCands (fun a b => a.lt b) (good ds)
    let G := sortCands (fun a b => b.lt a) (good gs)
    let ok := feasible r.w.fmt xs
    let z : Sel := { ms := old }
    (if r.op = 1 then selectOne ok r.block false D r.k z
     else if r.op = 2 then selectOne ok r.block true G r.k z
     else selectSwap ok r.block D G r.k z, nans, ((ds ++ gs).map (fun c => c.2)).sum)

/-- Who runs a mask operation: the transfers that it makes, and the memory of other devices as it was fetched (R163; log 49). -/
structure MaskRun where
  xfer : Transfer
  far : Far

/-- The stroke of a mask operation. -/
def MaskRun.who (w : MaskRun) : Option (Nat × Nat) := w.xfer.folio.map (fun l => (l, w.xfer.idx))

/-- Where the events of a mask operation come from. -/
def maskOrigin (stroke : Bool) (a : Nat) : Origin :=
  { priv := if stroke then 0 else 2, master := 2, cls := if stroke then some 8 else none, addr := some (a % 2 ^ 48) }

/-- Accesses of a mask operation counted as moved bytes of a Nib, each at its own address (R127, R366). -/
def maskMoved (s : State) (r : MaskRec) (w : MaskRun) (nib : Nat) (rs : List (Nat × Nat)) : State :=
  rs.foldl (fun t x => if x.2 = 0 then t else nibEvent t nib (3 + b2n r.back) x.2 (maskOrigin w.who.isSome x.1)) s

/-- New metadata written back, with its events; the bytes written count as moved (R127). -/
def writeScope (s : State) (r : MaskRec) (w : MaskRun) (nib : Nat) (xs : List ScopeTile) (ms : Masks) : State :=
  let ws := (xs.zip ms).flatMap (fun p => tileWrites (withFar s w.far) r p.1 p.2)
  let t := commitAll s w.xfer ws
  let o := maskOrigin w.who.isSome (xs.headD ⟨0, 0, Tile.none_, none⟩).a
  let dropped := ((xs.zip ms).map (fun p => gained r p.2 p.1.t.masks)).sum
  let added := ((xs.zip ms).map (fun p => gained r p.1.t.masks p.2)).sum
  let t := maskMoved t r w nib (ws.map (fun x => (x.1, x.2.length)))
  nibEvent (nibEvent t nib 0x1A dropped o) nib 0x1B added o

/-- One scope of a selecting opcode; the answer says why the operation stops. -/
def runScope (s : State) (r : MaskRec) (w : MaskRun) (first : Nat) : State × Option Bad :=
  let v := withFar s w.far
  let nib := homeOf v r first
  let rs := scopeReads v r first
  match readsBad s rs with
  | some l => (s, some { code := 0x0B, addr := 64 * l, detail := lineDetail s (64 * l), nib := some nib })
  | none =>
    match loadScope v r first nib with
    | .error b => (s, some b)
    | .ok xs =>
      let c := selectScope r xs
      let o := maskOrigin w.who.isSome (tileOfLinear v r.w first)
      let t := writeScope (maskMoved (noteReads s rs) r w nib rs) r w nib xs c.1.ms
      let t := nibEvent t nib 0x07 c.2.2 o
      let t := nibEvent t nib 0x17 c.2.1 o
      let t := nibEvent t nib 0x18 c.1.skips o
      (if r.w.form = 1 then t else nibEvent t nib 0x19 (r.k - c.1.done) o, none)

/-- The metadata that a mask image gives a tile: 64 block masks, or 256 group masks (R135). -/
def imageMasks (s : State) (r : MaskRec) (n : Nat) : List Nat :=
  let b := peek s (rd r.b 24 8 + 512 * n) 512
  let on := fun x => (rd b (x / 8) 1).testBit (x % 8)
  if r.w.form = 1 then (List.range 256).map (fun g => packBits 1 ((List.range 16).map (fun p => b2n (on (t24Pos g p)))))
  else (List.range 64).map (fun k => packBits 1 ((List.range 64).map (fun p => b2n (on (hatchPos k p)))))

/-- The first failing check of Table 5.7, at the Nib of its scope (R106, R130). -/
def imageBad (s : State) (r : MaskRec) (xs : List ScopeTile) (ms : Masks) : Option Bad :=
  let at_ := fun (x : ScopeTile) (f : TileFail) =>
    ({ code := tileCode f.1, addr := x.a, detail := tileDetail f false, nib := some (homeOf s r x.l) } : Bad)
  let z := xs.zip ms
  if r.w.form = 1 then
    z.findSome? (fun p => (List.range 256).findSome? (fun g =>
      if (indexOf (p.2.getD g 0)).isNone then some (at_ p.1 (0x33, g, p.2.getD g 0, 0)) else none))
  else
    let present := fun (m : List Nat) => (m.filter (fun x => x ≠ 0)).length
    match z.findSome? (fun p => if p.1.t.budget < present p.2 then some (at_ p.1 (0x31, 0, present p.2, p.1.t.budget)) else none) with
    | some b => some b
    | none => z.findSome? (fun p =>
        let ns := p.2.map (popc 64)
        let size := hatchBytes r.w.fmt ns.sum (ns.filter (fun n => decide (0 < n) && decide (n < 64))).length
        if hatchReserved r.w.fmt < size then some (at_ p.1 (0x32, 0, size, hatchReserved r.w.fmt)) else none)

/-- MASK_SET over all tiles (R135): every check comes before any write. -/
def runMaskSet (s : State) (r : MaskRec) (w : MaskRun) : State × Option Bad :=
  let first := rd r.b 56 4
  let n := rd r.b 60 4
  let scopes := n / r.group
  let v := withFar s w.far
  let image := fun i => (rd r.b 24 8 + 512 * r.group * i, 512 * r.group)
  let rs := fun i => scopeReads v r (first + r.group * i) ++ [image i]
  match readsBad s ((List.range scopes).flatMap rs) with
  | some l => (s, some { code := 0x0B, addr := 64 * l, detail := lineDetail s (64 * l) })
  | none =>
    match (List.range scopes).mapM (fun i =>
        loadScope v r (first + r.group * i) (homeOf v r (first + r.group * i))) with
    | .error b => (s, some b)
    | .ok ls =>
      let xs := ls.flatten
      let ms := (List.range n).map (imageMasks s r)
      match imageBad v r xs ms with
      | some b => (s, some b)
      | none =>
        let ms := if r.w.form = 1 then ms.map (fun m => m.map (fun x => (indexOf x).getD 0)) else ms
        ((List.range scopes).foldl (fun u i =>
          let part := fun {α : Type} (l : List α) => (l.drop (r.group * i)).take r.group
          let k := homeOf v r (first + r.group * i)
          writeScope (maskMoved (noteReads u (rs i)) r w k (rs i)) r w k (part xs) (part ms)) s, none)

/-- A mask operation over its scopes in ascending order. -/
def runMask (s : State) (r : MaskRec) (w : MaskRun) : State × Option Bad :=
  if r.op = 4 then runMaskSet s r w
  else
    (List.range (rd r.b 60 4 / r.group)).foldl (fun (t : State × Option Bad) i =>
      if t.2.isSome || (w.who.isSome && t.1.frame.aborted) then t
      else runScope t.1 r w (rd r.b 56 4 + r.group * i)) (s, none)

/-- The record with the blocks that other devices hold at the addresses of `Desc.virt`. -/
def MaskRec.atDev (r : MaskRec) (self : Nat) : MaskRec := { r with w := r.w.virt self, g := r.g.map (fun d => d.virt self) }

/-- Every read of the tiles of a mask operation. -/
def MaskRec.reads (r : MaskRec) (s : State) : List (Nat × Nat) :=
  (List.range (rd r.b 60 4 / r.group)).flatMap (fun i => scopeReads s r (rd r.b 56 4 + r.group * i))

/-- A decoded mask operation: what other devices hold is fetched first (R163), and the answer is none until it is here. -/
def fetchMask (s : State) (x : Transfer) (r : MaskRec) : State × Option (State × Option Bad) :=
  let e := r.atDev s.glob.deviceId
  let g := gather s x e.reads
  (g.1, g.2.map (fun f => runMask g.1 e { xfer := x, far := f }))

/-- A mask stroke (CLASS 0x08): skipped with its step (R240), else its operation. -/
def opMaskStroke (s : State) (l i opcode : Nat) : State :=
  inAbortCycle s (fun s =>
  match ctxOf s l i 8 with
  | none => s
  | some x =>
    let a := x.k.op % 2 ^ 48
    let op := peekN s a 1
    if 1 ≤ op && op ≤ 4 && op ≠ opcode then s
    else if 2 ^ 48 ≤ x.k.op then failStroke s l i (badDesc a)
    else match decodeMask s a with
      | .error b => failStroke s l i b
      | .ok r =>
        if s.job.skipped.contains s.job.step then doneRun s l i
        else
          let t := fetchMask s (strokeXfer l i) { r with back := x.back }
          match t.2 with
          | none => t.1
          | some (u, none) => doneRun u l i
          | some (u, some b) => if b.code = 0x0B then lineErrorBy u (some (l, i)) (b.addr / 64) else failStroke u l i b)

/-- PRUNE. -/
def execPrune (l i : Nat) (s : State) : Host.Outcome State Fault Refusal := whenAlive (.prune l i) s (opMaskStroke s l i 1)
/-- REGROW. -/
def execRegrow (l i : Nat) (s : State) : Host.Outcome State Fault Refusal := whenAlive (.regrow l i) s (opMaskStroke s l i 2)
/-- SWAP. -/
def execSwap (l i : Nat) (s : State) : Host.Outcome State Fault Refusal := whenAlive (.swap l i) s (opMaskStroke s l i 3)
/-- MASK_SET. -/
def execMaskSet (l i : Nat) (s : State) : Host.Outcome State Fault Refusal := whenAlive (.maskSet l i) s (opMaskStroke s l i 4)

end Sys2Proof.Machine
end

