-- ==== Sys2Proof/Machine/Nib.lean ====
section
/-! DEFINITION. Nib operations: the stencil engine (R204 to R208), the SM3 engine (R210, R211), the optimiser
(R222 to R225), and reductions of gradient buckets (R213 to R221). -/

namespace Sys2Proof.Machine

open Sys2Proof

/-! ### STENCIL (Table 8.9) -/

/-- The mode of face `f`: 0 CLAMP, 1 PERIODIC, 2 NEIGHBOUR. -/
def faceMode (b : List Byte) (f : Nat) : Nat := fld (rd b 18 2) (2 * f) 2

/-- The radius along dimension `k`. -/
def Sten.radius (x : Sten) (k : Nat) : Nat := x.taps.foldl (fun r t => max r (t.d.getD k 0).natAbs) 0

/-- A tap entry obeys its layout. -/
def tapOk (b : List Byte) (fmt : Nat) : Bool :=
  (List.range 3).all (fun k => let d := sint 8 (rd b k 1); decide (-3 ≤ d) && decide (d ≤ 3)) && rd b 3 5 == 0 &&
  (fmt == 11 || rd b 12 4 == 0)

/-- A dense tensor of three dimensions held here. -/
def grid3 (d : Desc) (fmt : Nat) : Bool := d.form == 0 && !d.distributed && d.rank == 3 && d.fmt == fmt

/-- A stencil record decoded and checked (R204, R205, R208). -/
def decodeStencil (s : State) (a : Nat) : Except Bad Sten := do
  let bad := badDesc a
  let b := peek s a 128
  let fmt := rd b 16 1
  let ad := fun i => rd b (24 + 8 * i) 8
  let modes := (List.range 6).map (faceMode b)
  let mode := fun f => modes.getD f 0
  check ((fmt == 10 || fmt == 11) && rd b 17 1 == 0 && decide (rd b 18 2 < 4096) && modes.all (fun m => decide (m < 3)) &&
    decide (0 < rd b 20 2) && decide (1 ≤ rd b 22 2) && decide (rd b 22 2 ≤ 343) &&
    (List.range 9).all (fun i => decide (ad i < 2 ^ 48)) && rd b 96 32 == 0) bad
  check (installed s (ad 0) (16 * rd b 22 2)) bad
  let raw := (List.range (rd b 22 2)).map (fun i => peek s (ad 0 + 16 * i) 16)
  check (raw.all (fun t => tapOk t fmt)) bad
  let taps := raw.map (fun t =>
    ({ d := (List.range 3).map (fun k => sint 8 (rd t k 1)), c := rd t 8 (fmtBytes fmt) } : Tap))
  let inp ← decodeDesc s (ad 1) true false a
  let out ← decodeDesc s (ad 2) false false a
  check (grid3 inp fmt && grid3 out fmt && inp.ext == out.ext) bad
  let faces ← (List.range 6).mapM (fun f =>
    if mode f = 2 then (do
      check (ad (3 + f) ≠ 0) bad
      let d ← decodeDesc s (ad (3 + f)) false false a
      pure (some d))
    else (do
      check (ad (3 + f) == 0) bad
      pure none))
  let x : Sten := { b := b, fmt := fmt, taps := taps, inp := inp, out := out, faces := faces }
  let near := (List.range 3).filter (fun k => mode (2 * k) = 2 || mode (2 * k + 1) = 2)
  check ((List.range 6).all (fun f => match faces.getD f none with
    | none => true
    | some d => grid3 d fmt && (List.range 3).all (fun k =>
        if k = f / 2 then decide (x.radius k ≤ d.e k) else d.e k == inp.e k)) && decide (near.length ≤ 1)) bad
  check ((List.range 3).all (fun k => (mode (2 * k) == 1) == (mode (2 * k + 1) == 1)) &&
    inp.wrap == modes.any (fun m => m == 1)) bad
  check ((common (devRanges 0 inp) (devRanges 0 out)).isNone) bad
  check (decide ((2 * x.radius 2 + 1) * (rd b 20 2 + 2 * x.radius 1) * (inp.e 0 + 2 * x.radius 0) * fmtBytes fmt ≤ 1048576)) bad
  pure x

/-- Where a tap reads: the tensor and the coordinates, resolved in the order x, y, z (R207). -/
def Sten.resolve (x : Sten) (q : List Int) : Desc × List Nat :=
  (List.range 3).foldl (fun (r : Desc × List Nat) k =>
    let c := q.getD k 0
    let n : Int := (x.inp.e k : Nat)
    if 0 ≤ c && c < n then (r.1, r.2 ++ [c.toNat])
    else
      let f := 2 * k + (if c < 0 then 0 else 1)
      match faceMode x.b f, x.faces.getD f none with
      | 2, some d => (d, r.2 ++ [(if c < 0 then (d.e k : Int) + c else c - n).toNat])
      | 1, _ => (r.1, r.2 ++ [(c % max 1 n).toNat])
      | _, _ => (r.1, r.2 ++ [(clampI 0 (n - 1) c).toNat])) (x.inp, [])

/-- One output point (R206). -/
def Sten.point (x : Sten) (s : State) (f : Fmt) (p : List Nat) : Sat :=
  x.taps.foldl (fun (acc : Sat) t =>
    let r := x.resolve ((List.range 3).map (fun k => ((p.getD k 0 : Nat) : Int) + t.d.getD k 0))
    fma f (decE x.fmt t.c) (elemVal s r.1 r.2) acc.1 acc.2) (Val.zero, 0)

/-- The reads of a box of a dense tensor of three dimensions, from the coordinates `lo`: a range a row where x lies side by
side. -/
def boxReads (s : State) (d : Desc) (lo n : List Nat) : List (Nat × Nat) :=
  let w := fmtBytes d.fmt
  let row := d.s 0 == 1
  (coordsOf [if row then 1 else n.getD 0 0, n.getD 1 0, n.getD 2 0]).map (fun c =>
    (((placeOf s d ((List.range 3).map (fun k => lo.getD k 0 + c.getD k 0))).bit / 8).toNat, if row then n.getD 0 0 * w else w))

/-- The reads of strip `i` of a stencil (R208): each row of its extended range, and of each plane, once; and what the radius reaches in the
face tensors. -/
def Sten.stripReads (x : Sten) (s : State) (i : Nat) : List (Nat × Nat) :=
  let n := x.inp.e 1
  let lo := rd x.b 20 2 * i
  let hi := min n (lo + rd x.b 20 2)
  let r := x.radius 1
  let from_ := lo - r
  let rows := min n (hi + r) - from_
  boxReads s x.inp [0, from_, 0] [x.inp.e 0, rows, x.inp.e 2] ++
  x.faces.zipIdx.flatMap (fun p => match p.1 with
    | none => []
    | some d =>
      let k := p.2 / 2
      let w := if k ≠ 1 then x.radius k else if p.2 % 2 = 0 then r - lo else r - (n - hi)
      let start := if p.2 % 2 = 0 then d.e k - (if k = 1 then w else x.radius k) else 0
      if w = 0 then []
      else boxReads s d ((List.range 3).map (fun j => if j = k then start else if j = 1 then from_ else 0))
        ((List.range 3).map (fun j => if j = k then w else if j = 1 then rows else d.e j)))

/-- The reads of a stencil, strip after strip. -/
def Sten.reads (x : Sten) (s : State) : List (Nat × Nat) :=
  ((List.range (cdiv (x.inp.e 1) (rd x.b 20 2))).flatMap (x.stripReads s)).filter (fun r => decide (0 < r.2))

/-! ### The context of a chain -/

/-- Where the events of a Nib record come from: MASTER 0 for the vector lanes, 1 for the stencil engine, 3 for the optimiser datapath, 4
for the SM3 engine (Table 15.3). -/
def nibOrigin (x : Ctx) (master a : Nat) : Origin := x.from master (some (a % 2 ^ 48))

/-- The events of values written by a Nib: saturations and values that are not finite (R203, R240). -/
def nibWrote (s : State) (x : Ctx) (nib master a sats nf : Nat) : State :=
  let t := nibEvent s nib 0x07 sats (nibOrigin x master a)
  noteNonfinite (nibEvent t nib 0x06 nf (nibOrigin x master a)) nf

/-- Accesses of a Nib counted as moved bytes, each at its own address (R127, R366). -/
def nibMoved (s : State) (x : Ctx) (nib master : Nat) (rs : List (Nat × Nat)) : State :=
  rs.foldl (fun t r => if r.2 = 0 then t else nibEvent t nib (3 + b2n x.back) r.2 (nibOrigin x master r.1)) s

/-- Addresses and lengths of some writes. -/
def spans (ws : List (Nat × List Byte)) : List (Nat × Nat) := ws.map (fun w => (w.1, w.2.length))

/-- A stencil runs (R206). -/
def runStencil (s : State) (x : Ctx) (d : Sten) : State :=
  let f := if d.fmt = 11 then fp64 else fp32
  let rs := d.reads s
  match readsBad s rs with
  | some l => lineErrorBy s (some (x.l, x.i)) l
  | none =>
    let w := fmtBytes d.fmt
    let pts := coordsOf ((List.range 3).map d.out.e)
    let outs := pts.map (fun p => (((placeOf s d.out p).bit / 8).toNat, d.point s f p))
    let buf := outs.foldl (fun (b : Buf) o => putBytes b o.1 (leBytes w (encE d.fmt o.2.1 rneNat).1)) []
    let nib := homeNib d.out.base % 256
    let sats := (outs.map (fun o => o.2.2)).sum
    let nf := (outs.filter (fun o => o.2.1.nf)).length
    let t := commit (noteReads s rs) (some (x.l, x.i)) (runsOf buf)
    nibWrote (nibMoved t x nib 1 (rs ++ spans (runsOf buf))) x nib 1 d.out.base sats nf

/-! ### DIGEST (Table 8.10) -/

/-- FIRST. -/
def Dig.first (d : Dig) : Bool := bit (rd d.b 17 1) 0
/-- LAST. -/
def Dig.last (d : Dig) : Bool := bit (rd d.b 17 1) 1

/-- Rows and columns of 64 by 64 tiles of a dense tensor, and the other extents (log 42). -/
def denseGrid (d : Desc) : List Nat :=
  (List.range d.rank).map (fun k => if k < 2 then cdiv (d.e k) 64 else d.e k)

/-- The tiles of a tensor in linear order: address and stored bytes. -/
def tilesBytes (s : State) (d : Desc) : List (Nat × List Byte) :=
  if d.sparse then
    (List.range d.tiles).map (fun l =>
      let a := tileOfLinear s d l
      (a, peek s a (tileSpan s d.form d.fmt a)))
  else
    (coordsOf (denseGrid d)).map (fun c =>
      let lo := fun k => if k < 2 then 64 * c.getD k 0 else c.getD k 0
      let n := fun k => min 64 (d.e k - lo k)
      let at_ := fun i j => (List.range d.rank).map (fun k => lo k + (if k = 0 then i else if k = 1 then j else 0))
      let rows := (List.range (if d.rank = 1 then 1 else n 1)).flatMap (fun j =>
        packBytes (fmtBits d.fmt) ((List.range (n 0)).map (fun i =>
          bitsAt s (placeOf s d (at_ i j)).bit (fmtBits d.fmt))))
      (((placeOf s d (at_ 0 0)).bit / 8).toNat, rows))

/-- A byte range cut at the granules of the vaults. -/
def granules (a n : Nat) : List (Nat × Nat) :=
  if n = 0 then []
  else (List.range ((a + n - 1) / 32768 - a / 32768 + 1)).map (fun i =>
    let lo := max a (32768 * (a / 32768 + i))
    (lo, min (a + n) (32768 * (a / 32768 + i + 1)) - lo))

/-- The byte ranges that a record hashes. -/
def Dig.ranges (d : Dig) : List (Nat × Nat) :=
  match d.desc with | none => [(rd d.b 24 8, rd d.b 32 8)] | some t => t.range.toList

/-- The pieces of data in ascending order: the Nib that hashes each, its address and its bytes. -/
def Dig.pieces (d : Dig) (s : State) : List (Nat × Nat × List Byte) :=
  match d.desc with
  | none => (granules (rd d.b 24 8) (rd d.b 32 8)).map (fun g => (homeNib g.1 % 256, g.1, peek s g.1 g.2))
  | some t => (tilesBytes s t).map (fun x => (homeNib x.1 % 256, x))

/-- A digest record decoded and checked (R210). -/
def decodeDigest (s : State) (a : Nat) : Except Bad Dig := do
  let bad := badDesc a
  let b := peek s a 64
  let f := fun i => rd b (24 + 8 * i) 8
  check (decide (rd b 16 1 < 2) && decide (rd b 17 1 < 4) && rd b 18 6 == 0 && f 1 % 64 == 0 && decide (f 0 < 2 ^ 48) &&
    (List.range 3).all (fun i => decide (f (2 + i) < 2 ^ 48)) && f 3 % 32 == 0 && (rd b 16 1 == 0 || f 1 == 0)) bad
  let desc ← if rd b 16 1 = 0 then pure none else (do
    let d ← decodeDesc s (f 0) false false a
    check (!d.distributed) bad
    pure (some d))
  let x : Dig := { b := b, desc := desc }
  check (x.ranges.all (fun r => inStacks r.1 r.2 && installed s r.1 r.2)) bad
  let last := bit (rd b 17 1) 1
  let outs := [(f 2, 128 * 256)] ++ (if last then [(f 3, 32)] ++ (if f 4 = 0 then [] else [(f 4, 32 * 256)]) else [])
  check (outs.all (fun r => installed s r.1 r.2) && (common (x.ranges.map (fun r => (0, r))) (outs.map (fun r => (0, r)))).isNone) bad
  pure x

/-- The data that a record reads. -/
def Dig.dataReads (d : Dig) (s : State) : List (Nat × Nat) :=
  match d.desc with
  | none => [(rd d.b 24 8, rd d.b 32 8)]
  | some t =>
    if t.sparse then spans (tilesBytes s t)
    else (coordsOf ((List.range t.rank).map t.e)).map (fun c =>
      let b := (placeOf s t c).bit
      ((b / 8).toNat, ((b + fmtBits t.fmt + 7) / 8 - b / 8).toNat))

/-- The state entries that a record continues. -/
def Dig.stateReads (d : Dig) (s : State) : List (Nat × Nat) :=
  let ks := (d.pieces s).map (fun p => p.1)
  if d.first then [] else ((List.range 256).filter (fun k => d.last || ks.contains k)).map (fun k => (rd d.b 40 8 + 128 * k, 128))

/-- The reads of a record. -/
def Dig.reads (d : Dig) (s : State) : List (Nat × Nat) := d.dataReads s ++ d.stateReads s

/-- A digest continued with more bytes. -/
def NibDigest.absorb (d : NibDigest) (bs : List Byte) : NibDigest :=
  let b := d.tail ++ bs
  let n := b.length / 64
  { regs := sm3Blocks n d.regs b, tail := b.drop (64 * n), len := d.len + bs.length }

/-- A digest before any byte. -/
def NibDigest.start : NibDigest := { regs := sm3Init }

/-- The digest of all that was absorbed. -/
def NibDigest.finish (d : NibDigest) : List Byte := sm3Finish d.regs d.tail d.len

/-- What stops a digest: a line that fails, or the first check that a sparse tile fails (R104, R211); the tiles are read one after
another, each up to what its header says (R98). -/
def Dig.bad (d : Dig) (s : State) : Option Bad :=
  let line := fun l => ({ code := 0x0B, addr := 64 * l } : Bad)
  match d.desc with
  | none => (readsBad s (d.reads s)).map line
  | some t =>
    if !t.sparse then (readsBad s (d.reads s)).map line
    else
      ((List.range t.tiles).findSome? (fun l =>
        let a := tileOfLinear s t l
        match badLine s a (tileSpan s t.form t.fmt a) with
        | some k => some (line k)
        | none => tileBad s t.form t.fmt a none false none (some (homeNib a % 256)))).or ((readsBad s (d.stateReads s)).map line)

/-- The state entry of Nib `k`. -/
def Dig.entry (d : Dig) (k : Nat) : Nat := rd d.b 40 8 + 128 * k

/-- A digest record runs (R211). The stored form of a Nib's state is free (log 40). -/
def runDigest (s : State) (x : Ctx) (d : Dig) : State × Option Bad :=
  match d.bad s with
  | some b => if b.code = 0x0B then (lineErrorBy s (some (x.l, x.i)) (b.addr / 64), none) else (s, some b)
  | none =>
      let ks := List.range 256
      let ps := d.pieces s
      let prev := fun k => if d.first then NibDigest.start else tget s.digests (d.entry k) NibDigest.start
      let mine := fun k => ((ps.filter (fun p => p.1 == k)).map (fun p => p.2.2)).flatten
      let next := ks.map (fun k => (prev k).absorb (mine k))
      let at_ := fun k => next.getD k NibDigest.start
      let t := noteReads s (d.reads s)
      let t := ks.foldl (fun (u : State) k =>
        if d.first || !(mine k).isEmpty then
          let f := freshBytes 128 u
          commit { f.2 with digests := tput f.2.digests (d.entry k) (at_ k) } (some (x.l, x.i)) [(d.entry k, f.1)]
        else u) t
      let out := fun k => if (at_ k).len = 0 then List.replicate 32 (0 : Byte) else (at_ k).finish
      let t := if d.last then
          commit t (some (x.l, x.i)) ((rd d.b 48 8, sm3 ((ks.filter (fun k => (at_ k).len ≠ 0)).flatMap out)) ::
            (if rd d.b 56 8 = 0 then [] else [(rd d.b 56 8, ks.flatMap out)]))
        else t
      (ks.foldl (fun (u : State) k =>
        let n := (mine k).length
        if n = 0 then u else nibEvent u k 0x1C n (nibOrigin x 4 (rd d.b 24 8)))
        (ps.foldl (fun u p => nibMoved u x p.1 4 [(p.2.1, p.2.2.length)]) t), none)

/-! ### Buckets (R213, R214) -/

/-- Values in a bucket. -/
def bucketVals : Nat := 16352

/-- The exponent of a bucket (R214). -/
def bucketExp (vs : List Val) : Int :=
  (vs.foldl (fun (r : Option Int) v =>
    match v with
    | .fin _ m e => if m = 0 then r else
        let x := clampI (-127) 127 (expo m e - 14)
        some (match r with | some y => max x y | none => x)
    | _ => r) none).getD 0

/-- The bytes of a bucket of `vs`, with the values not finite and the saturations. -/
def encodeBucket (fmt step index : Nat) (vs : List Val) : List Byte × Nat × Nat :=
  let x := bucketExp vs
  let es := vs.map (fun v => encE fmt (v.scale (-x)) rneNat)
  let nf := (vs.filter Val.nf).length
  (leBytes 2 0x4B42 ++ leBytes 1 fmt ++ leBytes 1 (unsint 8 x) ++ leBytes 4 step ++ leBytes 4 index ++
    leBytes 2 vs.length ++ leBytes 1 (b2n (decide (0 < nf))) ++ leBytes 49 0 ++
    es.flatMap (fun e => leBytes 2 e.1) ++ List.replicate (2 * (bucketVals - vs.length)) 0,
   nf, (es.filter (fun e => e.2)).length)

/-- A stored value of a bucket, decoded (R214). -/
def decodeBucket (fmt x stored : Nat) : Val × Bool := r32 ((decE fmt stored).scale (sint 8 x))

/-! ### REDUCE (Table 9.2) -/

/-- OUT_FP32. -/
def Red.fp32 (d : Red) : Bool := bit (rd d.b 1 1) 0
/-- IN_COUNT. -/
def Red.inputs (d : Red) : Nat := rd d.b 2 1
/-- WIRE_FMT. -/
def Red.wire (d : Red) : Nat := rd d.b 3 1
/-- BUCKETS. -/
def Red.buckets (d : Red) : Nat := rd d.b 4 4
/-- TILE_V. -/
def Red.tileV (d : Red) : Nat := rd d.b 8 2
/-- INPUT_j. -/
def Red.input (d : Red) (j : Nat) : Nat := rd d.b (24 + 8 * j) 8

/-- TILE_V of R221 for a sparse form. -/
def tileVOk (form v : Nat) : Bool := if form = 1 then v == 2048 else v % 64 == 0 && decide (64 ≤ v) && decide (v ≤ 4096)

/-- A reduction record decoded and checked (R216). -/
def decodeReduce (s : State) (x : Ctx) : Except Bad Red := do
  let a := x.k.op % 2 ^ 48
  let bad := badDesc a
  check (installed s a 128 && decide (x.k.op < 2 ^ 48)) bad
  let b := peek s a 128
  let n := rd b 2 1
  let buckets := rd b 4 4
  let f := fun i => rd b (16 + 8 * i) 8
  let local_ := bit (rd b 1 1) 1
  check (rd b 0 1 == 1 && decide (rd b 1 1 < 4) && decide (1 ≤ n) && decide (n ≤ 8) && (rd b 3 1 == 8 || rd b 3 1 == 9) &&
    decide (1 ≤ buckets) && decide (buckets ≤ 16777216) && rd b 10 6 == 0 && rd b 88 40 == 0 &&
    (List.range 9).all (fun i => decide (f i < 2 ^ 48)) && (List.range 8).all (fun j => decide (j < n) || f (1 + j) == 0)) bad
  let tiles ← if local_ then (do
      let d ← decodeDesc s (f 1) false false a
      check (d.sparse && (List.range d.tiles).all (tileKnown d) && tileVOk d.form (rd b 8 2)) bad
      pure (some d))
    else (do
      check (rd b 8 2 == 0) bad
      pure none)
  let size := 32768 * buckets
  let bucketOk := fun p => p % 32768 == 0 && inStacks p size && installed s p size
  let outSize := if bit (rd b 1 1) 0 then 4 * bucketVals * buckets else size
  let ins := (List.range n).filter (fun j => !(local_ && j == 0))
  check (ins.all (fun j => bucketOk (f (1 + j))) &&
    (if bit (rd b 1 1) 0 then inStacks (f 0) outSize && installed s (f 0) outSize else bucketOk (f 0))) bad
  let self := s.glob.deviceId
  let ranges := ins.map (fun j => (self, f (1 + j), size)) ++ (match tiles with | some d => devRanges self d | none => [])
  check ((common ranges [(self, f 0, outSize)]).isNone) bad
  pure { at_ := a, b := b, tiles := tiles }

/-- The bucket of an input. -/
def Red.bucketAt (d : Red) (j i : Nat) : Nat := d.input j + 32768 * i

/-- The inputs that are bucket arrays. -/
def Red.arrays (d : Red) : List Nat := (List.range d.inputs).filter (fun j => !(d.tiles.isSome && j == 0))

/-- COUNT of bucket `i`: what the first bucket array holds, or the elements of the tiles that fall in it. -/
def Red.count (d : Red) (s : State) (i : Nat) : Nat :=
  match d.arrays.head?, d.tiles with
  | some j, _ => min bucketVals (peekN s (d.bucketAt j i + 12) 2)
  | none, some t => min bucketVals (t.tiles * d.tileV - bucketVals * i)
  | none, none => 0

/-- The header check of R217. -/
def Red.headerBad (d : Red) (s : State) (i : Nat) : Option Bad :=
  d.arrays.findSome? (fun j =>
    let h := peek s (d.bucketAt j i) 64
    if rd h 0 2 == 0x4B42 && rd h 2 1 == d.wire && decide (rd h 14 1 < 2) && rd h 15 49 == 0 &&
       rd h 4 4 == s.job.step && rd h 8 4 == i && rd h 12 2 == peekN s (d.bucketAt (d.arrays.headD 0) i + 12) 2 then none
    else some { code := 0x11, addr := d.bucketAt j i, detail := j + i * 16 })

/-- The tiles that bucket `i` draws on. -/
def Red.tilesFor (d : Red) (s : State) (t : Desc) (i : Nat) : List Nat :=
  let n := d.count s i
  let v := max 1 d.tileV
  if n = 0 then []
  else
    let lo := bucketVals * i / v
    ((List.range ((bucketVals * i + n - 1) / v - lo + 1)).map (fun k => lo + k)).filter (fun l => decide (l < t.tiles))

/-- Stored values of a tile (R221). -/
def valueCount (s : State) (t : Desc) (a : Nat) : Nat := if t.form = 1 then 2048 else peekN s (a + 4) 2 % 8192

/-- The checks of the tiles of bucket `i` (R221). -/
def Red.tileFails (d : Red) (s : State) (t : Desc) (i nib : Nat) : Option Bad :=
  (d.tilesFor s t i).findSome? (fun l =>
    let a := tileOfLinear s t l
    match tileBad s t.form t.fmt a none false none (some nib) with
    | some b => some b
    | none =>
      let n := valueCount s t a
      if d.tileV < n then
        some { code := 4, addr := a, detail := tileDetail (0x40, 0, n, d.tileV) false, nib := some nib } else none)

/-- Value `p` of input `j` in bucket `i`. -/
def Red.value (d : Red) (s : State) (loaded : Tbl Tile) (i j p : Nat) : Val × Bool :=
  if d.tiles.isSome && j == 0 then
    let e := bucketVals * i + p
    let t := tget loaded (e / max 1 d.tileV) Tile.none_
    (t.vals.getD (e % max 1 d.tileV) Val.zero, false)
  else
    let a := d.bucketAt j i
    decodeBucket d.wire (peekN s (a + 3) 1) (peekN s (a + 64 + 2 * p) 2)

/-- The tiles that a reduction reads. -/
def Red.tileReads (d : Red) (s : State) (i : Nat) : List (Nat × Nat) :=
  match d.tiles with
  | some t => (d.tilesFor s t i).map (fun l => let a := tileOfLinear s t l; (a, tileSpan s t.form t.fmt a))
  | none => []

/-- Bucket `i` of a reduction (R217, R218), with what other devices hold of its tiles. -/
def reduceBucket (s : State) (f : Far) (x : Ctx) (d : Red) (i : Nat) : State :=
  let v := withFar s f
  let out := rd d.b 16 8 + (if d.fp32 then 4 * bucketVals * i else 32768 * i)
  let nib := homeNib out % 256
  let rs := d.arrays.map (fun j => (d.bucketAt j i, 32768)) ++ d.tileReads v i
  match readsBad s rs with
  | some l => lineErrorBy s (some (x.l, x.i)) l
  | none =>
    match d.headerBad v i with
    | some b => failStroke s x.l x.i b
    | none =>
      match d.tiles.bind (fun t => d.tileFails v t i nib) with
      | some b => failStroke s x.l x.i b
      | none =>
        let loaded : Tbl Tile := match d.tiles with
          | some t => (d.tilesFor v t i).map (fun l => (l, loadTile v t.form t.fmt (tileOfLinear v t l)))
          | none => []
        let vs := (List.range (d.count v i)).map (fun p =>
          let ins := (List.range d.inputs).map (fun j => d.value v loaded i j p)
          (tree ins, (ins.filter (fun v => v.2)).length))
        let enc := encodeBucket d.wire s.job.step i (vs.map (fun v => v.1.1))
        let bs := if d.fp32 then vs.flatMap (fun v => leBytes 4 v.1.1.bits32) else enc.1
        let sats := (vs.filter (fun v => v.1.2)).length + (if d.fp32 then 0 else enc.2.2)
        let t := commit (noteReads s rs) (some (x.l, x.i)) [(out, bs)]
        nibWrote (nibMoved t x nib 0 (rs ++ [(out, bs.length)])) x nib 0 out sats enc.2.1

/-- REDUCE (R215 to R221): the buckets in ascending order, once what other devices hold of the tiles is here (R163, log 49). -/
def opReduce (s : State) (l i : Nat) : State :=
  inAbortCycle s (fun s =>
  match ctxOf s l i 7 with
  | none => s
  | some x =>
    match x.run.dec with
    | .reduce d =>
      let e := { d with tiles := d.tiles.map (fun t => t.virt s.glob.deviceId) }
      let g := gather s (strokeXfer l i) (fun v => (List.range e.buckets).flatMap (e.tileReads v))
      match g.2 with
      | none => g.1
      | some f =>
        let t := (List.range e.buckets).foldl (fun u k => if u.frame.aborted then u else reduceBucket u f x e k) g.1
        if t.frame.aborted then t else doneRun t l i
    | _ => s)

/-- REDUCE. -/
def execReduce (l i : Nat) (s : State) : Host.Outcome State Fault Refusal := whenAlive (.reduce l i) s (opReduce s l i)

/-! ### OPTIMISER (Table 9.4) -/

/-- GROUP. -/
def Opt.group (d : Opt) : Nat := rd d.b 16 2
/-- WRITE_W. -/
def Opt.writeW (d : Opt) : Bool := bit (rd d.b 19 1) 1
/-- The weight format: the tensor's, or that of the dense array (log 39). -/
def Opt.fmt (d : Opt) : Nat :=
  match d.desc with
  | some t => t.fmt
  | none => [8, 9, 1, 2].getD (Config.denseWeight d.at_ % 4) 8

/-- The address of an entry of the parameter-group table. -/
def groupAt (s : State) (g : Nat) : Nat := s.glob.paramTable + 32 * g

/-- An optimiser record decoded and checked (R223). -/
def decodeOptimiser (s : State) (a : Nat) : Except Bad Opt := do
  let bad := badDesc a
  let b := peek s a 128
  let f := fun i => rd b (24 + 8 * i) 8
  let sparse := bit (rd b 19 1) 0
  check (decide (rd b 16 2 < 4096) && decide (rd b 18 1 < 2) && decide (rd b 19 1 < 4) && !(of32 (rd b 20 4)).nf &&
    (List.range 5).all (fun i => decide (f i < 2 ^ 48)) && rd b 74 54 == 0) bad
  let desc ← if sparse then (do
      let d ← decodeDesc s (f 0) false false a
      check (d.sparse && (List.range d.tiles).all (tileKnown d) && (d.fmt == 8 || d.fmt == 9 || d.fmt == 1 || d.fmt == 2) && f 5 == 0 &&
        tileVOk d.form (rd b 72 2)) bad
      pure (some d))
    else (do
      check (rd b 72 2 == 0 && decide (1 ≤ f 5) && decide (f 5 ≤ 2 ^ 40)) bad
      pure none)
  let x : Opt := { at_ := a, b := b, desc := desc }
  let size := match desc with | some d => 16384 * d.tiles | none => 4 * f 5
  let grads := match desc with | some d => rd b 72 2 * d.tiles | none => f 5
  let gsize := if rd b 18 1 = 1 then 4 * grads else 32768 * cdiv grads bucketVals
  check ((List.range 3).all (fun i => installed s (f (1 + i)) size) && installed s (f 4) gsize &&
    (desc.isSome || !x.writeW || installed s (f 0) (fmtBytes x.fmt * f 5)) && installed s (groupAt s (rd b 16 2)) 32) bad
  pure x

/-- One parameter: the offset of its entries, the element of the gradient, and the bit address of its weight. -/
structure Param where
  off : Nat
  g : Nat
  w : Nat

/-- The parameters of a record, in ascending order. -/
def Opt.params (d : Opt) (s : State) : List Param :=
  match d.desc with
  | none => (List.range (rd d.b 64 8)).map (fun i => { off := 4 * i, g := i, w := 8 * (rd d.b 24 8 + fmtBytes d.fmt * i) })
  | some t =>
    let w := fmtBits t.fmt
    (List.range t.tiles).flatMap (fun l =>
      let a := tileOfLinear s t l
      (List.range (valueCount s t a)).map (fun v =>
        { off := 16384 * l + 4 * v, g := rd d.b 72 2 * l + v
          w := 8 * a + (if t.form = 1 then 8 * (groupBytes t.fmt * (v / 8) + 1) + w * (v % 8)
            else 8 * (256 + 8 * peekN s (a + 7) 1) + w * v) }))

/-- The gradient of an element: FP32, or of a bucket (log 41). -/
def Opt.grad (d : Opt) (s : State) (e : Nat) : Sat :=
  let base := rd d.b 56 8
  if rd d.b 18 1 = 1 then lit (of32 (peekN s (base + 4 * e) 4))
  else
    let a := base + 32768 * (e / bucketVals)
    let stored := peekN s (a + 64 + 2 * (e % bucketVals)) 2
    let fmt := peekN s (a + 2) 1
    if fmt = 8 || fmt = 9 then let r := decodeBucket fmt (peekN s (a + 3) 1) stored; (r.1, b2n r.2)
    else lit (of32 (Config.looseGrad stored))

/-- x^t in binary64 by square-and-multiply over the bits of `t` from the most significant (R224). -/
def powBits (x : Val) : Nat → Nat → Val
  | 0, _ => .fin false 1 0
  | n + 1, t =>
    let half := powBits x n (t / 2)
    let sq := (half.mul half).ieee fp64
    if t % 2 = 1 then (sq.mul x).ieee fp64 else sq

/-- The constants of a group (R224). -/
structure Group where
  lr : Val
  b1 : Val
  b2 : Val
  eps : Val
  wd : Val
  c1 : Val
  c2 : Val
  d1 : Val
  d2 : Val

/-- A group entry as a record reads it. -/
def readGroup (s : State) (g : Nat) : Group :=
  let f := fun i => of32 (peekN s (groupAt s g + 4 * i) 4)
  let t := peekN s (groupAt s g + 20) 4 + 1
  let one : Val := .fin false 1 0
  let n := Nat.log2 t + 1
  { lr := f 0, b1 := f 1, b2 := f 2, eps := f 3, wd := f 4
    c1 := (r32 (one.add (powBits (f 1) n t).opp)).1, c2 := (r32 (one.add (powBits (f 2) n t).opp)).1
    d1 := (r32 (one.add (f 1).opp)).1, d2 := (r32 (one.add (f 2).opp)).1 }

/-- What one parameter becomes (R224): m, v, w, and the narrowed weight's code, with the saturations. -/
def updateParam (k : Group) (mul : Val) (fmt : Nat) (writeW : Bool) (g : Sat) (m v w : Val) : Val × Val × Val × Nat × Nat :=
  let g := nMul (lit mul) g
  let m' := nAdd (nMul (lit k.b1) (lit m)) (nMul (lit k.d1) g)
  let gg := nMul (lit g.1) (lit g.1)
  let v' := nAdd (nMul (lit k.b2) (lit v)) (nMul (lit k.d2) gg)
  let u := nDiv (nDiv (lit m'.1) (lit k.c1)) (nAdd (nSqrt (nDiv (lit v'.1) (lit k.c2))) (lit k.eps))
  let s := nMul (lit k.lr) (nAdd u (nMul (lit k.wd) (lit w)))
  let w' := nAdd (lit w) (s.1.opp, s.2)
  let c := encE fmt w'.1 rneNat
  (m'.1, v'.1, w'.1, c.1, m'.2 + v'.2 + w'.2 + (if writeW then b2n c.2 else 0))

/-- A parameter group whose stored LR is of another step (R226): counted once for each group and step. -/
def noteStale (s : State) (g : Nat) : State :=
  if peekN s (groupAt s g + 24) 4 = s.job.step || s.job.stale.contains (g, s.job.step) then s
  else devEvent { s with job.stale := s.job.stale ++ [(g, s.job.step)] } 0x49 1

/-- The tiles of a sparse weight that fail their checks. -/
def Opt.bad (d : Opt) (s : State) (nib : Nat) : Option Bad :=
  match d.desc with
  | none => none
  | some t => (List.range t.tiles).findSome? (fun l =>
      let a := tileOfLinear s t l
      match tileBad s t.form t.fmt a none false none (some nib) with
      | some b => some b
      | none =>
        let n := valueCount s t a
        if rd d.b 72 2 < n then
          some { code := 4, addr := a, detail := tileDetail (0x40, 0, n, rd d.b 72 2) false, nib := some nib } else none)

/-- The tiles of a sparse weight. -/
def Opt.tileReads (d : Opt) (s : State) : List (Nat × Nat) :=
  match d.desc with
  | some t => (List.range t.tiles).map (fun l => let a := tileOfLinear s t l; (a, tileSpan s t.form t.fmt a))
  | none => []

/-- Array `i` of a record: 0 the weights, 1 the master copy, 2 and 3 the moments, 4 the gradient. -/
def Opt.base (d : Opt) (i : Nat) : Nat := rd d.b (24 + 8 * i) 8

/-- The reads of a record for its parameters. -/
def Opt.reads (d : Opt) (s : State) (ps : List Param) : List (Nat × Nat) :=
  let gs := match ps.getLast? with
    | none => 0
    | some p => if rd d.b 18 1 = 1 then 4 * (p.g + 1) else 32768 * cdiv (p.g + 1) bucketVals
  (List.range 3).flatMap (fun i => spans (runsOf (ps.foldl (fun (b : Buf) p => putBytes b (d.base (1 + i) + p.off) (leBytes 4 0)) []))) ++
    [(d.base 4, gs), (groupAt s d.group, 32)] ++ d.tileReads s

/-- What the parameters of a record become (R224). -/
def Opt.results (d : Opt) (s : State) (ps : List Param) : List (Param × Val × Val × Val × Nat × Nat) :=
  let k := readGroup s d.group
  let mem := fun i (p : Param) => of32 (peekN s (d.base (1 + i) + p.off) 4)
  ps.map (fun p => (p, updateParam k (of32 (rd d.b 20 4)) d.fmt d.writeW (d.grad s p.g) (mem 1 p) (mem 2 p) (mem 0 p)))

/-- The bytes that a record writes. -/
def Opt.writes (d : Opt) (s : State) (res : List (Param × Val × Val × Val × Nat × Nat)) : Buf :=
  res.foldl (fun (b : Buf) r =>
    let b := putBytes b (d.base 1 + r.1.off) (leBytes 4 r.2.2.2.1.bits32)
    let b := putBytes b (d.base 2 + r.1.off) (leBytes 4 r.2.1.bits32)
    let b := putBytes b (d.base 3 + r.1.off) (leBytes 4 r.2.2.1.bits32)
    if d.writeW then putBits s b (r.1.w : Nat) (fmtBits d.fmt) r.2.2.2.2.1 else b) ([] : Buf)

/-- An optimiser record whose step is not skipped (R224), with what other devices hold of its weight. -/
def updateWeights (s : State) (f : Far) (x : Ctx) (d : Opt) : State × Option Bad :=
  let v := withFar s f
  let nib := homeNib (d.base 1) % 256
  match d.bad v nib with
  | some b => (s, some b)
  | none =>
    let ps := d.params v
    let rs := d.reads v ps
    match readsBad s rs with
    | some l => (lineErrorBy s (some (x.l, x.i)) l, none)
    | none =>
      let res := d.results v ps
      let runs := runsOf (d.writes v res)
      let nf := (res.map (fun r => b2n r.2.1.nf + b2n r.2.2.1.nf + b2n r.2.2.2.1.nf +
        (if d.writeW then b2n (decE d.fmt r.2.2.2.2.1).nf else 0))).sum
      let sats := (res.map (fun r => r.2.2.2.2.2)).sum
      let t := commitAll (noteReads s rs) (strokeXfer x.l x.i) runs
      let t := { t with job.optGroups := insertNat d.group t.job.optGroups }
      (nibWrote (nibMoved t x nib 3 (rs ++ spans runs)) x nib 3 (d.base 1) sats nf, none)

/-- An optimiser record runs (R224); skipped with its step (R240). None: it waits for what other devices hold of its weight. -/
def runOptimiser (s : State) (x : Ctx) (d : Opt) : State × Option (Option Bad) :=
  let s := noteStale s d.group
  if s.job.skipped.contains s.job.step then (s, some none)
  else
    let e := { d with desc := d.desc.map (fun t => t.virt s.glob.deviceId) }
    let g := gather s (strokeXfer x.l x.i) e.tileReads
    match g.2 with
    | none => (g.1, none)
    | some f => let r := updateWeights g.1 f x e; (r.1, some r.2)

/-! ### The records of a chain as commands -/

/-- A record decoded. -/
def decodeNib (s : State) (a : Nat) : Except Bad NibRec :=
  let op := peekN s a 1
  if op = 1 then (decodeStencil s a).map .stencil
  else if op = 2 then (decodeDigest s a).map .digest else (decodeOptimiser s a).map .optimiser

/-- The records of a chain, decoded (R202). -/
def decodeChain (s : State) (x : Ctx) : Except Bad (List NibRec) := do
  check (decide (x.k.op < 2 ^ 48)) (badDesc (x.k.op % 2 ^ 48))
  let as_ ← nibChain s 4096 x.k.op
  as_.mapM (decodeNib s)

/-- OPCODE. -/
def NibRec.op : NibRec → Nat
  | .stencil _ => 1
  | .digest _ => 2
  | .optimiser _ => 3

/-- The Nibs that a record runs on. -/
def NibRec.nibs (r : NibRec) (s : State) : List Nat :=
  match r with
  | .stencil d => [homeNib d.out.base % 256]
  | .digest d => ((d.pieces s).map (fun p => p.1)).eraseDups
  | .optimiser d => [homeNib (rd d.b 32 8) % 256]

/-- A record runs; none where it waits. -/
def NibRec.run (r : NibRec) (s : State) (x : Ctx) : State × Option (Option Bad) :=
  match r with
  | .stencil d => (runStencil s x d, some none)
  | .digest d => let t := runDigest s x d; (t.1, some t.2)
  | .optimiser d => runOptimiser s x d

/-- The records of a stroke that have run. -/
def markRec (s : State) (l i k : Nat) : State :=
  { s with frame.prog := s.frame.prog.map (fun r => if r.folio == l && r.idx == i then { r with recs := insertNat k r.recs } else r) }

/-- Record `k` of a chain (R202): it runs after the earlier records of its Nibs, once; the stroke's effect is made when
every record has run. -/
def opNibRecord (s : State) (l i k opcode : Nat) : State :=
  inAbortCycle s (fun s =>
  match ctxOf s l i 4 with
  | none => s
  | some x =>
    match x.run.dec with
    | .chain rs =>
      match rs[k]? with
      | none => s
      | some r =>
        let waits := (List.range k).any (fun j => !x.run.recs.contains j &&
          (match rs[j]? with | some q => (q.nibs s).any (fun n => (r.nibs s).contains n) | none => false))
        if r.op ≠ opcode || x.run.recs.contains k || waits then s
        else
          let t := r.run s x
          match t.2 with
          | none => t.1
          | some (some b) => failStroke t.1 l i b
          | some none =>
            if t.1.frame.aborted then t.1
            else
              let u := markRec t.1 l i k
              if (List.range rs.length).all (fun j => j == k || x.run.recs.contains j) then doneRun u l i else u
    | _ => s)

/-- STENCIL. -/
def execStencil (l i k : Nat) (s : State) : Host.Outcome State Fault Refusal :=
  whenAlive (.stencil l i k) s (opNibRecord s l i k 1)
/-- DIGEST. -/
def execDigest (l i k : Nat) (s : State) : Host.Outcome State Fault Refusal :=
  whenAlive (.digest l i k) s (opNibRecord s l i k 2)
/-- OPTIMISER. -/
def execOptimiser (l i k : Nat) (s : State) : Host.Outcome State Fault Refusal :=
  whenAlive (.optimiser l i k) s (opNibRecord s l i k 3)

end Sys2Proof.Machine
end

