-- ==== Sys2Proof/Machine/Job.lean ====
section
/-! DEFINITION. The descriptors (R285 to R298): the fetch, the session, the job's start and end, and what each descriptor of
Table 11.5 does. Each `run…` takes in `rsv` the first reserved byte of the descriptor that is not zero. -/

namespace Sys2Proof.Machine

open Sys2Proof

/-! ### LOAD_IMAGE (R292, R309) -/

/-- The whole LOAD_IMAGE: accepted only in BOOT, by a ROM that boots from PCIe. OWNER_TAG is zero (Table 11.4). -/
def runLoadImage (s : State) (h : Hdr) (rsv : Option Nat) (src bytes : Nat) : State :=
  if degraded s then s
  else match headBad h with
  | some o => complete s h 0x11 o
  | none =>
    if s.glob.jobState ≠ 0 then gate s h false [] none s
    else if s.boot.phase ≠ 1 || s.pins.bootSrc ≠ 0 then complete s h 0x19 0
    else match firstOf [badIf (h.owner ≠ 0) 8, rsv, hostHi s 16 src, badIf (bytes % 64 ≠ 0 || decide (2 ^ 26 < bytes)) 24] with
      | some o => complete s h 0x11 o
      | none => opLoadImage s h src bytes

/-- LOAD_IMAGE. -/
def execLoadImage (h : Hdr) (src bytes : Nat) (s : State) : Host.Outcome State Fault Refusal :=
  whenAlive (.loadImage h src bytes) s (runLoadImage s h none src bytes)

/-! ### Banks and windows of a job -/

/-- A write of the scheduler core, with the errors of the lines that it covers in part (R195). -/
def fwStore (s : State) (a : Nat) (bs : List Byte) : State := (failLines s a bs.length).foldl lineError (store s a bs)

/-- The banks of a Folio window as ranges of its slots: the Folio buffer's, then each Well's (Table 8.1). -/
def bankRanges : List (Nat × Nat) :=
  (List.range 64).map (fun b => (64 * b, 64)) ++
  (List.range 8).flatMap (fun q => (List.range 16).map (fun b => (4096 + 256 * q + 16 * b, 16)))

/-- What the banks that are off held is undefined afterwards (R191). -/
def forgetBanks (s : State) (fb well : Nat) : State :=
  let off := bankRanges.filter (fun r => !bankOn fb well r.1)
  (List.range 64).foldl (fun t l => off.foldl (fun t r =>
    forget t (apBase + 4096 * (8192 * l + r.1)) (apBase + 4096 * (8192 * l + r.1 + r.2)) none) t) s

/-- The bank masks in every ACTIVE Folio (R190). -/
def setBanks (s : State) (fb well : Nat) : State :=
  forgetBanks (((List.range 68).filter (fun n => (folio s n).state = 0)).foldl
    (fun t n => setFolio t n { folio t n with fbOn := fb, wellOn := well }) s) fb well

/-- Every bank of every Folio on (R190, R297). -/
def allBanksOn (s : State) : State :=
  (List.range 68).foldl (fun t n => setFolio t n { folio t n with fbOn := 2 ^ 64 - 1, wellOn := 2 ^ 16 - 1 }) s

/-- Spares of a die with fewer than sixteen ACTIVE Folios become ACTIVE for a job that starts, the lower positions first, until it has
sixteen (R18). Table 1.6 lists no such event (DESIGN CHOICE, log 70). -/
def fillDie (s : State) (d : Nat) : State :=
  let ns := (List.range 17).map (fun p => 17 * d + p)
  let active := (ns.filter (fun n => decide ((folio s n).state = 0))).length
  ((ns.filter (fun n => decide ((folio s n).state = 1))).take (16 - active)).foldl (fun t n => setFolioState t n 0) s

/-- The map of a job's start (R18): a logical Folio that moves brings no scratchpad content with it. One for which its die has
no Folio waits while a Folio of the die is under test (R23). -/
def mapForJob (s : State) : State :=
  let t := mapFolios ((List.range 4).foldl fillDie s)
  let t := { t with folios.waiting := t.folios.unmapped.filter (fun l =>
    match t.scan.running with | some k => k / 17 == l / 16 | none => false) }
  ((List.range 64).filter (fun l => decide (physOf s l ≠ physOf t l))).foldl forgetFolio t

/-- MIRROR_WINDOW over the two mirror slots (R296): writes of the ward, and the reads of a restore. -/
def openMirror (s : State) (b : JobBlock) (ckpt : Nat) : State :=
  setWindow s b.mirrorWindow
    { isOpen := true, base := ckpt + 2 * b.slotBytes, flags := 3, length := 2 * b.slotBytes, gen := 1, srcId := b.ward,
      srcMask := 0xFFFFFF }

/-- A logical Folio moves to a physical one (R18, R182, R191): its window follows, and no content comes with it. -/
def remapFolio (s : State) (x : Nat × Nat) : State :=
  forgetFolio { s with
    folios.map := tset s.folios.map x.1 (mapStart x.1) x.2
    folios.unmapped := s.folios.unmapped.filter (fun l => decide (l ≠ x.1)) } x.1

/-- The remaps that wait for this seam (R18, R235). -/
def applyRemaps (s : State) : State := s.folios.remaps.foldl remapFolio { s with folios.remaps := [] }

/-! ### The end of a job (R297) -/

/-- The held descriptors that an END discards. -/
def HeldOp.ofJob : HeldOp → Bool
  | .stepBegin _ _ | .shapeCell _ _ | .ckptOnce _ | .openWindow _ _ | .closeWindow _ | .pause _ | .resume _ | .param _ => true
  | _ => false

/-- END takes effect: strokes stop, windows close, banks come on, held descriptors of the job complete with BUSY. A remap that
waits for a seam is made (R18), and so is a change of TIME_SOURCE (R303). -/
def endJob (s : State) : State :=
  let t := stopFrames (applyRemaps s)
  let t := match t.time.pendSource with | some v => changeSource t v false | none => t
  let t := allBanksOn (t.job.opened.foldl closeAt t)
  let x := takeHeld t HeldOp.ofJob
  let t := completeAll (completeAll x.2 x.1 0x19) t.job.params 0x19
  settleAct (setJobState { t with
    glob.stackUse := 0xFF
    job := { session := t.job.session, restricted := t.job.restricted, driver := t.job.driver }
    train := {}, experts := {}, scan.asked := none, fab.xfers := t.fab.xfers.filter (fun x => !ckptXfer x)
    frame := { t.frame with current := none, next := none, aborted := false, exceeded := false } } 2)

/-! ### CLAIM and RELEASE (R293 to R295, R298) -/

/-- A session opened or adopted: the completion, then the state. -/
def openSession (s : State) (h : Hdr) (major new : Nat) : State :=
  let r := restrictedFor s major
  let i := (imageOf s.boot.running 2).getD []
  recheckDrains (setJobState (complete { s with job.session := h.owner, job.restricted := r, job.driver := major } h
    (if r then 0x13 else 0) (imgMajor i + imgMinor i * 2 ^ 16)) new)

/-- The whole CLAIM (R293, R295). -/
def runClaim (s : State) (h : Hdr) (rsv : Option Nat) (major flags : Nat) : State :=
  if degraded s || schedAway s then s
  else match headBad h with
  | some o => complete s h 0x11 o
  | none =>
    if s.glob.jobState = 0 then complete s h 0x19 0
    else if h.owner = 0 then complete s h 0x11 8
    else if s.glob.jobState ≠ 1 && s.glob.jobState ≠ 6 then complete s h 0x12 0
    else if s.glob.jobState = 6 && h.owner ≠ s.job.session && !flags.testBit 0 then complete s h 0x12 0
    else match firstOf [rsv, badIf (decide (2 ≤ flags)) 20] with
      | some o => complete s h 0x11 o
      | none =>
        if s.glob.jobState = 1 then openSession s h major 2
        else if h.owner = s.job.session then openSession s h major s.job.savedState
        else openSession (dropSession (endJob s)) h major 2

/-- CLAIM. DRIVER_MINOR is not used. -/
def execClaim (h : Hdr) (major minor flags : Nat) (s : State) : Host.Outcome State Fault Refusal :=
  whenAlive (.claim h major minor flags) s (runClaim s h none major flags)

/-- The session ends with RELEASE: what is still held completes first, and RELEASE last. COUNTER_USER_READ clears (R374). -/
def releaseNow (s : State) (h : Hdr) : State :=
  let t := dropSession s
  complete (setJobState { t with job := {}, cnt.userRead := false, cnt.pendUser := none } 1) h 0 0

/-- The whole RELEASE (R298). -/
def runRelease (s : State) (h : Hdr) (rsv : Option Nat) (flags : Nat) : State :=
  gate s h true [2, 4, 5] (firstOf [rsv, badIf (decide (2 ≤ flags)) 16])
    (if s.glob.jobState = 2 then releaseNow s h
     else if !flags.testBit 0 then complete s h 0x19 0
     else if s.glob.jobState = 5 then releaseNow (endJob s) h
     else hold s h .release)

/-- RELEASE. -/
def execRelease (h : Hdr) (flags : Nat) (s : State) : Host.Outcome State Fault Refusal :=
  whenAlive (.release h flags) s (runRelease s h none flags)

/-! ### JOB_START (R296, Table 11.8) -/

/-- `a` is later than `b` among 48-bit frame numbers (R36). -/
def laterFrame (a b : Nat) : Bool :=
  let d := (a + 2 ^ 48 - b % 2 ^ 48) % 2 ^ 48
  decide (0 < d) && decide (d < 2 ^ 47)

/-- A table of `n` entries of `w` bytes at offset `off` lies in a block of `bytes`. -/
def tableIn (off n w bytes : Nat) : Bool := decide (off + n * w ≤ bytes)

/-- A job block by its fields: `f` gives a field of the header, `id` an entry of a list of device ids at an offset, `reg` a field
of the region table (Table 11.8). -/
def blockBy (f : Nat → Nat → Nat) (id : Nat → Nat → Nat) (reg : Nat → Nat → Nat → Nat) : JobBlock :=
  let ids := fun off n => (List.range n).map (fun i => id off (4 * i))
  { tag := f 4 2, startFrame := f 24 6, startStep := f 32 4, stepFrames := f 36 4, firstDuctus := f 40 2,
    fbMask := f 44 8, wellMask := f 52 2, np1 := f 54 2, ckptInterval := f 56 4, lpMirror := f 60 1,
    mirrorWindow := f 61 1, slotBytes := f 72 8, buddy := f 80 3, ward := f 83 3, restartFrames := f 88 4,
    rollbackWait := f 92 4, devices := ids (f 112 4) (f 96 4), spares := ids (f 116 4) (f 100 4)
    regions := (List.range (f 62 2)).map (fun i => (reg (f 120 4) (16 * i) 8, reg (f 120 4) (16 * i + 8) 8)) }

/-- The job block at `a` in the ring host's memory. -/
def readBlock (s : State) (a : Nat) : JobBlock :=
  let b := hostPeek s a 256
  blockBy (rd b) (fun off i => leNat (hostPeek s (a + off + i) 4)) (fun off i w => leNat (hostPeek s (a + off + i) w))

/-- The header of a block of `n` bytes meets Table 11.8, and its tables lie in it. -/
def headerOk (s : State) (a n : Nat) : Bool :=
  let b := hostPeek s a 256
  decide (256 ≤ n) && rd b 0 4 == 0x4A424F4A && rd b 6 2 == 1 && rd b 14 2 == 0 && decide (rd b 16 4 < 1000000000) &&
  decide (4000 ≤ rd b 20 4) && decide (rd b 20 4 ≤ 4000000) && (s.time.period == 0 || rd b 20 4 == s.time.period) &&
  rd b 30 2 == 0 && decide (1 ≤ rd b 36 4) && decide (rd b 42 1 ≤ 1) && decide (1 ≤ rd b 60 1) && decide (rd b 60 1 ≤ 64) &&
  decide (1 ≤ rd b 62 2) && decide (rd b 62 2 ≤ 240) && rd b 72 8 % 2048 == 0 && rd b 86 2 == 0 &&
  decide (1 ≤ rd b 96 4) && decide (rd b 96 4 < 2 ^ 24) && decide (rd b 100 4 < 2 ^ 24) &&
  tableIn (rd b 112 4) (rd b 96 4) 4 n && tableIn (rd b 116 4) (rd b 100 4) 4 n && tableIn (rd b 120 4) (rd b 62 2) 16 n &&
  tableIn (rd b 124 4) 4096 32 n && zeros b 128 128

/-- The lists, regions and destinations of a block (R228, R296). -/
def listsOk (s : State) (a : Nat) (k : JobBlock) : Bool :=
  let b := hostPeek s a 256
  let u := { s with glob.stackUse := rd b 43 1 }
  (k.devices ++ k.spares).all (fun d => decide (d < 2 ^ 24)) && k.devices.contains s.glob.deviceId &&
  k.regions.all (fun r => r.2 % 64 == 0 && inStacks r.1 r.2 && installed u r.1 r.2) &&
  installed u (rd b 104 8) 131072 &&
  regionOf s (rd b 64 8) == 1 && installed s (rd b 64 8) (max 1 (4 * k.slotBytes))

/-- The NEXT_ID chain from `id`, the `i`-th member: the id at which the check of R428 fails, if any. -/
def walkRotation (s : State) (first k : Nat) : Nat → Nat → Nat → List Nat → Option Nat
  | 0, _, id, seen => if id = first then none else some (seen.headD first)
  | n + 1, i, id, seen =>
    match loadedOf s id with
    | none => some id
    | some d =>
      if seen.contains id || hdrField s d 34 2 ≠ k || hdrField s d 32 2 ≠ i then some id
      else walkRotation s first k n (i + 1) (hdrField s d 36 2) (id :: seen)

/-- The chain check of R428 from FIRST_DUCTUS. -/
def rotationBad (s : State) (first : Nat) : Option Nat :=
  match loadedOf s first with
  | none => some first
  | some d => walkRotation s first (hdrField s d 34 2) (hdrField s d 34 2) 0 first []

/-- A member of the rotation has NP1_COMPAT. -/
def np1Rotation (s : State) (first : Nat) : Bool :=
  match loadedOf s first with
  | none => false
  | some d => (chain s (hdrField s d 34 2) first).any (fun x => (hdrField s x 38 2).testBit 3)

/-- The reads of the replica table, where Colophon is on (R354). -/
def replicaReads (s : State) : List (Nat × Nat) := if s.colo.interval = 0 then [] else realReads s [(s.colo.group, 256)]

/-- The members of the replica table (R354). -/
def replicas (s : State) : List Nat :=
  (List.range (peekN s s.colo.group 1)).map (fun i => peekN s (s.colo.group + 4 + 4 * i) 4)

/-- The replica table meets R354, where Colophon is on. -/
def replicasOk (s : State) : Bool :=
  s.colo.interval == 0 ||
  (inStacks s.colo.group 256 && installed s s.colo.group 256 && decide (2 ≤ peekN s s.colo.group 1) &&
   decide (peekN s s.colo.group 1 ≤ 63) && peekN s (s.colo.group + 1) 3 == 0 &&
   (replicas s).all (fun d => decide (d < 2 ^ 24)) && (replicas s).contains s.glob.deviceId)

/-- The time registers that the block sets (R36, R407). -/
def withEpoch (s : State) (a : Nat) : State :=
  let b := hostPeek s a 256
  { s with time.epochSec := rd b 8 6, time.epochNs := rd b 16 4, time.period := rd b 20 4 }

/-- The completion with which JOB_START refuses a block: status and DATA (R296). -/
def jobBlockBad (s : State) (a n : Nat) : Option (Nat × Nat) :=
  let k := readBlock s a
  if !headerOk s a n || !listsOk s a k then some (0x11, 0)
  else match rotationBad s k.firstDuctus with
    | some id => some (0x11, id)
    | none =>
      if k.np1 ≠ 0 && !np1Rotation s k.firstDuctus then some (0x11, 0)
      else match s.ductus.find? (fun d => !(cond10 s d k.fbMask k.wellMask && cond13 s d k.fbMask k.wellMask)) with
        | some d => some (0x11, d.id)
        | none =>
          if !replicasOk s then some (0x11, 0)
          else if !laterFrame k.startFrame (frameOf (withEpoch s a) s.time.now) then some (0x18, 0) else none

/-- The job accepted: the five steps of R296. -/
def acceptJob (s : State) (h : Hdr) (a : Nat) : State :=
  let k := readBlock s a
  let b := hostPeek s a 256
  let t := withEpoch { s with glob.stackUse := rd b 43 1 } a
  let t := fwStore t (rd b 104 8) (hostPeek s (a + rd b 124 4) 131072)
  let t := { t with
    glob.paramTable := rd b 104 8, glob.abortPolicy := rd b 42 1, glob.ckptBase := rd b 64 8
    job := { session := s.job.session, restricted := s.job.restricted, driver := s.job.driver, blk := k, step := k.startStep
             f0 := k.startFrame, opened := insertNat k.mirrorWindow s.job.opened }
    train := {}, experts := {}, mem.corrCount := [], colo.own := [], colo.got := [], loss.spike := false
    loss.nonfinite := false, frame := { number := frameOf t s.time.now, thrUsed := 0 } }
  let t := setBanks (mapForJob (openMirror t k (rd b 64 8))) k.fbMask k.wellMask
  let u := complete { t with glob.jobState := 3 } h 0 0
  setJobState { u with glob.jobState := s.glob.jobState } 3

/-- The whole JOB_START. -/
def runJobStart (s : State) (h : Hdr) (rsv : Option Nat) (block bytes : Nat) : State :=
  gate s h false [2] (firstOf [rsv, hostHi s 16 block])
    (match s.folios.short with
     | some _ => complete (raiseFault s { code := 0x15, sev := 1, src := 6 }) h 0x15 0
     | none =>
       match readsBad s (replicaReads s) with
       | some l => complete (lineError s l) h 0x0B (lineDetail s (64 * l))
       | none =>
         let t := noteReads s (replicaReads s)
         match jobBlockBad t block bytes with
         | some (st, d) => complete t h st d
         | none => recheckDrains (acceptJob t h block))

/-- JOB_START. -/
def execJobStart (h : Hdr) (block bytes : Nat) (s : State) : Host.Outcome State Fault Refusal :=
  whenAlive (.jobStart h block bytes) s (runJobStart s h none block bytes)

/-! ### Metering, parameters and cells -/

/-- STEPS as an allowance: 0 is no limit. -/
def allowanceOf (n : Nat) : Option Nat := if n = 0 then none else some n

/-- The whole STEP_BEGIN (R297). -/
def runStepBegin (s : State) (h : Hdr) (rsv : Option Nat) (step steps : Nat) : State :=
  gate s h false [3, 4, 5] rsv
    (if s.frame.live then hold s h (.stepBegin step steps)
     else complete { s with job.step := step, job.allowance := allowanceOf steps } h 0 0)

/-- STEP_BEGIN. -/
def execStepBegin (h : Hdr) (step steps : Nat) (s : State) : Host.Outcome State Fault Refusal :=
  whenAlive (.stepBegin h step steps) s (runStepBegin s h none step steps)

/-- An FP32 value that is finite and not negative (Table 9.3). -/
def okNonneg (v : Nat) : Bool := decide (v < 0x7F800000) || v == 0x80000000
/-- An FP32 value in [0, 1). -/
def okBeta (v : Nat) : Bool := decide (v < 0x3F800000) || v == 0x80000000
/-- A finite FP32 value above 0. -/
def okEps (v : Nat) : Bool := decide (0 < v) && decide (v < 0x7F800000)

/-- The offset of the first field that lies outside Table 9.3 or Table 11.5. -/
def paramBad (w : ParamWrite) : Option Nat :=
  let f := fun k => w.fields.testBit k
  firstOf [badIf (decide (4096 ≤ w.group)) 16, badIf (decide (32 ≤ w.fields)) 18, badIf (f 0 && !okNonneg w.lr) 24,
    badIf (f 1 && !okBeta w.beta1) 28, badIf (f 2 && !okBeta w.beta2) 32, badIf (f 3 && !okEps w.eps) 36,
    badIf (f 4 && !okNonneg w.wd) 40]

/-- A parameter-group write applied (R226): the fields of its mask, and LR_STEP with LR. -/
def applyParam (s : State) (w : ParamWrite) : State :=
  let a := groupAt s w.group
  let put := fun (t : State) (k off v : Nat) => if w.fields.testBit k then fwStore t (a + off) (leBytes 4 v) else t
  put (put (put (put (put (put s 0 0 w.lr) 1 4 w.beta1) 2 8 w.beta2) 3 12 w.eps) 4 16 w.wd) 0 24 w.target

/-- The write and the completion of its descriptor. -/
def applyParamDesc (s : State) (x : Held) : State :=
  match x.op with
  | .param w => complete (applyParam s w) x.hdr 0 0
  | _ => s

/-- The group and step that a waiting write names. -/
def HeldOp.paramKey : HeldOp → Option (Nat × Nat)
  | .param w => some (w.group, w.target)
  | _ => none

/-- A checked write (R226): late, at once, or among the 4,096 that wait. -/
def opParamWrite (s : State) (h : Hdr) (w : ParamWrite) : State :=
  let keys := (s.job.params.filterMap (fun x => x.op.paramKey)).eraseDups
  if w.target < s.job.step then complete s h 0x18 0
  else if !s.frame.live then complete (applyParam s w) h 0 0
  else if keys.length < 4096 || keys.contains (w.group, w.target) then
    { s with job.params := s.job.params ++ [{ hdr := h, op := .param w }] }
  else complete s h 0x19 0

/-- The whole PARAM_WRITE. -/
def runParamWrite (s : State) (h : Hdr) (rsv : Option Nat) (w : ParamWrite) : State :=
  gate s h false [3, 4, 5] (firstOf [rsv, paramBad w]) (opParamWrite s h w)

/-- PARAM_WRITE. -/
def execParamWrite (h : Hdr) (w : ParamWrite) (s : State) : Host.Outcome State Fault Refusal :=
  whenAlive (.paramWrite h w) s (runParamWrite s h none w)

/-- The whole SHAPE_CELL (R156): the cell is read from the ring host as the descriptor starts. -/
def runShapeCell (s : State) (h : Hdr) (rsv : Option Nat) (dst src : Nat) : State :=
  let bad := firstOf [rsv, badIf (dst % 64 ≠ 0 || (decide (dst < 2 ^ 48) && !installed s dst 64)) 16, hiAt 16 dst, hostHi s 24 src]
  gate s h false onward bad
    (if s.frame.live then hold s h (.shapeCell dst (hostPeek s src 64))
     else complete (fwStore s dst (hostPeek s src 64)) h 0 0)

/-- SHAPE_CELL. -/
def execShapeCellWrite (h : Hdr) (dst src : Nat) (s : State) : Host.Outcome State Fault Refusal :=
  whenAlive (.shapeCellWrite h dst src) s (runShapeCell s h none dst src)

/-- A mask operation that fails (R135, R195): its completion, and its record where the rule asks for one. -/
def failMaskOp (s : State) (h : Hdr) (e : Bad) : State :=
  let t := if e.code = 0x0B then lineError s (e.addr / 64)
    else if e.code = 3 || e.code = 4 then
      raiseFault s (match e.nib with
        | some n => { code := e.code, sev := 1, valid := 0x28, addr := e.addr, detail := e.detail, nib := n, die := 8 + n / 32,
                      src := 2, key := n }
        | none => { code := e.code, sev := 1, valid := 0x20, addr := e.addr, detail := e.detail, src := 6 })
    else s
  complete t h e.code e.detail

/-- A mask operation of the supervisor goes on (R130, R163): while what other devices hold is not here it is held, and else it is carried
out and completes (log 49). -/
def carryMask (s : State) (x : Held) (rec : Nat) (r : MaskRec) : State :=
  let t := fetchMask s { tag := 0, dst := 0, idx := rec, cls := 1 } r
  match t.2 with
  | none => t.1
  | some (u, e) =>
    let v := { u with rings.held := u.rings.held.erase x }
    match e with
    | some b => failMaskOp v x.hdr b
    | none => complete v x.hdr 0 0

/-- The reads of a mask record and of the descriptors that it names. -/
def maskRecReads (s : State) (rec : Nat) : List (Nat × Nat) := realReads s ((rec, 64) :: descReads s (maskDescs s rec))

/-- The operation of a mask record that the supervisor submits (R130, R195). -/
def opMaskDesc (s : State) (h : Hdr) (rec : Nat) : State :=
  match readsBad s (maskRecReads s rec) with
  | some l => failMaskOp s h { code := 0x0B, addr := 64 * l, detail := lineDetail s (64 * l) }
  | none =>
    let t := noteReads s (maskRecReads s rec)
    match decodeMask t rec with
    | .error e => failMaskOp t h e
    | .ok r =>
      let x : Held := ⟨h, .maskOp rec, false⟩
      if !(farReads ((r.atDev t.glob.deviceId).reads t)).isEmpty && decide (256 ≤ heldCount t) then complete t h 0x19 0
      else carryMask { t with rings.held := t.rings.held ++ [x] } x rec r

/-- The mask operations that wait for a read response go on. -/
def resumeMasks (s : State) : State :=
  s.rings.held.foldl (fun t x =>
    match x.op with
    | .maskOp rec => (match decodeMask t rec with | .ok r => carryMask t x rec r | .error e => failMaskOp { t with rings.held := t.rings.held.erase x } x.hdr e)
    | _ => t) s

/-- READ_RESPONSE_RECEIVE. -/
def execReadResponseReceive (p : Nat) (pkt : Packet) (s : State) : Host.Outcome State Fault Refusal :=
  whenAlive (.readResponseReceive p pkt) s
    (onResponse s p pkt (fun t => if pkt.typ = 2 && pkt.status = 0 then resumeMasks (opReadResponse t pkt) else t))

/-- The whole MASK_OP. -/
def runMaskOp (s : State) (h : Hdr) (rsv : Option Nat) (rec : Nat) : State :=
  gate s h false [2, 3, 5] (firstOf [rsv, hiAt 16 rec]) (opMaskDesc s h rec)

/-- MASK_OP. -/
def execMaskOp (h : Hdr) (rec : Nat) (s : State) : Host.Outcome State Fault Refusal :=
  whenAlive (.maskOp h rec) s (runMaskOp s h none rec)

/-! ### Checkpoints, windows, counters, tests and updates -/

/-- The whole CHECKPOINT with MODE ONCE (R229): held until its checkpoint commits or is aborted. -/
def runCheckpointOnce (s : State) (h : Hdr) (rsv : Option Nat) : State := gate s h false [4, 5] rsv (hold s h (.ckptOnce none))

/-- CHECKPOINT ONCE. -/
def execCheckpointOnce (h : Hdr) (s : State) : Host.Outcome State Fault Refusal :=
  whenAlive (.checkpointOnce h) s (runCheckpointOnce s h none)

/-- The whole CHECKPOINT with MODE INTERVAL (R228). -/
def runCheckpointInterval (s : State) (h : Hdr) (rsv : Option Nat) (n : Nat) : State :=
  gate s h false [4, 5] rsv (complete { s with job.blk.ckptInterval := n } h 0 0)

/-- CHECKPOINT INTERVAL. -/
def execCheckpointInterval (h : Hdr) (n : Nat) (s : State) : Host.Outcome State Fault Refusal :=
  whenAlive (.checkpointInterval h n) s (runCheckpointInterval s h none n)

/-- The whole OPEN_WINDOW (R269). -/
def runOpenWindow (s : State) (h : Hdr) (rsv : Option Nat) (w : Nat) (entry : List Byte) : State :=
  gate s h false onward (firstOf [rsv, windowBad entry])
    (if s.frame.live then hold s h (.openWindow w entry) else applyOpen s h w entry)

/-- OPEN_WINDOW. -/
def execOpenWindow (h : Hdr) (w : Nat) (entry : List Byte) (s : State) : Host.Outcome State Fault Refusal :=
  whenAlive (.openWindow h w entry) s (runOpenWindow s h none w entry)

/-- The whole CLOSE_WINDOW (R270). -/
def runCloseWindow (s : State) (h : Hdr) (rsv : Option Nat) (w : Nat) : State :=
  gate s h false onward rsv (if s.frame.live then hold s h (.closeWindow w) else applyClose s h w)

/-- CLOSE_WINDOW. -/
def execCloseWindow (h : Hdr) (w : Nat) (s : State) : Host.Outcome State Fault Refusal :=
  whenAlive (.closeWindow h w) s (runCloseWindow s h none w)

/-- The whole COUNTER_SNAPSHOT (R371): at the next seam, or at once when no frame runs. -/
def runCounterSnapshot (s : State) (h : Hdr) (rsv : Option Nat) : State :=
  gate s h true onward rsv (if s.frame.live || captureBusy s then hold s h .snapshot else complete (capture s false true) h 0 0)

/-- COUNTER_SNAPSHOT. -/
def execCounterSnapshot (h : Hdr) (s : State) : Host.Outcome State Fault Refusal :=
  whenAlive (.counterSnapshot h) s (runCounterSnapshot s h none)

/-- A Folio due for test (R359): a second request merges with the first, and the earlier deadline applies. -/
def addDue (l : List DueTest) (n at_ : Nat) : List DueTest :=
  if l.any (fun d => d.folio == n) then
    l.map (fun d => if d.folio = n then { d with deadlineAt := min d.deadlineAt at_ } else d)
  else l ++ [{ folio := n, deadlineAt := at_ }]

/-- The whole TEST_REQUEST (R357, R359). -/
def runTestRequest (s : State) (h : Hdr) (rsv : Option Nat) (fol deadline : Nat) : State :=
  gate s h true [2, 4, 5] (firstOf [rsv, badIf (decide (68 ≤ fol)) 16])
    (if !s.scan.available then complete s h 0x11 (2 ^ 63 + s.scan.failId)
     else if 256 ≤ heldCount s then complete s h 0x19 0
     else
       let at_ := timeSec s.time.now + (if deadline = 0 then 86400 else deadline)
       hold { s with scan.due := addDue s.scan.due fol at_ } h (.test fol))

/-- TEST_REQUEST. -/
def execTestRequest (h : Hdr) (fol deadline : Nat) (s : State) : Host.Outcome State Fault Refusal :=
  whenAlive (.testRequest h fol deadline) s (runTestRequest s h none fol deadline)

/-- The whole UPDATE_STAGE (R321); it waits while the security core switches (R324). -/
def runUpdateStage (s : State) (h : Hdr) (rsv : Option Nat) (src bytes : Nat) : State :=
  gate s h true [2, 4, 5] (firstOf [rsv, hostHi s 16 src])
    (if coreSwitching s 0 then hold s h (.stage src bytes) else opStage s h src bytes)

/-- UPDATE_STAGE. -/
def execUpdateStage (h : Hdr) (src bytes : Nat) (s : State) : Host.Outcome State Fault Refusal :=
  whenAlive (.updateStage h src bytes) s (runUpdateStage s h none src bytes)

/-- The whole UPDATE_ACTIVATE (R322): CORE and FOLIO within Table 11.5. It waits while the security core switches (R324). -/
def runUpdateActivate (s : State) (h : Hdr) (rsv : Option Nat) (c f : Nat) : State :=
  gate s h true [2, 4, 5] (firstOf [rsv, badIf (decide (3 < c)) 16, badIf (decide (68 ≤ f) && f ≠ 0xFF) 17])
    (if coreSwitching s 0 then hold s h (.activate c f)
     else if 256 ≤ heldCount s then complete s h 0x19 0 else opActivate s h c f)

/-- UPDATE_ACTIVATE. -/
def execUpdateActivate (h : Hdr) (c f : Nat) (s : State) : Host.Outcome State Fault Refusal :=
  whenAlive (.updateActivate h c f) s (runUpdateActivate s h none c f)

/-! ### JOB_CTRL (R297) -/

/-- The whole PAUSE. -/
def runJobPause (s : State) (h : Hdr) (rsv : Option Nat) (atStep : Nat) : State :=
  gate s h false [4, 5] rsv
    (if s.glob.jobState = 5 && atStep = s.job.step then complete s h 0 0
     else if atStep ≤ s.job.step then complete s h 0x18 0 else hold s h (.pause atStep))

/-- PAUSE. -/
def execJobPause (h : Hdr) (atStep : Nat) (s : State) : Host.Outcome State Fault Refusal :=
  whenAlive (.jobPause h atStep) s (runJobPause s h none atStep)

/-- The whole RESUME: a RESUME of a running job is BUSY, and a second one replaces the first. -/
def runJobResume (s : State) (h : Hdr) (rsv : Option Nat) (frame : Nat) : State :=
  gate s h false [4, 5] (firstOf [rsv, hiAt 24 frame])
    (if s.glob.jobState ≠ 5 then complete s h 0x19 0
     else if !laterFrame frame (currentFrame s) then complete s h 0x18 0
     else
       let x := takeHeld s (fun o => match o with | .resume _ => true | _ => false)
       hold (completeAll x.2 x.1 0x19) h (.resume frame))

/-- RESUME. -/
def execJobResume (h : Hdr) (frame : Nat) (s : State) : Host.Outcome State Fault Refusal :=
  whenAlive (.jobResume h frame) s (runJobResume s h none frame)

/-- The whole END. -/
def runJobEnd (s : State) (h : Hdr) (rsv : Option Nat) : State :=
  gate s h false [4, 5] rsv (if s.glob.jobState = 5 then complete (endJob s) h 0 0 else hold s h .jobEnd)

/-- END. -/
def execJobEnd (h : Hdr) (s : State) : Host.Outcome State Fault Refusal := whenAlive (.jobEnd h) s (runJobEnd s h none)

/-! ### DESCRIPTOR_FETCH (R285, R287) -/

/-- The reserved bytes of each TYPE (Table 11.5), as ranges. -/
def reservedOf (typ : Nat) : List (Nat × Nat) :=
  (3, 4) :: match typ with
    | 1 => [(21, 64)] | 2 => [(28, 64)] | 3 => [(28, 32), (40, 64)] | 4 => [(28, 64)] | 5 => [(24, 64)]
    | 6 => [(19, 20), (44, 64)] | 7 => [(32, 64)] | 8 => [(24, 64)] | 9 => [(17, 20), (24, 64)] | 10 => [(17, 32)]
    | 11 => [(17, 64)] | 12 => [(16, 64)] | 13 => [(17, 20), (24, 64)] | 14 => [(28, 64)] | 15 => [(18, 64)]
    | 16 => [(17, 20), (32, 64)] | 17 => [(17, 64)] | _ => []

/-- The first reserved byte that is not zero. -/
def reservedBad (b : List Byte) : Option Nat :=
  (reservedOf (rd b 0 1)).findSome? (fun r =>
    ((List.range (r.2 - r.1)).map (fun i => r.1 + i)).find? (fun i => rd b i 1 ≠ 0))

/-- The header of a descriptor of ring `n`. -/
def headerOf (n : Nat) (b : List Byte) : Hdr := { sq := n, flags := rd b 1 1, cq := rd b 2 1, tag := rd b 4 4, owner := rd b 8 8 }

/-- The descriptor in 64 bytes, from ring `n`. -/
def runDescriptor (s : State) (n : Nat) (b : List Byte) : State :=
  let h := headerOf n b
  let r := reservedBad b
  match rd b 0 1 with
  | 0x01 => runClaim s h r (rd b 16 2) (rd b 20 1)
  | 0x02 => runLoadImage s h r (rd b 16 8) (rd b 24 4)
  | 0x03 => runLoadDuctus s h r (rd b 16 8) (rd b 24 4) (rd b 32 8)
  | 0x04 => runJobStart s h r (rd b 16 8) (rd b 24 4)
  | 0x05 => runStepBegin s h r (rd b 16 4) (rd b 20 4)
  | 0x06 => runParamWrite s h r { group := rd b 16 2, fields := rd b 18 1, target := rd b 20 4, lr := rd b 24 4,
                                  beta1 := rd b 28 4, beta2 := rd b 32 4, eps := rd b 36 4, wd := rd b 40 4 }
  | 0x07 => runShapeCell s h r (rd b 16 8) (rd b 24 8)
  | 0x08 => runMaskOp s h r (rd b 16 8)
  | 0x09 =>
    match rd b 16 1 with
    | 0 => runCheckpointOnce s h r
    | 1 => runCheckpointInterval s h r (rd b 20 4)
    | _ => gate s h false [4, 5] (firstOf [r, some 16]) s
  | 0x0A => runOpenWindow s h r (rd b 16 1) (slice b 32 32)
  | 0x0B => runCloseWindow s h r (rd b 16 1)
  | 0x0C => runCounterSnapshot s h r
  | 0x0D => runTestRequest s h r (rd b 16 1) (rd b 20 4)
  | 0x0E => runUpdateStage s h r (rd b 16 8) (rd b 24 4)
  | 0x0F => runUpdateActivate s h r (rd b 16 1) (rd b 17 1)
  | 0x10 =>
    let r := firstOf [r, hiAt 24 (rd b 24 8)]
    match rd b 16 1 with
    | 1 => runJobPause s h r (rd b 20 4)
    | 2 => runJobResume s h r (rd b 24 8)
    | 3 => runJobEnd s h r
    | _ => gate s h false [4, 5] (firstOf [r, some 16]) s
  | 0x11 => runRelease s h r (rd b 16 1)
  | _ => complete s h 0x11 0

/-- A descriptor of ring `n` has started and not completed. -/
def ringBusy (s : State) (n : Nat) : Bool :=
  s.rings.held.any (fun x => x.hdr.sq == n) || s.job.params.any (fun x => x.hdr.sq == n) ||
  (match s.actHdr with | some h => h.sq == n | none => false) || s.actQueue.any (fun x => x.1.sq == n)

/-- The bytes of the next descriptor of ring `n`. -/
def nextDescriptor (s : State) (n : Nat) : List Byte := hostPeek s ((sq s n).base + 64 * (sq s n).head) 64

/-- Ring `n` has a descriptor that may start: posted, and not ORDERED behind one that has not completed. -/
def mayFetch (s : State) (n : Nat) : Bool :=
  let r := sq s n
  r.en && r.head ≠ r.tail && (s.glob.jobState ≠ 0 || n == 0) &&
  !((rd (nextDescriptor s n) 1 1).testBit 1 && ringBusy s n)

/-- Nothing is fetched while the link is degraded (R12, R280), the bus may not be mastered (R278), a completion queue is full
(R286), or a fetch from the peer was refused in this frame already (R299); nor while the scheduler core is stopped (R304) or the PCIe
domain drains (R335, log 68). -/
def fetchBlocked (s : State) : Bool :=
  degraded s || schedAway s || (s.rings.host == 0 && (dom s 128).state == 3) || !hostReady s || (List.range 4).any (fun k => decide (64 ≤ queuedFor s k)) ||
  (s.time.period != 0 && s.rings.fetchFailed == some (currentFrame s))

/-- The request for a descriptor over the fabric (R299). -/
def fetchPacket (s : State) (n : Nat) : State :=
  if s.rings.host = 1 then
    (sendPacket s 1
      { typ := 2, flags := 8, cls := 1, status := 0, dst := s.rings.hostDevice, src := s.glob.deviceId,
        window := s.rings.hostWindow, elemFmt := 0, length := 64, tag := 0, addr := (sq s n).base + 64 * (sq s n).head,
        gen := 0, frame := currentFrame s, hops := 0, payload := [] }).1
  else s

/-- DESCRIPTOR_FETCH: the next ring in turn, one descriptor; `ok` is false where the access to the ring host fails. -/
def opFetch (s : State) (ok : Bool) : State :=
  match ((List.range 16).map (fun i => (s.rings.turn + i) % 16)).find? (mayFetch s) with
  | none => s
  | some n =>
    if fetchBlocked s then s
    else
      let t := fetchPacket s n
      if !ok then { t with rings.fetchFailed := if s.rings.host = 1 then some (currentFrame s) else none }
      else
        let r := sq t n
        let u := { setSq t n { r with head := (r.head + 1) % entries r.size } with rings.turn := (n + 1) % 16, rings.fetchFailed := none }
        runDescriptor u n (nextDescriptor t n)

/-- DESCRIPTOR_FETCH. -/
def execDescriptorFetch (ok : Bool) (s : State) : Host.Outcome State Fault Refusal :=
  whenAlive (.descriptorFetch ok) s (opFetch s ok)

end Sys2Proof.Machine
end

