-- ==== Sys2Proof/Machine/Scan.lean ====
section
/-! DEFINITION. In-field test up to its start (R357 to R361), and the takeover of a logical Folio by a spare (R22, R23, R235). -/

namespace Sys2Proof.Machine

open Sys2Proof

/-- A test is in progress that a logical Folio waits for (R361). -/
def testHolds (s : State) : Bool := s.scan.running.isSome && !s.folios.waiting.isEmpty

/-- The spare `k` is selected (R22, R190, R235): ACTIVE, powered, with the job's bank masks. -/
def spareOn (s : State) (k : Nat) : State :=
  let t := setFolioState s k 0
  if jobExists t then setFolio t k { folio t k with fbOn := t.job.blk.fbMask, wellOn := t.job.blk.wellMask } else t

/-- The spare `k` takes logical Folio `l` over: the map changes in the Ductus-switch phase of the next seam that has not passed
it (R18, R50), or at once when no job exists. -/
def spareTakes (s : State) (k l : Nat) : State :=
  let t := spareOn s k
  let t := { t with folios.waiting := t.folios.waiting.filter (fun m => decide (m ≠ l)) }
  if jobExists t then { t with folios.remaps := t.folios.remaps ++ [(l, k)] } else remapFolio t (l, k)

/-- The spare of die `d` in state SPARE. -/
def spareOf (s : State) (d : Nat) : Option Nat := ((List.range 17).map (fun p => 17 * d + p)).find? (fun k => (folio s k).state = 1)

/-- A logical Folio without a physical one. -/
def unmapFolio (s : State) (l : Nat) : State := { s with folios.unmapped := insertNat l s.folios.unmapped }

/-- A test of Folio `n` starts (R358): isolated, powered, UNDER_TEST. The die's spare takes the logical Folio of an ACTIVE one;
without a spare the logical Folio waits (R22, R361). The spare takes the freed logical Folio at the same frame boundary (R22): while
frames run, in the Ductus-switch phase of the seam in which the test starts (R50). -/
def beginTest (s : State) (n : Nat) : State :=
  let f := folio s n
  let t := setFolioState (setFolio s n { f with before := f.state }) n 2
  let t := { t with scan.running := some n, scan.asked := none, scan.due := t.scan.due.filter (fun d => decide (d.folio ≠ n)) }
  if f.state ≠ 0 then t
  else match logicalOf s n with
    | none => t
    | some l =>
      match spareOf s (n / 17) with
      | some k =>
        if s.frame.live then { spareOn t k with folios.remaps := t.folios.remaps ++ [(l, k)] } else remapFolio (spareOn t k) (l, k)
      | none => { unmapFolio t l with folios.waiting := t.folios.waiting ++ [l] }

/-- A rollback or a takeover is under way, which goes before a due test (R360). -/
def rollbackBusy (s : State) : Bool :=
  s.train.waiting.isSome || s.train.restart.isSome || s.train.restoring || !s.folios.remaps.isEmpty || !s.folios.waiting.isEmpty

/-- A checkpoint boundary (R360): the first seam that begins a step and starts after a commit has come (log 59); with CKPT_INTERVAL
zero, any seam that begins a step. -/
def atBoundary (s : State) (stepEnds : Bool) : Bool :=
  s.frame.seam && stepEnds && (s.train.atCkpt || s.job.blk.ckptInterval == 0)

/-- A test goes before another: the earlier deadline, then the lower Folio (R359). -/
def DueTest.before (a b : DueTest) : Bool := decide (a.deadlineAt < b.deadlineAt) || (a.deadlineAt == b.deadlineAt && decide (a.folio < b.folio))

/-- The first of some due tests. -/
def firstDue (l : List DueTest) : Option DueTest :=
  l.foldl (fun b x => match b with | some y => if x.before y then some x else b | none => some x) none

/-- Tests may start at all (R358). -/
def testsOpen (s : State) : Bool := s.scan.available && s.scan.running.isNone && decide (s.power.level < 2)

end Sys2Proof.Machine
end

