-- ==== Sys2Proof/Machine/Train.lean ====
section
/-! DEFINITION. The training services (R228 to R240, R352 to R356): checkpoints, rollback, spare devices, SKIP and Colophon. -/

namespace Sys2Proof.Machine

open Sys2Proof

/-! ### Messages -/

/-- A MGMT payload taken from where it waits, and answered OK where it carries LAST or RESEND (R258). -/
def takeMsg (s : State) (src : Nat) (pay : List Byte) : State :=
  let mine := fun (p : Packet) => p.typ == 6 && p.src == src && p.payload == pay && !p.resp && !p.neighbour
  match s.ports.findSome? (fun x => (x.2.inbox.find? mine).map (fun k => (x, k))) with
  | some (x, k) => acknowledge (setPort s x.1 { x.2 with inbox := x.2.inbox.erase k }) x.1 k
  | none =>
    match s.fab.selfBox.find? mine with
    | some k => acknowledge { s with fab.selfBox := s.fab.selfBox.erase k } 0 k
    | none => s

/-- A training-service message that the scheduler core takes (R267): of type `typ`, from `src`. It waits while the core switches to a
new image or is stopped (R304, R324). -/
def onMsg (s : State) (src : Nat) (m : SvcMsg) (typ : Nat) (f : State → State) : State :=
  if m.typ ≠ typ || schedAway s || !acceptsMsg s src m.typ m.job m.spare then s else f (takeMsg s src (SvcMsg.bytes m))

/-! ### Checkpoint slots (R228 to R231) -/

/-- Slot `k` of the checkpoint area. -/
def slotBase (s : State) (k : Nat) : Nat := s.glob.ckptBase + k * s.job.blk.slotBytes

/-- The regions with their places in a slot. -/
def regionPlaces : Nat → List (Nat × Nat) → List (Nat × Nat × Nat)
  | _, [] => []
  | off, (a, n) :: r => (a, n, off) :: regionPlaces (off + cdiv n 2048 * 2048) r

/-- The regions of a slot image, by the table that it carries. -/
def imageRegions (img : List Byte) : List (Nat × Nat) :=
  (List.range (rd img 24 2)).map (fun i => (rd img (128 + 16 * i) 8, rd img (136 + 16 * i) 8))

/-- The bytes of a slot that hold something. -/
def slotUsed (rs : List (Nat × Nat)) : Nat := rs.foldl (fun a r => a + cdiv r.2 2048 * 2048) 4096

/-- The region table as the manifest copies it. -/
def tableCopy (rs : List (Nat × Nat)) : List Byte :=
  slice (rs.flatMap (fun r => leBytes 8 r.1 ++ leBytes 8 r.2)) 0 3840

/-- The manifest of a checkpoint of step `n` that is being written (Table 9.5). -/
def manifest (s : State) (n : Nat) : List Byte :=
  let rs := s.job.blk.regions
  leBytes 4 0x54504B43 ++ leBytes 2 1 ++ leBytes 2 s.job.blk.tag ++ leBytes 4 n ++ leBytes 3 s.glob.deviceId ++ leBytes 1 1 ++
  leBytes 8 (rs.foldl (fun a r => a + r.2) 0) ++ leBytes 2 rs.length ++ leBytes 6 0 ++ leBytes 32 0 ++
  leBytes 4 s.loss.avg ++ leBytes 4 s.loss.count ++ leBytes 8 0 ++ leBytes 32 0 ++ leBytes 16 0 ++ tableCopy rs ++ leBytes 128 0

/-- STATE of a slot's manifest. -/
def slotState (s : State) (k : Nat) : Nat := peekN s (slotBase s k + 15) 1

/-- STATE written. -/
def setSlotState (s : State) (k st : Nat) : State := fwStore s (slotBase s k + 15) (leBytes 1 st)

/-- SEAL (Table 9.5): over bytes 0 to 79, with STATE as it is when the seal is made, DONE, and the region table. -/
def sealOf (img : List Byte) : List Byte :=
  sm3 (img.take 15 ++ leBytes 1 2 ++ slice img 16 64 ++ slice img 128 3840)

/-- The shard digest (R211) of data that lies in the vaults, by Nib. -/
def shardDigest (ps : List (Nat × List Byte)) : List Byte :=
  let mine := fun k => ((ps.filter (fun p => p.1 == k)).map (fun p => p.2)).flatten
  sm3 (((List.range 256).filter (fun k => !(mine k).isEmpty)).flatMap (fun k => sm3 (mine k)))

/-- The pieces of the regions in a slot image, each with the Nib under its vault. -/
def imagePieces (img : List Byte) : List (Nat × List Byte) :=
  (regionPlaces 4096 (imageRegions img)).flatMap (fun r =>
    (granules r.1 r.2.1).map (fun g => (homeNib g.1 % 256, slice img (r.2.2 + (g.1 - r.1)) g.2)))

/-- A COMMITTED slot whose SEAL and DIGEST hold (R231). -/
def imageOk (img : List Byte) : Bool :=
  rd img 0 4 == 0x54504B43 && rd img 4 2 == 1 && rd img 15 1 == 3 && slice img 80 32 == sealOf img &&
  slice img 32 32 == shardDigest (imagePieces img)

/-- The regions copied back, with the loss monitor's state (R231). -/
def restoreImage (s : State) (img : List Byte) : State :=
  let t := (regionPlaces 4096 (imageRegions img)).foldl (fun t r => fwStore t r.1 (slice img r.2.2 r.2.1)) s
  { t with loss.avg := rd img 64 4, loss.count := rd img 68 4 }

/-- The index of a mirror copy (0), a repeated one (1), one for a spare (2), the reads of a restore (3), or a copy of an expert's weights
(4, R152). -/
def ckptIdx (k : Nat) : Nat := 2 ^ 48 + k

/-- Transfers of one kind that are not over. -/
def ckptPending (s : State) (k : Nat) : Bool :=
  s.fab.xfers.any (fun x => ckptXfer x && x.idx == ckptIdx k && !x.stopped && !x.late && !x.pkts.isEmpty)

/-- A transfer of the kind that was refused or came too late (R229). -/
def ckptFailed (s : State) (k : Nat) : Bool :=
  s.fab.xfers.any (fun x => ckptXfer x && x.idx == ckptIdx k && (x.stopped || x.late))

/-- The transfers of a kind forgotten. -/
def dropCkpt (s : State) (k : Nat) : State :=
  { s with fab.xfers := s.fab.xfers.filter (fun x => !(ckptXfer x && x.idx == ckptIdx k)) }

/-- Local slot `k` copied as BULK writes to `a` at another device, through MIRROR_WINDOW (R229, R236). -/
def copySlot (s : State) (kind k dst a : Nat) : State :=
  let n := slotUsed (imageRegions (peek s (slotBase s k) 4096))
  let x : Transfer := { tag := 0, dst := dst, idx := ckptIdx kind, cls := 1 }
  match badLine s (slotBase s k) n with
  | some l => { lineError s l with fab.xfers := s.fab.xfers ++ [{ x with stopped := true }] }
  | none =>
    let b := peek s (slotBase s k) n
    sendTransfer (noteRead s (slotBase s k) n) x (dst, s.job.blk.mirrorWindow) (cutRun b.length a b) false

/-- A held CHECKPOINT ONCE of step `n` completes. -/
def endOnce (s : State) (n status data : Nat) : State :=
  let x := takeHeld s (fun o => o == .ckptOnce (some n))
  x.1.foldl (fun t h => complete t h.hdr status data) x.2

/-- A checkpoint of step `n` begins in the seam that begins the step (R229, R230): into the own slot that does not hold the
last COMMITTED one; skipped while that slot holds a DONE one. It is due by the interval, by a CHECKPOINT ONCE, or again after a rollback
that aborted it (R353). -/
def ckptBegin (s : State) (n : Nat) : State :=
  let b := s.job.blk
  let asked := s.rings.held.any (fun h => h.op == .ckptOnce none)
  let due := asked || s.train.retake == some n || (b.ckptInterval ≠ 0 && n % b.ckptInterval == 0)
  let s := { s with
    train.retake := s.train.retake.filter (fun k => decide (k ≠ n))
    rings.held := s.rings.held.map (fun h => if h.op = .ckptOnce none then { h with op := .ckptOnce (some n) } else h) }
  if !due then s
  else
    let k := match s.train.committed with | some (_, j) => 1 - j | none => (match s.train.doneSlot with | some (_, j) => j | none => 0)
    if b.slotBytes = 0 then endOnce s n 0x19 0
    else if s.train.doneSlot.any (fun d => d.2 == k) then endOnce (devEvent s 0x4B 1) n 0x19 0
    else recheckDrains { fwStore s (slotBase s k) (manifest s n) with train.writing := some (n, k) }

/-- The checkpoint of a step that begins, unless that step's is the latest COMMITTED one: the job runs from it (R230). -/
def ckptFor (s : State) (n : Nat) : State := if s.train.committed.all (fun c => decide (c.1 ≠ n)) then ckptBegin s n else s

/-- A checkpoint is complete in the seam that ends its step (R229): STATE and SEAL, then the copy to the buddy. -/
def ckptSeal (s : State) : State :=
  match s.train.writing with
  | none => s
  | some (n, k) =>
    if n ≠ s.job.step then s
    else
      let t := setSlotState (fwRead s (slotBase s k) 4096) k 2
      let t := fwStore t (slotBase t k + 80) (sealOf (peek t (slotBase t k) 4096))
      copySlot (dropCkpt { t with train.writing := none, train.doneSlot := some (n, k), train.mirrored := false } 0) 0 k
        t.job.blk.buddy (slotBase t (k + 2))

/-- CKPT_DONE to the coordinator (R229). -/
def sendDone (s : State) (n : Nat) (failed : Bool) : State :=
  sendSvc s (coordinator s) (svc s 7 (if failed then 8 else 0) 0 n s.train.obeyed (currentFrame s))

/-- A slot that a rollback finds WRITING becomes EMPTY, and the checkpoint is reported as failed; it is taken again when its step runs
again (R353). -/
def dropWriting (s : State) : State :=
  match s.train.writing with
  | none => s
  | some (n, k) => sendDone { setSlotState s k 0 with train.writing := none, train.retake := some n } n true

/-- CKPT_DONE_SEND (R229): once the buddy has acknowledged every write, or when the copy has failed. -/
def opCkptDoneSend (s : State) (failed : Bool) : State :=
  match s.train.doneSlot with
  | none => s
  | some (n, _) =>
    let bad := failed || ckptFailed s 0
    if s.train.mirrored || (!bad && ckptPending s 0) then s
    else sendDone (dropCkpt { s with train.mirrored := true } 0) n bad

/-- CKPT_DONE_SEND. -/
def execCkptDoneSend (failed : Bool) (s : State) : Host.Outcome State Fault Refusal :=
  whenAlive (.ckptDoneSend failed) s (opCkptDoneSend s failed)

/-- The devices of the job that are not lost. -/
def jobDevices (s : State) : List Nat := s.job.blk.devices.filter (fun d => !s.job.lost.contains d)

/-- SEQ `a` is newer than `b`. -/
def newerSeq (a b : Nat) : Bool :=
  let d := (a + 2 ^ 16 - b % 2 ^ 16) % 2 ^ 16
  decide (0 < d) && decide (d < 2 ^ 15)

/-- CKPT_DONE_RECEIVE (R230): the coordinator commits when all are done, and aborts when one has failed. The messages of a step
belong together where they follow the same ROLLBACK: a step that runs again after one is collected afresh. -/
def opCkptDone (src : Nat) (m : SvcMsg) (s : State) : State :=
  let same := s.train.ckptStep = m.step && s.train.ckptSeq = m.seq
  let t := if same then s
    else { s with train.ckptStep := m.step, train.ckptSeq := m.seq, train.ckptDone := [], train.ckptSent := false }
  if !same && newerSeq s.train.ckptSeq m.seq then s
  else if !isCoordinator t || t.train.ckptSent then t
  else if m.flags.testBit 3 then
    sendAll { t with train.ckptSent := true } (svc t 8 16 m.code m.step t.train.seq (currentFrame t))
  else
    let u := { t with train.ckptDone := insertNat src t.train.ckptDone }
    if (jobDevices u).all (fun d => u.train.ckptDone.contains d) then
      sendAll { u with train.ckptSent := true } (svc u 8 0 0 m.step u.train.seq (currentFrame u))
    else u

/-- CKPT_DONE_RECEIVE. -/
def execCkptDoneReceive (src : Nat) (m : SvcMsg) (s : State) : Host.Outcome State Fault Refusal :=
  whenAlive (.ckptDoneReceive src m) s (onMsg s src m 7 (opCkptDone src m))

/-- The mirror slots that hold a DONE checkpoint of step `n`. -/
def mirrorsOf (s : State) (n : Nat) : List Nat :=
  if s.job.blk.slotBytes = 0 then []
  else [2, 3].filter (fun k =>
    peekN s (slotBase s k) 4 == 0x54504B43 && peekN s (slotBase s k + 8) 4 == n && slotState s k == 2)

/-- CKPT_COMMIT_RECEIVE (R230, R360): STATE of the own slot and of the mirror, the record, and the held descriptors. -/
def opCommit (m : SvcMsg) (s : State) : State :=
  let aborted := m.flags.testBit 4
  let st := if aborted then 0 else 3
  let t := (mirrorsOf s m.step).foldl (fun t k => setSlotState t k st) s
  let t := match t.train.doneSlot with
    | some (n, k) =>
      if n = m.step then
        { setSlotState t k st with
          train.doneSlot := none, train.committed := if aborted then t.train.committed else some (n, k) }
      else t
    | none => t
  let t := match t.train.writing with
    | some (n, k) => if aborted && n = m.step then { setSlotState t k 0 with train.writing := none } else t
    | none => t
  let d := m.step + (if aborted then 2 ^ 32 else 0)
  endOnce { postRecord t 5 d false with train.ckptBoundary := t.train.ckptBoundary || !aborted } m.step 0 d

/-- CKPT_COMMIT_RECEIVE. -/
def execCkptCommitReceive (src : Nat) (m : SvcMsg) (s : State) : Host.Outcome State Fault Refusal :=
  whenAlive (.ckptCommitReceive src m) s (onMsg s src m 8 (opCommit m))

/-! ### The coordinator (R233, R234, R236, R237) -/

/-- The next SEQ: one higher than the highest that this device has sent or obeyed (R233, R237). -/
def nextSeq (s : State) : Nat :=
  ((if newerSeq s.train.obeyed s.train.seq then s.train.obeyed else s.train.seq) + 1) % 2 ^ 16

/-- The coordinator pauses the job (R233). -/
def pauseAll (s : State) (code : Nat) : State :=
  let t := { s with train.seq := nextSeq s, train.paused := true, train.incident := none }
  sendAll t (svc t 2 32 code 0 t.train.seq (currentFrame t))

/-- A ROLLBACK to every device, and to `extra` (R233, R237). -/
def sendRollback (s : State) (step : Nat) (toCkpt : Bool) (code : Nat) (extra : Option Nat) : State :=
  let target := if toCkpt then (match s.train.committed with | some (n, _) => n | none => s.job.blk.startStep) else step
  let rf := (currentFrame s + s.job.blk.restartFrames) % 2 ^ 48
  let t := { s with
    train.seq := nextSeq s, train.incident := some (step, rf), train.target := target, train.toCkpt := toCkpt, train.ready := [] }
  let m := svc t 2 (if toCkpt then 4 else 0) code target t.train.seq rf
  let u := sendAll t m
  match extra with | some d => sendSvc u d { m with spare := d } | none => u

/-- A request belongs to the rollback in force: of its step, from a frame before its restart frame. -/
def sameIncident (s : State) (m : SvcMsg) : Bool :=
  match s.train.incident with | some (step, rf) => m.step == step && laterFrame rf m.frame | none => false

/-- ROLLBACK_REQ_RECEIVE (R233, R234). -/
def opRollbackReq (m : SvcMsg) (s : State) : State :=
  if !isCoordinator s || s.train.paused then s
  else if m.code = 0x0F || m.code = 0x15 then pauseAll s m.code
  else if m.flags.testBit 1 then
    if m.seq ≠ s.train.seq then s
    else
      let t := { s with train.notReady := s.train.notReady + 1 }
      if 3 ≤ t.train.notReady then
        pauseAll { raiseFault t { code := m.code, sev := 4, src := 6 } with train.notReady := 0 } m.code
      else sendRollback t (match t.train.incident with | some (n, _) => n | none => m.step) t.train.toCkpt 0 none
  else
    let toCkpt := s.glob.abortPolicy == 1 || m.flags.testBit 0
    if sameIncident s m && (s.train.toCkpt || !toCkpt) then s
    else sendRollback { s with train.notReady := 0 } m.step toCkpt 0 none

/-- ROLLBACK_REQ_RECEIVE. -/
def execRollbackReqReceive (src : Nat) (m : SvcMsg) (s : State) : Host.Outcome State Fault Refusal :=
  whenAlive (.rollbackReqReceive src m) s (onMsg s src m 1 (opRollbackReq m))

/-- READY_RECEIVE (R234). -/
def opReady (src : Nat) (m : SvcMsg) (s : State) : State :=
  if isCoordinator s && m.seq = s.train.seq then { s with train.ready := insertNat src s.train.ready } else s

/-- READY_RECEIVE. -/
def execReadyReceive (src : Nat) (m : SvcMsg) (s : State) : Host.Outcome State Fault Refusal :=
  whenAlive (.readyReceive src m) s (onMsg s src m 3 (opReady src m))

/-- The first spare of the list that has no place in the job (R236). -/
def freeSpare (s : State) : Option Nat :=
  s.job.blk.spares.find? (fun d => !s.job.blk.devices.contains d && !s.job.lost.contains d)

/-- A device declared lost (R236 to R238): the takeover by the first free spare and the rollback, or the pause. -/
def declareLost (s : State) (d : Nat) : State :=
  let wasCo := decide (d = coordinator s)
  let t := { s with job.lost := insertNat d s.job.lost }
  let t := if wasCo then { t with train.acting := some t.glob.deviceId } else t
  match freeSpare t with
  | none => pauseAll (raiseFault t { code := 0x15, sev := 4, detail := 3 + d * 2 ^ 8, src := 6 }) 0x15
  | some sp =>
    let m : SvcMsg := { svc t 6 0 0 t.job.step t.train.seq (currentFrame t) with device := d, spare := sp }
    sendRollback { sendSvc (sendAll t m) sp m with train.notReady := 0 } t.job.step true 0 (some sp)

/-- DEVICE_LOST_RECEIVE (R236, R237): by the coordinator, or by the deputy, or the next deputy, where it names the coordinator. -/
def opDeviceLost (m : SvcMsg) (s : State) : State :=
  let next := deputyOf { s with job.lost := insertNat m.device s.job.lost }
  let mine := isCoordinator s || (m.device == coordinator s && next == s.glob.deviceId)
  if !mine || s.job.lost.contains m.device || !s.job.blk.devices.contains m.device then s else declareLost s m.device

/-- DEVICE_LOST_RECEIVE. -/
def execDeviceLostReceive (src : Nat) (m : SvcMsg) (s : State) : Host.Outcome State Fault Refusal :=
  whenAlive (.deviceLostReceive src m) s (onMsg s src m 5 (opDeviceLost m))

/-- DEVICE_LOST sent (R236, R237): to the coordinator, or to the deputy when it is the coordinator that is out of reach. -/
def sendLost (s : State) (d : Nat) : State :=
  let dst := if d = coordinator s then deputyOf { s with job.lost := insertNat d s.job.lost } else coordinator s
  sendSvc s dst { svc s 5 0 0x0C s.job.step s.train.obeyed (currentFrame s) with device := d }

/-- The job's peers that this device can reach. -/
def reached (s : State) : List Nat :=
  (jobDevices s).filter (fun d => decide (d ≠ s.glob.deviceId) && (routeOf s d).isSome)

/-- Each peer that this device reached in `s`, and that no port reaches any more, is reported (R236). -/
def reportLost (s t : State) : State :=
  if jobExists t then ((reached s).filter (fun d => !(reached t).contains d)).foldl sendLost t else t

/-- LANE_SILENCE_DOWN: the lane goes down (R254). -/
def opLaneSilence (s : State) (n : Nat) : State := reportLost s (opSilence s n)

/-- LANE_SILENCE_DOWN. -/
def execLaneSilenceDown (n : Nat) (s : State) : Host.Outcome State Fault Refusal :=
  whenAlive (.laneSilenceDown n) s (opLaneSilence s n)

/-- LANE_TRAINING_TIMEOUT (R248): the rate fails. -/
def opTrainingTimeout (s : State) (n : Nat) : State :=
  if (lane s n).state = 2 && !(link s n).quality then reportLost s (rateFails s n) else s

/-- LANE_TRAINING_TIMEOUT. -/
def execLaneTrainingTimeout (n : Nat) (s : State) : Host.Outcome State Fault Refusal :=
  whenAlive (.laneTrainingTimeout n) s (opTrainingTimeout s n)

/-- LANE_QUALITY_CHECK: a rate that fails takes the port's lanes down (R246, R248). -/
def execLaneQualityCheck (n errs syms : Nat) (s : State) : Host.Outcome State Fault Refusal :=
  whenAlive (.laneQualityCheck n errs syms) s (reportLost s (opQuality s n errs syms))

/-- A write to LINK_CTRL_n, which may take the last lane to a peer down. -/
def writeLinkCtrl (s : State) (n v : Nat) : State := reportLost s (opLinkCtrl s n v)

/-- LINK_DISABLE: DISABLE set, BOOT_SERVE as it is. -/
def execLinkDisable (n : Nat) (s : State) : Host.Outcome State Fault Refusal :=
  whenAlive (.linkDisable n) s (writeLinkCtrl s n (1 + 4 * b2n (lane s n).bootServe))
/-- LINK_RETRAIN: RETRAIN written, the other fields as they are. -/
def execLinkRetrain (n : Nat) (s : State) : Host.Outcome State Fault Refusal :=
  whenAlive (.linkRetrain n) s (writeLinkCtrl s n (2 + b2n (lane s n).disable + 4 * b2n (lane s n).bootServe))
/-- LINK_CTRL_WRITE. -/
def execLinkCtrlWrite (n v : Nat) (s : State) : Host.Outcome State Fault Refusal :=
  whenAlive (.linkCtrlWrite n v) s (writeLinkCtrl s n v)

/-! ### Each device (R234) -/

/-- The frame in progress aborts without a record (R234). -/
def abortForRollback (s : State) : State :=
  if s.frame.live && !s.frame.aborted then devEvent (haltFrame s) 0x4D 1 else s

/-- What every ROLLBACK that is obeyed does first: the abort, the checkpoint being written (R353), the counts of the step
(R150), the comparisons of Colophon (R356). The steps that it undoes are forgotten; a PAUSE undoes none (R233). A ROLLBACK from the
deputy makes it the coordinator (R237); a spare answers whoever sends it. -/
def beginRollback (s : State) (src : Nat) (m : SvcMsg) : State :=
  let t := if s.train.asSpare.isSome || (src ≠ coordinator s && src = deputyOf s) then { s with train.acting := some src } else s
  let t := dropWriting (abortForRollback t)
  { t with
    train.obeyed := m.seq, train.waiting := none, train.restart := none, train.restoring := false, train.fromMirror := false
    train.sentReady := false, experts.run := []
    experts.count := [], experts.past := t.experts.past.filter (fun p => m.flags.testBit 5 || decide (p.1 < m.step))
    colo.own := [], colo.got := [] }

/-- READY to the coordinator (R234). -/
def sendReady (s : State) : State :=
  sendSvc { s with train.sentReady := true } (coordinator s)
    (svc s 3 0 0 s.train.restartStep s.train.obeyed (s.train.restart.getD 0))

/-- READY, unless a test still holds a logical Folio (R361). -/
def readyNow (s : State) : State := if testHolds s then s else sendReady s

/-- NOT_READY to the coordinator (R234, R344). -/
def sendNotReady (s : State) (code : Nat) : State :=
  sendSvc { s with train.waiting := some (s.train.waiting.getD (currentFrame s)), train.waitCode := code } (coordinator s)
    (svc s 1 2 code s.train.restartStep s.train.obeyed (currentFrame s))

/-- ROLLBACK_RECEIVE (R234, R344, R353): a newer one is obeyed, unless the coordinator has paused the job. -/
def opRollback (src : Nat) (m : SvcMsg) (s : State) : State :=
  if m.flags.testBit 5 || !newerSeq m.seq s.train.obeyed || s.train.pausedRb then s
  else
    let t := beginRollback s src m
    if 2 ≤ t.power.level then sendNotReady t 0x17
    else
      let u := { t with train.restart := some m.frame, train.restartStep := m.step }
      let u := match u.scan.asked with | some n => if testsOpen u then beginTest u n else u | none => u
      if m.flags.testBit 2 then { u with train.restoring := true } else readyNow u

/-- ROLLBACK_RECEIVE. -/
def execRollbackReceive (src : Nat) (m : SvcMsg) (s : State) : Host.Outcome State Fault Refusal :=
  whenAlive (.rollbackReceive src m) s (onMsg s src m 2 (opRollback src m))

/-- ROLLBACK_PAUSE_RECEIVE (R233). -/
def opRollbackPause (src : Nat) (m : SvcMsg) (s : State) : State :=
  if !m.flags.testBit 5 || !newerSeq m.seq s.train.obeyed then s
  else
    let t := { beginRollback s src m with train.pausedRb := true }
    if jobExists t then settleAct (pauseJob t) else t

/-- ROLLBACK_PAUSE_RECEIVE. -/
def execRollbackPauseReceive (src : Nat) (m : SvcMsg) (s : State) : Host.Outcome State Fault Refusal :=
  whenAlive (.rollbackPauseReceive src m) s (onMsg s src m 2 (opRollbackPause src m))

/-- The slot that a restore reads: the own COMMITTED one, or slot 0 for a spare that holds none (R236). -/
def restoreSlot (s : State) : Option Nat :=
  match s.train.committed with | some (_, k) => some k | none => if s.train.asSpare.isSome then some 0 else none

/-- The bytes that a restore has: of the own slot, none where it meets an uncorrectable line; or those read from the mirror,
once all have come. -/
def restoreBytes (s : State) : Option (List Byte) :=
  if s.train.fromMirror then
    match s.fab.xfers.find? (fun x => ckptXfer x && x.idx == ckptIdx 3) with
    | some x => if x.pkts.isEmpty && !x.stopped && !x.late then
        some ((List.range x.got.length).flatMap (fun i =>
          ((x.got.find? (fun g => g.1 == slotBase s ((restoreSlot s).getD 0 + 2) + 1024 * i)).map (fun g => g.2)).getD []))
      else none
    | none => none
  else match restoreSlot s with
    | none => none
    | some k =>
      let n := slotUsed (imageRegions (peek s (slotBase s k) 4096))
      if (badLine s (slotBase s k) n).isSome then none else some (peek s (slotBase s k) n)

/-- The restore goes to the buddy's mirror (R231). -/
def askMirror (s : State) : State :=
  let k := (restoreSlot s).getD 0
  sendReads (dropCkpt { s with train.fromMirror := true } 3) { tag := 0, dst := 0, idx := ckptIdx 3, cls := 1 }
    (s.job.blk.buddy, s.job.blk.mirrorWindow)
    ((List.range (slotUsed s.job.blk.regions)).map (fun i => (slotBase s (k + 2) + i, 0)))

/-- Both copies have failed (R231): the record, and the request that pauses the job. -/
def restoreFails (s : State) : State :=
  let t := dropCkpt { s with train.restoring := false, train.fromMirror := false } 3
  requestRollback (raiseFault t { code := 0x0F, sev := 4, src := 6 }) 0 0x0F

/-- The read of the own slot by a restore: a line that fails raises its fault (R195). -/
def readSlot (s : State) : State :=
  match restoreSlot s with
  | some k => if s.train.fromMirror then s else fwRead s (slotBase s k) (slotUsed (imageRegions (peek s (slotBase s k) 4096)))
  | none => s

/-- A spare takes its Ductus images from the regions (R236): each region that begins with a Ductus header holds one (log 53). -/
def takeImages (s : State) (rs : List (Nat × Nat)) : State :=
  if s.train.asSpare.isNone then s
  else
    let ds := (rs.filter (fun r => peekN s r.1 4 == 0x54435544)).map (fun r =>
      ({ id := peekN s (r.1 + 4) 2, addr := r.1, bytes := r.2 } : Loaded))
    { s with ductus := s.ductus.filter (fun d => ds.all (fun e => decide (e.id ≠ d.id))) ++ ds }

/-- RESTORE_COMPLETE (R231, R234): the slot that came back is checked here as well, and a failing one is no restore. -/
def opRestore (s : State) (r : RestoreResult) : State :=
  if !s.train.restoring then s
  else
    let img := match r with | .ok => (restoreBytes s).filter imageOk | _ => none
    let s := readSlot s
    match img with
    | some b =>
      readyNow (dropCkpt { takeImages (restoreImage s b) (imageRegions b) with
        train.restoring := false, train.fromMirror := false } 3)
    | none =>
      if s.train.fromMirror || r == .mirrorFailed then restoreFails s else askMirror s

/-- RESTORE_COMPLETE. -/
def execRestoreComplete (r : RestoreResult) (s : State) : Host.Outcome State Fault Refusal :=
  whenAlive (.restoreComplete r) s (opRestore s r)

/-- The ward sends its last COMMITTED slot to the spare that has become its buddy (R236). -/
def remirror (s : State) : State :=
  match s.train.committed with
  | some (_, k) => if s.train.remirror then copySlot (dropCkpt s 1) 1 k s.job.blk.buddy (slotBase s (k + 2)) else s
  | none => s

/-- The seam that begins step `n`: the digest of a Colophon step starts at zero (R355). -/
def coloBegin (s : State) (n : Nat) : State :=
  if s.colo.interval ≠ 0 && n % s.colo.interval = 0 then fwStore s s.colo.digest (leBytes 32 0) else s

/-- RESTART_FRAME (R234): the first frame of the target step, with f₀ at the restart frame; a device that is not ready says so.
The coordinator role goes to the spare here (R237). A paused job stays paused (R297). -/
def opRestart (s : State) : State :=
  match s.train.restart with
  | none => s
  | some rf =>
    if laterFrame rf (currentFrame s) then s
    else
      let t := { s with train.restart := none }
      if !s.train.sentReady || testHolds s then sendNotReady t 0
      else
        let t := { t with
          job.step := s.train.restartStep, job.f0 := rf, job.optIssued := false, job.optRan := false, job.optGroups := [], job.stale := []
          job.optSteps := s.job.optSteps.filter (fun n => decide (n < s.train.restartStep)), job.skipSent := false
          job.skipped := [], job.lossFlagged := false, job.nonfinite := false, train.sentReady := false, train.waiting := none
          train.acting := if s.train.coTaken then none else s.train.acting, train.coTaken := false
          loss.spike := false, loss.nonfinite := false
          frame := { t.frame with aborted := false, exceeded := false } }
        remirror (coloBegin (ckptFor t t.job.step) t.job.step)

/-- A spare that is not ready at the restart frame says so (R234); a ready one begins with that frame's tick. -/
def spareLate (s : State) : State :=
  match s.train.restart with
  | none => s
  | some rf =>
    if s.train.asSpare.isNone || s.train.sentReady || laterFrame rf (currentFrame s) then s
    else sendNotReady { s with train.restart := none } 0

/-- RESTART_FRAME. -/
def execRestartFrame (s : State) : Host.Outcome State Fault Refusal :=
  whenAlive .restartFrame s (if jobExists s then opRestart s else spareLate s)

/-- ROLLBACK_WAIT_TIMEOUT (R234): no ROLLBACK has come within ROLLBACK_WAIT frames; the device pauses the job locally. -/
def opRollbackTimeout (s : State) : State :=
  match s.train.waiting with
  | none => s
  | some f =>
    if !jobExists s || s.job.blk.rollbackWait = 0 ||
        ((currentFrame s) + 2 ^ 48 - f) % 2 ^ 48 < s.job.blk.rollbackWait then s
    else settleAct (pauseJob { raiseFault s { code := s.train.waitCode, sev := 4, src := 6 } with train.waiting := none })

/-- ROLLBACK_WAIT_TIMEOUT. -/
def execRollbackWaitTimeout (s : State) : Host.Outcome State Fault Refusal :=
  whenAlive .rollbackWaitTimeout s (opRollbackTimeout s)

/-- SKIP_RECEIVE (R240): the step is skipped; too late for a step of which an optimiser or mask record has issued, the current one
or an earlier one. A record that was itself skipped does not count (DESIGN CHOICE, log 50). -/
def opSkip (m : SvcMsg) (s : State) : State :=
  if s.job.optSteps.contains m.step || (m.step = s.job.step && s.job.optRan) then
    abortWith s { code := 0x0D, detail := 0xFF * 2 ^ 56, src := 6 } true
  else markSkip s m.step

/-- SKIP_RECEIVE. -/
def execSkipReceive (src : Nat) (m : SvcMsg) (s : State) : Host.Outcome State Fault Refusal :=
  whenAlive (.skipReceive src m) s (onMsg s src m 4 (opSkip m))

/-! ### Takeover (R236, R237) -/

/-- A list with `a` replaced by `b`. -/
def swapIn (a b : Nat) (l : List Nat) : List Nat := l.map (fun d => if d = a then b else d)

/-- The COMMITTED mirror slot with the latest step. -/
def bestMirror (s : State) : Option Nat :=
  if s.job.blk.slotBytes = 0 then none
  else
    let ok := fun k => peekN s (slotBase s k) 4 == 0x54504B43 && slotState s k == 3
    let step := fun k => peekN s (slotBase s k + 8) 4
    if ok 2 && ok 3 then (if step 2 < step 3 then some 3 else some 2) else if ok 2 then some 2 else if ok 3 then some 3 else none

/-- The buddy's part: its COMMITTED mirror goes to the spare's own slot; without one it reports SPARE_EXHAUSTED (R238). -/
def buddySends (s : State) (d sp : Nat) : State :=
  match bestMirror s with
  | some k => copySlot (dropCkpt s 2) 2 k sp (slotBase s 0)
  | none => requestRollback (raiseFault s { code := 0x15, sev := 4, detail := 4 + d * 2 ^ 8, src := 6 }) 1 0x15

/-- A spare without a job prepares for the one of the lost device (R236): its parameters are free (log 53). Until the restart frame
its MIRROR_WINDOW takes the slot that the buddy sends. One with too few Folios runs no job (R24). -/
def adoptJob (s : State) (m : SvcMsg) : State :=
  if s.folios.short.isSome then s else
  let f := Config.spareField m.device
  let k := { blockBy f (fun off i => f (off + i) 4) (fun off i w => f (off + i) w) with tag := m.job }
  let base := f 64 6
  let t := { s with
    job := { session := s.job.session, restricted := s.job.restricted, driver := s.job.driver, blk := k,
             opened := insertNat k.mirrorWindow s.job.opened }
    glob.ckptBase := base, glob.paramTable := f 104 6, glob.abortPolicy := f 42 1 % 2, glob.stackUse := f 43 1 % 256
    train := { asSpare := some m.device, ownerFix := [(m.device, s.glob.deviceId)] } }
  setWindow t k.mirrorWindow { isOpen := true, base := base, flags := 3, length := 4 * k.slotBytes, gen := 1, srcId := 0, srcMask := 0 }

/-- TAKEOVER_RECEIVE: the spare takes the lost device's place in the lists; owner tables follow in the next seam (R164); the buddy
and the ward of the lost device do their parts. A device without a job that is named becomes the spare. -/
def opTakeover (src : Nat) (m : SvcMsg) (s : State) : State :=
  if !jobExists s then adoptJob s m
  else
    let co := decide (m.device = s.job.blk.devices.headD s.glob.deviceId)
    let b := s.job.blk
    let t := { s with
      job.blk.devices := swapIn m.device m.spare b.devices, job.lost := insertNat m.device s.job.lost
      train.ownerFix := s.train.ownerFix ++ [(m.device, m.spare)]
      train.acting := if co then some src else s.train.acting, train.coTaken := s.train.coTaken || co }
    let t := if b.ward = m.device then
        let u := buddySends t m.device m.spare
        setWindow { u with job.blk.ward := m.spare } b.mirrorWindow { window u b.mirrorWindow with srcId := m.spare }
      else t
    if b.buddy = m.device then { t with job.blk.buddy := m.spare, train.remirror := true } else t

/-- TAKEOVER_RECEIVE. -/
def execTakeoverReceive (src : Nat) (m : SvcMsg) (s : State) : Host.Outcome State Fault Refusal :=
  whenAlive (.takeoverReceive src m) s (onMsg s src m 6 (opTakeover src m))

/-! ### Colophon (R354 to R356) -/

/-- The other members of the replica group. -/
def otherMembers (s : State) : List Nat := (replicas s).filter (fun d => decide (d ≠ s.glob.deviceId))

/-- A COLOPHON message (Table 14.5). -/
def coloMsg (s : State) (step : Nat) (dig : List Byte) : List Byte :=
  leBytes 1 9 ++ leBytes 1 0 ++ leBytes 2 s.job.blk.tag ++ leBytes 3 s.glob.deviceId ++ leBytes 1 0 ++ leBytes 4 step ++
  leBytes 2 s.train.obeyed ++ leBytes 18 0 ++ dig

/-- The digests of a step compared, once all are there (R356). -/
def coloCompare (s : State) (step : Nat) : State :=
  match s.colo.own.find? (fun o => o.1 == step) with
  | none => s
  | some o =>
    let ds := (otherMembers s).map (fun d => s.colo.got.find? (fun g => g.1 == step && g.2.1 == d))
    if ds.any (fun g => g.isNone) then s
    else
      let t := { s with
        colo.own := s.colo.own.filter (fun x => x.1 ≠ step), colo.got := s.colo.got.filter (fun x => x.1 ≠ step) }
      let same := (ds.filter (fun g => g.any (fun x => x.2.2 == o.2))).length + 1
      let n := ds.length + 1
      if same = n then { t with colo.goodStep := step }
      else
        requestRollback (raiseFault t
          { code := 0x0F, sev := 4, valid := 0x20, addr := t.colo.digest, src := 6
            detail := n + same * 2 ^ 8 + (if n < 2 * same then 2 ^ 16 else 0) + rd o.2 0 2 * 2 ^ 48 }) 0 0x0F

/-- COLOPHON_RECEIVE: a message of another SEQ is discarded. It waits while the scheduler core does not serve it (R304, R324). -/
def opColophon (s : State) (src : Nat) (pay : List Byte) : State :=
  if schedAway s || rd pay 0 1 ≠ 9 || !jobExists s || rd pay 2 2 ≠ s.job.blk.tag || !inJob s src then s
  else
    let t := takeMsg s src pay
    let step := rd pay 8 4
    if rd pay 12 2 ≠ t.train.obeyed then t
    else coloCompare { t with
      colo.got := t.colo.got.filter (fun g => !(g.1 == step && g.2.1 == src)) ++ [(step, src, slice pay 32 32)] } step

/-- COLOPHON_RECEIVE. -/
def execColophonReceive (src : Nat) (pay : List Byte) (s : State) : Host.Outcome State Fault Refusal :=
  whenAlive (.colophonReceive src pay) s (opColophon s src pay)

/-- The members whose digest of a step has not come. -/
def coloMissing (s : State) (step : Nat) : List Nat :=
  (otherMembers s).filter (fun d => !s.colo.got.any (fun g => g.1 == step && g.2.1 == d))

/-- The seam that ends step `n` (R355, R356): comparisons of earlier steps that are not complete are given up, and each digest that has
not come counts; the own digest of a Colophon step is sent and compared. -/
def coloEnd (s : State) (n : Nat) : State :=
  if s.colo.interval = 0 then s
  else
    let old := s.colo.own.filter (fun o => o.1 ≠ n)
    let missing := (old.map (fun o => (coloMissing s o.1).length)).sum
    let t := devEvent { s with colo.own := s.colo.own.filter (fun o => o.1 == n),
                               colo.got := s.colo.got.filter (fun g => decide (n ≤ g.1)) } 0x4E missing
    if n % s.colo.interval ≠ 0 then t
    else
      let failed := (badLine t t.colo.digest 32).isSome
      let t := fwRead t t.colo.digest 32
      let d := peek t t.colo.digest 32
      if failed || d.all (fun b => b == 0) then devEvent t 0x4E 1
      else
        let u := (otherMembers t).foldl (fun u m => sendMgmt u m (coloMsg u n d)) t
        coloCompare { u with colo.own := u.colo.own ++ [(n, d)] } n

end Sys2Proof.Machine
end

