-- ==== Sys2Proof/Machine/Issue.lean ====
section
/-! DEFINITION. The stroke region of a frame (R37 to R48, R52 to R54, R184 to R187, R196, R200): the tick, the issue loop cycle
by cycle, completion, overrun and the forced-refresh slots. A command acts in the cycle that `frame.cycle` names; STROKE_ISSUE
ends that cycle (log 7). -/

namespace Sys2Proof.Machine

open Sys2Proof

/-! ### Which strokes are due and ready -/

/-- A stroke has issued in this frame. -/
def hasIssued (s : State) (l i : Nat) : Bool := s.frame.issued.contains (l, i)

/-- The PAIR_SECOND stroke of the pair whose first is `i` went first (R47). -/
def swappedPair (s : State) (l i : Nat) : Bool := s.frame.swaps.contains (l, i)

/-- The Ductus cycle at which a stroke is due: its START, or START₁ + P for the first of a pair whose second went first (R47). -/
def dueAt (s : State) (d : Loaded) (l i : Nat) (k : Stroke) : Nat :=
  if k.flags.testBit 0 && swappedPair s l i then (strokeAt s d l k.partner).start else k.start

/-- The strokes due in this cycle that have not issued, by logical Folio and index. -/
def dueNow (s : State) (d : Loaded) : List (Nat × Nat × Stroke) :=
  (allStrokes s d).filter (fun x => !hasIssued s x.1 x.2.1 && dueAt s d x.1 x.2.1 x.2.2 == s.frame.clock)

/-- A stroke not yet in progress, as its decoders see it. -/
def ctxFor (s : State) (l i : Nat) (k : Stroke) : Ctx :=
  { l := l, i := i, p := (physOf s l).getD 0, k := k,
    run := { folio := l, idx := i, start := 0, budget := k.budget, cls := k.cls, at_ := k.op } }

/-- The home Nibs of the buckets that a reduction writes. -/
def Red.nibs (d : Red) : List Nat :=
  (List.range d.buckets).map (fun i =>
    homeNib (rd d.b 16 8 + (if d.fp32 then 4 * bucketVals * i else 32768 * i)) % 256)

/-- The Nibs of the scopes of a mask record (R130). -/
def MaskRec.nibs (r : MaskRec) (s : State) : List Nat :=
  (List.range (rd r.b 60 4 / max 1 r.group)).map (fun i => homeNib (tileOfLinear s r.w (rd r.b 56 4 + r.group * i)) % 256)

/-- The Nibs that a stroke needs (R202); none where its records do not decode. -/
def nibsFor (s : State) (x : Ctx) : List Nat :=
  if x.k.cls = 4 then (match decodeChain s x with | .ok rs => (rs.flatMap (fun r => r.nibs s)).eraseDups | .error _ => [])
  else if x.k.cls = 7 then (match decodeReduce s x with | .ok d => d.nibs.eraseDups | .error _ => [])
  else if x.k.cls = 8 then (match decodeMask s x.k.op with | .ok r => (r.nibs s).eraseDups | .error _ => [])
  else []

/-- What keeps a stroke from issuing. -/
inductive Hold where
  | slot (n : Nat)
  | unit
deriving DecidableEq, Repr

/-- An earlier stroke occupies a Quill or Nib that the stroke needs (R125, R202). -/
def unitsBusy (s : State) (x : Ctx) : Bool :=
  s.frame.prog.any (fun r => (r.folio == x.l && (r.quills &&& x.k.quills) != 0) || (nibsFor s x).any (fun n => r.nibs.contains n))

/-- The tag wait of R185 or the occupied unit that holds a stroke back; none where it is ready. The tags are those of the end
of the cycle before (R43). -/
def holdOn (s : State) (d : Loaded) (x : Ctx) : Option Hold :=
  let ins := (inSlots s d x.k).map slotNo
  match ins.find? (fun n => !s.frame.seen.contains n) with
  | some n => some (.slot n)
  | none =>
    match (outSlots s d x.k).find? (fun n => !ins.contains n && s.frame.seen.contains n) with
    | some n => some (.slot n)
    | none => if unitsBusy s x then some .unit else none

/-- What a due stroke brings: a stroke to issue (and whether it is the second of a pair, gone first), or a wait. -/
inductive Pick where
  | go (x : Ctx) (swap : Bool)
  | wait (x : Ctx) (h : Hold)

/-- The decision of R43 and R47 for a due stroke: a pair whose first is not ready sends its second. The strokes of a pair with
P = 0 are due in the same cycle, and each waits for itself. -/
def pickOf (s : State) (d : Loaded) (l i : Nat) (k : Stroke) : Pick :=
  let x := ctxFor s l i k
  match holdOn s d x with
  | none => .go x false
  | some h =>
    let y := ctxFor s l k.partner (strokeAt s d l k.partner)
    if k.flags.testBit 0 && !swappedPair s l i && y.k.start ≠ k.start && (holdOn s d y).isNone then .go y true else .wait x h

/-- The first wait among picks, in the order of the logical Folios and of their lists: the wait that TAG_TIMEOUT and the
frame's `waitSlot` name when several strokes wait in one cycle (log 59). -/
def firstWait (ps : List Pick) : Option (Ctx × Hold) :=
  ps.findSome? (fun p => match p with | .wait x h => some (x, h) | .go _ _ => none)

/-! ### Stalls (R43, R52, Table 2.5) -/

/-- Throttle stall that the power core may inject in a frame (R54, R342). -/
def throttleBudget (s : State) : Nat := min (s.power.stallRatio * regionLen s / 1024) (throttleAllow s)

/-- A throttle burst of 16 cycles holds in this cycle: the bursts are spaced evenly through the region (R342, log 26). -/
def throttleNow (s : State) : Bool :=
  let b := throttleBudget s
  let gap := regionLen s / max 1 (cdiv b 16)
  decide (s.frame.thrUsed < b) && decide (s.frame.cycle < regionLen s) &&
  decide ((s.frame.cycle + gap - Config.burstPhase % max 1 (gap - 15)) % max 1 gap < 16)

/-- The classes of Table 2.5 that hold in this cycle, by field of R45. -/
def stallClasses (s : State) (d : Loaded) (waits : Bool) : List Bool :=
  [decide (0 < s.frame.stkLeft), decide (0 < s.frame.lpLeft) && lpUsed s d, linkRetryStall s, throttleNow s, busyWaits s, waits]

/-- The stall signals of a cycle: STALL and its classes, each an edge where the cycle before did not assert it. -/
def stallSignals (s : State) (cs : List Bool) : State :=
  let all := (cs.any id) :: cs
  let mask := all.zipIdx.foldl (fun m x => if x.1 then m + 2 ^ x.2 else m) 0
  let s := if cs.getD 4 false then (busyPorts s).foldl (fun t p => laneSignal t p 0x79 (b2n (!s.frame.stalled.testBit 5)) 1) s else s
  all.zipIdx.foldl (fun t x => if x.1 then devSignal t (0x40 + x.2) (b2n (!s.frame.stalled.testBit x.2)) 1 else t)
    { s with frame.stalled := mask }

/-- What each due stroke brings in this cycle. -/
def picks (s : State) (d : Loaded) : List Pick := (dueNow s d).map (fun x => pickOf s d x.1 x.2.1 x.2.2)

/-- A variable event of Table 2.5 holds as this cycle begins (R43). -/
def stallsNow (s : State) : Bool :=
  match curDuctus s with
  | some d => (stallClasses s d (firstWait (picks s d)).isSome).any id
  | none => false

/-- This cycle is a stalled one if an event of Table 2.5 holds in it: no stroke advances (R43). -/
def withBlocked (s : State) : State := { s with frame.blocked := s.frame.region && stallsNow s }

/-- The cycle ends: the counters of the refresh slots run down, and the tags are as the next cycle's issue sees them. After an
abort no stroke is in progress. -/
def nextCycle (s : State) : State :=
  withBlocked (elapse { s with
    frame.prog := if s.frame.aborted then [] else s.frame.prog, frame.setNow := [], frame.clearedNow := []
    frame.cycle := s.frame.cycle + 1, frame.seen := s.mem.full, frame.stkLeft := s.frame.stkLeft - 1,
    frame.lpLeft := s.frame.lpLeft - 1 } unitsPerCycle)

/-- The seam of the frame that runs is due: its time is at or past the next boundary less 2,000 ns, or its region has the R + D
cycles of R38 and R39. -/
def seamDue (s : State) : Bool :=
  let f := frameOf s s.time.now
  laterFrame f s.frame.number || decide (regionLen s + driftBound s ≤ s.frame.cycle) ||
  (f == s.frame.number && decide (periodUnits s ≤ (((s.time.now : Int) - epoch s) % max 1 (periodUnits s)).toNat + 2000 * 65536))

/-- A stalled cycle: S and the class fields advance. The cycle in which S first exceeds M does not end before the overrun
(R44, R45). -/
def stallCycle (s : State) (cs : List Bool) (w : Option (Ctx × Hold)) : State :=
  let t := stallSignals s cs
  let t := { t with
    frame.stall := t.frame.stall + 1, frame.cls := List.zipWith (fun n c => n + b2n c) t.frame.cls cs
    frame.thrUsed := t.frame.thrUsed + b2n (cs.getD 3 false)
    frame.waitSlot := (match w with | some (x, .slot n) => some (x.l, x.i, n) | _ => none) }
  if margin t < t.frame.stall then { t with frame.exceeded := true, frame.blocked := true } else nextCycle t

/-! ### STROKE_ISSUE -/

/-- What the NX1 decodes of a stroke as it issues (R114, R139, R153, R164, R202, R216). -/
def decodeAt (s : State) (x : Ctx) : Except Bad Decoded :=
  let a := x.k.op % 2 ^ 48
  if x.k.cls = 1 then (decodeProduct s x).map .product
  else if x.k.cls = 3 || x.k.cls = 5 then
    if 2 ^ 48 ≤ x.k.op then .error (badDesc a) else (decodeMove s a (some x.k.cls)).map .move
  else if x.k.cls = 4 then (decodeChain s x).map .chain
  else if x.k.cls = 6 then (decodeRouting s x).map .routing
  else if x.k.cls = 7 then (decodeReduce s x).map .reduce
  else .ok .none

/-- The stroke is an optimiser or a mask stroke (R233). -/
def changesWeights (x : Ctx) (d : Decoded) : Bool :=
  x.k.cls == 8 || (match d with | .chain rs => rs.any (fun r => r.op == 3) | _ => false)

/-- The memory that the decoding of a stroke reads: its records, the descriptors and owner tables that they name, and what else
they name (R114, R139, R153, R164). -/
def recordReads (s : State) (x : Ctx) : List (Nat × Nat) :=
  let a := x.k.op % 2 ^ 48
  let f := fun off => peekN s (a + off) 8 % 2 ^ 48
  let c := x.k.cls
  let recs := if c = 4 then (chainRecs s a).map (fun y => (y, nibRecBytes (peekN s y 1))) else [(a, if c = 6 || c = 8 then 64 else 128)]
  let more := if c = 1 then [(f 56, 64), (f 64, 16), (f 80, 64)] else if c = 3 || c = 5 then [(f 112, 64)]
    else if c = 6 then [(f 32, (if curFlag s 3 then 64 else 16) * peekN s (a + 4) 2), (f 56, 64)] else []
  realReads s (recs ++ descReads s (namedDescs s x.k) ++ more)

/-- A stroke put among those in progress, with what was decoded of it. -/
def startStroke (s : State) (x : Ctx) (swap : Bool) (dec : Decoded) : State :=
  let r := { x.run with start := s.frame.clock, quills := x.k.quills, nibs := nibsFor s x, dec := dec }
  let t := { s with
    frame.issued := s.frame.issued ++ [(x.l, x.i)], frame.prog := s.frame.prog ++ [r]
    frame.swaps := if swap then s.frame.swaps ++ [(x.l, x.k.partner)] else s.frame.swaps
    job.optIssued := s.job.optIssued || changesWeights x dec
    job.optRan := s.job.optRan || (changesWeights x dec && !s.job.skipped.contains s.job.step) }
  let t := folioEvent t x.p 0x11 1 (x.from 3 none)
  if swap then folioEvent t x.p 0x10 1 (x.from 3 none) else t

/-- One stroke issues; one whose records are rejected, or lie in a line that fails, aborts the frame. In the cycle of an abort it
only has its record. -/
def issueOne (s : State) (x : Ctx) (swap : Bool) : State :=
  let start := fun dec => if s.frame.aborted then s else startStroke s x swap dec
  let rs := if x.k.cls = 2 then [] else recordReads s x
  match readsBad s rs with
  | some l => lineErrorBy (start .none) (some (x.l, x.i)) l
  | none =>
    match decodeAt s x with
    | .error b => failStroke (noteReads (start .none) rs) x.l x.i b
    | .ok dec => if s.frame.aborted then s else noteReads (start dec) rs

/-- One stroke of a list of picks issues. -/
def issuePick (s : State) (p : Pick) : State := match p with | .go x sw => issueOne s x sw | .wait _ _ => s

/-- STROKE_ISSUE: one cycle of the issue loop of R43, while the seam is not due (R39). In the cycle of an abort, what else fails
has its record (R86), and no stroke issues. -/
def opStrokeIssue (s : State) : State :=
  if !s.frame.live || !s.frame.region || s.frame.exceeded || seamDue s then s
  else if s.frame.aborted && (!abortedNow s || decide (margin s < s.frame.stall)) then nextCycle s
  else match curDuctus s with
    | none => nextCycle s
    | some d =>
      let ps := picks s d
      let w := firstWait ps
      let cs := stallClasses s d w.isSome
      if cs.any id then stallCycle s cs w
      else
        let t := ps.foldl issuePick (stallSignals s cs)
        nextCycle { t with frame.clock := t.frame.clock + b2n (!t.frame.aborted), frame.waitSlot := none }

/-- STROKE_ISSUE. -/
def execStrokeIssue (s : State) : Host.Outcome State Fault Refusal := whenAlive .strokeIssue s (opStrokeIssue s)

/-! ### STROKE_COMPLETE (R184, R187) -/

/-- The tags of a stroke that completes: input slots EMPTY unless kept or also outputs, then output slots FULL. -/
def completeTags (s : State) (d : Loaded) (k : Stroke) : State :=
  let outs := outSlots s d k
  let gone := (inSlots s d k).filter (fun e => !slotKeep e && !outs.contains (slotNo e))
  let o := tagOrigin (some k.cls)
  outs.foldl (setTag o) ((gone.map slotNo).foldl (clearTag o) s)

/-- STROKE_COMPLETE: of a stroke whose data effect is made, in a cycle that is not stalled (R43, R125). -/
def opStrokeComplete (s : State) (l i : Nat) : State :=
  if s.frame.blocked || s.frame.aborted then s else
  match curDuctus s, s.frame.prog.find? (fun r => r.folio == l && r.idx == i && r.done) with
  | some d, some _ =>
    completeTags { s with frame.prog := s.frame.prog.filter (fun r => !(r.folio == l && r.idx == i)) } d (strokeAt s d l i)
  | _, _ => s

/-- STROKE_COMPLETE. -/
def execStrokeComplete (l i : Nat) (s : State) : Host.Outcome State Fault Refusal :=
  whenAlive (.strokeComplete l i) s (opStrokeComplete s l i)

/-! ### FRAME_OVERRUN (R44 to R46) -/

/-- A key that orders strokes by START, logical Folio and index (R45). -/
def strokeKey (x : Nat × Nat × Stroke) : Nat := (x.2.2.start * 64 + x.1) * 2 ^ 20 + x.2.1

/-- The first of some strokes in the order of R45. -/
def firstStroke (l : List (Nat × Nat × Stroke)) : Option (Nat × Nat × Stroke) :=
  l.foldl (fun b x => match b with | some y => if strokeKey x < strokeKey y then some x else b | none => some x) none

/-- The detail of FRAME_OVERRUN: six 10-bit fields, each saturating (R45). -/
def overrunDetail (s : State) : Nat := s.frame.cls.zipIdx.foldl (fun a x => a + satN 1023 x.1 * 2 ^ (10 * x.2)) 0

/-- The record of FRAME_OVERRUN that names a stroke, or none where every stroke has issued. -/
def overrunRec (s : State) (x : Option (Nat × Nat × Stroke)) (detail : Nat) : FaultRec :=
  match x with
  | some y => { strokeFault s y.1 y.2.1 1 0 detail with valid := 0x12 }
  | none => { code := 1, valid := 0x10, stroke := 0xFFFFF, detail := detail, src := 1 }

/-- The aperture address of a slot. -/
def slotAddr (n : Nat) : Nat := apBase + 4096 * n

/-- TAG_TIMEOUT (R44), where the wait in progress is on a slot. -/
def tagTimeout (s : State) : State :=
  match s.frame.waitSlot with
  | some (l, i, n) => raiseFault s { strokeFault s l i 2 (slotAddr n) 0 with sev := 2, cause := true }
  | none => s

/-- The strokes of the frame that have not issued. -/
def unissued (s : State) : List (Nat × Nat × Stroke) :=
  match curDuctus s with
  | some d => (allStrokes s d).filter (fun x => !hasIssued s x.1 x.2.1)
  | none => []

/-- FRAME_OVERRUN: S has exceeded M. In the cycle of another abort it has its record too (R86). -/
def opOverrun (s : State) : State :=
  if !s.frame.live || !s.frame.exceeded then s
  else abortWith { tagTimeout s with frame.exceeded := false } (overrunRec s (firstStroke (unissued s)) (overrunDetail s)) false

/-- FRAME_OVERRUN. -/
def execFrameOverrun (s : State) : Host.Outcome State Fault Refusal := whenAlive .frameOverrun s (opOverrun s)

/-! ### Forced-refresh slots (R196, R200, R52) -/

/-- What is flipped in a line, with more flips. -/
def addFlips (e fs : List (Nat × Nat)) : List (Nat × Nat) :=
  (fs.foldl (fun (r : Tbl Nat) f => tput r f.1 (tget r f.1 0 ^^^ (f.2 % 256))) e).filter (fun f => f.2 ≠ 0)

/-- What the code of a line makes of what is flipped (R193, R199): 0 nothing, 1 corrected, 2 detected, 3 beyond the code. -/
def codeSees (stack : Bool) (e : List (Nat × Nat)) : Nat :=
  if e.isEmpty then 0
  else if stack then (if e.length ≤ 3 then 1 else if e.length ≤ 5 then 2 else 3)
  else
    let bits := (e.map (fun f => popc 8 f.2)).sum
    if bits = 1 then 1 else if bits = 2 || e.length = 1 then 2 else 3

/-- The stored data of a line as they read where its errors go undetected. -/
def flipped (s : State) (l : Nat) (e : List (Nat × Nat)) : List Byte :=
  (peek s (64 * l) 64).zipIdx.map (fun b => b.1 ^^^ BitVec.ofNat 8 (tget e b.2 0))

/-- A line upset by what the manual does not model, found later by a read (log 12). Errors beyond the code may be detected, go
undetected, or be corrected wrongly, to data that are free. -/
def upsetLine (s : State) (x : Upset) : State :=
  let r := regionOf s (64 * x.line)
  if 1 < r then s
  else
    let l := x.line
    let e := addFlips (tget s.mem.errs l []) (x.flips.filter (fun f => decide (f.1 < if r = 0 then 72 else 66)))
    let set := fun (t : State) (bad corr : Bool) => { t with
      mem.errs := if e.isEmpty then t.mem.errs.filter (fun y => y.1 ≠ l) else tput t.mem.errs l e
      mem.bad := if bad then insertNat l t.mem.bad else eraseNat l t.mem.bad
      mem.corr := if corr then insertNat l t.mem.corr else eraseNat l t.mem.corr }
    match codeSees (r == 0) e with
    | 0 => set s false false
    | 1 => set s false true
    | 2 => set s true false
    | _ =>
      let f := freshNat s
      if f.1 % 3 = 0 then set f.2 true false
      else if f.1 % 3 = 1 then poke f.2 (64 * l) (flipped f.2 l e)
      else let b := freshBytes 64 f.2; set (poke b.2 (64 * l) b.1) false true

/-- Patrol scrub reads and corrects a line of the stacks (R194 to R196). -/
def scrubLine (s : State) (l : Nat) : State :=
  let k := 64 * l / stackBytes
  if 8 ≤ k then s
  else
    let t := stackEvent s k 0x64 1
    if t.mem.bad.contains l then lineError t l else if t.mem.corr.contains l then correctLine t l else t

/-- STACK_REFRESH_SLOT: it begins in this cycle and stalls `len` cycles, at most 48. Errors that arise in it come first. -/
def opStackSlot (s : State) (len : Nat) (scrub : List Nat) (upset : List Upset) : State :=
  if !s.frame.region || s.frame.cycle % 3120 ≠ 0 then s
  else
    let t := (List.range 8).foldl (fun t k => if domOn t (72 + k) then stackEvent t k 0x61 1 else t) s
    withBlocked (scrub.foldl scrubLine (upset.foldl upsetLine { t with frame.stkLeft := min 48 len }))

/-- STACK_REFRESH_SLOT. -/
def execStackRefreshSlot (len : Nat) (scrub : List Nat) (upset : List Upset) (s : State) :
    Host.Outcome State Fault Refusal :=
  whenAlive (.stackRefreshSlot len scrub upset) s (opStackSlot s len scrub upset)

/-- LP_REFRESH_SLOT: at most 112 cycles. -/
def opLpSlot (s : State) (len : Nat) (upset : List Upset) : State :=
  if !s.frame.region || s.frame.cycle % 6240 ≠ 0 then s
  else
    let t := (List.range s.mem.lpChannels).foldl (fun t c => if domOn t (124 + c / 8) then lpEvent t c 0x61 1 else t) s
    withBlocked (upset.foldl upsetLine { t with frame.lpLeft := min 112 len })

/-- LP_REFRESH_SLOT. -/
def execLpRefreshSlot (len : Nat) (upset : List Upset) (s : State) : Host.Outcome State Fault Refusal :=
  whenAlive (.lpRefreshSlot len upset) s (opLpSlot s len upset)

/-! ### FRAME_TICK (R37) -/

/-- The number of the frame that a tick begins: the one that the seam has advanced to, or, where no seam ran, that of the
time, and never one that has begun (R34). -/
def tickNumber (s : State) : Nat :=
  if s.frame.seam && 7 ≤ s.frame.phase then s.frame.number
  else
    let f := frameOf s s.time.now
    if laterFrame f s.frame.number then f else (s.frame.number + 1) % 2 ^ 48

/-- The time is at or after the boundary of frame `n` (R37). -/
def timeOfTick (s : State) (n : Nat) : State :=
  let q := frameOf s s.time.now
  if q = n || laterFrame q n then s
  else
    let into := ((s.time.now : Int) - epoch s) % max 1 (periodUnits s)
    advance s (((n + 2 ^ 48 - q) % 2 ^ 48) * periodUnits s - into.toNat)

/-- K of the job's rotation: the OVERLAY_COUNT of FIRST_DUCTUS (R51). -/
def overlays (s : State) : Nat := match loadedOf s s.job.blk.firstDuctus with | some d => hdrField s d 34 2 | none => 0

/-- The Ductus of frame `f` of the job (R51). -/
def overlayAt (s : State) (f f0 : Nat) : Option Nat :=
  ((rotation s)[((f + 2 ^ 48 - f0) % 2 ^ 48) % max 1 (overlays s)]?).map (fun d => d.id)

/-- Every tag set from the tag image of a Ductus (R184, R426). -/
def loadTags (s : State) (id : Option Nat) : State :=
  match id.bind (loadedOf s) with
  | some d =>
    let full := (imageSlots s d).filter (fun n => (physOf s (n / 8192)).isSome)
    { s with mem.full := full, frame.seen := full }
  | none => s

/-- Frames of the job begin with this tick at frame `n`, counted from `f0`. -/
def goLive (s : State) (n f0 : Nat) : State :=
  let cur := overlayAt s n f0
  let t := if s.frame.next.isSome && s.frame.next = cur then s else loadTags s cur
  { t with
    job.f0 := f0, frame.live := true, frame.current := cur, frame.next := none, frame.aborted := false
    train.paused := false, train.pausedRb := false }

/-- RUNNING, or ORPHANED with that state saved. -/
def setRunning (s : State) : State := if s.glob.jobState = 6 then { s with job.savedState := 4 } else setJobState s 4

/-- The first step of the job begins with its first frame (R229, R355). -/
def firstStep (s : State) : State := coloBegin (ckptFor s s.job.step) s.job.step

/-- A resume whose frame has come. -/
def resumeDue (n : Nat) (o : HeldOp) : Bool := match o with | .resume f => !laterFrame f n | _ => false

/-- A held packet continues to check 2 (R273); one for the register mirror waits for its access (R300). -/
def releasePacket (s : State) (x : Nat × Packet) : State :=
  if toMirror s x.2 then setPort s x.1 { port s x.1 with inbox := (port s x.1).inbox ++ [x.2] }
  else if x.2.typ = 1 then inbound s x.1 x.2 1 (landWrite x.1 x.2)
  else if x.2.typ = 2 then inbound s x.1 x.2 2 (landRead x.1 x.2)
  else inbound s x.1 x.2 3 (landReduce x.1 x.2)

/-! ### Owner tables (R164, R236) -/

/-- The owner tables of the loaded Ductus: base and entries. -/
def ownerTables (s : State) : List (Nat × Nat) :=
  ((s.ductus.flatMap (fun d => (allStrokes s d).flatMap (fun x => namedDescs s x.2.2))).eraseDups.filterMap (fun a =>
    let d := descAt s a
    if d.magic = 0x4454 && d.distributed && d.rank ≤ 6 && installed s d.base (16 * d.blocks) then some (d.base, d.blocks) else none)).eraseDups

/-- Owner-table entries that name a lost device name the spare (R164, R236). -/
def fixOwners (s : State) : State :=
  s.train.ownerFix.foldl (fun t x =>
    (ownerTables t).foldl (fun t e =>
      (List.range e.2).foldl (fun t i =>
        let a := e.1 + 16 * i + 6
        if peekN t a 3 = x.1 then fwStore t a (leBytes 3 x.2) else t) t) t) { s with train.ownerFix := [] }

/-! ### The start of frames -/

/-- A spare that is ready takes the place of the lost device, and with entry 0 the coordinator role, at the restart frame
(R236, R237). The slot that it restored from is its latest COMMITTED one (R230), and its owner tables name it (R164, log 53). -/
def takePlace (s : State) (d rf : Nat) : State :=
  let k := s.job.blk
  let t := setJobState { s with
    job.blk.devices := swapIn d s.glob.deviceId k.devices, job.blk.startFrame := rf, job.step := s.train.restartStep
    train.restart := none, train.sentReady := false, train.asSpare := none, train.acting := none
    train.committed := if k.slotBytes ≠ 0 && slotState s 0 = 3 then some (peekN s (slotBase s 0 + 8) 4, 0) else none } 3
  recheckDrains (fixOwners (setBanks (mapForJob (openMirror t k t.glob.ckptBase)) k.fbMask k.wellMask))

/-- The spare begins the job with this frame. -/
def spareStarts (s : State) (n : Nat) : Option State :=
  match s.train.asSpare, s.train.restart with
  | some d, some rf =>
    if s.train.sentReady && !laterFrame rf n && !jobExists s then some (firstStep (goLive (setRunning (takePlace s d rf)) n rf)) else none
  | _, _ => none

/-- The job starts or resumes with this frame (R296, R297); not while the scheduler core, which starts it, is stopped (R304). -/
def startFrames (s : State) (n : Nat) : State :=
  if s.boot.schedDown then s
  else if jobPhase s = 3 && jobExists s && !laterFrame s.job.blk.startFrame n then
    firstStep (goLive (setRunning s) n s.job.blk.startFrame)
  else if jobPhase s = 5 && jobExists s then
    match s.rings.held.find? (fun h => resumeDue n h.op) with
    | some { op := .resume f, .. } =>
      let x := takeHeld s (resumeDue n)
      completeAll (goLive (setRunning x.2) n f) x.1 0
    | _ => s
  else (spareStarts s n).getD s

/-- The registers of a frame that begins. -/
def freshFrame (s : State) (n : Nat) : Frame :=
  { number := n, live := s.frame.live, current := s.frame.current, next := s.frame.next, aborted := s.frame.aborted,
    seen := s.mem.full, timeSampled := s.frame.timeSampled }

/-- The sequencers read the Ductus of the frame (R194, R195; log 12): a line of it that fails aborts the frame. -/
def readDuctus (s : State) : State :=
  match curDuctus s with
  | some d => if s.frame.live && !s.frame.aborted then fwRead s d.addr d.bytes else s
  | none => s

/-- FRAME_TICK. What was refused in the frame before is tried again (R299). -/
def opFrameTick (s : State) : State :=
  if s.time.period = 0 || (s.frame.live && !(s.frame.seam && 7 ≤ s.frame.phase)) then s
  else
    let n := tickNumber s
    let held := s.fab.holdNext
    let t := timeOfTick s n
    let t := freeHeld { t with
      frame := freshFrame t n, fab.holdNext := []
      flt.region := t.flt.region ++ t.flt.inSeam, flt.inSeam := [] }
    let t := startFrames (devEvent t 0x48 1) n
    withBlocked (readDuctus (retryWrites (held.foldl releasePacket { t with frame.region := t.frame.live })))

/-- FRAME_TICK. -/
def execFrameTick (s : State) : Host.Outcome State Fault Refusal := whenAlive .frameTick s (opFrameTick s)

end Sys2Proof.Machine
end

