-- ==== Sys2Proof/Machine/Seam.lean ====
section
/-! DEFINITION. The seam (R46, R49, R50) and the end of a step (R150, R152, R225, R229, R297, R355). A seam command acts once the
phase before it has run; `frame.phase` is the last phase that has (log 7). -/

namespace Sys2Proof.Machine

open Sys2Proof

/-- The cycle of the seam from which phase `k` acts (Table 2.4): the step boundary is part of the Ductus switch. -/
def phaseCycle (k : Nat) : Nat := [0, 256, 640, 896, 1152, 1152, 1408, 1536].getD k 1536

/-- A command of seam phase `k`, which follows phase k − 1 (Table 2.4). -/
def inPhase (s : State) (k : Nat) (f : State → State) : State :=
  if s.frame.seam && s.frame.phase + 1 == k then f { seamTo s (phaseCycle k) with frame.phase := k } else s

/-! ### SEAM_START (R39, R46, R49) -/

/-- The time is at or after the boundary of the next frame less 2,000 ns (R39). -/
def timeOfSeam (s : State) : State :=
  let at_ := periodUnits s - 2000 * 65536
  let into := (((s.time.now : Int) - epoch s) % max 1 (periodUnits s)).toNat
  if frameOf s s.time.now = s.frame.number && decide (into < at_) then advance s (at_ - into) else s

/-- A stroke in progress overruns (R46). -/
def lateStroke (s : State) : State :=
  if !s.frame.live || s.frame.aborted then s
  else match curDuctus s with
    | none => s
    | some d =>
      match firstStroke (s.frame.prog.map (fun r => (r.folio, r.idx, strokeAt s d r.folio r.idx))) with
      | none => s
      | some x => abortWith s (overrunRec s (some x) (overrunDetail s + 2 ^ 63)) false

/-- This seam closes the last frame of a step (R297). A step whose frame was aborted is repeated, and does not end (R45, R150). -/
def stepEnds (s : State) : Bool :=
  let k := (s.frame.number + 2 ^ 48 - s.job.f0) % 2 ^ 48
  s.frame.live && !s.frame.aborted && decide (k < 2 ^ 47) && (k + 1) % max 1 s.job.blk.stepFrames == 0

/-- What a descriptor that was held too late for the seam before now waits for (R50): a PAUSE whose step has begun is late
(R297). -/
def wakeLate (s : State) : State :=
  let gone := fun (x : Held) => x.late && (match x.op with | .pause n => decide (n ≤ s.job.step) | _ => false)
  completeAll { s with rings.held := (s.rings.held.filter (fun x => !gone x)).map (fun x => { x with late := false }) }
    (s.rings.held.filter gone) 0x18

/-- SEAM_START: stroke issue ends; the region has at least R − D cycles (R38, R39); lanes that are UP again rejoin (R254), and a change of
the time source is made (R303). A commit that has come makes a seam that begins a step a checkpoint boundary (R360). -/
def opSeamStart (s : State) : State :=
  if !jobExists s || s.frame.seam then s
  else
    let t := opOverrun s
    let t := lateStroke { t with frame.cycle := max t.frame.cycle (regionLen t - driftBound t) }
    let t := wakeLate (rejoinLanes (timeOfSeam t))
    let t := match t.time.pendSource with | some v => changeSource t v true | none => t
    let full := decide (0 < t.power.stallRatio) && decide (throttleAllow t ≤ t.frame.thrUsed)
    let atCkpt := stepEnds t && t.train.ckptBoundary
    { t with
      train.atCkpt := atCkpt, train.ckptBoundary := t.train.ckptBoundary && !atCkpt, frame.seamAt := t.frame.cycle
      frame.prog := if t.frame.aborted then [] else t.frame.prog, frame.abortedAt := none
      frame.region := false, frame.seam := true, frame.phase := 0, frame.stalled := 0, frame.blocked := false
      power.allowFrames := if t.frame.live then (if full then t.power.allowFrames + 1 else 0) else t.power.allowFrames }

/-- SEAM_START. -/
def execSeamStart (s : State) : Host.Outcome State Fault Refusal := whenAlive .seamStart s (opSeamStart s)

/-! ### Fault collection and windows -/

/-- FAULT_COLLECTION (R351). -/
def execFaultCollection (s : State) : Host.Outcome State Fault Refusal :=
  whenAlive .faultCollection s (inPhase s 2 collectFaults)

/-- The windows whose CLOSE_FRAME is this frame (R270). -/
def scheduledCloses (s : State) : List Nat :=
  (s.fab.windows.filter (fun w => w.2.isOpen && w.2.closeFrame ≠ 0 && w.2.closeFrame == s.frame.number)).map (fun w => w.1)

/-- A held descriptor taken from those that wait. -/
def withoutHeld (s : State) (x : Held) : State := { s with rings.held := s.rings.held.erase x }

/-- A held CLOSE_WINDOW takes effect, once. -/
def applyHeldClose (s : State) (x : Held) : State :=
  match x.op with
  | .closeWindow w => if s.rings.held.contains x then applyClose (withoutHeld s x) x.hdr w else s
  | _ => s

/-- A held window descriptor takes effect: an open follows the closes of its own window (R289). -/
def applyHeldWindow (s : State) (x : Held) : State :=
  match x.op with
  | .openWindow w e =>
    let t := (s.rings.held.filter (fun y => y.op == .closeWindow w)).foldl applyHeldClose s
    applyOpen (withoutHeld t x) x.hdr w e
  | _ => applyHeldClose s x

/-- WINDOW_PHASE (R270, R289): the scheduled closes, then the held descriptors in fetch order, but of one window its closes before its
opens; the streams are released (R177). -/
def opWindowPhase (s : State) : State :=
  let t := (scheduledCloses s).foldl closeAt s
  { t.rings.held.foldl applyHeldWindow t with streams := [] }

/-- WINDOW_PHASE. -/
def execWindowPhase (s : State) : Host.Outcome State Fault Refusal := whenAlive .windowPhase s (inPhase s 3 opWindowPhase)

/-! ### DUCTUS_SWITCH (R50) -/

/-- A held STEP_BEGIN's step and allowance. -/
def HeldOp.stepOf : HeldOp → Option (Nat × Nat) | .stepBegin n k => some (n, k) | _ => none

/-- The last STEP_BEGIN among held descriptors: the number of the step and its allowance. -/
def lastStepBegin (hs : List Held) : Option (Nat × Nat) := (hs.filterMap (fun h => h.op.stepOf)).getLast?

/-- The number of the step that follows: that of the last STEP_BEGIN that waits for this seam, else one more. -/
def stepAfter (s : State) (hs : List Held) : Nat :=
  match lastStepBegin hs with
  | some x => x.1
  | none => (s.job.step + 1) % 2 ^ 32

/-- The held descriptors that wait for this seam; one that came during its switch waits for the next (R50). -/
def heldNow (s : State) : List Held := s.rings.held.filter (fun h => !h.late)

/-- The number of the step that follows. -/
def nextStep (s : State) : Nat := stepAfter s (heldNow s)

/-- Those of some held descriptors that take effect where the step `nxt` begins: STEP_BEGIN, and PAUSE for it (R297). -/
def boundaryHeld (hs : List Held) (nxt : Nat) : List Held := hs.filter (fun h => h.op.stepOf.isSome || h.op == .pause nxt)

/-- The record of an expert's counts (Table 6.4). -/
def expertRecord (s : State) (e : Nat) : List Byte :=
  let x := expert s e
  leBytes 4 (sat32 x.first) ++ leBytes 4 (sat32 x.admitted) ++ leBytes 4 (sat32 x.overflow) ++ leBytes 4 (sat32 x.dropped)

/-- The counts of the step (R150): the array and its record, where GLOBAL_EXPERT_COUNTS names one; they start from zero again. FIRST
is kept for the placement of R152. -/
def postCounts (s : State) : State :=
  let t := if s.glob.expertCounts = 0 then s
    else postRecord (fwStore s s.glob.expertCounts ((List.range 1024).flatMap (expertRecord s))) 3 0 false
  { t with
    experts.past := t.experts.past ++ [(s.job.step, t.experts.count.map (fun x => (x.1, x.2.first)))], experts.count := [] }

/-- T of a group advanced (R225, Table 9.3). -/
def bumpT (s : State) (g : Nat) : State :=
  let a := groupAt s g + 20
  fwStore s a (leBytes 4 (satN 0xFFFFFFFF (peekN s a 4 + 1)))

/-- What a step leaves when it ends: counts, T, the checkpoint, Colophon (R150, R225, R229, R355). -/
def closeStep (s : State) : State :=
  let n := s.job.step
  let t := postCounts s
  let t := if t.job.skipped.contains n then t else t.job.optGroups.foldl bumpT t
  coloEnd (ckptSeal t) n

/-- The step number and what belongs to one step (R225, R239, R240, R401). -/
def setStep (s : State) (n : Nat) : State :=
  { s with
    job.optSteps := if s.job.optRan then insertNat s.job.step s.job.optSteps else s.job.optSteps
    job.skipSent := false
    job.step := n, job.optIssued := false, job.optRan := false, job.optGroups := [], job.stale := []
    job.skipped := s.job.skipped.filter (fun k => decide (k ≠ s.job.step)), job.lossFlagged := false, job.nonfinite := false
    loss.spike := false, loss.nonfinite := false, loss.regs := s.loss.pend.getD s.loss.regs, loss.pend := none }

/-- The step ends (R297), with the held descriptors `hs`: STEP_BEGIN gives the number and a fresh allowance, else the allowance runs
down; the next step begins with `opening`; the job pauses where the allowance has run out, or where a PAUSE names the step that
begins. The descriptors complete in fetch order (R289). -/
def stepOver (s : State) (hs : List Held) (opening : State → State) : State :=
  let nxt := stepAfter s hs
  let b := boundaryHeld hs nxt
  let left := match lastStepBegin hs with
    | some x => allowanceOf x.2
    | none => s.job.allowance.map (fun k => k - 1)
  let stop := left == some 0
  let t := closeStep s
  let t := { t with
    rings.held := t.rings.held.filter (fun h => !b.contains h), job.allowance := if stop then none else left }
  let t := opening (setStep t nxt)
  completeAll (if stop || b.any (fun h => h.op == .pause nxt) then settleAct (pauseJob t) else t) b 0

/-- Before an END takes effect: the step ends if this seam ends one, and what was fetched before it for the boundary takes effect
first (R289, R297). -/
def beforeEnd (s : State) (x : Held) : State :=
  if !stepEnds s then s else stepOver s ((heldNow s).takeWhile (fun h => h != x)) id

/-- A held shape cell, END or RELEASE takes effect, in fetch order (R156, R289, R297, R298). -/
def applyHeldSwitch (s : State) (x : Held) : State :=
  if !s.rings.held.contains x then s
  else
    match x.op with
    | .shapeCell dst b => complete (fwStore (withoutHeld s x) dst b) x.hdr 0 0
    | .jobEnd => complete (endJob (withoutHeld (beforeEnd s x) x)) x.hdr 0 0
    | .release => releaseNow (endJob (withoutHeld (beforeEnd s x) x)) x.hdr
    | _ => s

/-- The parameter-group writes whose step has come (R226). -/
def applyParams (s : State) (step : Nat) : State :=
  let due := fun (x : Held) => match x.op with | .param w => decide (w.target ≤ step) | _ => false
  (s.job.params.filter due).foldl applyParamDesc { s with job.params := s.job.params.filter (fun x => !due x) }

/-- The number of the frame after this one. -/
def nextFrame (s : State) : Nat := (s.frame.number + 1) % 2 ^ 48

/-- The frame from which a job that is not live counts, where its first frame is next or past (R296, R297). -/
def startsAt (s : State) : Option Nat :=
  let n := nextFrame s
  if jobPhase s = 3 && !laterFrame s.job.blk.startFrame n then some s.job.blk.startFrame
  else if jobPhase s = 5 then
    s.rings.held.findSome? (fun h => match h.op with | .resume f => if laterFrame f n then none else some f | _ => none)
  else none

/-- The next Ductus (R50, R51): the next overlay; from FIRST_DUCTUS at a start, a resume or the restart frame of a rollback. -/
def switchDuctus (s : State) : State :=
  let n := nextFrame s
  if !jobExists s then s
  else if s.frame.live then
    let f0 := match s.train.restart with | some rf => if laterFrame rf n then s.job.f0 else rf | none => s.job.f0
    { s with frame.current := overlayAt s n f0 }
  else match startsAt s with
    | some f0 => { s with frame.next := overlayAt s n f0 }
    | none => s

/-- DUCTUS_SWITCH: what is held takes effect, then the switch. -/
def opDuctusSwitch (s : State) : State :=
  let t := s.rings.held.foldl applyHeldSwitch s
  let t := if t.job.pauseNow && jobExists t && jobPhase t ≠ 5 then pauseJob t else t
  let t := applyRemaps t
  let t := if t.glob.routePending then routeCopy t else t
  let t := if jobExists t then applyParams t (if stepEnds t then nextStep t else t.job.step) else t
  switchDuctus (nextAct (seamAct (fixOwners t)))

/-- DUCTUS_SWITCH. -/
def execDuctusSwitch (s : State) : Host.Outcome State Fault Refusal :=
  whenAlive .ductusSwitch s (inPhase s 4 opDuctusSwitch)

/-! ### STEP_BOUNDARY (R297) -/

/-- The share tables of the NP1-compatible DISPATCH strokes of the rotation, with their EXPERTS (R151). -/
def np1Tables (s : State) : List (Nat × Nat) :=
  ((rotation s).flatMap (fun d =>
    if (hdrField s d 38 2).testBit 3 then
      (allStrokes s d).filterMap (fun x =>
        if x.2.2.cls = 6 && peekN s x.2.2.op 1 = 1 then
          some (peekN s (x.2.2.op + 32) 8 % 2 ^ 48, min 1024 (peekN s (x.2.2.op + 4) 2))
        else none)
    else [])).eraseDups

/-- SHARE of replica `q` of expert `e`. -/
def shareOf (s : State) (t e q : Nat) : Nat := (shareAt s t 4 e q).share

/-- The expert that the next replica slot goes to: the largest L ÷ r below four replicas, the lower index winning a tie
(R152). -/
def neediest (load : Nat → Nat) (rs : List Nat) : Option Nat :=
  (rs.zipIdx).foldl (fun b x =>
    if 4 ≤ x.1 then b
    else match b with
      | none => some x.2
      | some e => if load e * x.1 < load x.2 * rs.getD e 1 then some x.2 else some e) none

/-- The replica counts of a revision: one slot for each of `n` experts, and `k` more (R152). -/
def replicaPlan (load : Nat → Nat) (n : Nat) : Nat → List Nat
  | 0 => List.replicate n 1
  | k + 1 =>
    let rs := replicaPlan load n k
    match neediest load rs with
    | some e => rs.set e (rs.getD e 1 + 1)
    | none => rs

/-- L of an expert (R152): its FIRST over the last `n` steps. -/
def loadOf (s : State) (n e : Nat) : Nat :=
  ((s.experts.past.drop (s.experts.past.length - n)).map (fun p => tget p.2 e 0)).sum

/-- Replica slots of an expert that hold rows. -/
def slotsUsed (s : State) (t e : Nat) : Nat := ((List.range 4).filter (fun q => shareOf s t e q ≠ 0)).length

/-- r of an expert, by 1,024 × table + expert: its replica slots as the last revision left them, or else those that hold rows. -/
def replicasOf (s : State) (x : Nat) : Nat := tget s.experts.reps x (slotsUsed s (x / 1024) (x % 1024))

/-- The replica slots that a revision gives an expert anew. -/
def newSlots (s : State) (x : Nat × Nat) : List Nat := (List.range x.2).filter (fun q => decide (replicasOf s x.1 ≤ q))

/-- Weights of this device written for a replica slot, here or as BULK writes to the slot's device (R152). -/
def copyWeights (s : State) (key : Nat) (h : Share) (q : Nat) : State :=
  let data := (Config.expertWeights key).flatMap (fun r => peek s r.1 r.2)
  let u := noteReads s (Config.expertWeights key)
  let a := Config.replicaPlace key q % 2 ^ 48
  if data.isEmpty then u
  else if h.dev = s.glob.deviceId then fwStore u a data
  else sendTransfer u { tag := 0, dst := h.dev, idx := ckptIdx 4, cls := 1, expert := some (key % 1024) } (h.dev, h.win)
    (cutRun data.length a data) false

/-- The copies of a revision that start from this device: the weights of each expert whose first replica is here go to its new slots; a
line of them that fails raises its fault (R152, R195). -/
def sendWeights (s : State) (x : Nat × Nat) : State :=
  if (shareAt s (x.1 / 1024) 4 (x.1 % 1024) 0).dev ≠ s.glob.deviceId then s
  else match readsBad s (if (newSlots s x).isEmpty then [] else Config.expertWeights x.1) with
    | some l => lineError s l
    | none => (newSlots s x).foldl (fun t q => copyWeights t x.1 (shareAt s (x.1 / 1024) 4 (x.1 % 1024) q) q) s

/-- A revision has new slots whose weights lie at another device. -/
def waitsForOthers (s : State) (placed : List (Nat × Nat)) : Bool :=
  placed.any (fun x => !(newSlots s x).isEmpty && (shareAt s (x.1 / 1024) 4 (x.1 % 1024) 0).dev ≠ s.glob.deviceId)

/-- A revision decided (R152). Its copies run during the steps that follow: this device's as BULK writes; how long those of other
devices take is free (log 44). -/
def np1Revise (s : State) : State :=
  let load := loadOf s s.job.blk.np1
  let plan := fun (t : Nat × Nat) =>
    let slots := ((List.range t.2).map (fun e => replicasOf s (1024 * t.1 + e))).sum
    ((replicaPlan load t.2 (slots - t.2)).zipIdx).map (fun x => (1024 * t.1 + x.2, x.1))
  let placed := (np1Tables s).flatMap plan
  placed.foldl sendWeights { s with
    experts.placed := placed.foldl (fun p x => tput p x.1 x.2) []
    experts.copying := true, experts.revision := s.experts.revision + 1
    experts.copyLeft := if waitsForOthers s placed then Config.copySteps s.experts.revision else 0 }

/-- The shares of a revision written into the share tables (R152); the experts keep their replica counts, also where a share is too
small for each replica to hold rows. -/
def np1Apply (s : State) : State :=
  s.experts.placed.foldl (fun t x =>
    let a := x.1 / 1024
    let e := x.1 % 1024
    let total := ((List.range 4).map (shareOf s a e)).sum
    (List.range 4).foldl (fun u q =>
      let v := if q < x.2 then total / x.2 + b2n (decide (q < total % x.2)) else 0
      fwStore u (a + 16 * (4 * e + q) + 10) (leBytes 2 v)) t)
    { dropCkpt s 4 with
      experts.placed := [], experts.copying := false
      experts.reps := s.experts.placed.foldl (fun r x => tput r x.1 x.2) s.experts.reps }

/-- The shares of a revision whose copies are complete take effect at this boundary; else a boundary passes (R152). A copy that has
failed is never complete (log 44). -/
def np1Settle (s : State) : State :=
  if !s.experts.copying then s
  else if s.experts.copyLeft ≠ 0 then { s with experts.copyLeft := s.experts.copyLeft - 1 }
  else if ckptPending s 4 || ckptFailed s 4 then s else np1Apply s

/-- NP1 compatibility at a step boundary (R152): a revision is due at every Nth one; one that is due while the previous is still
copying is skipped and counted. -/
def np1Boundary (s : State) : State :=
  if s.job.blk.np1 = 0 then s
  else
    let t := np1Settle s
    if t.experts.past.length % s.job.blk.np1 ≠ 0 then t
    else if t.experts.copying then { t with experts.skipped := t.experts.skipped + 1 } else np1Revise t

/-- The ward's copy to its new buddy (R236): the step counts CKPT_UNMIRRORED until it is complete. -/
def remirrorBoundary (s : State) : State :=
  if !s.train.remirror then s
  else
    let sent := s.fab.xfers.any (fun x => ckptXfer x && x.idx == ckptIdx 1)
    if sent && !ckptPending s 1 && !ckptFailed s 1 then { dropCkpt s 1 with train.remirror := false } else devEvent s 0x4C 1

/-- At a checkpoint boundary, the first due test of an ACTIVE Folio whose deadline has passed without a spare asks for a
rollback (R361). -/
def askTest (s : State) : State :=
  match firstDue (s.scan.due.filter (fun d => d.passed && (folio s d.folio).state == 0 && !spareReady s d.folio)) with
  | none => s
  | some d =>
    if testsOpen s && atBoundary s true && !rollbackBusy s then
      requestRollback { s with scan.asked := some d.folio } 1 0
    else s

/-- A due test waits in a running job (R360): its Folio is ACTIVE and its die has no spare in state SPARE, before its deadline. -/
def testDeferred (s : State) : Bool :=
  s.scan.due.any (fun d => (folio s d.folio).state == 0 && !d.passed && !spareReady s d.folio)

/-- What the step that begins needs (R152, R229, R236, R355, R360). -/
def openStep (s : State) : State :=
  let t := coloBegin (ckptFor s s.job.step) s.job.step
  let t := askTest (remirrorBoundary (np1Boundary t))
  if testDeferred t then devEvent t 0x4F 1 else t

/-- The end of a step (R297). -/
def endStep (s : State) : State := stepOver s (heldNow s) openStep

/-- STEP_BOUNDARY. -/
def execStepBoundary (s : State) : Host.Outcome State Fault Refusal :=
  whenAlive .stepBoundary s (inPhase s 5 (fun t => if stepEnds t then endStep t else t))

/-! ### TAG_PHASE and FRAME_ADVANCE -/

/-- TAG_PHASE (R184, R426): from the image of the next Ductus. -/
def execTagPhase (s : State) : Host.Outcome State Fault Refusal :=
  whenAlive .tagPhase s (inPhase s 6 (fun t =>
    if t.frame.live then loadTags t t.frame.current else loadTags t t.frame.next))

/-- A stroke's transfer when its frame ends: nothing more of it is sent, and it stays while an answer may still come (R259). -/
def Transfer.frameOver (x : Transfer) : Option Transfer :=
  if x.folio.isNone then some x
  else
    let ps := x.pkts.filter (fun u => !u.held && !u.busy)
    if ps.isEmpty then none else some { x with pkts := ps, stopped := true, acked := false, land := none, expert := none }

/-- FRAME_ADVANCE (R49): the frame number advances and the time state is sampled; what the ending frame kept is dropped. A
checkpoint boundary ends with its seam, and one whose frame was aborted, so that no step began, is none (R360). -/
def opAdvance (s : State) : State :=
  { s with
    frame.number := nextFrame s, frame.timeSampled := s.time.state, experts.run := []
    fab.xfers := s.fab.xfers.filterMap Transfer.frameOver
    train.atCkpt := false, train.ckptBoundary := s.train.ckptBoundary || (s.train.atCkpt && s.frame.live && !stepEnds s) }

/-- FRAME_ADVANCE. -/
def execFrameAdvance (s : State) : Host.Outcome State Fault Refusal := whenAlive .frameAdvance s (inPhase s 7 opAdvance)

end Sys2Proof.Machine
end

