-- ==== Sys2Proof/Machine/Watch.lean ====
section
/-! DEFINITION. Watchdogs and Folio faults (R22, R23, R235, R238, R304), the course of in-field test (R358 to R361), and the
retraining of vaults and LPDDR6 channels (R193, R197, R200). -/

namespace Sys2Proof.Machine

open Sys2Proof

/-! ### The loss of a Folio (R235, R238) -/

/-- A takeover refused (R235, R238): SPARE_EXHAUSTED with its reason and the physical Folio, and the request that pauses the
job. -/
def refuseTakeover (s : State) (reason n : Nat) : State :=
  let r : FaultRec := { code := 0x15, sev := if 3 ≤ jobPhase s && jobPhase s ≤ 4 then 4 else 0, folio := n, valid := 2
                        detail := reason + n * 2 ^ 8, src := 6, key := n }
  let t := raiseFault s r
  if jobExists t then requestRollback t (if noStepRestart t false then 1 else 0) 0x15 else t

/-- The record of a Folio's loss, and the abort of the frame that it causes (R235, Table 14.2). -/
def loseRecord (s : State) (r : FaultRec) : State :=
  if s.frame.live && !s.frame.aborted then haltFrame (raiseFault s { r with cause := true, sev := 3 })
  else raiseFault s { r with sev := 3 }

/-- The logical Folio that an ACTIVE Folio carries, or that it has been selected for and takes in the next seam (R18). -/
def carriedBy (s : State) (n : Nat) : Option Nat :=
  match (s.folios.remaps.find? (fun x => x.2 == n)).map (fun x => x.1) with
  | some l => some l
  | none => logicalOf s n

/-- An ACTIVE Folio is quarantined (R22, R23, R235). A spare that fails before its remap is no longer mapped by it. -/
def loseFolio (s : State) (n : Nat) (r : FaultRec) : State :=
  let t := recordQuarantine (setFolioState (loseRecord s r) n 3) n
  let t := { t with folios.remaps := t.folios.remaps.filter (fun x => decide (x.2 ≠ n)) }
  let ask := fun (u : State) => if jobExists u then requestRollback u 1 r.code else u
  match carriedBy s n with
  | none => ask t
  | some l =>
    let t := unmapFolio t l
    match spareOf t (n / 17) with
    | some k => ask (spareTakes t k l)
    | none =>
      match t.scan.running with
      | some k =>
        if k / 17 = n / 17 then ask { t with folios.waiting := t.folios.waiting ++ [l] } else refuseTakeover t 1 n
      | none => refuseTakeover t 1 n

/-- CLUSTER_WATCHDOG (R304): of an ACTIVE Folio; in a validation window it is a rejected handoff, and none comes while the image has
halted for its successor (R324). -/
def opClusterWatchdog (s : State) (n : Nat) : State :=
  if (folio s n).state ≠ 0 || watchSuspended s 3 n then s
  else if inValidation s 3 n then opTimeout s true n
  else loseFolio s n (watchdogRec 3 n 3 false)

/-- CLUSTER_WATCHDOG. -/
def execClusterWatchdog (n : Nat) (s : State) : Host.Outcome State Fault Refusal :=
  whenAlive (.clusterWatchdog n) s (opClusterWatchdog s n)

/-- FOLIO_INTERNAL_FAULT (R22): with the Folio's own code. -/
def execFolioInternalFault (n code : Nat) (s : State) : Host.Outcome State Fault Refusal :=
  whenAlive (.folioInternalFault n code) s
    (if (folio s n).state ≠ 0 then s
     else loseFolio s n { code := code, die := n / 17, folio := n, valid := 2, src := 1, key := n })

/-- SCHEDULER_WATCHDOG (R304): the frame aborts, and the image is restarted; a second expiry is the fault state. -/
def opSchedulerWatchdog (s : State) (within : Bool) : State :=
  if watchSuspended s 2 0 then s
  else if inValidation s 2 0 then opTimeout s true 0
  else if s.boot.schedExpired && within then enterFault s 0x10 2
  else
    let r := watchdogRec 2 0 0 false
    let t := if s.frame.live && !s.frame.aborted then haltFrame (raiseFault s { r with cause := true, sev := 2 }) else raiseFault s r
    { t with boot.schedDown := true }

/-- SCHEDULER_WATCHDOG. -/
def execSchedulerWatchdog (within : Bool) (s : State) : Host.Outcome State Fault Refusal :=
  whenAlive (.schedulerWatchdog within) s (opSchedulerWatchdog s within)

/-- SCHEDULER_IMAGE_RESTART (R304): ROLLBACK_REQ with NO_STEP_RESTART, where a job exists. -/
def opSchedulerRestart (s : State) : State :=
  if !s.boot.schedDown then s
  else
    let t := { s with boot.schedDown := false, boot.schedExpired := true }
    if jobExists t then requestRollback t 1 0x10 else t

/-- SCHEDULER_IMAGE_RESTART. -/
def execSchedulerImageRestart (s : State) : Host.Outcome State Fault Refusal :=
  whenAlive .schedulerImageRestart s (opSchedulerRestart s)

/-- POWER_WATCHDOG (R304): votes freeze and the image is reloaded; a second expiry within 60 s of a reload leaves the core
stopped, and level 2 with cause 5 pauses the job. An expiry in the validation window of a power-core activation reverts it
(R324). -/
def opPowerWatchdog (s : State) (within : Bool) : State :=
  let t := raiseFault s { code := 0x10, sev := 0, detail := 1, src := 6 }
  if watchSuspended s 1 0 then s
  else if inValidation s 1 0 then opTimeout s true 0
  else if s.boot.powerExpired && within then
    enterLevel2 { t with power.stopped := true, power.dead := true } 5 4
  else { t with power.stopped := true, boot.powerExpired := true }

/-- POWER_WATCHDOG. -/
def execPowerWatchdog (w : Bool) (s : State) : Host.Outcome State Fault Refusal :=
  whenAlive (.powerWatchdog w) s (if s.power.dead then s else opPowerWatchdog s w)

/-- SECURITY_WATCHDOG (R304, R305): the fault state, but in the validation window of a security-core activation. -/
def execSecurityWatchdog (s : State) : Host.Outcome State Fault Refusal :=
  whenAlive .securityWatchdog s (if watchSuspended s 0 0 then s else if inValidation s 0 0 then opTimeout s true 0 else enterFault s 0x10 0)

/-! ### In-field test (R358 to R361) -/

/-- TEST_PERIOD_DUE (R359): a periodic test, with the deadline GLOBAL_TEST_DEADLINE. -/
def opTestPeriod (s : State) (n : Nat) : State :=
  if s.glob.testPeriod = 0 || !s.scan.available then s
  else { s with scan.due := addDue s.scan.due n (timeSec s.time.now + s.glob.testDeadline) }

/-- TEST_PERIOD_DUE. -/
def execTestPeriodDue (n : Nat) (s : State) : Host.Outcome State Fault Refusal :=
  whenAlive (.testPeriodDue n) s (opTestPeriod s n)

/-- TEST_DEADLINE_PASSED (R360, R361). -/
def execTestDeadlinePassed (n : Nat) (s : State) : Host.Outcome State Fault Refusal :=
  whenAlive (.testDeadlinePassed n) s
    { s with scan.due := s.scan.due.map (fun d => if d.folio = n then { d with passed := true } else d) }

/-- The row of Table 14.7 that lets a due test start now. One that moves a logical Folio in a seam starts before its Ductus switch
(R50). -/
def mayStart (s : State) (d : DueTest) : Bool :=
  if (folio s d.folio).state = 0 then
    if !jobExists s then true
    else s.frame.live && spareReady s d.folio && atBoundary s (stepEnds s) && !pastSwitch s && !rollbackBusy s
  else decide (s.glob.jobState ≠ 0) && (!s.frame.live || s.frame.seam)

/-- TEST_START (R360): of the first due test that may start; in a running job with a rollback. -/
def opTestStart (s : State) (n : Nat) : State :=
  if !testsOpen s then s
  else match firstDue (s.scan.due.filter (mayStart s)) with
    | none => s
    | some d =>
      if d.folio ≠ n then s
      else
        let t := beginTest s n
        if (folio s n).state = 0 && jobExists s then requestRollback t 1 0 else t

/-- TEST_START. -/
def execTestStart (n : Nat) (s : State) : Host.Outcome State Fault Refusal := whenAlive (.testStart n) s (opTestStart s n)

/-- The requests for a Folio complete with one outcome (R359). -/
def endTest (s : State) (n status data : Nat) : State :=
  let x := takeHeld s (fun o => o == .test n)
  x.1.foldl (fun t h => complete t h.hdr status data) { x.2 with scan.running := none }

/-- The logical Folio that waits on die `d` (R23, R361): of several, the one that began to wait first takes the Folio that passed
its test (log 59). -/
def waitingOn (s : State) (d : Nat) : Option Nat := s.folios.waiting.find? (fun l => decide (l / 16 = d))

/-- The takeovers that wait on the die of Folio `n`, whose test has ended without a spare for them, are refused (R21, R23,
R238). The tested Folio's own logical Folio is refused with reason 0x01 (R361), the others with `reason`. -/
def refuseWaiting (s : State) (n reason : Nat) : State :=
  (s.folios.waiting.filter (fun l => decide (l / 16 = n / 17))).foldl (fun t l =>
    let lost := tget t.folios.map l (mapStart l)
    refuseTakeover { t with folios.waiting := t.folios.waiting.filter (fun m => decide (m ≠ l)) }
      (if lost = n then 1 else reason) lost) s

/-- A Folio that a test leaves in state SPARE: a logical Folio that waits takes it at once, and any other that waits on the die
is refused (R22, R23, R361). -/
def toSpare (s : State) (n : Nat) : State :=
  let t := setFolioState s n 1
  match waitingOn t (n / 17) with
  | some l => refuseWaiting (spareTakes t n l) n 1
  | none => t

/-- A Folio that a test leaves QUARANTINED: every takeover that waited on its die is refused (R21, R23, R238, R361). -/
def toQuarantine (s : State) (n reason : Nat) : State := refuseWaiting (setFolioState s n 3) n reason

/-- READY of a rollback that waited for the test (R234, R361). -/
def readyAfterTest (s : State) : State :=
  if s.train.restart.isSome && !s.train.restoring && !s.train.sentReady then readyNow s else s

/-- In-field test becomes unavailable (R357, R358): the requests that wait complete as new ones do, and no test is due any more. -/
def testsClosed (s : State) : State :=
  let t := { s with scan.available := false, scan.failId := 5, scan.due := [], scan.asked := none }
  let x := takeHeld t (fun o => match o with | .test _ => true | _ => false)
  x.1.foldl (fun u h => complete u h.hdr 0x11 (2 ^ 63 + 5)) x.2

/-- TEST_COMPLETE (R358). -/
def opTestComplete (s : State) (o : ScanOutcome) : State :=
  match s.scan.running with
  | none => s
  | some n =>
    let b := (folio s n).before
    match o with
    | .pass => readyAfterTest (toSpare (endTest (devEvent s 0x50 1) n 0 0) n)
    | .fail first count misr =>
      let d := first % 2 ^ 16 + (count % 2 ^ 16) * 2 ^ 16 + (misr % 2 ^ 32) * 2 ^ 32
      let t := raiseFault s { code := 0x16, sev := 3, folio := n, valid := 2, detail := d, src := 6, key := n }
      toQuarantine (recordQuarantine (endTest t n 0x16 d) n) n 2
    | .inconclusive =>
      let t := testsClosed (endTest (raiseFault s { code := 0x0F, sev := 1, folio := n, valid := 2, detail := 1, src := 6, key := n }) n 0x0F 1)
      if b = 3 then toQuarantine t n 1 else readyAfterTest (toSpare t n)

/-- TEST_COMPLETE. -/
def execTestComplete (o : ScanOutcome) (s : State) : Host.Outcome State Fault Refusal :=
  whenAlive (.testComplete o) s (opTestComplete s o)

/-! ### Retraining (R193, R197, R200) -/

/-- VAULT_RETRAIN, where R197 allows it. -/
def opVaultRetrain (s : State) (v : Nat) : State :=
  if jobExists s && jobPhase s ≠ 5 && s.glob.stackUse.testBit (v / 32) then s
  else trainVault s v

/-- VAULT_RETRAIN. -/
def execVaultRetrain (v : Nat) (s : State) : Host.Outcome State Fault Refusal := whenAlive (.vaultRetrain v) s (opVaultRetrain s v)

/-- LP_CHANNEL_RETRAIN, where R200 allows it. -/
def opLpRetrain (s : State) (c : Nat) : State :=
  if s.mem.lpChannels ≤ c || (jobExists s && jobPhase s ≠ 5 && (rotation s).any (lpUsed s)) then s
  else trainChannel s c

/-- LP_CHANNEL_RETRAIN. -/
def execLpChannelRetrain (c : Nat) (s : State) : Host.Outcome State Fault Refusal :=
  whenAlive (.lpChannelRetrain c) s (opLpRetrain s c)

end Sys2Proof.Machine
end

