-- ==== Sys2Proof/Machine/Regs.lean ====
section
/-! DEFINITION. The set-up registers (chapter 17): which offsets are registers, what each reads as, what a write to each does,
and the accesses through BAR0 and through the register mirror (R7 to R9, R300, R397 to R424). -/

namespace Sys2Proof.Machine

open Sys2Proof

/-! ### Which offsets are registers (Tables 17.1 to 17.17) -/

/-- What the tables say of a register: whether software may write it at run time, and whether it is wider than 32 bits. -/
structure RegKind where
  run : Bool
  wide : Bool
deriving DecidableEq, Repr

/-- The kind of the register at a page offset, from the lists of the page: every register, those marked Run, and those wider
than 32 bits. -/
def kindIn (all run wide : List Nat) (o : Nat) : Option RegKind :=
  if all.contains o then some ⟨run.contains o, wide.contains o⟩ else none

/-- GLOBAL (Table 17.2). -/
def globalKind (o : Nat) : Option RegKind :=
  kindIn ((List.range 26).map (8 * ·)) [0x50, 0x58, 0x60, 0x68, 0x70, 0x78, 0x80, 0x88, 0x90, 0xC0, 0xC8]
    [0x18, 0x20, 0x38, 0x40, 0x48, 0x50, 0x68, 0x98, 0xA8, 0xB0] o

/-- TIME (Table 17.4). -/
def timeKind (o : Nat) : Option RegKind := kindIn ((List.range 9).map (8 * ·)) [0x18, 0x20] [0x00, 0x28, 0x30] o

/-- RINGS (Table 17.5). -/
def ringsKind (o : Nat) : Option RegKind :=
  if o < 0x200 then some ⟨o % 0x20 ≠ 0x18, o % 0x20 = 0⟩
  else if o < 0x2F0 then some ⟨(o - 0x200) % 0x28 < 0x18, (o - 0x200) % 0x28 = 0⟩
  else kindIn [0x300, 0x308, 0x310, 0x318] [] [0x318] o

/-- POWER (Table 17.7). -/
def powerKind (o : Nat) : Option RegKind :=
  if o < 0x40 * 132 then (if o % 0x40 < 0x30 then some ⟨o % 0x40 = 0x10, false⟩ else none)
  else if 0x3000 ≤ o && o < 0x3030 then some ⟨true, true⟩
  else kindIn [0x3030, 0x3100, 0x3108, 0x3110, 0x3118, 0x3120] [0x3030, 0x3100, 0x3110] [] o

/-- COUNTER but for its selectors and values (Table 17.9). -/
def counterKind (o : Nat) : Option RegKind := kindIn [0x200, 0x208, 0x210, 0x218] [0x200, 0x208, 0x218] [] o

/-- LINK_n but for its counters (Table 17.14). -/
def linkKind (o : Nat) : Option RegKind := kindIn ((List.range 8).map (8 * ·)) [0x00, 0x20, 0x30, 0x38] [0x28] o

/-- PCIE (R422) but for the MSI-X table. -/
def pcieKind (o : Nat) : Option RegKind := kindIn [0, 8, 0x9000] [8] [8, 0x9000] o

/-- The register at an 8-byte slot of BAR0; `none` where the slot is reserved (R397). -/
def regKind (a : Nat) : Option RegKind :=
  match selAt a with
  | some k => some ⟨true, 1 ≤ ctrKind k && ctrKind k ≤ 3⟩
  | none =>
    if (valAt a).isSome then some ⟨false, true⟩
    else if (rangeAt a).isSome then some ⟨true, true⟩
    else if a < 0x10000 then globalKind a
    else if a < 0x20000 then timeKind (a - 0x10000)
    else if a < 0x30000 then ringsKind (a - 0x20000)
    else if a < 0x40000 then kindIn [0, 8, 0x10] [0, 8] [0, 0x10] (a - 0x30000)
    else if a < 0x50000 then powerKind (a - 0x40000)
    else if a < 0x60000 then kindIn ([0, 8] ++ (List.range 8).map (0x40 + 8 * ·)) [] ((List.range 8).map (0x40 + 8 * ·)) (a - 0x50000)
    else if a < 0x70000 then counterKind (a - 0x60000)
    else if 0x100000 ≤ a && a < 0x540000 then kindIn [0, 8, 0x10] [] [8] ((a - 0x100000) % 0x10000)
    else if 0x600000 ≤ a && a < 0x780000 then linkKind ((a - 0x600000) % 0x4000)
    else if 0x800000 ≤ a && a < 0x880000 then kindIn [0x100] [] [] ((a - 0x800000) % 0x4000)
    else if 0x880000 ≤ a && a < 0x890000 then pcieKind (a - 0x880000)
    else if 0x890000 ≤ a && a < 0x8B0000 then kindIn ((List.range 7).map (8 * ·)) [0x30] [0x08] ((a - 0x890000) % 0x10000)
    else if a = 0x900000 then some ⟨false, true⟩ else none

/-- A slot of the MSI-X table (R422). -/
def msixSlot (a : Nat) : Bool := 0x888000 ≤ a && a < 0x888080

/-- A doorbell mirror (Table 11.2). -/
def inDoorbells (off : Nat) : Bool := 0x28000 ≤ off && off < 0x28058

/-! ### What registers read as -/

/-- The loss registers that software reads: the stored values, those that wait for their step included (R401). -/
def lossStored (s : State) : LossRegs := s.loss.pend.getD s.loss.regs

/-- GLOBAL. -/
def globalValue (s : State) (o : Nat) : Nat :=
  let g := s.glob
  match o / 8 with
  | 0 => b2n g.faultState + 2 * b2n g.certMatch + 4 * b2n g.floorRebuilt + 8 * b2n (s.boot.ownerKey ≠ []) + 16 * b2n (actPending s)
  | 1 => g.jobState
  | 2 => g.deviceId
  | 3 => g.agreement
  | 4 => b2n g.gateEn + 2 ^ 8 * g.gateSrc + 2 ^ 32 * g.gateMask
  | 5 => g.stackUse
  | 6 => g.abortPolicy
  | 7 => g.paramTable
  | 8 => g.ckptBase
  | 9 => g.expertCounts
  | 10 => g.routeTable
  | 11 => g.routeCount
  | 12 => 2 * b2n g.routePending + 4 * b2n g.routeDone + 8 * b2n g.routeError
  | 13 => g.bcast0
  | 14 => g.bcast1
  | 15 => (lossStored s).ctrl
  | 16 => (lossStored s).alpha
  | 17 => (lossStored s).ratio
  | 18 => (lossStored s).warmup
  | 19 => b2n s.loss.spike + 2 * b2n s.loss.nonfinite + 2 ^ 32 * s.loss.avg
  | 20 => s.colo.interval
  | 21 => s.colo.group
  | 22 => s.colo.digest
  | 23 => s.colo.goodStep
  | 24 => g.testPeriod
  | 25 => g.testDeadline
  | _ => 0

/-- TIME: the capture stands for the counter (R405). -/
def timeValue (s : State) (o : Nat) : Nat :=
  let t := s.time
  match o / 8 with
  | 0 => timeSec t.capture
  | 1 => timeNs t.capture
  | 2 => t.capture % 65536
  | 3 => unsint 32 t.trim
  | 4 => t.source + 2 ^ 8 * t.sourceLane
  | 5 => t.state + 2 ^ 32 * unsint 32 t.offset
  | 6 => t.epochSec
  | 7 => t.epochNs
  | 8 => t.period
  | _ => 0

/-- A ring that the NX1 produces: BASE, SIZE, CTRL, TAIL, LOST. -/
def outRingValue (r : OutRing) (i : Nat) : Nat :=
  match i with
  | 0 => r.base
  | 1 => r.size
  | 2 => b2n r.en
  | 3 => r.tail + 2 ^ 16 * r.phase
  | _ => r.lost

/-- The output ring whose registers are in group `k` of five: completion rings 0 to 3, fault, counter. -/
def outRing (s : State) (k : Nat) : OutRing := if k < 4 then cq s k else if k = 4 then s.rings.fq else s.rings.ctr

/-- That ring replaced. -/
def setOutRing (s : State) (k : Nat) (r : OutRing) : State :=
  if k < 4 then setCq s k r else if k = 4 then { s with rings.fq := r } else { s with rings.ctr := r }

/-- RINGS. -/
def ringsValue (s : State) (o : Nat) : Nat :=
  if o < 0x200 then
    let r := sq s (o / 0x20)
    (match o % 0x20 / 8 with | 0 => r.base | 1 => r.size | 2 => b2n r.en | _ => r.head)
  else if o < 0x2F0 then outRingValue (outRing s ((o - 0x200) / 0x28)) ((o - 0x200) % 0x28 / 8)
  else match (o - 0x300) / 8 with
    | 0 => s.rings.host
    | 1 => s.rings.hostDevice
    | 2 => s.rings.hostWindow
    | _ => s.rings.notifyAddr

/-- POWER_DOM_STATE_n. -/
def domStateValue (d : Domain) : Nat := d.state + 8 * b2n d.wakePending + 16 * b2n (d.state = 2 && d.votes = 0)

/-- The supervisor's votes on domains 64m to 64m + 63 (R412). -/
def supvVotes (s : State) (m : Nat) : Nat :=
  (List.range 64).foldl (fun a k => if 64 * m + k < 132 && (dom s (64 * m + k)).votes.testBit 2 then a + 2 ^ k else a) 0

/-- POWER. -/
def powerValue (s : State) (o : Nat) : Nat :=
  if o < 0x40 * 132 then
    let d := dom s (o / 0x40)
    (match o % 0x40 / 8 with
      | 0 => domStateValue d
      | 1 => d.votes
      | 2 => b2n d.retain
      | 3 => d.refused
      | 4 => d.aborted
      | _ => d.last)
  else if o < 0x3030 then supvVotes s ((o - 0x3000) / 8 % 3)
  else if o = 0x3100 then s.power.limitSupv
  else if o = 0x3108 then s.power.limitEff
  else if o = 0x3110 then s.power.window
  else if o = 0x3118 then s.power.stallRatio
  else if o = 0x3120 then s.power.level + 16 * s.power.cause else 0

/-- FAULT: FAULT_LAST_i returns the latch (R413). -/
def faultValue (s : State) (o : Nat) : Nat :=
  if o = 0 then s.flt.seq else if o = 8 then s.flt.suppressed else rd s.flt.latch (o - 0x40) 8

/-- COUNTER but for selectors and values. -/
def counterValue (s : State) (o : Nat) : Nat :=
  if o = 0x208 then s.cnt.pendEvery.getD s.cnt.snapEvery
  else if o = 0x210 then s.cnt.snapSeq
  else if o = 0x218 then b2n (s.cnt.pendUser.getD s.cnt.userRead) else 0

/-- FOLIO_n but for counters (Table 17.13). -/
def folioValue (s : State) (n o : Nat) : Nat :=
  let f := folio s n
  if o = 0 then f.state + (match logicalOf s n with | some l => 2 ^ 8 * l + 2 ^ 15 | none => 0)
  else if o = 8 then f.fbOn else f.wellOn

/-- LINK_n but for counters (Tables 17.14, 17.15). -/
def linkValue (s : State) (n o : Nat) : Nat :=
  let l := lane s n
  match o / 8 with
  | 0 => b2n l.disable + 4 * b2n l.bootServe + 2 ^ 8 * b2n l.refused
  | 1 => l.state + 2 ^ 8 * l.reason + 2 ^ 16 * b2n l.inverted
  | 2 => l.lanes + 2 ^ 8 * portOf s n
  | 3 => l.rate
  | 4 => l.rateMax
  | 5 => l.partner + 2 ^ 24 * l.partnerFeat + 2 ^ 40 * l.partnerTime
  | 6 => unsint 32 l.asym
  | _ => l.weight

/-- LP_CONFIG (Table 17.16), in LP_0. -/
def lpConfig (s : State) : Nat :=
  s.mem.lpChannels + 2 ^ 6 * s.mem.lpRanks + 2 ^ 8 * s.mem.lpGib + 2 ^ 16 * s.mem.lpRate + 2 ^ 18 * b2n s.mem.lpMismatch

/-- PCIE but for the MSI-X table (R422). -/
def pcieValue (s : State) (o : Nat) : Nat :=
  if o = 0 then s.pcie.rate + 2 ^ 4 * s.pcie.width + 2 ^ 9 * b2n s.pcie.flit + 2 ^ 10 * b2n (degraded s) + 2 ^ 11 * b2n s.pcie.up
  else if o = 8 then s.pcie.bar4Base else s.pcie.pba

/-- A slot of the MSI-X table: address, then data and vector control. -/
def msixValue (s : State) (a : Nat) : Nat :=
  let e := msixEntry s ((a - 0x888000) / 16)
  if a % 16 = 0 then e.addr else e.data + 2 ^ 32 * e.ctrl

/-- ETH_n (Table 17.17). -/
def ethValue (s : State) (n o : Nat) : Nat :=
  let e := ethPort s n
  match o / 8 with
  | 0 => e.mode + 2 ^ 8 * b2n e.up
  | 1 => e.mac
  | 2 => e.ipv4
  | 3 => e.profile
  | 4 => e.domain
  | 5 => e.vlan
  | _ => unsint 32 e.asym

/-- SCAN_STATUS (R424). -/
def scanStatus (s : State) : Nat :=
  b2n s.scan.available + 2 * b2n s.scan.running.isSome + 2 ^ 8 * s.scan.running.getD 0 +
  2 ^ 16 * (if s.scan.available then 0 else s.scan.failId) + 2 ^ 32 * s.scan.due.length

/-- The 64 bits of a slot of BAR0; a reserved slot reads as zero (R5, R397). -/
def regValue (s : State) (a : Nat) : Nat :=
  match selAt a with
  | some k => (ctr s k).sel
  | none => match valAt a with
    | some k => valueOf s k
    | none => match rangeAt a with
      | some (i, hi) => let r : CtrRange := tget s.cnt.range i {}; if hi then r.hi else r.lo
      | none =>
        if msixSlot a then msixValue s a
        else if (regKind a).isNone then 0
        else if a < 0x10000 then globalValue s a
        else if a < 0x20000 then timeValue s (a - 0x10000)
        else if a < 0x30000 then ringsValue s (a - 0x20000)
        else if a < 0x40000 then
          (if a = 0x30000 then s.mb.buf
           else if a = 0x30010 then s.mb.status + 2 ^ 8 * s.mb.result + 2 ^ 16 * s.mb.ignored else 0)
        else if a < 0x50000 then powerValue s (a - 0x40000)
        else if a < 0x60000 then faultValue s (a - 0x50000)
        else if a < 0x70000 then counterValue s (a - 0x60000)
        else if a < 0x540000 then folioValue s ((a - 0x100000) / 0x10000) ((a - 0x100000) % 0x10000)
        else if a < 0x780000 then linkValue s ((a - 0x600000) / 0x4000) ((a - 0x600000) % 0x4000)
        else if a < 0x880000 then (if a = 0x800100 then lpConfig s else 0)
        else if a < 0x890000 then pcieValue s (a - 0x880000)
        else if a < 0x8B0000 then ethValue s ((a - 0x890000) / 0x10000) ((a - 0x890000) % 0x10000)
        else scanStatus s

/-- What a read latches first: the time (R405), or the last fault record (R413). -/
def regLatch (s : State) (a : Nat) : State :=
  if a = 0x10000 then opTimeCapture s
  else if a = 0x50040 then { s with flt.latch := s.flt.last } else s

/-- What a read clears after it: the RC registers (R7). -/
def regClear (s : State) (a : Nat) : State :=
  if a = 0x50008 then { s with flt.suppressed := 0 }
  else if 0x20200 ≤ a && a < 0x202F0 && (a - 0x20200) % 0x28 = 0x20 then
    let k := (a - 0x20200) / 0x28
    setOutRing s k { outRing s k with lost := 0 }
  else s

/-- An access that BAR0 and the mirror support: 32 or 64 bits, aligned (R8). -/
def regAccess (off size : Nat) : Bool := (size == 4 || size == 8) && off % size == 0

/-- A register read (R7, R8, R9): its value, and the state after it. Only a read of the lower half latches or clears
(DEDUCED, log 45). -/
def regRead (s : State) (off size : Nat) : Nat × State :=
  if !regAccess off size || inDoorbells off then (0, s)
  else
    let a := off - off % 8
    let low := off % 8 = 0
    let t := if low then regLatch s a else s
    let v := regValue t a
    (fld v (8 * (off % 8)) (8 * size), if low then regClear t a else t)

/-! ### What a write does -/

/-- A loss register written: in force at once, or with the next step while frames run (R401). -/
def setLoss (s : State) (f : LossRegs → LossRegs) : State :=
  if s.frame.live then { s with loss.pend := some (f (lossStored s)) } else { s with loss.regs := f (lossStored s), loss.pend := none }

/-- A write to GLOBAL. -/
def globalWrite (s : State) (o v : Nat) : State :=
  let a := v % 2 ^ 48
  let w := v % 2 ^ 32
  match o / 8 with
  | 2 => { s with glob.deviceId := v % 2 ^ 24 }
  | 4 => { s with glob.gateEn := bit v 0, glob.gateSrc := fld v 8 24, glob.gateMask := fld v 32 24 }
  | 9 => if a % 64 = 0 && inStacks a 16384 then { s with glob.expertCounts := a } else locked s
  | 10 => if a % 16 = 0 then { s with glob.routeTable := a } else locked s
  | 11 => if v % 2 ^ 11 ≤ 1024 then { s with glob.routeCount := v % 2 ^ 11 } else locked s
  | 12 =>
    let t := { s with glob.routeDone := s.glob.routeDone && !bit v 2, glob.routeError := s.glob.routeError && !bit v 3 }
    if bit v 0 then opRouteLoad t else t
  | 13 => { s with glob.bcast0 := v % 2 ^ 64 }
  | 14 => { s with glob.bcast1 := w }
  | 15 => setLoss s (fun r => { r with ctrl := v % 4 })
  | 16 => if 0 < w && w ≤ 0x3F800000 then setLoss s (fun r => { r with alpha := w }) else locked s
  | 17 => if 0x3F800000 < w && w < 0x7F800000 then setLoss s (fun r => { r with ratio := w }) else locked s
  | 18 => setLoss s (fun r => { r with warmup := w })
  | 20 => { s with colo.interval := w }
  | 21 => { s with colo.group := a }
  | 22 => if a % 32 = 0 then { s with colo.digest := a } else locked s
  | 24 => { s with glob.testPeriod := v % 2 ^ 16 }
  | 25 => { s with glob.testDeadline := if w = 0 then 86400 else w }
  | _ => s

/-- The registers of the frame timing, writable in IDLE and CLAIMED only (R407). -/
def timingWrite (s : State) (t : State) : State := if s.glob.jobState = 1 || s.glob.jobState = 2 then t else locked s

/-- A write to TIME. -/
def timeWrite (s : State) (o v : Nat) : State :=
  match o / 8 with
  | 0 => opTimeSeconds s v
  | 1 => opTimeStep s (v % 2 ^ 30)
  | 3 => opTimeTrim s v
  | 4 => opTimeSource s v
  | 6 => timingWrite s { s with time.epochSec := v % 2 ^ 48 }
  | 7 => timingWrite s { s with time.epochNs := v % 2 ^ 30 }
  | 8 =>
    let p := v % 2 ^ 22
    timingWrite s (if 4000 ≤ p && p ≤ 4000000 then { s with time.period := p } else locked s)
  | _ => s

/-- A base of a ring as stored (R408): 4 KiB aligned; a device-local address when a peer hosts the rings. -/
def ringBase (s : State) (v : Nat) : Nat := if s.rings.host = 1 then v % 2 ^ 48 else v

/-- The ring of group `k` of five registers. -/
def outRingId (k : Nat) : RingId := if k < 4 then .cq k else if k = 4 then .fq else .ctr

/-- EN written (R282, R409). -/
def ringCtrl (s : State) (r : RingId) (v : Nat) : State := if bit v 0 then opRingEnable s r else opRingDisable s r

/-- BASE, SIZE or CTRL of a submission ring. R408 says of the bits [11:0] of a BASE only that they are zero: a write in which one of them
is set is refused whole, and counts as a locked one (DESIGN CHOICE, log 70). -/
def sqWrite (s : State) (n i v : Nat) : State :=
  let r := sq s n
  match i with
  | 0 => if r.en || v % 4096 ≠ 0 then locked s else setSq s n { r with base := ringBase s v }
  | 1 => if r.en || v % 32 < 4 || 16 < v % 32 then locked s else setSq s n { r with size := v % 32 }
  | 2 => ringCtrl s (.sq n) v
  | _ => s

/-- BASE, SIZE or CTRL of an output ring, its BASE held to the same (DESIGN CHOICE, log 70). -/
def outRingWrite (s : State) (k i v : Nat) : State :=
  let r := outRing s k
  let lo := if k = 5 then 2 else 4
  let hi := if k = 5 then 10 else 16
  match i with
  | 0 => if r.en || v % 4096 ≠ 0 then locked s else setOutRing s k { r with base := ringBase s v }
  | 1 => if r.en || v % 32 < lo || hi < v % 32 then locked s else setOutRing s k { r with size := v % 32 }
  | 2 => ringCtrl s (outRingId k) v
  | _ => s

/-- A write to RINGS. -/
def ringsWrite (s : State) (o v : Nat) : State :=
  if o < 0x200 then sqWrite s (o / 0x20) (o % 0x20 / 8) v
  else if o < 0x2F0 then outRingWrite s ((o - 0x200) / 0x28) ((o - 0x200) % 0x28 / 8) v
  else match (o - 0x300) / 8 with
    | 0 => if s.glob.jobState ≤ 1 then recheckDrains { s with rings.host := v % 2 } else locked s
    | 1 => { s with rings.hostDevice := v % 2 ^ 24 }
    | 2 => { s with rings.hostWindow := v % 2 ^ 8 }
    | _ => if v % 4 = 0 then { s with rings.notifyAddr := v % 2 ^ 48 } else locked s

/-- A write to POWER. -/
def powerWrite (s : State) (o v : Nat) : State :=
  if o < 0x40 * 132 then
    let n := o / 0x40
    if o % 0x40 = 0x10 && retainable n then setDom s n { dom s n with retain := bit v 0 } else s
  else if o < 0x3018 then maskVote s (64 * ((o - 0x3000) / 8)) 64 v 2 true
  else if o < 0x3030 then maskVote s (64 * ((o - 0x3018) / 8)) 64 v 2 false
  else if o = 0x3030 then clearDomains s v
  else if o = 0x3100 then { s with power.limitSupv := clampN 450 850 (v % 2 ^ 10) }
  else if o = 0x3110 then { s with power.window := clampN 1 100 (v % 2 ^ 7) } else s

/-- A write to COUNTER but for its selectors (R369). -/
def counterWrite (s : State) (o v : Nat) : State :=
  if o = 0x200 then (if bit v 0 then opCounterClear s else s)
  else if o = 0x208 then
    (if framesRun s then { s with cnt.pendEvery := some (v % 2 ^ 16) } else { s with cnt.snapEvery := v % 2 ^ 16, cnt.pendEvery := none })
  else if o = 0x218 then
    (if framesRun s then { s with cnt.pendUser := some (bit v 0) } else { s with cnt.userRead := bit v 0, cnt.pendUser := none })
  else s

/-- A LANES value as stored (R420): 1 where the port would leave its link group, or would take in the lowest lane of another
port of several lanes. -/
def lanesStored (s : State) (n v : Nat) : Nat :=
  if 8 < n % 8 + v then 1
  else if (List.range (v - 1)).any (fun i => (lane s (n + 1 + i)).base.isNone && decide (1 < (lane s (n + 1 + i)).lanes)) then 1
  else v

/-- A write to LINK_n (R418 to R420). -/
def linkWrite (s : State) (n o v : Nat) : State :=
  let l := lane s n
  match o / 8 with
  | 0 => writeLinkCtrl s n v
  | 2 =>
    let k := v % 16
    if 1 ≤ k && k ≤ 8 then setLane s n { l with lanes := lanesStored s n k } else locked s
  | 4 => setLane s n { l with rateMax := v % 16 }
  | 6 => setLane s n { l with asym := sint 32 v }
  | 7 => setLane s n { l with weight := max 1 (v % 256) + 256 * max 1 (fld v 8 8) }
  | _ => s

/-- A write to ETH_n (R423). -/
def ethWrite (s : State) (n o v : Nat) : State :=
  let e := ethPort s n
  match o / 8 with
  | 0 => opEthMode s n v
  | 1 => setEth s n { e with mac := v % 2 ^ 48 }
  | 2 => setEth s n { e with ipv4 := v % 2 ^ 32 }
  | 3 => if v % 4 = 3 then locked s else setEth s n { e with profile := v % 4 }
  | 4 => setEth s n { e with domain := v % 256 }
  | 5 => setEth s n { e with vlan := v % 65536 }
  | 6 => setEth s n { e with asym := sint 32 v }
  | _ => s

/-- A whole register written with `v`, which its page does not lock. -/
def regStore (s : State) (a v : Nat) : State :=
  if (selAt a).isSome || (rangeAt a).isSome then opSelectWrite s a v
  else if a < 0x10000 then globalWrite s a v
  else if a < 0x20000 then timeWrite s (a - 0x10000) v
  else if a < 0x30000 then ringsWrite s (a - 0x20000) v
  else if a < 0x40000 then
    (if a = 0x30000 then { s with mb.buf := v - v % 64 } else if a = 0x30008 then mbStart s (v % 256) (if mbRefused s then mbDone s 0x19 else mbDone s 0x11) else s)
  else if a < 0x50000 then powerWrite s (a - 0x40000) v
  else if a < 0x60000 then s
  else if a < 0x70000 then counterWrite s (a - 0x60000) v
  else if a < 0x600000 then s
  else if a < 0x780000 then linkWrite s ((a - 0x600000) / 0x4000) ((a - 0x600000) % 0x4000) v
  else if a = 0x880008 then { s with pcie.bar4Base := fld v 36 12 * 2 ^ 36 }
  else if 0x890000 ≤ a && a < 0x8B0000 then ethWrite s ((a - 0x890000) / 0x10000) ((a - 0x890000) % 0x10000) v
  else s

/-- An MSI-X entry whose mask bit is clear sends the message that was pending (PRESUMED, log 20). -/
def msixUnmask (s : State) (v : Nat) : State :=
  if (msixEntry s v).ctrl % 2 = 0 && s.pcie.pba.testBit v then
    { s with pcie.pba := s.pcie.pba - 2 ^ v, out.msix := s.out.msix ++ [v] }
  else s

/-- A 32-bit field of the MSI-X table written (PRESUMED, log 20): each stands on its own. -/
def msixField (s : State) (off w : Nat) : State :=
  let n := (off - 0x888000) / 16
  let e := msixEntry s n
  let e' := match off % 16 with
    | 0 => { e with addr := e.addr - e.addr % 2 ^ 32 + (w - w % 4) }
    | 4 => { e with addr := e.addr % 2 ^ 32 + 2 ^ 32 * w }
    | 8 => { e with data := w }
    | _ => { e with ctrl := w % 2 }
  msixUnmask { s with pcie.msix := tset s.pcie.msix n {} e' } n

/-- A write to the MSI-X table. -/
def msixWrite (s : State) (off size v : Nat) : State :=
  let t := msixField s off (v % 2 ^ 32)
  if size = 8 then msixField t (off + 4) (fld v 32 32) else t

/-- A doorbell through its mirror (Table 11.2, R397). -/
def mirrorDoorbell (s : State) (off size v : Nat) : State :=
  let k := (off - 0x28000) / 4
  if size ≠ 4 then devEvent s 0x52 1
  else if k < 16 then opSqTail s k v
  else if k < 20 then opCqHead s (k - 16) v
  else if k = 20 then opFqHead s v else opCtrHead s v

/-- The lower half that goes with an upper half written on its own: the register's own (DEDUCED, log 45). Of a W1S or W1C
register it is zero: no 1 was written to any bit of it (R7, R412). -/
def lowerRest (s : State) (a : Nat) : Nat := if 0x43000 ≤ a && a < 0x43030 then 0 else regValue s a % 2 ^ 32

/-- A write that its register accepts (R9, R397): a lower half of a wide register waits for the upper half; with no lower half
waiting, `lowerRest` stands. -/
def halfWrite (s : State) (k : RegKind) (off size v : Nat) : State :=
  let a := off - off % 8
  let rest := { s with glob.halves := tdel s.glob.halves a }
  if !k.wide then (if off % 8 = 0 then regStore s a (v % 2 ^ 32) else s)
  else if size = 8 then regStore rest a (v % 2 ^ 64)
  else if off % 8 = 0 then { s with glob.halves := tput s.glob.halves a (v % 2 ^ 32) }
  else regStore rest a (2 ^ 32 * (v % 2 ^ 32) + tget s.glob.halves a (lowerRest s a))

/-- A register write (R7 to R9, R280, R397, R398, R402). -/
def regWrite (s : State) (path : Path) (off size v : Nat) : State :=
  let a := off - off % 8
  if !regAccess off size then s
  else if inDoorbells off then mirrorDoorbell s off size v
  else if msixSlot a then (if jobExists s then locked s else msixWrite s off size v)
  else match regKind a with
    | none => s
    | some k =>
      if path = .mirror && a = 0x20 then locked s
      else if jobExists s && !k.run then locked s else halfWrite s k off size v

/-- REGISTER_WRITE. -/
def execRegisterWrite (path : Path) (off size v : Nat) (s : State) : Host.Outcome State Fault Refusal :=
  whenAlive (.registerWrite path off size v) s (regWrite s path off size v)

/-! ### Reads -/

/-- A read through BAR0: in the fault state only GLOBAL and FAULT answer (R305). -/
def barRead (s : State) (off size : Nat) : State :=
  if s.pins.sysReset || s.pins.clocksStopped then s
  else if s.glob.faultState && !(off < 0x10000 || (0x50000 ≤ off && off < 0x60000)) then { s with out.readData := 0 }
  else
    let r := regRead s off size
    { r.2 with out.readData := r.1 }

/-- RC_REGISTER_READ (R7): the value, and then zero. -/
def execRcRegisterRead (off size : Nat) (s : State) : Host.Outcome State Fault Refusal :=
  always (.rcRegisterRead off size) (barRead s off size)

/-- FAULT_LAST_READ (R413): FAULT_LAST_0 read, which latches the whole record. -/
def execFaultLastRead (s : State) : Host.Outcome State Fault Refusal := always .faultLastRead (barRead s 0x50040 8)

/-! ### The register mirror (R300) -/

/-- The control gate admits a source. -/
def gateAdmits (s : State) (src : Nat) : Bool :=
  s.glob.gateEn && (src &&& s.glob.gateMask) == (s.glob.gateSrc &&& s.glob.gateMask)

/-- A packet that the gate admits, as a register access of LENGTH bytes (R8). -/
def mirrorPass (s : State) (p : Nat) (pkt : Packet) : State :=
  let off := pkt.addr - mirrorBase
  if pkt.typ = 1 then acknowledge (regWrite s .mirror off pkt.length (leNat pkt.payload)) p pkt
  else
    let r := regRead s off pkt.length
    respond r.2 p pkt 0 (leBytes pkt.length r.1)

/-- A WRITE or READ whose address lies in the register mirror: the frame rule, then the gate (R266, R300). -/
def opMirror (s : State) (p : Nat) (pkt : Packet) : State :=
  let t := takeIn s p pkt
  if !toMirror s pkt || pkt.resp then s
  else match preRefusal t pkt with
    | some c => respond t p pkt c []
    | none =>
      match checkFrame t pkt with
      | .late a q => lateData t p pkt a q
      | .hold => holdPacket t p pkt
      | _ => if gateAdmits t pkt.src then mirrorPass t p pkt else refusePacket t p pkt 0x09

/-- MIRROR_ACCESS. -/
def execMirrorAccess (p : Nat) (pkt : Packet) (s : State) : Host.Outcome State Fault Refusal :=
  whenAlive (.mirrorAccess p pkt) s (opMirror s p pkt)

end Sys2Proof.Machine
end

