-- ==== Sys2Proof/Machine/Dispatch.lean ====
section
/-! DEFINITION. The arm of every command: one direct call of its meaning. -/

namespace Sys2Proof.Machine

open Sys2Proof

def exec (i : Instr) (s : State) : Host.Outcome State Fault Refusal :=
  match i with
  | .sysResetNAssert a => Sys2Proof.Machine.execSysResetNAssert a s
  | .coldStart a b c d e => Sys2Proof.Machine.execColdStart a b c d e s
  | .perstNAssert => Sys2Proof.Machine.execPerstNAssert s
  | .perstNDeassert => Sys2Proof.Machine.execPerstNDeassert s
  | .pcieLinkTrained a b c => Sys2Proof.Machine.execPcieLinkTrained a b c s
  | .ringHostLost => Sys2Proof.Machine.execRingHostLost s
  | .refclkSysLoss => Sys2Proof.Machine.execRefclkSysLoss s
  | .refclkSdLoss a => Sys2Proof.Machine.execRefclkSdLoss a s
  | .refclkPcieLoss => Sys2Proof.Machine.execRefclkPcieLoss s
  | .vddAuxUndervoltage => Sys2Proof.Machine.execVddAuxUndervoltage s
  | .thermtrip a b => Sys2Proof.Machine.execThermtrip a b s
  | .alertNLow => Sys2Proof.Machine.execAlertNLow s
  | .alertNHoldTimeout => Sys2Proof.Machine.execAlertNHoldTimeout s
  | .jtagInstruction a => Sys2Proof.Machine.execJtagInstruction a s
  | .loadImage a b c => Sys2Proof.Machine.execLoadImage a b c s
  | .securityImageStart => Sys2Proof.Machine.execSecurityImageStart s
  | .coreReady a b => Sys2Proof.Machine.execCoreReady a b s
  | .clusterStartTimeout a => Sys2Proof.Machine.execClusterStartTimeout a s
  | .bootComplete => Sys2Proof.Machine.execBootComplete s
  | .chainBootHello => Sys2Proof.Machine.execChainBootHello s
  | .chainBootHelloReceive a b => Sys2Proof.Machine.execChainBootHelloReceive a b s
  | .chainBootData a b c => Sys2Proof.Machine.execChainBootData a b c s
  | .chainBootAckReceive a b => Sys2Proof.Machine.execChainBootAckReceive a b s
  | .descriptorFetch a => Sys2Proof.Machine.execDescriptorFetch a s
  | .queuedRecordFlush a => Sys2Proof.Machine.execQueuedRecordFlush a s
  | .claim a b c d => Sys2Proof.Machine.execClaim a b c d s
  | .loadDuctus a b c d => Sys2Proof.Machine.execLoadDuctus a b c d s
  | .jobStart a b c => Sys2Proof.Machine.execJobStart a b c s
  | .stepBegin a b c => Sys2Proof.Machine.execStepBegin a b c s
  | .paramWrite a b => Sys2Proof.Machine.execParamWrite a b s
  | .shapeCellWrite a b c => Sys2Proof.Machine.execShapeCellWrite a b c s
  | .maskOp a b => Sys2Proof.Machine.execMaskOp a b s
  | .checkpointOnce a => Sys2Proof.Machine.execCheckpointOnce a s
  | .checkpointInterval a b => Sys2Proof.Machine.execCheckpointInterval a b s
  | .openWindow a b c => Sys2Proof.Machine.execOpenWindow a b c s
  | .closeWindow a b => Sys2Proof.Machine.execCloseWindow a b s
  | .windowCloseDone a => Sys2Proof.Machine.execWindowCloseDone a s
  | .counterSnapshot a => Sys2Proof.Machine.execCounterSnapshot a s
  | .testRequest a b c => Sys2Proof.Machine.execTestRequest a b c s
  | .updateStage a b c => Sys2Proof.Machine.execUpdateStage a b c s
  | .updateActivate a b c => Sys2Proof.Machine.execUpdateActivate a b c s
  | .jobPause a b => Sys2Proof.Machine.execJobPause a b s
  | .jobResume a b => Sys2Proof.Machine.execJobResume a b s
  | .jobEnd a => Sys2Proof.Machine.execJobEnd a s
  | .release a b => Sys2Proof.Machine.execRelease a b s
  | .sqTailDoorbell a b c => Sys2Proof.Machine.execSqTailDoorbell a b c s
  | .cqHeadDoorbell a b => Sys2Proof.Machine.execCqHeadDoorbell a b s
  | .fqHeadDoorbell a => Sys2Proof.Machine.execFqHeadDoorbell a s
  | .ctrHeadDoorbell a => Sys2Proof.Machine.execCtrHeadDoorbell a s
  | .ringEnable a => Sys2Proof.Machine.execRingEnable a s
  | .ringDisable a => Sys2Proof.Machine.execRingDisable a s
  | .registerWrite a b c d => Sys2Proof.Machine.execRegisterWrite a b c d s
  | .rcRegisterRead a b => Sys2Proof.Machine.execRcRegisterRead a b s
  | .mirrorAccess a b => Sys2Proof.Machine.execMirrorAccess a b s
  | .bar4Write a b => Sys2Proof.Machine.execBar4Write a b s
  | .bar4Read a b => Sys2Proof.Machine.execBar4Read a b s
  | .routeLoad => Sys2Proof.Machine.execRouteLoad s
  | .timeSecondsRead => Sys2Proof.Machine.execTimeSecondsRead s
  | .timeSecondsWrite a => Sys2Proof.Machine.execTimeSecondsWrite a s
  | .timeStep a => Sys2Proof.Machine.execTimeStep a s
  | .timeTrimWrite a => Sys2Proof.Machine.execTimeTrimWrite a s
  | .timeSourceWrite a => Sys2Proof.Machine.execTimeSourceWrite a s
  | .faultLastRead => Sys2Proof.Machine.execFaultLastRead s
  | .supvVoteSet a b => Sys2Proof.Machine.execSupvVoteSet a b s
  | .supvVoteClr a b => Sys2Proof.Machine.execSupvVoteClr a b s
  | .powerDomClear a => Sys2Proof.Machine.execPowerDomClear a s
  | .counterSelectWrite a b => Sys2Proof.Machine.execCounterSelectWrite a b s
  | .counterClear => Sys2Proof.Machine.execCounterClear s
  | .linkDisable a => Sys2Proof.Machine.execLinkDisable a s
  | .linkRetrain a => Sys2Proof.Machine.execLinkRetrain a s
  | .linkCtrlWrite a b => Sys2Proof.Machine.execLinkCtrlWrite a b s
  | .ethModeWrite a b => Sys2Proof.Machine.execEthModeWrite a b s
  | .attest a => Sys2Proof.Machine.execAttest a s
  | .challenge a => Sys2Proof.Machine.execChallenge a s
  | .raiseFloor a => Sys2Proof.Machine.execRaiseFloor a s
  | .enrollOwner a => Sys2Proof.Machine.execEnrollOwner a s
  | .replaceOwner a => Sys2Proof.Machine.execReplaceOwner a s
  | .i3cDynamicAddress a => Sys2Proof.Machine.execI3cDynamicAddress a s
  | .i3cPrivateWrite a => Sys2Proof.Machine.execI3cPrivateWrite a s
  | .i3cPrivateRead a => Sys2Proof.Machine.execI3cPrivateRead a s
  | .i3cVoteSet a => Sys2Proof.Machine.execI3cVoteSet a s
  | .i3cVoteClr a => Sys2Proof.Machine.execI3cVoteClr a s
  | .i3cRailWrite a b => Sys2Proof.Machine.execI3cRailWrite a b s
  | .frameTick => Sys2Proof.Machine.execFrameTick s
  | .strokeIssue => Sys2Proof.Machine.execStrokeIssue s
  | .strokeComplete a b => Sys2Proof.Machine.execStrokeComplete a b s
  | .frameOverrun => Sys2Proof.Machine.execFrameOverrun s
  | .stackRefreshSlot a b c => Sys2Proof.Machine.execStackRefreshSlot a b c s
  | .lpRefreshSlot a b => Sys2Proof.Machine.execLpRefreshSlot a b s
  | .seamStart => Sys2Proof.Machine.execSeamStart s
  | .counterCapture => Sys2Proof.Machine.execCounterCapture s
  | .faultCollection => Sys2Proof.Machine.execFaultCollection s
  | .windowPhase => Sys2Proof.Machine.execWindowPhase s
  | .ductusSwitch => Sys2Proof.Machine.execDuctusSwitch s
  | .stepBoundary => Sys2Proof.Machine.execStepBoundary s
  | .tagPhase => Sys2Proof.Machine.execTagPhase s
  | .frameAdvance => Sys2Proof.Machine.execFrameAdvance s
  | .product a b => Sys2Proof.Machine.execProduct a b s
  | .productT a b => Sys2Proof.Machine.execProductT a b s
  | .maskedOuter a b => Sys2Proof.Machine.execMaskedOuter a b s
  | .probe a b => Sys2Proof.Machine.execProbe a b s
  | .sparseTileLoad a => Sys2Proof.Machine.execSparseTileLoad a s
  | .quillVector a b => Sys2Proof.Machine.execQuillVector a b s
  | .prune a b => Sys2Proof.Machine.execPrune a b s
  | .regrow a b => Sys2Proof.Machine.execRegrow a b s
  | .swap a b => Sys2Proof.Machine.execSwap a b s
  | .maskSet a b => Sys2Proof.Machine.execMaskSet a b s
  | .dispatch a b c => Sys2Proof.Machine.execDispatch a b c s
  | .tokenAdmit a b c => Sys2Proof.Machine.execTokenAdmit a b c s
  | .countCellSend a b c => Sys2Proof.Machine.execCountCellSend a b c s
  | .combine a b => Sys2Proof.Machine.execCombine a b s
  | .copy a => Sys2Proof.Machine.execCopy a s
  | .gather a => Sys2Proof.Machine.execGather a s
  | .scatter a => Sys2Proof.Machine.execScatter a s
  | .streamArm a b => Sys2Proof.Machine.execStreamArm a b s
  | .moveComplete a b => Sys2Proof.Machine.execMoveComplete a b s
  | .landCellSend a => Sys2Proof.Machine.execLandCellSend a s
  | .slotFillSend a => Sys2Proof.Machine.execSlotFillSend a s
  | .stencil a b c => Sys2Proof.Machine.execStencil a b c s
  | .digest a b c => Sys2Proof.Machine.execDigest a b c s
  | .optimiser a b c => Sys2Proof.Machine.execOptimiser a b c s
  | .reduce a b => Sys2Proof.Machine.execReduce a b s
  | .flitSlot a => Sys2Proof.Machine.execFlitSlot a s
  | .flitReceive a b c d => Sys2Proof.Machine.execFlitReceive a b c d s
  | .nakReceive a b => Sys2Proof.Machine.execNakReceive a b s
  | .laneSilenceDown a => Sys2Proof.Machine.execLaneSilenceDown a s
  | .capabilityPageReceive a b => Sys2Proof.Machine.execCapabilityPageReceive a b s
  | .laneTrainingDone a b => Sys2Proof.Machine.execLaneTrainingDone a b s
  | .laneTrainingTimeout a => Sys2Proof.Machine.execLaneTrainingTimeout a s
  | .laneQualityCheck a b c => Sys2Proof.Machine.execLaneQualityCheck a b c s
  | .laneWaitRestart a => Sys2Proof.Machine.execLaneWaitRestart a s
  | .packetForward a b => Sys2Proof.Machine.execPacketForward a b s
  | .broadcastReceive a b => Sys2Proof.Machine.execBroadcastReceive a b s
  | .inboundWrite a b => Sys2Proof.Machine.execInboundWrite a b s
  | .inboundRead a b => Sys2Proof.Machine.execInboundRead a b s
  | .inboundReduceWrite a b => Sys2Proof.Machine.execInboundReduceWrite a b s
  | .readResponseReceive a b => Sys2Proof.Machine.execReadResponseReceive a b s
  | .responseOk a b => Sys2Proof.Machine.execResponseOk a b s
  | .responseBusy a b => Sys2Proof.Machine.execResponseBusy a b s
  | .busyResend a b => Sys2Proof.Machine.execBusyResend a b s
  | .responseRefusal a b => Sys2Proof.Machine.execResponseRefusal a b s
  | .responseLateData a b => Sys2Proof.Machine.execResponseLateData a b s
  | .windowCtrlQuery a b => Sys2Proof.Machine.execWindowCtrlQuery a b s
  | .windowCtrlState a b => Sys2Proof.Machine.execWindowCtrlState a b s
  | .mgmtMessageRefuse a b => Sys2Proof.Machine.execMgmtMessageRefuse a b s
  | .powerVote a b => Sys2Proof.Machine.execPowerVote a b s
  | .syncSend a => Sys2Proof.Machine.execSyncSend a s
  | .syncReceive a b c d => Sys2Proof.Machine.execSyncReceive a b c d s
  | .delayReqReceive a b c => Sys2Proof.Machine.execDelayReqReceive a b c s
  | .delayRespReceive a b => Sys2Proof.Machine.execDelayRespReceive a b s
  | .timeExchangeMissed => Sys2Proof.Machine.execTimeExchangeMissed s
  | .ptpMessageReceive a b c => Sys2Proof.Machine.execPtpMessageReceive a b c s
  | .ptpDelayReqSend a b => Sys2Proof.Machine.execPtpDelayReqSend a b s
  | .ptpSyncMissed a => Sys2Proof.Machine.execPtpSyncMissed a s
  | .arpRequest a b => Sys2Proof.Machine.execArpRequest a b s
  | .ethDiscard a => Sys2Proof.Machine.execEthDiscard a s
  | .ethLinkUp a b c => Sys2Proof.Machine.execEthLinkUp a b c s
  | .rollbackReqReceive a b => Sys2Proof.Machine.execRollbackReqReceive a b s
  | .rollbackReceive a b => Sys2Proof.Machine.execRollbackReceive a b s
  | .rollbackPauseReceive a b => Sys2Proof.Machine.execRollbackPauseReceive a b s
  | .restoreComplete a => Sys2Proof.Machine.execRestoreComplete a s
  | .readyReceive a b => Sys2Proof.Machine.execReadyReceive a b s
  | .restartFrame => Sys2Proof.Machine.execRestartFrame s
  | .rollbackWaitTimeout => Sys2Proof.Machine.execRollbackWaitTimeout s
  | .skipReceive a b => Sys2Proof.Machine.execSkipReceive a b s
  | .deviceLostReceive a b => Sys2Proof.Machine.execDeviceLostReceive a b s
  | .takeoverReceive a b => Sys2Proof.Machine.execTakeoverReceive a b s
  | .ckptDoneSend a => Sys2Proof.Machine.execCkptDoneSend a s
  | .ckptDoneReceive a b => Sys2Proof.Machine.execCkptDoneReceive a b s
  | .ckptCommitReceive a b => Sys2Proof.Machine.execCkptCommitReceive a b s
  | .colophonReceive a b => Sys2Proof.Machine.execColophonReceive a b s
  | .clusterWatchdog a => Sys2Proof.Machine.execClusterWatchdog a s
  | .folioInternalFault a b => Sys2Proof.Machine.execFolioInternalFault a b s
  | .schedulerWatchdog a => Sys2Proof.Machine.execSchedulerWatchdog a s
  | .powerWatchdog a => Sys2Proof.Machine.execPowerWatchdog a s
  | .securityWatchdog => Sys2Proof.Machine.execSecurityWatchdog s
  | .handoffSeal a => Sys2Proof.Machine.execHandoffSeal a s
  | .handoffAccept => Sys2Proof.Machine.execHandoffAccept s
  | .handoffReject a => Sys2Proof.Machine.execHandoffReject a s
  | .handoffTimeout a => Sys2Proof.Machine.execHandoffTimeout a s
  | .activationDeferRetest => Sys2Proof.Machine.execActivationDeferRetest s
  | .activationExpire => Sys2Proof.Machine.execActivationExpire s
  | .testPeriodDue a => Sys2Proof.Machine.execTestPeriodDue a s
  | .testDeadlinePassed a => Sys2Proof.Machine.execTestDeadlinePassed a s
  | .testStart a => Sys2Proof.Machine.execTestStart a s
  | .testComplete a => Sys2Proof.Machine.execTestComplete a s
  | .vaultRetrain a => Sys2Proof.Machine.execVaultRetrain a s
  | .lpChannelRetrain a => Sys2Proof.Machine.execLpChannelRetrain a s
  | .wakeSlot => Sys2Proof.Machine.execWakeSlot s
  | .wakeComplete a => Sys2Proof.Machine.execWakeComplete a s
  | .holdRelease a => Sys2Proof.Machine.execHoldRelease a s
  | .drainComplete a => Sys2Proof.Machine.execDrainComplete a s
  | .drainTimeout a b => Sys2Proof.Machine.execDrainTimeout a b s
  | .entryRetry a => Sys2Proof.Machine.execEntryRetry a s
  | .shutdownComplete a => Sys2Proof.Machine.execShutdownComplete a s
  | .powerUpdate a b => Sys2Proof.Machine.execPowerUpdate a b s
  | .powerCalibrate => Sys2Proof.Machine.execPowerCalibrate s
  | .railTelemetryTimeout => Sys2Proof.Machine.execRailTelemetryTimeout s
  | .emergencyLevelClear a => Sys2Proof.Machine.execEmergencyLevelClear a s
  | .schedulerImageRestart => Sys2Proof.Machine.execSchedulerImageRestart s
  | .powerImageReload => Sys2Proof.Machine.execPowerImageReload s
  | .codewordLock a b c => Sys2Proof.Machine.execCodewordLock a b c s
  | .ethLinkDown a => Sys2Proof.Machine.execEthLinkDown a s

end Sys2Proof.Machine
end

