-- ==== Sys2Proof/Machine/Tick.lean ====
section
/-! DEFINITION. The 25 MHz reference (log 3): what a step does when no command waits. -/

namespace Sys2Proof.Machine

open Sys2Proof

/-- One period of REFCLK_SYS, 40 ns. -/
def opTick (s : State) : State := elapse s (40 * 65536)

/-- The idle step: the time counter, which lies in the always-on domain, advances while the part is out of reset and its
reference runs. -/
def idle (s : State) : State :=
  if s.pins.sysReset || s.pins.lostSys then s else opTick s

end Sys2Proof.Machine
end

