-- ==== Sys2Proof/Safety.lean ====
section
/-! DEFINITION. The terms in which claims about the NX1 are stated. -/

namespace Sys2Proof.Machine

open Sys2Proof

/-- The command completes: `exec` answers a next state, of which `P` holds. -/
def Answers (c : Instr) (s : State) (P : State → Prop) : Prop := ∃ t, exec c s = .next t ∧ P t

/-- Device memory and the ring host's memory are in their canonical form (log 1, log 2). -/
abbrev MemoryOk (s : State) : Prop :=
  Memory.wf (isUndef s.mem.undef) s.mem.cells = true ∧ Memory.wf (fun _ => false) s.hostMem = true

/-- The commands that a part in reset, stopped or in the fault state still obeys: resets, the always-on domain with its I3C
target (R346), the PCIe clock and reset pins (R386, R390), the TAP and the root complex's reads. -/
def alwaysObeyed : Instr → Bool
  | .sysResetNAssert _ | .coldStart .. | .perstNAssert | .perstNDeassert | .vddAuxUndervoltage | .thermtrip .. => true
  | .refclkPcieLoss | .jtagInstruction _ | .i3cPrivateRead _ | .i3cPrivateWrite _ | .i3cRailWrite .. => true
  | .i3cDynamicAddress _ | .faultLastRead | .rcRegisterRead .. => true
  | _ => false

/-- The commands that reset the whole part (R384, R390). -/
def coldResets : Instr → Bool
  | .sysResetNAssert ns => decide (1000 ≤ ns)
  | .vddAuxUndervoltage => true
  | _ => false

/-- A ring that the NX1 produces, by its name. -/
def outRingOf (s : State) : RingId → OutRing
  | .sq _ => {}
  | .cq n => cq s n
  | .fq => s.rings.fq
  | .ctr => s.rings.ctr

/-- A descriptor whose header, owner and session pass the checks that come before the state (R287, R292 to R294), taken over a link
that is not degraded by a scheduler core that serves it (R280, R304, R324). -/
abbrev Admitted (s : State) (h : Hdr) : Prop :=
  h.wf = true ∧ h.flags < 4 ∧ h.cq < 4 ∧ s.glob.jobState ≠ 0 ∧ (s.job.session = 0 ∨ h.owner = s.job.session) ∧
  s.job.restricted = false ∧ degraded s = false ∧ schedAway s = false

/-- The completion ring that a descriptor names takes a record at once, in the memory of a host that PCIe reaches. -/
abbrev RoomFor (s : State) (h : Hdr) : Prop :=
  h.cq < 4 ∧ canWrite s (cq s h.cq) = true ∧ (cq s h.cq).queue = [] ∧ s.rings.host = 0

/-- Every byte of device memory outside [a, a + n) reads as before. -/
def SameOutside (s t : State) (a n : Nat) : Prop :=
  ∀ x, x < a ∨ a + n ≤ x → memByte t.mem x = memByte s.mem x

end Sys2Proof.Machine
end

