-- ==== Sys2Proof/Certificates/Slice0/Obligations.lean ====
section
/-! DEFINITION. The statements about the NX1, for the provers. Each `def Obligations.<Name>` is one; a statement about several
commands of one kind is the conjunction of the `Claim`s that stand before it. -/

open Sys2Proof Sys2Proof.Machine

/-! ### The block as a whole -/

/-- A step takes the command at the front of the queue and answers what `exec` answers with the rest. -/
def Obligations.StepRunsFrontCommand : Prop :=
  ∀ (s : State) (c : Instr) (rest : List Instr),
    step { s with pending := c :: rest } = exec c { s with pending := rest }

/-- The model's choice (log 3): on an empty queue one period of REFCLK_SYS passes, adjusted by TIME_TRIM in 0.001 ppb, with
the residue kept, and nothing else changes; in reset, or with the reference lost, nothing changes at all. -/
def Obligations.IdleStepAdvancesTimeOnly : Prop :=
  ∀ s : State, s.pending = [] → s.time.now < 2 ^ 48 * unitsPerSec → -(10 ^ 12 : Int) ≤ s.time.trim →
    ((s.pins.sysReset || s.pins.lostSys) = true → step s = .next s) ∧
    ((s.pins.sysReset || s.pins.lostSys) = false →
      ∃ t, step s = .next t ∧
        t = { s with time := { s.time with now := t.time.now, res := t.time.res } } ∧
        t.time.res < 10 ^ 12 ∧
        t.time.now * 10 ^ 12 + t.time.res =
          (s.time.now * 10 ^ 12 + (40 * 65536 * ((10 ^ 12 : Int) + s.time.trim)).toNat + s.time.res)
            % (2 ^ 48 * unitsPerSec * 10 ^ 12))

/-- A command that names a unit, width or value that the part does not have is no command of it: it stops by name, and every
other command answers a next state (log 5). -/
def Claim.CommandsStopOnlyWhenIllFormed : Prop :=
  ∀ (c : Instr) (s : State),
    (c.wf = false → exec c s = .fault .noSuchUnit) ∧ (c.wf = true → Answers c s (fun _ => True))

/-- R305, R345, R390: a part that is in reset, stopped by THERMTRIP or in the fault state obeys no command but the resets,
those of the always-on domain, the TAP and the root complex's reads. -/
def Claim.DeadPartObeysNothing : Prop :=
  ∀ (c : Instr) (s : State), c.wf = true → alive s = false → alwaysObeyed c = false → exec c s = .next s

/-- Every well-formed command answers a next state; a dead part obeys only resets, the TAP, the always-on domain and reads. -/
def Obligations.CommandsStopOnlyWhenIllFormed : Prop :=
  Claim.CommandsStopOnlyWhenIllFormed ∧ Claim.DeadPartObeysNothing

/-- R390, R401, R341, Table 17.2: what the cold reset leaves. Both memories are in canonical form and device memory lists nothing
(the model's choice, log 1), no command waits, SYS_RESET_N is asserted (the part held in reset, log 8), the job state is BOOT, the
device id 0xFFFFFF, the power limits 450 W of the board and 850 W of the supervisor, and the loss weight 0x3C23D70A. -/
def Obligations.ResetLeavesItsValues : Prop :=
  MemoryOk State.reset ∧ State.reset.mem.cells = [] ∧ State.reset.pending = [] ∧
  State.reset.pins.sysReset = true ∧ State.reset.glob.jobState = 0 ∧ State.reset.glob.deviceId = 0xFFFFFF ∧
  State.reset.power.limitBoard = 450 ∧ State.reset.power.limitSupv = 850 ∧ State.reset.loss.regs.alpha = 0x3C23D70A

/-- Every step keeps the canonical form of both memories: rising addresses, and no byte listed that an unlisted address reads
as; where the content of device memory is undefined, an unlisted address reads as a free value, and every byte written since is
listed (log 1). -/
def Obligations.EveryStepKeepsMemoryCanonical : Prop :=
  ∀ s t : State, MemoryOk s → step s = .next t → MemoryOk t

/-! ### Resets, clocks, the fault state, the board -/

/-- R390, R384: SYS_RESET_N for 1 µs or more, or an undervoltage of VDD_AUX, discards all device state but the flash and
returns every register to its reset value; a shorter pulse is ignored. Straps are pins, and stay. -/
def Claim.ColdResetDiscardsDeviceState : Prop :=
  ∀ (s : State) (ns : Nat) (c : Instr),
    (c = .sysResetNAssert ns ∧ 1000 ≤ ns ∨ c = .vddAuxUndervoltage →
      Answers c s (fun t =>
        t.mem = State.reset.mem ∧ t.glob = State.reset.glob ∧ t.time = State.reset.time ∧ t.rings = State.reset.rings ∧
        t.power = State.reset.power ∧ t.folios = State.reset.folios ∧ t.lanes = [] ∧ t.fab = State.reset.fab ∧
        t.job = State.reset.job ∧ t.frame = State.reset.frame ∧ t.boot = State.reset.boot ∧ t.cnt = State.reset.cnt ∧
        t.flt = State.reset.flt ∧ t.pcie = State.reset.pcie ∧ t.flash = s.flash ∧ t.pending = s.pending ∧
        t.pins.sysReset = true ∧ t.pins.vid = 15 ∧ t.pins.thermtrip = false ∧ t.pins.bootSrc = s.pins.bootSrc ∧
        t.pins.perst = s.pins.perst ∧ alive t = false)) ∧
    (ns < 1000 → exec (.sysResetNAssert ns) s = .next s)

/-- R386, R304, R305: the loss of REFCLK_SYS and an expiry of the security core's watchdog, outside the validation window of its
own activation and the wait for it (R324), put the part in the fault state:
one last record of WATCHDOG, every stroke and frame halted, every lane and link group down; memory, tags, the submission rings
and the job's registers stay as they were. -/
def Claim.FaultStateIsEntered : Prop :=
  ∀ (s : State) (c : Instr), alive s = true → c = .refclkSysLoss ∨ (c = .securityWatchdog ∧ watchSuspended s 0 0 = false ∧ inValidation s 0 0 = false) →
    Answers c s (fun t =>
      t.glob.faultState = true ∧ alive t = false ∧ t.frame.live = false ∧ t.frame.prog = [] ∧
      (∀ n, (lane t n).state = 0) ∧ (∀ g, g < 12 → (dom t (112 + g)).state = 0) ∧
      (∀ n, n < 112 ∨ 124 ≤ n → dom t n = dom s n) ∧
      t.flt.seq = (s.flt.seq + 1) % 2 ^ 32 ∧ rd t.flt.last 0 1 = 0x10 ∧ t.flt.region = [] ∧
      (c = .refclkSysLoss → t.pins.lostSys = true) ∧ (c = .securityWatchdog → t.pins = s.pins) ∧
      t.mem = s.mem ∧ t.rings.sq = s.rings.sq ∧ t.job = s.job ∧ t.folios = s.folios ∧ t.pcie.up = s.pcie.up ∧
      t.flash = s.flash)

/-- The cold reset discards all device state but the flash; a lost reference or a security watchdog is the fault state. -/
def Obligations.ResetAndFaultState : Prop :=
  Claim.ColdResetDiscardsDeviceState ∧ Claim.FaultStateIsEntered

/-- R305: only a reset leaves the fault state; until it, whatever is commanded leaves memory, rings, job, frames, Folios,
routers, counters, boot and flash exactly as they are. -/
def Obligations.FaultStateIsLeftByResetOnly : Prop :=
  ∀ (s t : State) (c : Instr), s.glob.faultState = true → s.pins.sysReset = false → coldResets c = false →
    exec c s = .next t →
      t.glob.faultState = true ∧ t.pins.sysReset = false ∧ t.mem = s.mem ∧ t.hostMem = s.hostMem ∧ t.rings = s.rings ∧
      t.job = s.job ∧ t.frame = s.frame ∧ t.folios = s.folios ∧ t.fab = s.fab ∧ t.boot = s.boot ∧ t.flash = s.flash ∧
      t.train = s.train ∧ t.cnt = s.cnt ∧ t.pending = s.pending

/-- R295, R386, R390: the end of the ring host's session. From IDLE with a session the part holds none, and from a job it is
ORPHANED with the job and its state kept; frames, memory, windows and Folios go on as they were. The loss of the PCIe reference and
PERST_N end a session only when the rings are hosted over PCIe, and take the PCIe link down. -/
def Claim.RingHostLossEndsSession : Prop :=
  ∀ (s : State) (c : Instr), alive s = true →
    c = .ringHostLost ∨ ((c = .refclkPcieLoss ∨ c = .perstNAssert) ∧ s.rings.host = 0) → s.job.session ≠ 0 →
    Answers c s (fun t =>
      (s.glob.jobState = 2 → t.glob.jobState = 1 ∧ t.job.session = 0) ∧
      (3 ≤ s.glob.jobState ∧ s.glob.jobState ≤ 5 →
        t.glob.jobState = 6 ∧ t.job.savedState = s.glob.jobState ∧ t.job.session = s.job.session ∧ t.job.blk = s.job.blk) ∧
      (c ≠ .ringHostLost → t.pcie.up = false) ∧ (c = .perstNAssert → t.pins.perst = true ∧ t.pcie.msix = []) ∧
      (c = .refclkPcieLoss → t.pins.lostPcie = true) ∧
      t.mem = s.mem ∧ t.frame = s.frame ∧ t.fab.windows = s.fab.windows ∧ t.folios = s.folios)

/-- R12, R390, R337: an endpoint out of PERST_N with its reference and its domain ON takes the rate, width and mode that training
settles, and below 16 GT/s it is degraded; what the host's software gives its configuration comes with the command (the model's
choice, log 58), and nothing else changes. Out of PERST_N the reference counts as running (the model's choice, log 67). -/
def Claim.PcieLinkTakesItsStatus : Prop :=
  ∀ (s : State) (r w : Nat) (f : PcieCfg),
    exec .perstNDeassert s = .next { s with pins.perst := false, pins.lostPcie := false } ∧
    (alive s = true → s.pins.perst = false → s.pins.lostPcie = false → (dom s 128).state = 2 → (Instr.pcieLinkTrained r w f).wf = true →
      Answers (.pcieLinkTrained r w f) s (fun t =>
        t = { s with pcie := { s.pcie with
                rate := r, width := w, flit := f.flit, up := true, busMaster := f.busMaster,
                maxPayload := f.maxPayload, maxReadReq := f.maxReadReq, msixEn := f.msixEn } } ∧
        (degraded t = true ↔ r < 4))) ∧
    (alive s = true → (s.pins.perst = true ∨ s.pins.lostPcie = true ∨ (dom s 128).state ≠ 2) →
      (Instr.pcieLinkTrained r w f).wf = true → exec (.pcieLinkTrained r w f) s = .next s) ∧
    (∀ n, n < 2 → alive s = true → Answers (.refclkSdLoss n) s (fun t =>
      (n = 0 → t = { s with pins.lostSd0 := true }) ∧ (n = 1 → t = { s with pins.lostSd1 := true })))

/-- R345, R395: a reading of 110 °C in a compute die or 95 °C in a stack: the comparator drives THERMTRIP_N and stops every clock
outside the always-on domain, in which the reading stays; below that it does nothing. -/
def Claim.ThermtripStopsTheClocks : Prop :=
  ∀ (s : State) (d : Nat) (temp : Int), d < 4 ∨ 8 ≤ d ∧ d < 16 → s.pins.sysReset = false → s.pins.thermtrip = false →
    (((d < 4 ∧ 1760 ≤ temp) ∨ (8 ≤ d ∧ 1520 ≤ temp)) →
      Answers (.thermtrip d temp) s (fun t =>
        t.pins.thermtrip = true ∧ t.pins.clocksStopped = true ∧ alive t = false ∧ 3 ∈ t.power.conditions ∧
        3 ≤ t.power.level ∧ 4 ∈ t.i3c.ibi ∧ tget t.power.temps d 0 = temp ∧ (s.power.level < 3 → t.pins.alertOut = true) ∧
         t.pcie.up = false ∧ (∀ n, (lane t n).state = 0) ∧
        t.mem = s.mem ∧ t.rings = s.rings ∧ t.job = s.job ∧ t.frame = s.frame)) ∧
    (¬ ((d < 4 ∧ 1760 ≤ temp) ∨ (8 ≤ d ∧ 1520 ≤ temp)) → exec (.thermtrip d temp) s = .next s)

/-- R391: a listed instruction takes effect, but those that drive the pins act as BYPASS while SYS_RESET_N is not asserted, whichever
came first, and so does every other code; IDCODE reads 1 in bit 0, the part number 0x0A01 and version 1. TRST_N low holds the TAP in
reset, with IDCODE selected, and a board that loads an instruction has released it (the model's choice, log 69). -/
def Claim.TapTakesItsInstruction : Prop :=
  ∀ (s : State) (i : TapInstr),
    Answers (.jtagInstruction i) s (fun t =>
      t = { s with pins := t.pins, out := t.out } ∧
      (i = .trst → t.pins.tap = .idcode ∧ t.pins.trst = true ∧ t.out = s.out) ∧
      (i ≠ .trst → t.pins.tap = i ∧ t.pins.trst = false) ∧
      (TapInstr.drives i = true →
        tapEffective { t with pins.sysReset := false } = .bypass ∧ tapEffective { t with pins.sysReset := true } = i) ∧
      (∀ k, i = .other k → tapEffective t = .bypass) ∧
      (i = .idcode → tapEffective t = .idcode ∧ t.out.readData % 2 = 1 ∧ fld t.out.readData 12 16 = 0x0A01 ∧
        fld t.out.readData 28 4 = 1))

/-- R346, R389: the I3C target, which answers at 0x50 plus I3C_ADDR until a dynamic address is assigned. That address is kept; a private
read gives the bytes from the offset that the last write set; a write of POWER_LIMIT_BOARD is clamped to 450 to 850 W and one of the
window to 1 to 100 ms; a measured rail current is kept and marks the telemetry calibrated. Before each transfer the controller takes
the in-band interrupts (the model's choice, log 17), and nothing else changes, whatever state the part outside reset is in. -/
def Claim.I3cTargetReadsAndWrites : Prop :=
  ∀ (s : State) (n a k v : Nat) (lo hi : Byte), s.pins.sysReset = false →
    let u : State := { s with i3c.ibi := [], out.ibi := s.out.ibi ++ s.i3c.ibi }
    (a < 128 → exec (.i3cDynamicAddress a) s = .next { u with i3c.dynamic := a }) ∧
    (s.i3c.dynamic = 0 → i3cAddress s = 0x50 + s.pins.i3cAddr) ∧
    Answers (.i3cPrivateRead n) s (fun t =>
      t = { u with i3c := t.i3c, out := { u.out with i3cBytes := t.out.i3cBytes } } ∧
      t.i3c = { u.i3c with latch := t.i3c.latch, latchAt := t.i3c.latchAt } ∧ t.out.i3cBytes.length = n ∧
      (s.i3c.offset = 6 → n = 2 → t.out.i3cBytes = leBytes 2 s.power.limitEff)) ∧
    Answers (.i3cPrivateWrite [2, 0, lo, hi]) s (fun t =>
      t = { u with i3c.offset := 2, power := { s.power with limitBoard := t.power.limitBoard, window := t.power.window } } ∧
      t.power.limitBoard = clampN 450 850 (lo.toNat + 256 * hi.toNat)) ∧
    Answers (.i3cPrivateWrite [10, 0, lo, hi]) s (fun t =>
      t = { u with i3c.offset := 10, power := { s.power with limitBoard := t.power.limitBoard, window := t.power.window } } ∧
      t.power.window = clampN 1 100 (lo.toNat + 256 * hi.toNat)) ∧
    (k < 13 → v < 65536 → Answers (.i3cRailWrite k v) s (fun t =>
      t = { u with power := { s.power with rails := t.power.rails, uncalibrated := false } } ∧
      tget t.power.rails k 0 = v ∧ ∀ j, j ≠ k → tget t.power.rails j 0 = tget s.power.rails j 0))

/-- Loss of the ring host, PCIe training, THERMTRIP, the TAP and the I3C target. -/
def Obligations.BoardPinsAndManagement : Prop :=
  Claim.RingHostLossEndsSession ∧ Claim.PcieLinkTakesItsStatus ∧ Claim.ThermtripStopsTheClocks ∧ Claim.TapTakesItsInstruction ∧ Claim.I3cTargetReadsAndWrites

/-! ### Power -/

/-- R331, R332, R412: a vote of the supervisor (client 2) or of the board controller (client 5) by a bit mask. Every domain
from 68 to 130 whose bit is set holds that client's vote after a SET and does not after a CLR, and every other domain's vote
of that client is as before; without a Folio, the always-on domain or an id beyond the last in the mask, only the power
core's registers and the in-band interrupts change. -/
def Claim.MaskedVotesTakeEffect : Prop :=
  ∀ (s : State) (m bits client first width : Nat) (on : Bool) (c : Instr), alive s = true → powerHeld s = false →
    (m < 3 ∧ fits 8 bits = true ∧ client = 2 ∧ first = 64 * m ∧ width = 64 ∧
        c = (if on then .supvVoteSet m bits else .supvVoteClr m bits)) ∨
      (fits 17 bits = true ∧ client = 5 ∧ first = 0 ∧ width = 136 ∧
        c = (if on then .i3cVoteSet bits else .i3cVoteClr bits)) →
    Answers c s (fun t =>
      (∀ n, 68 ≤ n → n ≤ 130 → first ≤ n → n < first + width → bits.testBit (n - first) = true →
        (dom t n).votes.testBit client = on) ∧
      (∀ n, n < 132 → ¬ (68 ≤ n ∧ n ≤ 130 ∧ first ≤ n ∧ n < first + width ∧ bits.testBit (n - first) = true) →
        (dom t n).votes.testBit client = (dom s n).votes.testBit client) ∧
      ((∀ k, k < width → bits.testBit k = true → 68 ≤ first + k ∧ first + k ≤ 130) →
        t = { s with power := t.power, i3c := t.i3c, out := t.out }) ∧
      t.mem = s.mem ∧ t.rings = s.rings ∧ t.job = s.job ∧ t.frame = s.frame)

/-- R333, R412: while a link group operates and no vote waits for the power core, the partner's vote of the group stands while any port
of it holds one, and a message that is malformed counts only under VOTE_BAD; a group that is OFF takes none. The counters and the
refuser of one domain, or with bit 8 of all, are cleared. -/
def Claim.PartnerVotesAndDomainClears : Prop :=
  ∀ (s : State) (p h v : Nat) (pkt : Packet), alive s = true → powerHeld s = false → s.power.queued = [] →
    (p < 96 → pkt.wf = true → h < 2 → domOn s (112 + p / 8) = true →
      pkt.payload = [0x30, BitVec.ofNat 8 h] ++ List.replicate 30 0 →
      Answers (.powerVote p pkt) s (fun t =>
        t.power.partner = (if h = 1 then insertNat p s.power.partner else eraseNat p s.power.partner) ∧
        (dom t (112 + p / 8)).votes.testBit 3 = t.power.partner.any (fun q => q / 8 = p / 8) ∧
        t = { s with power := t.power, i3c := t.i3c })) ∧
    (p < 96 → pkt.wf = true → domOn s (112 + p / 8) = false → exec (.powerVote p pkt) s = .next s) ∧
    (p < 96 → pkt.wf = true → domOn s (112 + p / 8) = true → pkt.payload.length ≠ 32 →
      exec (.powerVote p pkt) s = .next (devEvent s 0x55 1)) ∧
    (fits 8 v = true → Answers (.powerDomClear v) s (fun t =>
      (∀ n, n < 132 → v.testBit 8 = true ∨ v % 256 = n →
        (dom t n).refused = 0 ∧ (dom t n).aborted = 0 ∧ (dom t n).last = 0 ∧ (dom t n).state = (dom s n).state ∧
        (dom t n).votes = (dom s n).votes) ∧
      (∀ n, ¬ (v.testBit 8 = true ∨ v % 256 = n) → dom t n = dom s n) ∧
      t = { s with power := { s.power with dom := t.power.dom } }))

/-- Votes by mask, a link partner's vote, and the clearing of domain counters. -/
def Obligations.VotesTakeEffect : Prop :=
  Claim.MaskedVotesTakeEffect ∧ Claim.PartnerVotesAndDomainClears

/-- R337, R338: at most one wake starts in a slot, and it is that of the first domain, in the order of Table 13.7, that is
ready; and a wake that ends leaves its domain ON, which then still holds a vote. A stack that was OFF has its 32 vaults trained, an
LPDDR6 group its channels, and what memory reads stays. -/
def Obligations.WakesStartOneByOneAndEndOn : Prop :=
  ∀ (s : State) (n : Nat), alive s = true → n < 132 →
    (powerHeld s = false → wakeOrder.find? (readyToWake s) = some n →
      Answers .wakeSlot s (fun t =>
        (dom t n).state = 1 ∧ (∀ m, (dom t m).state = 1 → m = n ∨ (dom s m).state = 1) ∧
        t = { s with power := t.power, i3c := t.i3c, cnt := t.cnt })) ∧
    ((dom s n).state = 1 → (∃ b, b ≠ 6 ∧ (dom s n).votes.testBit b = true) →
      Answers (.wakeComplete n) s (fun t =>
        (dom t n).state = 2 ∧ (dom t n).wakePending = false ∧
        ((dom s n).votes.testBit 5 = true → 2 ∈ t.i3c.ibi) ∧
        (72 ≤ n → n ≤ 79 → (dom s n).toSr = false → ∀ v, v / 32 = n - 72 →
          tget t.mem.vaultTrained v 0 = tget s.mem.vaultTrained v 0 + 1) ∧
        (124 ≤ n → n ≤ 127 → (dom s n).toSr = false → ∀ c, c / 8 = n - 124 → c < s.mem.lpChannels →
          tget t.mem.channelTrained c 0 = tget s.mem.channelTrained c 0 + 1) ∧
        (68 ≤ n → ∀ a, memByte t.mem a = memByte s.mem a) ∧ t.rings = s.rings ∧ t.job = s.job ∧ t.frame = s.frame))

/-- R334, R335, R339: the entry of a domain. DRAIN that completes with no hold condition shuts the domain down and its counters
lose their values; with one it is aborted, back to ON, and counted; one past its limit is aborted with the unit named, and
tried again after 10 ms; the release of the last hold condition begins the entry of a domain that was refused; a shutdown
ends in SR for a domain that drained to SR and in OFF otherwise, and the votes as they stand, but for the partner's, which ends with
its port, decide whether a wake follows. -/
def Obligations.EntrySequenceOfADomain : Prop :=
  ∀ (s : State) (n u : Nat), alive s = true → n < 132 → u < 132 →
    ((dom s n).state = 3 → holdOf s n = none →
      Answers (.drainComplete n) s (fun t =>
        t = { s with power := t.power, cnt := t.cnt } ∧ dom t n = { dom s n with state := 4 } ∧
        (∀ m, m ≠ n → dom t m = dom s m) ∧
        (∀ r ∈ domCounters n, ∀ k, r.1 ≤ k → k < r.2 → (ctr t k).val = 0 ∧ (ctr t k).sel = (ctr s k).sel))) ∧
    (∀ r, (dom s n).state = 3 → holdOf s n = some r →
      Answers (.drainComplete n) s (fun t =>
        t = { s with power := t.power, i3c := t.i3c } ∧ (dom t n).state = 2 ∧ (dom t n).last = r ∧
        (dom t n).aborted = sat16 ((dom s n).aborted + 1))) ∧
    ((dom s n).state = 3 →
      Answers (.drainTimeout n u) s (fun t =>
        t = { s with power := t.power, i3c := t.i3c } ∧ (dom t n).state = 2 ∧ (dom t n).retry = true ∧
        (dom t n).last = 0xD000 + u ∧ (dom t n).aborted = sat16 ((dom s n).aborted + 1))) ∧
    ((dom s n).state = 2 → (dom s n).votes = 0 → holdOf s n = none → powerHeld s = false →
      ((dom s n).retry = true → Answers (.entryRetry n) s (fun t =>
        t = { s with power := t.power } ∧ (dom t n).state = 3 ∧ (dom t n).retry = false)) ∧
      ((dom s n).refusedNow = true → Answers (.holdRelease n) s (fun t =>
        t = { s with power := t.power } ∧ (dom t n).state = 3 ∧ (dom t n).refused = (dom s n).refused))) ∧
    ((dom s n).state = 4 →
      Answers (.shutdownComplete n) s (fun t =>
        (dom t n).state = (if (dom s n).toSr then 5 else 0) ∧
        ((dom t n).wakePending = true ↔ (if 112 ≤ n ∧ n ≤ 123 then (dom s n).votes &&& 0x77 else (dom s n).votes) ≠ 0) ∧
        (n < 112 → t.rings = s.rings ∧ t.job = s.job ∧ t.frame = s.frame)))

/-- R304, R342, R343: while the power core runs, an update of the power estimate makes the limit in force the lower of the two limits
and the average the mean over the window. The stall fraction rises by a step while the condition of level 1 is present, as it is
while the average exceeds the limit, and falls by one once the average has been below 97 % of it for a window. A calibration scales
the estimate by the ratio of the rails' power to the average (the model's choice, log 16); lost telemetry leaves the estimate
uncalibrated. -/
def Claim.PowerEstimateAndLimit : Prop :=
  ∀ (s : State) (est : Nat) (temps : List Int), alive s = true → powerHeld s = false →
    (s.power.uncalibrated = false →
      Answers (.powerUpdate est temps) s (fun t =>
        t.power.limitEff = min s.power.limitBoard s.power.limitSupv ∧
        t.power.samples = (est * s.power.calib / 1024 :: s.power.samples).take (100 * s.power.window) ∧
        t.power.average = t.power.samples.foldl (· + ·) 0 / t.power.samples.length ∧
        (8 * t.power.limitEff < t.power.average → level1 t = true) ∧
        (level1 t = true →
          t.power.stallRatio = min 1024 (s.power.stallRatio + 16) ∧ 1 ∈ t.power.conditions ∧ 1 ≤ t.power.level) ∧
        (level1 t = false → t.power.stallRatio =
          if 100 * t.power.window ≤ t.power.below then s.power.stallRatio - 1 else s.power.stallRatio) ∧
        t.mem = s.mem ∧ t.folios = s.folios ∧ t.frame = s.frame ∧ t.time = s.time)) ∧
    (s.power.uncalibrated = false → 0 < s.power.average →
      Answers .powerCalibrate s (fun t =>
        t = { s with power := { s.power with calib := t.power.calib } } ∧
        (s.power.calib = 1024 → t.power.calib = railPower s * 1024 / s.power.average))) ∧
    Answers .railTelemetryTimeout s (fun t => t = { s with power.uncalibrated := true })

/-- R343 to R345, R349: the emergency levels. ALERT_N driven low from outside makes level 1 hold; held for 10 ms, level 2 holds with
cause 4, with its record, whose severity is JOB where it pauses a running job at the next seam and NOTE where there is none to
pause; a level whose condition has been absent for 1 s ends, and with level 1, or with a level 2 that ALERT_N caused, the board has
released ALERT_N (the model's choice, log 29). -/
def Claim.EmergencyLevelsComeAndGo : Prop :=
  ∀ (s : State) (l : Nat), alive s = true →
    (s.power.level < 2 → Answers .alertNLow s (fun t =>
      t = { s with pins.alertBoard := true, pins.alertOut := t.pins.alertOut, power := t.power, i3c := t.i3c } ∧
      1 ∈ t.power.conditions ∧ t.power.level = t.power.conditions.foldl max 0)) ∧
    (2 ≤ s.power.level → exec .alertNLow s = .next s) ∧
    (s.pins.alertBoard = true → 2 ∉ s.power.conditions → Answers .alertNHoldTimeout s (fun t =>
      2 ∈ t.power.conditions ∧ 2 ≤ t.power.level ∧ t.power.cause = 4 ∧ (s.power.level < 2 → t.pins.alertOut = true) ∧
      t.flt.seq = (s.flt.seq + 1) % 2 ^ 32 ∧ rd t.flt.last 0 1 = 0x17 ∧
      (3 ≤ jobPhase s ∧ jobPhase s ≤ 4 → t.job.pauseNow = true ∧ rd t.flt.last 1 1 = 4) ∧
      (¬ (3 ≤ jobPhase s ∧ jobPhase s ≤ 4) → t.job = s.job ∧ rd t.flt.last 1 1 = 0) ∧
      t.mem = s.mem ∧ t.folios = s.folios ∧ t.frame = s.frame)) ∧
    (1 ≤ l → l ≤ 2 → l ∈ s.power.conditions →
      let u : State := if l = 1 ∨ s.power.cause = 4 then { s with pins.alertBoard := false } else s
      (l = 1 → level1 u = false) → (l = 2 → level2 u = none) →
      Answers (.emergencyLevelClear l) s (fun t =>
        t = { u with pins.alertOut := t.pins.alertOut, power := t.power, i3c := t.i3c } ∧ l ∉ t.power.conditions ∧
        t.power.level = t.power.conditions.foldl max 0))

/-- R304, R324: an expiry of the power core's watchdog, outside the validation window of its own activation and the wait for it, freezes
its votes and writes a record; a second one within 60 s of a reload leaves the core stopped for good, with level 2; a reload ends the
freeze, and the queued votes take effect. -/
def Claim.PowerWatchdogFreezesVotes : Prop :=
  ∀ (s : State) (w : Bool), alive s = true → s.power.dead = false →
    (watchSuspended s 1 0 = false → inValidation s 1 0 = false → Answers (.powerWatchdog w) s (fun t =>
      t.power.stopped = true ∧ (t.power.dead = true ↔ s.boot.powerExpired = true ∧ w = true) ∧
      (s.boot.powerExpired = true → w = true → 2 ∈ t.power.conditions) ∧ t.power.queued = s.power.queued ∧
      (∀ n, dom t n = dom s n) ∧ t.flt.seq ≠ s.flt.seq ∧ t.mem = s.mem ∧ t.folios = s.folios)) ∧
    (s.power.stopped = true → coreSwitching s 1 = false → Answers .powerImageReload s (fun t =>
      t.power.stopped = false ∧ t.power.queued = [] ∧
      (∀ n on, 68 ≤ n → n ≤ 130 → s.power.queued = [(n, 2, on)] → (dom t n).votes.testBit 2 = on) ∧
      t.mem = s.mem ∧ t.rings = s.rings ∧ t.job = s.job ∧ t.frame = s.frame))

/-- The power estimate and limit, the emergency levels, and the power core's watchdog. -/
def Obligations.PowerEstimateAndEmergencies : Prop :=
  Claim.PowerEstimateAndLimit ∧ Claim.EmergencyLevelsComeAndGo ∧ Claim.PowerWatchdogFreezesVotes

/-! ### Time -/

/-- R406: TIME_TRIM is writable only while TIME_SOURCE is NONE; its signed 32-bit value is clamped to ±50,000,000, and a write
that the servo's ownership forbids is counted under REG_LOCKED and changes nothing else. A change to NONE keeps the trim. -/
def Obligations.TimeTrimIsClampedOrLocked : Prop :=
  ∀ (s : State) (v : Nat), alive s = true → fits 8 v = true →
    (s.time.source = 0 → Answers (.timeTrimWrite v) s (fun t =>
      t = { s with time.trim := t.time.trim } ∧ t.time.trim = clampI (-50000000) 50000000 (sint 32 v))) ∧
    (s.time.source ≠ 0 → exec (.timeTrimWrite v) s = .next (devEvent s 0x51 1)) ∧
    (jobExists s = false → v % 4 = 0 → Answers (.timeSourceWrite v) s (fun t => t.time.source = 0 ∧ t.time.trim = s.time.trim))

/-- R405, R303, R34: the time registers. A read of TIME_SECONDS captures the whole time, a write is held, a write of
TIME_NANOSECONDS steps the time, and restarts the frame count from it, unless a job exists, the unit is LOCKED or in HOLDOVER, or the value is no nanosecond count;
a write that is locked out counts under REG_LOCKED. A new source restarts the unit, or waits for the next seam in a job. -/
def Claim.TimeRegistersReadStepAndSelect : Prop :=
  ∀ (s : State) (v : Nat), alive s = true → fits 8 v = true →
    exec .timeSecondsRead s = .next { s with time.capture := s.time.now, out.readData := timeSec s.time.now } ∧
    (jobExists s = false →
      exec (.timeSecondsWrite v) s = .next { s with time.heldSeconds := v % 2 ^ 48 } ∧
      Answers (.timeSourceWrite v) s (fun t =>
        t = { s with time := t.time, power := t.power, i3c := t.i3c, cnt := t.cnt } ∧ t.time.source = v % 4 ∧
        t.time.sourceLane = fld v 8 7 ∧ t.time.trim = s.time.trim ∧ t.time.state = 0 ∧ t.time.good = 0 ∧ t.time.exch = none ∧
        t.time.now = s.time.now) ∧
      (s.time.state < 2 → v < 1000000000 → Answers (.timeStep v) s (fun t =>
        t = { s with
              time := { s.time with now := s.time.heldSeconds * unitsPerSec + v * 65536, res := 0 }
              frame.number := t.frame.number } ∧
        t.frame.number = (if s.time.period = 0 then s.frame.number else frameOf t t.time.now)))) ∧
    (jobExists s = true ∨ 2 ≤ s.time.state ∨ 1000000000 ≤ v → exec (.timeStep v) s = .next (devEvent s 0x51 1)) ∧
    (jobExists s = true →
      exec (.timeSecondsWrite v) s = .next (devEvent s 0x51 1) ∧
      exec (.timeSourceWrite v) s = .next { s with time.pendSource := some v })

/-- R275: SYNC and DELAY_RESP leave on the port of the lane as TIME packets of the NX1, a SYNC with its
T still 0, which its flit takes where it leaves, and a DELAY_RESP with the ingress time at the lane's balls in PTP form; a SYNC that
arrives on a lane of the time source opens an exchange with its times, corrected by the lane's measured delays, and is answered by a
DELAY_REQ with T still 0 and the sender's error bound. Nothing but the
port's queue and the time unit changes. -/
def Claim.TimePacketsAreExchanged : Prop :=
  ∀ (s : State) (n t2 t3 t4 : Nat) (pay : List Byte), alive s = true → n < 96 → portUp s (portOf s n) = true →
    pay.length = 32 →
    Answers (.syncSend n) s (fun t =>
      t = { s with time.syncSeq := (s.time.syncSeq + 1) % 65536, ports := t.ports } ∧
      ∃ pkt : Packet,
        (port t (portOf s n)).queue = (port s (portOf s n)).queue ++ [⟨1, 2, pkt.bytes⟩] ∧
        pkt.typ = 5 ∧ pkt.neighbour = true ∧ pkt.src = s.glob.deviceId ∧ rd pkt.payload 0 1 = 1 ∧
        rd pkt.payload 2 2 = t.time.syncSeq ∧
        pkt.payload.drop 8 = List.replicate 24 0) ∧
    (rd pay 0 1 = 2 → Answers (.delayReqReceive n pay t4) s (fun t =>
      t = { s with ports := t.ports } ∧
      ∃ pkt : Packet,
        (port t (portOf s n)).queue = (port s (portOf s n)).queue ++ [⟨1, 2, pkt.bytes⟩] ∧
        pkt.typ = 5 ∧ rd pkt.payload 0 1 = 3 ∧ rd pkt.payload 2 2 = rd pay 2 2 ∧
        (t4 < 2 ^ 48 * unitsPerSec →
          ptpTime (pkt.payload.drop 8) = (t4 - (lane s n).rxDelay) / 65536 * 65536))) ∧
    (rd pay 0 1 = 1 → timeLane s n = true → Answers (.syncReceive n pay t2 t3) s (fun t =>
      t = { s with time.exch := t.time.exch, ports := t.ports } ∧
      (∃ e, t.time.exch = some e ∧ e.seq = rd pay 2 2 ∧ e.t1 = ptpTime (pay.drop 8) ∧ e.t2 = t2 - (lane s n).rxDelay ∧
        e.t3 = t3 + (lane s n).txDelay) ∧
      ∃ pkt : Packet,
        (port t (portOf s n)).queue = (port s (portOf s n)).queue ++ [⟨1, 2, pkt.bytes⟩] ∧
        pkt.typ = 5 ∧ rd pkt.payload 0 1 = 2 ∧ rd pkt.payload 2 2 = rd pay 2 2 ∧ rd pkt.payload 4 4 = syncErr s ∧
        pkt.payload.drop 8 = List.replicate 24 0))

/-- R276, R277, Table 2.1: a DELAY_RESP that answers the open exchange of a locked partner gives the offset by the four times
and the lane's asymmetry, the path delay by the four times, and E by the partner's bound; 16 good exchanges in a row lock the unit, and a missed one starts the
count afresh (the model's choice, log 59) and, the fourth in a row, puts a LOCKED unit in HOLDOVER. -/
def Claim.TimeExchangesSteerTheUnit : Prop :=
  ∀ (s : State) (n : Nat) (pay : List Byte) (e : Exchange), alive s = true → n < 96 → pay.length = 32 →
    (s.time.exch = some e → timeLane s n = true → rd pay 0 1 = 3 → rd pay 2 2 = e.seq → e.locked = true →
      let off : Int := (((e.t2 : Int) - e.t1) - ((ptpTime (pay.drop 8) : Int) - e.t3) - (lane s n).asym * 256) / 2
      let bound := e.errBound * 256 + off.natAbs + (if 3 ≤ (lane s n).rate then 32768 else 65536)
      Answers (.delayRespReceive n pay) s (fun t =>
        t = { s with time := t.time, cnt := t.cnt, free := s.free + 1 } ∧ t.time.bound = bound ∧
        t.time.pathDelay = (((e.t2 : Int) - e.t1) + ((ptpTime (pay.drop 8) : Int) - e.t3)) / 2 ∧
        t.time.offset = clampI (-(2 ^ 31)) (2 ^ 31 - 1) (off / 256) ∧ t.time.exch = none ∧ t.time.missed = 0 ∧
        t.time.good = (if bound ≤ 18 * 65536 then s.time.good + 1 else 0) ∧
        (bound ≤ 18 * 65536 → 15 ≤ s.time.good → t.time.state = 2) ∧
        t.time.now = s.time.now ∧ -50000000 ≤ t.time.trim ∧ t.time.trim ≤ 50000000)) ∧
    (s.time.source = 3 → Answers .timeExchangeMissed s (fun t =>
      t = { s with time := t.time, cnt := t.cnt } ∧ t.time.exch = none ∧ t.time.missed = s.time.missed + 1 ∧
      t.time.good = 0 ∧ t.time.state = (if s.time.state = 2 ∧ 3 ≤ s.time.missed then 3 else s.time.state)))

/-- Reading, stepping and steering the time unit, and the packets that it exchanges. -/
def Obligations.TimeUnitKeepsTime : Prop :=
  Claim.TimeRegistersReadStepAndSelect ∧ Claim.TimePacketsAreExchanged ∧ Claim.TimeExchangesSteerTheUnit

/-- R301, R302: the management ports as clocks. A two-step Sync of the chosen master (the model's choice among masters, log 21) that
the port takes opens an exchange, with the receive delay subtracted; a message that it does not take, and one that is discarded,
counts under ETH_DISCARD (log 21). A Delay_Req keeps its corrected egress time and its number, and an answer with another number
changes nothing; a port that measures the peer delay answers a Pdelay_Req; a missed Sync closes the exchange. -/
def Claim.EthernetPortsKeepTime : Prop :=
  ∀ (s : State) (n ts q : Nat) (m : PtpMsg), alive s = true → n < 2 →
    (ptpTakes (ethPort s n) m = true → (dom s (129 + n)).state ≠ 3 →
      (m.kind = 0 → m.twoStep = true → (ethPort s n).master = some (m.master, q) →
        Answers (.ptpMessageReceive n m ts) s (fun t =>
          t = { s with eth := t.eth } ∧ (ethPort t n).logInterval = m.log ∧ (ethPort t n).master = (ethPort s n).master ∧
          ∃ x, (ethPort t n).exch = some x ∧ x.t2 = ts - (ethPort s n).rxDelay ∧ x.seq = m.seq ∧ x.corr = m.corr)) ∧
      (m.kind = 2 → (∀ x, (ethPort s n).delay = some x → x.seq ≠ m.seq) → exec (.ptpMessageReceive n m ts) s = .next s) ∧
      (m.kind = 3 → m.seq ≠ (ethPort s n).pdSeq → exec (.ptpMessageReceive n m ts) s = .next s) ∧
      (m.kind = 6 → (ethPort s n).profile ≠ 0 →
        Answers (.ptpMessageReceive n m ts) s (fun t =>
          t = { s with eth := t.eth } ∧
          ethPort t n = { ethPort s n with
            pdReplies := (ethPort s n).pdReplies + 1, pdLast := (m.seq, ts - (ethPort s n).rxDelay) }))) ∧
    (ptpTakes (ethPort s n) m = false ∨ (dom s (129 + n)).state = 3 →
      exec (.ptpMessageReceive n m ts) s = .next (devEvent s 0x54 1)) ∧
    exec (.ethDiscard n) s = .next (devEvent s 0x54 1) ∧
    ((ethPort s n).up = true → (ethPort s n).profile ≠ 0 → (dom s (129 + n)).state ≠ 3 → Answers (.ptpDelayReqSend n ts) s (fun t =>
      t = { s with eth := t.eth } ∧ (ethPort t n).pdSent = some (ts + (ethPort s n).txDelay) ∧
      (ethPort t n).pdSeq = ((ethPort s n).pdSeq + 1) % 65536 ∧ ∀ k, k ≠ n → ethPort t k = ethPort s k)) ∧
    Answers (.ptpSyncMissed n) s (fun t =>
      t = { s with eth := t.eth, time := t.time, cnt := t.cnt } ∧ (ethPort t n).exch = none ∧
      (s.time.source ≠ n + 1 → t.time = s.time) ∧ (s.time.source = n + 1 → t.time.missed = s.time.missed + 1))

/-- R301, R302, R423: the management Ethernet links. The link's delays are measured at each link-up; a link that goes down drops
its exchange; ARP answers for the port's own address alone; a change of mode restarts the link, puts the time unit in HOLDOVER
when the port is its source, and is locked out while a job exists. -/
def Claim.EthernetLinksComeAndGo : Prop :=
  ∀ (s : State) (n a b ip v : Nat), alive s = true → n < 2 → fits 8 v = true → fits 4 ip = true →
    (domOn s (129 + n) = true → Answers (.ethLinkUp n a b) s (fun t =>
      t = { s with eth := t.eth } ∧ ethPort t n = { ethPort s n with up := true, txDelay := a, rxDelay := b } ∧
      ∀ k, k ≠ n → ethPort t k = ethPort s k)) ∧
    Answers (.ethLinkDown n) s (fun t =>
      t = { s with eth := t.eth } ∧ ethPort t n = { ethPort s n with up := false, exch := none, delay := none, pdSent := none, pd := none } ∧
      ∀ k, k ≠ n → ethPort t k = ethPort s k) ∧
    ((ethPort s n).up = true → ip ≠ 0 →
      (ip = (ethPort s n).ipv4 → Answers (.arpRequest n ip) s (fun t =>
        t = { s with eth := t.eth } ∧ ethPort t n = { ethPort s n with arpReplies := (ethPort s n).arpReplies + 1 })) ∧
      (ip ≠ (ethPort s n).ipv4 → exec (.arpRequest n ip) s = .next (devEvent s 0x54 1))) ∧
    (jobExists s = false → Answers (.ethModeWrite n v) s (fun t =>
      t = { s with eth := t.eth, time := t.time, cnt := t.cnt } ∧ (ethPort t n).mode = v % 8 ∧ (ethPort t n).up = false ∧
      (s.time.source = n + 1 → t.time.state = 3) ∧ (s.time.source ≠ n + 1 → t.time = s.time))) ∧
    (jobExists s = true → exec (.ethModeWrite n v) s = .next (devEvent s 0x51 1))

/-- The management Ethernet ports: PTP, ARP, link-up, link-down and mode. -/
def Obligations.EthernetPortsKeepTime : Prop :=
  Claim.EthernetPortsKeepTime ∧ Claim.EthernetLinksComeAndGo

/-! ### Rings and registers -/

/-- R283, R284: a tail that lies below the size and withdraws no descriptor is taken, with the bytes that the host wrote
before it; a head that does not pass the tail is taken; nothing else of the rings changes. A value that breaks the rule, on whichever
of the four kinds of ring, leaves every ring as it was, counts under DOORBELL_BAD and raises vector 6. -/
def Claim.DoorbellsMoveTheirIndex : Prop :=
  ∀ (s : State) (n v : Nat) (host : List (Nat × List Byte)), alive s = true → degraded s = false → v < 2 ^ 32 →
    (n < 16 →
      ((sq s n).en = true → v < 2 ^ (sq s n).size →
        ringDist (2 ^ (sq s n).size) (sq s n).head (sq s n).tail ≤ ringDist (2 ^ (sq s n).size) (sq s n).head v →
        Answers (.sqTailDoorbell n v host) s (fun t =>
          t = { s with hostMem := (hostWrites s host).hostMem, rings := { s.rings with sq := t.rings.sq } } ∧
          sq t n = { sq s n with tail := v } ∧ ∀ k, k ≠ n → sq t k = sq s k)) ∧
      ((sq s n).en = false ∨ 2 ^ (sq s n).size ≤ v ∨
        ringDist (2 ^ (sq s n).size) (sq s n).head v < ringDist (2 ^ (sq s n).size) (sq s n).head (sq s n).tail →
        exec (.sqTailDoorbell n v host) s = .next (doorbellBad (hostWrites s host)))) ∧
    (n < 4 →
      (headOk (cq s n) v = true → Answers (.cqHeadDoorbell n v) s (fun t =>
        t = { s with rings := { s.rings with cq := t.rings.cq } } ∧ cq t n = { cq s n with head := v } ∧
        ∀ k, k ≠ n → cq t k = cq s k)) ∧
      (headOk (cq s n) v = false → exec (.cqHeadDoorbell n v) s = .next (doorbellBad s))) ∧
    (headOk s.rings.fq v = true →
      exec (.fqHeadDoorbell v) s = .next { s with rings := { s.rings with fq := { s.rings.fq with head := v } } }) ∧
    (headOk s.rings.fq v = false → exec (.fqHeadDoorbell v) s = .next (doorbellBad s)) ∧
    (headOk s.rings.ctr v = true →
      exec (.ctrHeadDoorbell v) s = .next { s with rings := { s.rings with ctr := { s.rings.ctr with head := v } } }) ∧
    (headOk s.rings.ctr v = false → exec (.ctrHeadDoorbell v) s = .next (doorbellBad s)) ∧
    (doorbellBad s).cnt = (devEvent s 0x52 1).cnt ∧
    (s.rings.host ≠ 1 → (doorbellBad s).rings = s.rings ∧ (doorbellBad s).mem = s.mem ∧
      (hostReady s = true → s.pcie.msixEn = true →
        ((msixEntry s 6).ctrl.testBit 0 = false → (doorbellBad s).out.msix = s.out.msix ++ [6]) ∧
        ((msixEntry s 6).ctrl.testBit 0 = true → (doorbellBad s).pcie.pba.testBit 6 = true)))

/-- R282, R409: enabling a ring whose SIZE lies in its range sets its indices to 0 and, for a ring that the NX1 produces, the
phase to 1; a ring with a SIZE out of range stays disabled; disabling clears EN alone. -/
def Claim.RingsAreEnabledAndDisabled : Prop :=
  ∀ (s : State) (r : RingId) (n : Nat), alive s = true → r.wf = true →
    (r = .sq n → (sq s n).en = false → 4 ≤ (sq s n).size → (sq s n).size ≤ 16 →
      Answers (.ringEnable r) s (fun t =>
        t = { s with rings := { s.rings with sq := t.rings.sq } } ∧
        sq t n = { sq s n with en := true, head := 0, tail := 0 })) ∧
    ((∀ k, r ≠ .sq k) → (outRingOf s r).en = false →
      (if r = .ctr then 2 ≤ (outRingOf s r).size ∧ (outRingOf s r).size ≤ 10
        else 4 ≤ (outRingOf s r).size ∧ (outRingOf s r).size ≤ 16) →
      Answers (.ringEnable r) s (fun t =>
        t = { s with rings := t.rings } ∧ t.rings.sq = s.rings.sq ∧
        outRingOf t r = { outRingOf s r with en := true, head := 0, tail := 0, phase := 1 })) ∧
    (r = .sq n → (sq s n).size < 4 ∨ 16 < (sq s n).size → exec (.ringEnable r) s = .next s) ∧
    (r = .sq n → Answers (.ringDisable r) s (fun t =>
      t = { s with rings := { s.rings with sq := t.rings.sq } } ∧ sq t n = { sq s n with en := false })) ∧
    ((∀ k, r ≠ .sq k) → Answers (.ringDisable r) s (fun t =>
      t = { s with rings := t.rings } ∧ t.rings.sq = s.rings.sq ∧ outRingOf t r = { outRingOf s r with en := false }))

/-- Doorbells move their index or count under DOORBELL_BAD; rings are enabled and disabled. -/
def Obligations.RingsTakeTheirIndices : Prop :=
  Claim.DoorbellsMoveTheirIndex ∧ Claim.RingsAreEnabledAndDisabled

/-- R286, R295: a record that waits goes into the ring at its tail, with the ring's phase, when the ring has room and its host is
reached; it leaves
the queue, and the tail advances, with the phase inverted at the wrap. No other byte of the host's memory changes. -/
def Claim.WaitingRecordIsFlushed : Prop :=
  ∀ (s : State) (r : Nat) (bs : List Byte), alive s = true → r < 4 → s.rings.host = 0 → (cq s r).queue = [(bs, false)] →
    canWrite s (cq s r) = true → bs.length = 32 → rd bs 0 1 ≠ 1 →
    Answers (.queuedRecordFlush r) s (fun t =>
      t = { s with hostMem := t.hostMem, rings := { s.rings with cq := t.rings.cq } } ∧ (cq t r).queue = [] ∧
      hostPeek t ((cq s r).base + 32 * (cq s r).tail) 32 = withPhase bs 2 0 (cq s r).phase ∧
      (∀ a, a < (cq s r).base + 32 * (cq s r).tail ∨ (cq s r).base + 32 * (cq s r).tail + 32 ≤ a →
        readByte t.hostMem a = readByte s.hostMem a) ∧
      ((cq s r).tail + 1 = 2 ^ (cq s r).size → (cq t r).tail = 0 ∧ (cq t r).phase = 1 - (cq s r).phase) ∧
      ((cq s r).tail + 1 ≠ 2 ^ (cq s r).size → (cq t r).tail = (cq s r).tail + 1 ∧ (cq t r).phase = (cq s r).phase))

/-- R281: BAR4. A write inside installed memory without failing lines stores its bytes at BAR4_BASE plus the offset and no
others, and a read gives the bytes there; outside installed memory a write is discarded, a read gives zero, and both count
under BAR4_BAD. -/
def Claim.Bar4ReadsAndWritesMemory : Prop :=
  ∀ (s : State) (off n : Nat) (bs : List Byte), alive s = true → off < 2 ^ 36 → s.pcie.bar4En = true →
    (installed s (s.pcie.bar4Base + off) bs.length = true → s.mem.bad = [] →
      Answers (.bar4Write off bs) s (fun t =>
        t = { s with mem := t.mem, cnt := t.cnt } ∧ peek t (s.pcie.bar4Base + off) bs.length = bs ∧
        t.mem.full = s.mem.full ∧
        ∀ a, a < s.pcie.bar4Base + off ∨ s.pcie.bar4Base + off + bs.length ≤ a →
          memByte t.mem a = memByte s.mem a)) ∧
    (installed s (s.pcie.bar4Base + off) n = true → s.mem.bad = [] → s.mem.corr = [] →
      Answers (.bar4Read off n) s (fun t =>
        t = { s with out := t.out, cnt := t.cnt } ∧ t.out.readBytes = peek s (s.pcie.bar4Base + off) n ∧
        t.out.completerAbort = false)) ∧
    (installed s (s.pcie.bar4Base + off) bs.length = false →
      exec (.bar4Write off bs) s = .next (devEvent s 0x53 1)) ∧
    (installed s (s.pcie.bar4Base + off) n = false → Answers (.bar4Read off n) s (fun t =>
      t.out.readBytes = List.replicate n 0 ∧ t.cnt = (devEvent s 0x53 1).cnt ∧ t.mem = s.mem))

/-- A waiting record enters its ring, and BAR4 reads and writes device memory. -/
def Obligations.RecordsAndBar4Memory : Prop :=
  Claim.WaitingRecordIsFlushed ∧ Claim.Bar4ReadsAndWritesMemory

/-- R397, R398, R402, R408: registers through BAR0. DEVICE_ID takes its 24 bits without a job, and with one the write is
ignored and counts under REG_LOCKED; POWER_LIMIT_SUPV is clamped to 450 to 850 W; a write to a reserved slot or of a width
that BAR0 does not support does nothing at all. -/
def Obligations.RegisterWritesFollowTheirRows : Prop :=
  ∀ (s : State) (off size v : Nat) (path : Path), alive s = true → v < 2 ^ 64 →
    (jobExists s = false → exec (.registerWrite .bar0 0x10 4 v) s = .next { s with glob.deviceId := v % 2 ^ 24 }) ∧
    (jobExists s = true → exec (.registerWrite .bar0 0x10 4 v) s = .next (devEvent s 0x51 1)) ∧
    exec (.registerWrite path 0x43100 4 v) s = .next { s with power.limitSupv := clampN 450 850 (v % 2 ^ 10) } ∧
    (off < 0x4000000 → size ≤ 4096 → regAccess off size = false → exec (.registerWrite path off size v) s = .next s) ∧
    (off < 0x4000000 → size ≤ 4096 → inDoorbells off = false → msixSlot (off - off % 8) = false →
      regKind (off - off % 8) = none → exec (.registerWrite path off size v) s = .next s)

/-- R9: a register wider than 32 bits. The lower half is held, with nothing else changed, until the upper half is written, which
then writes the whole register as one write of 64 bits does; a 64-bit read gives both halves of the one value. -/
def Obligations.WideRegisterIsWrittenByHalves : Prop :=
  ∀ (s : State) (k : RegKind) (a lo hi : Nat), alive s = true → a < 0x4000000 → a % 8 = 0 → regKind a = some k → k.wide = true →
    inDoorbells a = false → msixSlot a = false → k.run = true ∨ jobExists s = false → lo < 2 ^ 32 → hi < 2 ^ 32 →
    ∃ u, exec (.registerWrite .bar0 a 4 lo) s = .next u ∧ u = { s with glob.halves := u.glob.halves } ∧
      exec (.registerWrite .bar0 (a + 4) 4 hi) u = exec (.registerWrite .bar0 a 8 (lo + 2 ^ 32 * hi)) s ∧
      Answers (.rcRegisterRead a 8) s (fun t => t.out.readData = regValue (regLatch s a) a % 2 ^ 64)

/-- R7, R305, R413: reads through BAR0. DEVICE_ID reads as it stands, in the fault state too; FAULT_SUPPRESSED gives its count and
is cleared; reading FAULT_LAST_0 latches the whole last record; and in the fault state pages other than GLOBAL and FAULT
read as zero. -/
def Claim.RegisterReadsGiveTheirValue : Prop :=
  ∀ (s : State) (off size : Nat), s.pins.sysReset = false → s.pins.clocksStopped = false →
    exec (.rcRegisterRead 0x10 4) s = .next { s with out.readData := s.glob.deviceId % 2 ^ 32 } ∧
    exec (.rcRegisterRead 0x50008 4) s =
      .next { s with flt.suppressed := 0, out.readData := s.flt.suppressed % 2 ^ 32 } ∧
    exec .faultLastRead s = .next { s with flt.latch := s.flt.last, out.readData := rd s.flt.last 0 8 } ∧
    (s.glob.faultState = true → (0x10000 ≤ off ∧ off < 0x50000) ∨ (0x60000 ≤ off ∧ off < 0x4000000) → size ≤ 4096 →
      exec (.rcRegisterRead off size) s = .next { s with out.readData := 0 })

/-- R300, R397: the register mirror. A WRITE of BULK class from a source that the control gate admits is the register write that its
address, LENGTH and payload name, whichever register that is, and a READ answers with the register's value; from any other source
it is refused, writes no register and leaves a record. -/
def Claim.MirrorPassesTheGateOnly : Prop :=
  ∀ (s : State) (p : Nat) (pkt : Packet), alive s = true → p < 96 → pkt.wf = true → pkt.cls = 1 → pkt.resp = false →
    pkt.malformed = false → s.glob.deviceId ≠ 0xFFFFFF → toMirror s pkt = true →
    (gateAdmits s pkt.src = true →
      (pkt.typ = 1 → exec (.mirrorAccess p pkt) s =
        .next (acknowledge (regWrite (takeIn s p pkt) .mirror (pkt.addr - mirrorBase) pkt.length (leNat pkt.payload)) p pkt)) ∧
      (pkt.typ = 1 → pkt.addr = mirrorBase + 0x68 → pkt.length = 8 → pkt.payload.length = 8 → jobExists s = false →
        Answers (.mirrorAccess p pkt) s (fun t =>
          t.glob.bcast0 = leNat pkt.payload ∧ t.mem = s.mem ∧ t.rings = s.rings ∧ t.job = s.job ∧ t.flt = s.flt)) ∧
      (pkt.typ = 2 → exec (.mirrorAccess p pkt) s =
        .next (respond (regRead (takeIn s p pkt) (pkt.addr - mirrorBase) pkt.length).2 p pkt 0
          (leBytes pkt.length (regRead (takeIn s p pkt) (pkt.addr - mirrorBase) pkt.length).1)))) ∧
    (gateAdmits s pkt.src = false → s.frame.live = false → Answers (.mirrorAccess p pkt) s (fun t =>
      t.glob = s.glob ∧ t.flt.seq = (s.flt.seq + 1) % 2 ^ 32 ∧ rd t.flt.last 0 1 = 9 ∧ t.mem = s.mem))

/-- Register reads and their side effects, and the control gate of the register mirror. -/
def Obligations.RegisterReadsAndTheGate : Prop :=
  Claim.RegisterReadsGiveTheirValue ∧ Claim.MirrorPassesTheGateOnly

/-- R403, R263: without frames of a job, a load copies the route table into both routers when it lies in installed memory and its
reserved fields are zero, and counts the lines that it reads; it reports an error, with the routers unchanged, when it does not lie
there or a reserved field is not zero; while frames run it waits for the seam. -/
def Claim.RouteLoadCopiesTheTable : Prop :=
  ∀ s : State, alive s = true →
    let a := s.glob.routeTable
    let n := s.glob.routeCount
    (s.frame.live = false → installed s a (16 * n) = true → badLine s a (16 * n) = none → s.mem.corr = [] →
      (∀ i, i < n → routeEntryOk (peek s (a + 16 * i) 16) = true) →
      Answers .routeLoad s (fun t =>
        t = { s with
              glob := { s.glob with routePending := false, routeDone := true }, fab := { s.fab with routes := t.fab.routes }
              power := t.power, i3c := t.i3c, cnt := t.cnt } ∧
        t.fab.routes = (List.range n).map (fun i => routeEntry (peek s (a + 16 * i) 16)))) ∧
    (s.frame.live = false → installed s a (16 * n) = false →
      exec .routeLoad s = .next { s with glob := { s.glob with routePending := false, routeError := true } }) ∧
    (s.frame.live = false → installed s a (16 * n) = true → badLine s a (16 * n) = none → s.mem.corr = [] →
      (∃ i, i < n ∧ routeEntryOk (peek s (a + 16 * i) 16) = false) →
      Answers .routeLoad s (fun t =>
        t = { s with glob := { s.glob with routePending := false, routeError := true }, cnt := t.cnt })) ∧
    (s.frame.live = true → exec .routeLoad s = .next { s with glob.routePending := true })

/-- R365, R368, R369: counters. Without frames of a job a selector takes effect at once, with its counter zeroed and marked, a
code that the block does not list, and MODE 3, standing for 0; with frames it waits for the capture; CLEAR zeroes and marks every counter and leaves
the selections. -/
def Claim.CountersAreSelectedAndCleared : Prop :=
  ∀ (s : State) (k v : Nat), alive s = true → k < 32 → v < 2 ^ 64 →
    (s.frame.live = false →
      Answers (.counterSelectWrite (0x60000 + 8 * k) v) s (fun t =>
        t = { s with cnt := t.cnt } ∧ (ctr t k).sel = (selectOf k v).1 ∧ (v % 256 < 0x40 → (ctr t k).sel % 256 = 0) ∧
        (fld v 8 2 = 3 → (ctr t k).sel = 0) ∧
        (ctr t k).resel = true ∧ (ctr t k).wrapped = false ∧ ((selectOf k v).2 = false → (ctr t k).val = 0) ∧
        ((selectOf k v).2 = false → ∀ j, j ≠ k → ctr t j = ctr s j)) ∧
      Answers .counterClear s (fun t =>
        t = { s with cnt := t.cnt } ∧ t.cnt.reselAll = true ∧ ∀ j, (ctr t j).val = 0 ∧ (ctr t j).wrapped = false ∧ (ctr t j).sel = (ctr s j).sel)) ∧
    (s.frame.live = true →
      Answers (.counterSelectWrite (0x60000 + 8 * k) v) s (fun t =>
        t = { s with cnt := { s.cnt with ctr := t.cnt.ctr } } ∧ ctr t k = { ctr s k with pend := some v }) ∧
      exec .counterClear s = .next { s with cnt.pendClear := true })

/-- R370 to R373: the capture phase of the seam, in cycle 256. A due snapshot is written to the counter ring when it has room, with
SEQ advanced and the marks of the counters cleared; with no room it is lost and counted; either way the held requests complete. One
that falls due before the last record is written whole is skipped and counted, and its requests wait (the model's choice, log 66).
Without a due snapshot only the phase, the cycle and the time advance, and what waited takes effect. -/
def Claim.CaptureWritesTheSnapshot : Prop :=
  ∀ s : State, alive s = true → s.frame.seam = true → s.frame.phase = 0 → s.cnt.pendClear = false →
    (∀ x ∈ s.cnt.ctr, x.2.pend = none) →
    ((∃ h ∈ s.rings.held, h.op = .snapshot) → captureBusy s = false → s.rings.host = 0 →
      Answers .counterCapture s (fun t =>
        t.frame.phase = 1 ∧ t.frame.cycle = max s.frame.cycle (s.frame.seamAt + 256) ∧
        t.cnt.snapSeq = (s.cnt.snapSeq + 1) % 2 ^ 32 ∧
        (canWrite s s.rings.ctr = true → t.rings.ctr = s.rings.ctr.pushed) ∧
        (canWrite s s.rings.ctr = false → t.rings.ctr = { s.rings.ctr with lost := sat32 (s.rings.ctr.lost + 1) }) ∧
        (∀ k, (ctr t k).val = (ctr s k).val ∧ (ctr t k).wrapped = false ∧ (ctr t k).resel = false) ∧
        (∀ h ∈ t.rings.held, h.op ≠ .snapshot) ∧ t.mem = s.mem ∧ t.rings.sq = s.rings.sq)) ∧
    ((∃ h ∈ s.rings.held, h.op = .snapshot) → captureBusy s = true →
      Answers .counterCapture s (fun t =>
        t.frame.phase = 1 ∧ t.cnt.skipped = sat32 (s.cnt.skipped + 1) ∧ t.cnt.snapSeq = s.cnt.snapSeq ∧ t.rings = s.rings ∧
        (∀ k, ctr t k = ctr s k) ∧ t.mem = s.mem)) ∧
    ((∀ h ∈ s.rings.held, h.op ≠ .snapshot) → s.cnt.snapEvery = 0 →
      Answers .counterCapture s (fun t =>
        t = { s with frame := { s.frame with phase := 1, cycle := t.frame.cycle }, time := t.time, cnt := t.cnt } ∧
        t.frame.cycle = max s.frame.cycle (s.frame.seamAt + 256) ∧ t.cnt.snapSeq = s.cnt.snapSeq ∧
        ∀ k, ctr t k = ctr s k))

/-- The route load, the counter selections, CLEAR, and the snapshot of the seam. -/
def Obligations.RoutesAndCounters : Prop :=
  Claim.RouteLoadCopiesTheTable ∧ Claim.CountersAreSelectedAndCleared ∧ Claim.CaptureWritesTheSnapshot

/-! ### The fabric -/

/-- R184, R258, R266, R268: an inbound WRITE that every check passes stores its payload at its address and nowhere else, sets the slots
it touches FULL when it carries SLOT_FILL and the frame is not aborted, touches no tag otherwise, and leaves windows, rings and the job as they were. -/
def Claim.InboundWriteStoresItsPayload : Prop :=
  ∀ (s : State) (p : Nat) (pkt : Packet), alive s = true → p < 96 → pkt.wf = true → pkt.typ = 1 → pkt.resp = false →
    toMirror s pkt = false → preRefusal s pkt = none → verdict s pkt = .pass → pkt.payload.length = pkt.length →
    s.mem.bad = [] → landsCell pkt = false → (window s pkt.window).flags.testBit 3 = false →
    Answers (.inboundWrite p pkt) s (fun t =>
      peek t pkt.addr pkt.length = pkt.payload ∧
      (∀ a, a < pkt.addr ∨ pkt.addr + pkt.length ≤ a → memByte t.mem a = memByte s.mem a) ∧
      (pkt.slotFill = true → (s.frame.live && s.frame.aborted) = false →
        ∀ n ∈ slotsOf pkt.addr pkt.length, isFull t n = true) ∧
      (pkt.slotFill = false ∨ (s.frame.live && s.frame.aborted) = true → t.mem.full = s.mem.full) ∧ t.fab.windows = s.fab.windows ∧ t.rings = s.rings ∧
      t.job = s.job ∧ t.frame = { s.frame with setNow := t.frame.setNow } ∧
      (pkt.slotFill = false → t.frame = s.frame) ∧ t.flt = s.flt)

/-- R260: an inbound REDUCE_WRITE that every check passes adds each of its elements, widened, to the FP32 element at its place,
and writes no other byte and no tag. -/
def Claim.InboundReduceWriteAddsItsElements : Prop :=
  ∀ (s : State) (p : Nat) (pkt : Packet), alive s = true → p < 96 → pkt.wf = true → pkt.typ = 3 → pkt.resp = false →
    preRefusal s pkt = none → verdict s pkt = .pass → s.mem.bad = [] → s.mem.corr = [] →
    (pkt.elemFmt = 8 ∨ pkt.elemFmt = 10) → pkt.addr % 4 = 0 → (window s pkt.window).flags.testBit 3 = false →
    let w := fmtBits pkt.elemFmt / 8
    let n := pkt.payload.length / w
    Answers (.inboundReduceWrite p pkt) s (fun t =>
      (∀ i, i < n → peek t (pkt.addr + 4 * i) 4 =
        leBytes 4 (add32 (of32 (peekN s (pkt.addr + 4 * i) 4)) (decE pkt.elemFmt (rd pkt.payload (w * i) w))).1.bits32) ∧
      (∀ a, a < pkt.addr ∨ pkt.addr + 4 * n ≤ a → memByte t.mem a = memByte s.mem a) ∧
      t.mem.full = s.mem.full ∧ t.rings = s.rings ∧ t.job = s.job ∧ t.frame = s.frame ∧ t.fab.windows = s.fab.windows)

/-- R258, R263: an inbound READ that every check passes is answered on the port of the requester's route with the bytes at its
address; memory, tags and everything but the port queues and the counters stay as they were. -/
def Claim.InboundReadIsAnswered : Prop :=
  ∀ (s : State) (p q : Nat) (pkt : Packet), alive s = true → p < 96 → pkt.wf = true → pkt.typ = 2 → pkt.resp = false →
    toMirror s pkt = false → preRefusal s pkt = none → verdict s pkt = .pass → s.mem.bad = [] → s.mem.corr = [] →
    (window s pkt.window).flags.testBit 3 = false → pkt.src ≠ 0xFFFFFF → routeOf s pkt.src = some (some q) →
    Answers (.inboundRead p pkt) s (fun t =>
      t = { s with ports := t.ports, fab := { s.fab with selfBox := t.fab.selfBox }, cnt := t.cnt } ∧
      ∃ r : Packet,
        (port t q).queue = (port s q).queue ++ [⟨1, pkt.cls, r.bytes⟩] ∧ r.payload = peek s pkt.addr pkt.length ∧
        r.resp = true ∧ r.status = 0 ∧ r.dst = pkt.src ∧ r.src = s.glob.deviceId ∧ r.tag = pkt.tag ∧ r.typ = 2 ∧ r.hops = 0)

/-- Inbound WRITE, REDUCE_WRITE and READ do what they say and touch nothing else. -/
def Obligations.InboundWrites : Prop :=
  Claim.InboundWriteStoresItsPayload ∧ Claim.InboundReduceWriteAddsItsElements ∧ Claim.InboundReadIsAnswered

/-- R266, R273, R186: what does not pass changes no memory and no tag. A packet of the next frame is held for it. A late one counts
under LATE_DATA and is answered LATE_DATA, and the first of a frame leaves its record, unless a rollback is under way. One at a
closed window or of another generation is answered WINDOW_CLOSED and counts under WINDOW_LATE_DROP; one that touches a FULL slot is
answered BUSY, and nothing else changes. -/
def Claim.RefusedPacketsWriteNothing : Prop :=
  ∀ (s : State) (p q : Nat) (pkt : Packet), alive s = true → p < 96 → pkt.wf = true → pkt.typ = 1 → pkt.resp = false →
    toMirror s pkt = false → preRefusal s pkt = none →
    (verdict s pkt = .hold → Answers (.inboundWrite p pkt) s (fun t =>
      t = { s with ports := t.ports, fab := { s.fab with selfBox := t.fab.selfBox, holdNext := s.fab.holdNext ++ [(p, pkt)] } })) ∧
    (pkt.src ≠ 0xFFFFFF → routeOf s pkt.src = some (some q) →
      (verdict s pkt = .refuse 0x0A → Answers (.inboundWrite p pkt) s (fun t =>
        t = { s with ports := t.ports, fab := { s.fab with selfBox := t.fab.selfBox }, cnt := (devEvent s 0x5A 1).cnt } ∧
        ∃ r : Packet, (port t q).queue = (port s q).queue ++ [⟨1, pkt.cls, r.bytes⟩] ∧ r.resp = true ∧ r.status = 0x0A)) ∧
      (verdict s pkt = .refuse 0x19 → Answers (.inboundWrite p pkt) s (fun t =>
        t = { s with ports := t.ports, fab := { s.fab with selfBox := t.fab.selfBox } } ∧
        ∃ r : Packet, (port t q).queue = (port s q).queue ++ [⟨1, pkt.cls, r.bytes⟩] ∧ r.resp = true ∧ r.status = 0x19)) ∧
      (∀ ahead quiet, verdict s pkt = .late ahead quiet → Answers (.inboundWrite p pkt) s (fun t =>
        t.cnt = (devEvent s 0x57 1).cnt ∧
        (∃ r : Packet, (port t q).queue.getLast? = some ⟨1, pkt.cls, r.bytes⟩ ∧ r.resp = true ∧ r.status = 0x18 ∧ r.dst = pkt.src) ∧
        (quiet = false → s.fab.lateFrame ≠ some (tickedFrame s) →
          t.flt.seq = (s.flt.seq + 1) % 2 ^ 32 ∧ rd t.flt.last 0 1 = 0x18 ∧ t.fab.lateFrame = some (tickedFrame s)) ∧
        (quiet = true ∨ s.fab.lateFrame = some (tickedFrame s) → t.flt = s.flt) ∧
        t.mem = s.mem ∧ t.rings.sq = s.rings.sq ∧ t.frame = s.frame))) ∧
    (verdict s pkt = .refuse 0x09 → s.frame.live = false → Answers (.inboundWrite p pkt) s (fun t =>
      t.mem = s.mem ∧ t.flt.seq = (s.flt.seq + 1) % 2 ^ 32 ∧ rd t.flt.last 0 1 = 9))

/-- R267, R269: a WINDOW_CTRL query of the neighbour is answered on its port with the window's number, generation and state; a
state is taken as information; a MGMT message that the scheduler core does not accept is discarded and answered
WINDOW_BOUNDS, with no record. -/
def Claim.WindowQueriesAndRefusedMessages : Prop :=
  ∀ (s : State) (p q : Nat) (pkt : Packet), alive s = true → p < 96 → pkt.wf = true → pkt.resp = false →
    (pkt.typ = 4 → pkt.neighbour = true → preRefusal s pkt = none → portUp s p = true → rd pkt.payload 0 1 = 1 →
      Answers (.windowCtrlQuery p pkt) s (fun t =>
        t = { s with ports := t.ports, fab := { s.fab with selfBox := t.fab.selfBox } } ∧
        ∃ r : Packet,
          (port t p).queue = (port s p).queue ++ [⟨1, pkt.cls, r.bytes⟩] ∧ rd r.payload 0 1 = 2 ∧
          rd r.payload 1 1 = rd pkt.payload 1 1 ∧
          rd r.payload 4 1 = b2n (window s (rd pkt.payload 1 1)).isOpen ∧
          rd r.payload 2 2 = (window s (rd pkt.payload 1 1)).gen % 2 ^ 16)) ∧
    Answers (.windowCtrlState p pkt) s (fun t =>
      t = { s with ports := t.ports, fab := { s.fab with selfBox := t.fab.selfBox } } ∧
      ∀ k, (port t k).queue = (port s k).queue) ∧
    (pkt.typ = 6 → pkt.neighbour = false →
      acceptsMsg s pkt.src (rd pkt.payload 0 1) (rd pkt.payload 2 2) (rd pkt.payload 24 3) = false →
      preRefusal s pkt = none → schedAway s = false → pkt.src ≠ 0xFFFFFF → routeOf s pkt.src = some (some q) →
      Answers (.mgmtMessageRefuse p pkt) s (fun t =>
        t = { s with ports := t.ports, fab := { s.fab with selfBox := t.fab.selfBox } } ∧
        ∃ r : Packet, (port t q).queue = (port s q).queue ++ [⟨1, pkt.cls, r.bytes⟩] ∧ r.resp = true ∧ r.status = 9 ∧
          r.payload = []))

/-- A packet that fails a check writes no memory and no tag; window queries and refused messages. -/
def Obligations.RefusalsWriteNothing : Prop :=
  Claim.RefusedPacketsWriteNothing ∧ Claim.WindowQueriesAndRefusedMessages

/-- R260, R263, R264: a packet for another device leaves on the port of its route with its hop count raised by one, but a
REDUCE_WRITE to a partner without that feature, which is answered DESC_FORMAT; a broadcast is
delivered here once and leaves on every broadcast port that is UP and takes new work but the one it came on. Nothing else changes. -/
def Obligations.RoutersForwardAndBroadcast : Prop :=
  ∀ (s : State) (p q : Nat) (pkt : Packet), alive s = true → p < 96 → pkt.wf = true → pkt.neighbour = false →
    (preRefusal s pkt = none → pkt.dst ≠ 0xFFFFFF → routeFor s pkt = some (some q) →
      (pkt.typ = 3 → pkt.resp = false → noReduce s q = false) → Answers (.packetForward p pkt) s (fun t =>
      t = { s with ports := t.ports, fab := { s.fab with selfBox := t.fab.selfBox } } ∧
      (port t q).queue = (port s q).queue ++
        [⟨2 + p, pkt.cls, Packet.bytes { pkt with hops := min 0xFFFF (pkt.hops + 1) }⟩] ∧
      ∀ k, k ≠ q → (port t k).queue = (port s k).queue)) ∧
    (preRefusal s pkt = none → pkt.dst ≠ 0xFFFFFF → routeFor s pkt = some (some q) → pkt.typ = 3 → pkt.resp = false →
      noReduce s q = true → ∀ b, pkt.src ≠ 0xFFFFFF → routeOf s pkt.src = some (some b) →
      Answers (.packetForward p pkt) s (fun t =>
        t = { s with ports := t.ports, fab := { s.fab with selfBox := t.fab.selfBox } } ∧
        ∃ r : Packet, (port t b).queue = (port s b).queue ++ [⟨1, pkt.cls, r.bytes⟩] ∧ r.resp = true ∧ r.status = 0x11)) ∧
    (pkt.dst = 0xFFFFFF → pkt.typ = 6 → preRefusal s pkt = none → Answers (.broadcastReceive p pkt) s (fun t =>
      t = { s with ports := t.ports, fab := { s.fab with selfBox := t.fab.selfBox } } ∧ pkt ∈ t.fab.selfBox ∧
      (∀ k ∈ bcastPorts s, k ≠ p → (port t k).queue = (port s k).queue ++
        [⟨2 + p, pkt.cls, Packet.bytes { pkt with hops := min 0xFFFF (pkt.hops + 1) }⟩]) ∧
      (∀ k, k ∉ bcastPorts s ∨ k = p → (port t k).queue = (port s k).queue)))

/-- R258, R259, R348: the answers to the packets of a transfer. OK to LAST answers every packet that is neither held nor to be sent
again nor sent again and still to be answered; BUSY marks the packet it names, and stalls the cycle of a SCHEDULED one; LATE_DATA
answers it and counts, and its transfer is never acknowledged; READ data gather by address; a refusal ends the transfer: a stroke's
with the abort of its frame, and an operation's with the record of its failure, whose DIE is that of the port, but for WINDOW_BOUNDS
and LINK_DOWN, which leave none. Memory and tags stay as they were. -/
def Claim.AnswersSettleTheTransfer : Prop :=
  ∀ (s : State) (p : Nat) (pkt : Packet) (x : Transfer), alive s = true → p < 96 → pkt.wf = true → pkt.resp = true →
    s.fab.xfers = [x] → isXfer s pkt x = true → x.stopped = false → s.rings.writes = [] →
    (∀ h ∈ s.rings.held, h.op ≠ .snapshot ∧ ∀ rec, h.op ≠ .maskOp rec) →
    (pkt.status = 0 → pkt.resend = false → Answers (.responseOk p pkt) s (fun t =>
      t = { s with ports := t.ports, fab := { s.fab with selfBox := t.fab.selfBox, xfers := t.fab.xfers } } ∧
      (∀ y ∈ t.fab.xfers, y.pkts = x.pkts.filter (fun u => u.held || u.busy || u.resent)) ∧
      ((∃ u ∈ x.pkts, u.held = true ∨ u.busy = true ∨ u.resent = true) → t.fab.xfers ≠ []))) ∧
    (pkt.status = 0x19 → Transfer.gone x = false → Answers (.responseBusy p pkt) s (fun t =>
      t = { s with
            ports := t.ports, fab := { s.fab with selfBox := t.fab.selfBox, xfers := t.fab.xfers }
            frame := { s.frame with blocked := t.frame.blocked } } ∧
      (s.frame.region = true →
        (∃ u ∈ x.pkts, u.pkt.addr = pkt.addr ∧ u.pkt.cls = 0 ∧ u.pkt.frame = currentFrame s) → t.frame.blocked = true) ∧
      ∃ y, t.fab.xfers = [y] ∧ y.pkts.map (·.pkt) = x.pkts.map (·.pkt) ∧
        ∀ u ∈ y.pkts, u.pkt.addr = pkt.addr → u.busy = true)) ∧
    (pkt.status = 0x18 → Answers (.responseLateData p pkt) s (fun t =>
      t = { s with ports := t.ports, cnt := (devEvent s 0x58 1).cnt,
                   fab := { s.fab with selfBox := t.fab.selfBox, xfers := t.fab.xfers } } ∧
      ∀ y ∈ t.fab.xfers, y.acked = false ∧ y.pkts = x.pkts.filter (fun u => u.pkt.addr ≠ pkt.addr && !u.held))) ∧
    (pkt.typ = 2 → pkt.status = 0 → x.reads = true → Answers (.readResponseReceive p pkt) s (fun t =>
      t = { s with ports := t.ports, fab := { s.fab with selfBox := t.fab.selfBox, xfers := t.fab.xfers } } ∧
      ∃ y, t.fab.xfers = [y] ∧ y.got = x.got ++ [(pkt.addr, pkt.payload)])) ∧
    (refusalCode pkt.status = true → x.folio = none → ckptXfer x = false → Answers (.responseRefusal p pkt) s (fun t =>
      (pkt.status = 9 ∨ pkt.status = 0x0C →
        t = { s with ports := t.ports, fab := { s.fab with selfBox := t.fab.selfBox, xfers := [] } }) ∧
      (pkt.status ≠ 9 → pkt.status ≠ 0x0C → t.fab.xfers = [] ∧ t.flt.seq = (s.flt.seq + 1) % 2 ^ 32 ∧
        rd t.flt.last 0 1 = pkt.status ∧ rd t.flt.last 1 1 = 1 ∧ rd t.flt.last 11 1 = (if p < 48 then 4 else 5) ∧
        t.mem = s.mem ∧ t.frame = s.frame))) ∧
    (∀ l, refusalCode pkt.status = true → x.folio = some l → s.frame.live = true → s.frame.aborted = false →
      Answers (.responseRefusal p pkt) s (fun t =>
        t.fab.xfers = [] ∧ t.frame.aborted = true ∧ t.train.waiting.isSome = true ∧ t.mem = s.mem))

/-- R259, R261: while its frame lasts, a packet that was answered BUSY is sent again with RESEND set, and waits then for its own answer;
packets to a slot that waited for earlier ones leave with the current frame and are held no longer. Only the port queues and the
transfer change. -/
def Claim.HeldAndBusyPacketsAreSentAgain : Prop :=
  ∀ (s : State) (q : Nat) (x : Transfer) (u : Unanswered), alive s = true → s.fab.xfers = [x] → x.pkts = [u] →
    x.stopped = false → x.tag < 65536 → u.pkt.addr < 2 ^ 48 → s.glob.deviceId ≠ 0xFFFFFF → u.pkt.dst ≠ 0xFFFFFF →
    routeFor s u.pkt = some (some q) →
    (u.busy = true → u.pkt.frame = currentFrame s → (u.pkt.cls = 0 → s.frame.seam = false) → Answers (.busyResend x.tag u.pkt.addr) s (fun t =>
      t = { s with ports := t.ports, fab := { s.fab with xfers := [{ x with pkts := [{ u with busy := false, resent := true }] }] } } ∧
      (port t q).queue = (port s q).queue ++
        [⟨0, u.pkt.cls, Packet.bytes { u.pkt with flags := u.pkt.flags ||| 16 }⟩])) ∧
    (u.held = true → x.late = false → Answers (.slotFillSend x.tag) s (fun t =>
      t = { s with ports := t.ports, fab := { s.fab with xfers := t.fab.xfers } } ∧
      (port t q).queue = (port s q).queue ++
        [⟨0, u.pkt.cls, Packet.bytes { u.pkt with frame := currentFrame s }⟩] ∧
      t.fab.xfers = [{ x with pkts := [{ u with held := false }] }]))

/-- Responses settle a transfer; held and BUSY packets are sent again. -/
def Obligations.AnswersSettleTheTransfer : Prop :=
  Claim.AnswersSettleTheTransfer ∧ Claim.HeldAndBusyPacketsAreSentAgain

/-! ### Lanes -/

/-- R247 to R249: a page of the partner that passes its check and echoes the lane's own sequence number ends the exchange: the
lane goes to TRAINING at a common rate, or fails with the reason where the pages do not agree; where the lanes of its port have
failed at every common rate, the port waits, and may try them again. A page whose CRC or MAGIC fails is ignored, and so is every page on a
die whose SerDes clock has gone (R386). -/
def Claim.PageExchangeEnds : Prop :=
  ∀ (s : State) (n : Nat) (page : List Byte), alive s = true → n < 96 → page.length = 64 →
    ((lane s n).state = 1 → clockLost s n = false → rd page 60 4 = crc32c (page.take 60) → rd page 0 2 = 0x5244 →
      rd page 3 1 = (lane s n).pageSeq →
      let l : Lane := { lane s n with echoSeq := rd page 2 1, partner := rd page 13 3, partnerFeat := rd page 8 2, partnerTime := rd page 16 1 % 4,
                                       partnerLane := rd page 10 1 }
      let u := setLane s n l
      let m := mismatch u n page
      let p := portOf s n
      ((port s p).removed = 0 ∨ m ≠ 4 ∨ ratesWith u n page ≠ 0 → Answers (.capabilityPageReceive n page) s (fun t =>
        t = { s with lanes := t.lanes } ∧ (∀ k, k ≠ n → lane t k = lane s k) ∧ (lane t n).partner = rd page 13 3 ∧
        (m = 0 → (lane t n).state = 2 ∧ (lane t n).reason = 0 ∧ 1 ≤ (lane t n).rate ∧ (lane t n).rate ≤ 4) ∧
        (m ≠ 0 → (lane t n).state = 4 ∧ (lane t n).reason = m))) ∧
      ((port s p).removed ≠ 0 → m = 4 → ratesWith u n page = 0 →
        ratesWith (setPort u p { port u p with removed := 0 }) n page ≠ 0 →
        Answers (.capabilityPageReceive n page) s (fun t =>
          (lane t n).state = 5 ∧ (lane t n).rate = 0 ∧ (port t p).removed = 0 ∧ t.mem = s.mem ∧ t.frame = s.frame))) ∧
    (rd page 60 4 ≠ crc32c (page.take 60) ∨ rd page 0 2 ≠ 0x5244 ∨ clockLost s n = true →
      exec (.capabilityPageReceive n page) s = .next s)

/-- R236, R245, R246, R248, R254, R275, R386: a lane's training, while its SerDes clock runs. A trained lane begins its quality check
and keeps its measured datapath delays, one that passes comes UP and waits to rejoin while frames run, one that fails or does not train
in time loses that rate for its port and repeats the exchange, or waits when no common rate is left, and a peer that this takes out of
reach is reported; a lane that has waited starts again at PAGES with an empty link layer; a receiver locks to codewords and flits. -/
def Claim.LanesTrainAndComeUp : Prop :=
  ∀ (s : State) (n errs syms blocks flits : Nat) (inv : Bool), alive s = true → n < 96 →
    (clockLost s n = false → (lane s n).state = 2 → (link s n).quality = false → Answers (.laneTrainingDone n inv) s (fun t =>
      t = { s with lanes := t.lanes, links := t.links, free := s.free + 2 } ∧
      (∃ a b, lane t n = { lane s n with inverted := inv, txDelay := a, rxDelay := b }) ∧
      link t n = { link s n with quality := true })) ∧
    (clockLost s n = false → (lane s n).state = 2 → (link s n).quality = true → errs * 10000 ≤ syms →
      Answers (.laneQualityCheck n errs syms) s (fun t =>
        t = { s with lanes := t.lanes, links := t.links } ∧
        lane t n = { lane s n with state := 3, rejoin := s.frame.live } ∧
        (link t n).quality = false ∧ ∀ k, k ≠ n → lane t k = lane s k)) ∧
    (clockLost s n = true → exec (.laneTrainingDone n inv) s = .next s) ∧
    ((lane s n).state = 2 → (link s n).quality = false → lanesOf s n = [n] → (lane s n).base = none →
      (lane s n).disable = false → domOn s (112 + n / 8) = true →
      ∃ t, exec (.laneTrainingTimeout n) s = .next (reportLost s t) ∧ (jobExists t = false → reportLost s t = t) ∧
        let left := (lane s n).common &&& (15 - 2 ^ ((lane s n).rate - 1))
        link t n = {} ∧ (lane t n).rate = 0 ∧ (lane t n).state = (if left = 0 then 5 else 1) ∧
        (port t n).removed = (if left = 0 then 0 else (port s n).removed ||| 2 ^ ((lane s n).rate - 1)) ∧
        t.mem = s.mem ∧ t.frame = s.frame ∧ t.folios = s.folios) ∧
    ((lane s n).state = 5 → (lane s n).disable = false → domOn s (112 + n / 8) = true →
      Answers (.laneWaitRestart n) s (fun t =>
        t = { s with lanes := t.lanes, links := t.links, free := s.free + 1 } ∧ (lane t n).state = 1 ∧
        (lane t n).rateLatch = (lane s n).rateMax ∧ (lane t n).pageSeq = ((lane s n).pageSeq + 1) % 256 ∧ link t n = {})) ∧
    ((lane s n).rate = 4 → 256 ≤ blocks → 8 ≤ flits → Answers (.codewordLock n blocks flits) s (fun t =>
      t = { s with links := t.links } ∧ link t n = { link s n with locked := true } ∧ ∀ k, k ≠ n → link t k = link s k))

/-- The page exchange, the training and the quality check of a lane. -/
def Obligations.LanesComeUp : Prop :=
  Claim.PageExchangeEnds ∧ Claim.LanesTrainAndComeUp

/-- R236, R254, R255, R419: a lane goes down by silence, with its record, or by software, and starts again at PAGES or stays OFF with
DISABLE, and a peer of the job that this takes out of reach is reported lost; software is refused, with nothing changed but the
refusal bit, while the lane carries SCHEDULED traffic of a running job; a write of LINK_CTRL alone sets BOOT_SERVE and clears the
refusal bit that it names. -/
def Obligations.LanesGoDownBySilenceOrSoftware : Prop :=
  ∀ (s : State) (n v : Nat), alive s = true → n < 96 → (lane s n).disable = false → s.rings.host = 0 →
    (∀ t, jobExists t = false ∨ (∀ d ∈ reached s, d ∈ reached t) → reportLost s t = t) ∧
    ((lane s n).state = 3 → domOn s (112 + n / 8) = true →
      ∃ t, exec (.laneSilenceDown n) s = .next (reportLost s t) ∧
        (lane t n).state = 1 ∧ (lane t n).rate = 0 ∧ link t n = {} ∧ t.flt.seq = (s.flt.seq + 1) % 2 ^ 32 ∧
        rd t.flt.last 0 1 = 0x0C ∧ t.mem = s.mem ∧ t.fab.windows = s.fab.windows ∧ t.job = s.job) ∧
    (mayRetrain s n = true → domOn s (112 + n / 8) = true →
      (∃ t, exec (.linkDisable n) s = .next (reportLost s t) ∧
        (lane t n).state = 0 ∧ (lane t n).disable = true ∧ link t n = {} ∧ t.mem = s.mem ∧ t.flt = s.flt ∧ t.job = s.job) ∧
      (∃ t, exec (.linkRetrain n) s = .next (reportLost s t) ∧
        (lane t n).state = 1 ∧ (lane t n).disable = false ∧ link t n = {} ∧ t.mem = s.mem ∧ t.flt = s.flt ∧ t.job = s.job)) ∧
    (mayRetrain s n = false →
      Answers (.linkDisable n) s (fun t =>
        t = { s with lanes := t.lanes } ∧ lane t n = { lane s n with refused := true } ∧ ∀ k, k ≠ n → lane t k = lane s k) ∧
      Answers (.linkRetrain n) s (fun t =>
        t = { s with lanes := t.lanes } ∧ lane t n = { lane s n with refused := true } ∧ ∀ k, k ≠ n → lane t k = lane s k)) ∧
    (v < 2 ^ 64 → v % 4 = 0 → (lane s n).state ≠ 4 → Answers (.linkCtrlWrite n v) s (fun t =>
      t = { s with lanes := t.lanes } ∧
      lane t n = { lane s n with bootServe := v.testBit 2, refused := (lane s n).refused && !v.testBit 8 }))

/-- R250, R252, R271: in its slot a lane that is UP sends one flit of 256 bytes with its CRC: the next of a replay while one is under
way, a DATA flit with the next sequence number when a packet may begin or go on, else IDLE. -/
def Claim.FlitSlotSendsOneFlit : Prop :=
  ∀ (s : State) (n : Nat), alive s = true → n < 96 → laneStill s n = false →
    Answers (.flitSlot n) s (fun t =>
      (∃ f : List Byte, t.out.flits = s.out.flits ++ [(n, f)] ∧ f.length = 256 ∧
        rd f 252 4 = crc32c (f.take 252) % 2 ^ 32 ∧
        (∀ q0 more e, (link s n).replay = q0 :: more → (link s n).retry.find? (fun x => x.seq == q0) = some e →
          rd f 0 2 % 4096 = q0 % 4096 ∧ slice f 8 240 = slice e.body 0 240 ∧ (link t n).replay = more) ∧
        ((link s n).replay = [] → (link t n).txSeq ≠ (link s n).txSeq →
          rd f 0 2 = (4096 + (link s n).txSeq) % 65536 ∧ (link t n).txSeq = ((link s n).txSeq + 1) % 4096 ∧
          (link t n).retry.length = (link s n).retry.length + 1)) ∧
      (link t n).slot = (link s n).slot + 1 ∧ t.mem = s.mem ∧ t.lanes = s.lanes ∧ t.rings = s.rings ∧ t.job = s.job)

/-- R250, R253, R256, R271: what a slot's flit holds. With nothing to send it is IDLE, with the acknowledgement of the last flit
received and the credits freed, and its body is zero; a packet of at most 15 granules that waits alone at a port of one lane, with a
credit of its class, leaves whole in the flit's body, and takes that credit. -/
def Claim.FlitSlotSendsWhatWaits : Prop :=
  ∀ (s : State) (n : Nat) (w : Waiting), alive s = true → n < 96 → laneStill s n = false → (link s n).replay = [] →
    ((port s (portOf s n)).queue = [] → (port s (portOf s n)).cur = [] →
      Answers (.flitSlot n) s (fun t =>
        t = { s with out := t.out, links := t.links, ports := t.ports, cnt := t.cnt } ∧
        ∃ f : List Byte, t.out.flits = s.out.flits ++ [(n, f)] ∧ rd f 0 2 = 0 ∧
          rd f 2 2 = ((link s n).rxNext + 4095) % 4096 + 4096 + (if (link s n).nak then 8192 else 0) ∧
          (∀ c, c < 3 → rd f (4 + c) 1 = min 255 (nth3 (link s n).freed c) ∧
            nth3 (link t n).freed c = nth3 (link s n).freed c - min 255 (nth3 (link s n).freed c)) ∧
          slice f 8 240 = List.replicate 240 0 ∧ (link t n).nak = false ∧ (link t n).txSeq = (link s n).txSeq)) ∧
    (portOf s n = n → lanesOf s n = [n] → laneUp s n = true → (port s n).queue = [w] → (port s n).cur = [] →
      (link s n).retry.length < 64 → w.cls < 3 → w.req < 98 → w.bytes.length % 16 = 0 → 0 < w.bytes.length →
      w.bytes.length ≤ 240 → rd w.bytes 0 1 ≠ 5 → (link s n).credits.length = 3 → 1 ≤ nth3 (link s n).credits w.cls →
      Answers (.flitSlot n) s (fun t =>
        (∃ f : List Byte, t.out.flits = s.out.flits ++ [(n, f)] ∧ rd f 0 2 = (4096 + (link s n).txSeq) % 65536 ∧
          slice f 8 w.bytes.length = w.bytes) ∧
        (port t n).queue = [] ∧ (port t n).cur = [] ∧
        nth3 (link t n).credits w.cls = nth3 (link s n).credits w.cls - 1))

/-- R43, R252: a NAK that reaches a lane that is UP acknowledges the flits up to its sequence number, and the lane replays every flit
after it; where its port carries SCHEDULED traffic, the cycle stalls. -/
def Claim.NakStartsTheReplay : Prop :=
  ∀ (s : State) (n ack : Nat), alive s = true → n < 96 → ack < 4096 → (lane s n).state = 3 →
    Answers (.nakReceive n ack) s (fun t =>
      t = { s with links := t.links, cnt := t.cnt, frame := { s.frame with blocked := t.frame.blocked } } ∧
      (s.frame.region = true → linkRetryStall t = true → t.frame.blocked = true) ∧ (link t n).retry = ackTo (link s n).retry ack ∧
      (link t n).replay = (ackTo (link s n).retry ack).map (·.seq) ∧
      (∀ k, k ≠ n → link t k = link s k) ∧
      (∀ a e b, (link s n).retry = a ++ e :: b → e.seq = ack → (∀ x ∈ a, x.seq ≠ ack) →
        (link t n).retry = b ∧ (link t n).txRetry = !b.isEmpty))

/-- A flit slot sends one flit with its CRC, and a NAK starts the replay. -/
def Obligations.FlitSlotSendsOneFlit : Prop :=
  Claim.FlitSlotSendsOneFlit ∧ Claim.FlitSlotSendsWhatWaits ∧ Claim.NakStartsTheReplay

/-- R243, R245, R249, R251 to R253: what comes in on a lane at any rate. A receiver of 400 Gbit/s that has not locked takes nothing. A
codeword that names another lane than the partner's shows a wrong wiring: the lane is in MISMATCH. A flit that fails its check, that
is of no type, or that touches a codeword that does not decode, is not acknowledged: the lane enters retry, answers with a NAK (every
one while in retry, the model's choice, log 28) and delivers nothing. An IDLE flit that passes brings credits, to each class's cap; a
DATA flit in sequence advances the next number, and one out of sequence puts the lane in retry and advances nothing. -/
def Obligations.FlitsAreCheckedAndDelivered : Prop :=
  ∀ (s : State) (n place : Nat) (words weak : List (List Nat)), alive s = true → n < 96 → place < 5 → laneStill s n = false →
    let got := fun (x : List Nat × Nat) => lineReceive (lane s n).rate x.1 (weak.getD x.2 [])
    let swap := (lane s n).rate ≠ 4 ∧ ∃ x ∈ words.zipIdx, ∃ d, (got x).1 = some d ∧ wordLane d ≠ (lane s n).partnerLane
    let ws := ((if place = 0 then [] else (link s n).rxWords) ++
      words.zipIdx.map (fun x => (got x).1.map (wordData (lane s n).rate))).take 2
    let f := wordsFlit ws place
    ((lane s n).rate = 4 → (link s n).locked = false → exec (.flitReceive n place words weak) s = .next s) ∧
    (((lane s n).rate = 4 → (link s n).locked = true) →
      (swap → Answers (.flitReceive n place words weak) s (fun t =>
        (lane t n).state = 4 ∧ (lane t n).reason = 2 ∧ link t n = {} ∧ t.mem = s.mem ∧ t.frame = s.frame)) ∧
      (¬ swap →
        (wordsBad ws place = true ∨ rd f 252 4 ≠ crc32c (f.take 252) ∨ 2 ≤ rd f 0 2 / 4096 →
          Answers (.flitReceive n place words weak) s (fun t =>
            t = { s with links := t.links, cnt := t.cnt, frame := { s.frame with blocked := t.frame.blocked } } ∧
            (link t n).nak = true ∧ (link t n).rxRetry = true ∧ (link t n).rxNext = (link s n).rxNext ∧
            (link t n).retry = (link s n).retry ∧ (link t n).rxWords = ws)) ∧
        (wordsBad ws place = false → rd f 252 4 = crc32c (f.take 252) → (rd f 2 2).testBit 13 = false →
          (rd f 0 2 / 4096 = 0 → Answers (.flitReceive n place words weak) s (fun t =>
            t = { s with links := t.links, cnt := t.cnt } ∧ (link t n).rxNext = (link s n).rxNext ∧
            (link t n).credits = [min 160 (nth3 (link s n).credits 0 + rd f 4 1),
              min 64 (nth3 (link s n).credits 1 + rd f 5 1), min 16 (nth3 (link s n).credits 2 + rd f 6 1)])) ∧
          (rd f 0 2 / 4096 = 1 → rd f 0 2 % 4096 = (link s n).rxNext → Answers (.flitReceive n place words weak) s (fun t =>
            t = { s with links := t.links, ports := t.ports, cnt := t.cnt } ∧
            (link t n).rxNext = ((link s n).rxNext + 1) % 4096 ∧ (link t n).rxRetry = false)) ∧
          (rd f 0 2 / 4096 = 1 → rd f 0 2 % 4096 ≠ (link s n).rxNext → Answers (.flitReceive n place words weak) s (fun t =>
            t = { s with links := t.links, cnt := t.cnt, frame := { s.frame with blocked := t.frame.blocked } } ∧
            (link t n).rxNext = (link s n).rxNext ∧ (link t n).rxRetry = true ∧
            ((link s n).rxRetry = false → (link t n).nak = true))))))

/-! ### Boot, security, live update -/

/-- Table 12.5, R18, R21, R193, R262, R357, R393, R394: a part whose PUF and flash pass starts cold from the records of the flash: out of
reset, in boot, with the VID of BIN, the owner key and the floors (none, and zeros, without a record), the device id of BOARD (0xFFFFFF
without one) and every Folio in the state that REPAIR gives it, with its rows and lanes under spares; one that fails its PUF, its
directory or BIN is in the fault state. Memory and rings stay as reset left them. Where BIN, REPAIR, OWNER and FLOOR keep their fields in
the stored bytes is the model's choice (log 30). -/
def Claim.ColdStartReadsTheFlash : Prop :=
  ∀ (s : State) (src mode addr : Nat) (f : Flash), s.pins.sysReset = true → s.pins.clocksStopped = false →
    s.glob.faultState = false → src < 2 → mode < 2 → addr < 4 →
    (dirOk f = true → pufGood f = true → match binCode f with
    | some v => Answers (.coldStart src mode addr true (some f)) s (fun t =>
        t.pins.sysReset = false ∧ alive t = true ∧ t.pins.bootSrc = src ∧ t.pins.flashMode = mode ∧ t.pins.i3cAddr = addr ∧
        t.pins.vid = v % 16 ∧ t.boot.phase = 1 ∧ t.flash = f ∧ (boardOf f = none → t.glob.deviceId = 0xFFFFFF) ∧
        (∀ b, boardOf f = some b → t.glob.deviceId = rd b 12 3 ∧ t.power.limitBoard = rd b 16 2) ∧
        (∀ n, n < 68 → (folio t n).state = bootState (repairNow f) n) ∧
        (∀ o, ownerOf f = some o → t.boot.ownerKey = o.key ∧ t.boot.rootAllowed = o.rootAllowed) ∧
        (ownerOf f = none → t.boot.ownerKey = [] ∧ t.boot.rootAllowed = false) ∧
        t.boot.floors = (floorOf f).getD [0, 0, 0, 0] ∧ (t.scan.available = true ↔ scanCheck f = none) ∧
        (dom t 131).state = 2 ∧ (src = 0 → (dom t 128).state = 2) ∧
        t.mem = { s.mem with spared := (repairNow f).rows, laneSpares := (repairNow f).lanes } ∧
        t.rings = s.rings ∧ t.glob.jobState = s.glob.jobState)
    | none => Answers (.coldStart src mode addr true (some f)) s (fun t =>
        t.glob.faultState = true ∧ alive t = false ∧ t.mem = s.mem ∧ t.flash = f)) ∧
    (dirOk f = false ∨ pufGood f = false → Answers (.coldStart src mode addr true (some f)) s (fun t =>
      t.glob.faultState = true ∧ alive t = false ∧ t.mem = s.mem ∧ t.flash = f)) ∧
    Answers (.coldStart src mode addr false (some f)) s (fun t =>
      t.glob.faultState = true ∧ alive t = false ∧ t.mem = s.mem ∧ t.flash = f)

/-- R307, R309, R287: the ROM holds an image that passes the checks and completes with OK; one that fails completes with DESC_FORMAT and
the check's number, and is not held; an OWNER_TAG other than zero completes with DESC_FORMAT and DATA 8. -/
def Claim.RomHoldsCheckedImages : Prop :=
  ∀ (s : State) (h : Hdr) (src bytes : Nat), alive s = true → h.wf = true → h.flags < 4 → h.cq < 4 →
    degraded s = false → s.glob.jobState = 0 → s.boot.phase = 1 → s.pins.bootSrc = 0 → s.rings.host = 0 → src < 2 ^ 64 → bytes % 64 = 0 →
    bytes ≤ 2 ^ 26 →
    (h.owner ≠ 0 → exec (.loadImage h src bytes) s = .next (complete s h 0x11 8)) ∧ (h.owner = 0 →
    (checkImage s (hostPeek s src bytes) bytes true = none →
      exec (.loadImage h src bytes) s = .next (complete
        { s with boot := { s.boot with held := tput s.boot.held (imgCore (hostPeek s src bytes)) (hostPeek s src bytes) } }
        h 0 0)) ∧
    (∀ id, checkImage s (hostPeek s src bytes) bytes true = some id →
      exec (.loadImage h src bytes) s = .next (complete s h 0x11 (id + 2 ^ 63))))

/-- The cold start from the flash, and the ROM's image checks. -/
def Obligations.ColdStartAndRom : Prop :=
  Claim.ColdStartReadsTheFlash ∧ Claim.RomHoldsCheckedImages

/-- R309, R311, R24, R320: from the fourth image to IDLE. The four held images run once no completion record waits; the cores start in the order power, scheduler,
cluster; a Folio that does not start is quarantined, in flash as well; when every cluster core outside QUARANTINED has
reported, the agreement word is formed and the state is IDLE. -/
def Claim.BootReachesIdle : Prop :=
  ∀ (s : State) (n : Nat) (lp : Bool), alive s = true → n < 68 →
    (s.boot.phase = 1 → s.boot.held.length = 4 → (∀ k, k < 4 → (cq s k).queue = []) → exec .securityImageStart s = .next
      { s with boot := { s.boot with phase := 2, running := s.boot.held, coresUp := [0] } }) ∧
    (s.boot.phase = 2 → powerHeld s = false → Answers (.coreReady 1 lp) s (fun t =>
      t = { s with boot := { s.boot with phase := 3, coresUp := insertNat 1 s.boot.coresUp }, power := t.power, i3c := t.i3c } ∧
      (boardOf s.flash = none → (dom t 128).votes.testBit 4 = true))) ∧
    (s.boot.phase = 3 → Answers (.coreReady 2 true) s (fun t =>
      t.boot.phase = 4 ∧ 2 ∈ t.boot.coresUp ∧ (∀ b, boardOf s.flash = some b → t.mem.lpChannels = rd b 6 1) ∧
      t.folios = s.folios ∧ t.rings = s.rings)) ∧
    (4 ≤ s.boot.phase → (folio s n).state ≠ 3 → Answers (.coreReady (3 + n) lp) s (fun t =>
      t = { s with folios := t.folios } ∧ folio t n = { folio s n with started := true } ∧
      ∀ k, k ≠ n → folio t k = folio s k)) ∧
    (s.boot.phase = 4 → (folio s n).started = false → (folio s n).state ≠ 3 → powerHeld s = false →
      Answers (.clusterStartTimeout n) s (fun t =>
        (folio t n).state = 3 ∧ (dom t n).votes.testBit 0 = false ∧ t.mem = s.mem ∧ t.rings = s.rings ∧
        t.flash.repair = writeHalf repairBytes s.flash.repair
          { repairNow s.flash with quarantined := insertNat n (repairNow s.flash).quarantined })) ∧
    (s.boot.phase = 4 → (∀ k, k < 68 → (folio s k).state = 3 ∨ (folio s k).started = true) → s.glob.jobState = 0 →
      Answers .bootComplete s (fun t =>
        t.glob.jobState = 1 ∧ t.boot.phase = 6 ∧
        t.glob.agreement = wordOf ((imageOf s.boot.running 2).getD []) ((liveFolios s).map (clusterImage s)) ∧
        ((floorOf s.flash).isSome = true → t.boot.floors = s.boot.floors ∧ t.flash = s.flash) ∧
        (floorOf s.flash = none → t.glob.floorRebuilt = true) ∧ t.mem = s.mem ∧
        t.folios = { s.folios with short := shortDie s }))

/-- R310: chain boot. A device that waits for a server says HELLO through its boot port; a server whose firmware runs answers only
through a port with BOOT_SERVE, at most 64 KiB ahead of the last ACK; the first packet of an image chooses the server and
its bytes are kept in order; a failing ACK ends the service. -/
def Claim.ChainBootServesAndReceives : Prop :=
  ∀ (s : State) (p src : Nat) (pay : List Byte), alive s = true → p < 96 → src < 2 ^ 24 →
    (s.pins.bootSrc = 1 → s.boot.phase = 1 → s.boot.helloDue = true → portUp s s.boot.bootPort = true →
      Answers .chainBootHello s (fun t =>
        t = { s with ports := t.ports } ∧ ∃ pkt : Packet,
          (port t s.boot.bootPort).queue = (port s s.boot.bootPort).queue ++ [⟨1, 2, pkt.bytes⟩] ∧
          pkt.neighbour = true ∧ pkt.typ = 6 ∧ rd pkt.payload 0 1 = 0x20)) ∧
    (rd pay 0 1 = 0x20 → (lane s p).bootServe = true → s.boot.phase = 6 → Answers (.chainBootHelloReceive p pay) s (fun t =>
      t = { s with ports := t.ports, serve := t.serve } ∧ (tget t.serve p {}).active = true ∧
      (tget t.serve p {}).core = 0 ∧ (tget t.serve p {}).offset ≤ 65536 ∧ ∀ q, q ≠ p → tget t.serve q {} = tget s.serve q {})) ∧
    (rd pay 0 1 = 0x20 → (lane s p).bootServe = false → exec (.chainBootHelloReceive p pay) s = .next s) ∧
    (rd pay 0 1 = 0x22 → (tget s.serve p {}).active = true → rd pay 1 1 = (tget s.serve p {}).core → rd pay 3 1 ≠ 0 →
      Answers (.chainBootAckReceive p pay) s (fun t =>
        t = { s with serve := t.serve } ∧ (tget t.serve p {}).active = false)) ∧
    (s.pins.bootSrc = 1 → s.boot.phase = 1 → s.boot.server = none → rd pay 0 1 = 0x21 → rd pay 4 4 = 0 →
      rd pay 8 2 % 16 = 0 → 0 < rd pay 8 2 → rd pay 8 2 ≤ 224 → pay.length = 16 + rd pay 8 2 → rd pay 2 1 % 2 = 0 →
      p = s.boot.bootPort →
      Answers (.chainBootData p src pay) s (fun t =>
        t = { s with boot := t.boot } ∧ t.boot.server = some src ∧ t.boot.rxBytes = pay.drop 16 ∧
        t.boot.rxCore = rd pay 1 1 ∧ t.boot.helloDue = false ∧ t.boot.held = s.boot.held))

/-- The start of the cores up to IDLE, and chain boot. -/
def Obligations.BootReachesIdle : Prop :=
  Claim.BootReachesIdle ∧ Claim.ChainBootServesAndReceives

/-- R315 to R318, R410: the mailbox. A write of SECMB_CMD makes it BUSY with that command, whose request lies in the buffer that
SECMB_BUF names then, and a command that comes while another runs is ignored and counted. CHALLENGE leaves 32 bytes, the challenge that the next command may use, at the result's place; any
other command uses it up; ATTEST answers OK; the owner of a CLAIMED session raises floors, which never fall, and enrols a key
where none is enrolled, in flash as well; a command of another session is refused and changes neither. That the buffer is the one named with the command and
that the second command is counted as ignored are the model's choices (logs 48, 51). -/
def Claim.MailboxCommandsComplete : Prop :=
  ∀ (s : State) (req : List Byte), alive s = true → req.length = 4096 → mbRefused s = false → s.rings.host = 0 → hostReady s = true →
    (∀ k, 1 ≤ k → k ≤ 5 → s.mb.status ≠ 1 → exec (.registerWrite .bar0 0x30008 4 k) s =
      .next { s with mb := { s.mb with status := 1, cmd := k, runBuf := s.mb.buf } }) ∧
    (s.mb.status = 1 → s.mb.cmd ≠ 2 → exec (.challenge req) s = .next { s with mb.ignored := sat32 (s.mb.ignored + 1) }) ∧
    (s.mb.status = 1 → s.mb.cmd = 2 → zeros (hostPeek s s.mb.runBuf 4096) 8 56 = true → Answers (.challenge req) s (fun t =>
      t.mb.status = 2 ∧ t.mb.result = 0 ∧ t.mb.challenge = some (hostPeek t (s.mb.runBuf + 64) 32))) ∧
    (s.mb.status ≠ 1 →
    (zeros req 8 56 = true → Answers (.challenge req) s (fun t =>
      t = { s with mb := t.mb, hostMem := t.hostMem, free := s.free + 32 } ∧ t.mb.status = 2 ∧ t.mb.result = 0 ∧
      t.mb.challenge = some (hostPeek t (s.mb.buf + 64) 32))) ∧
    (zeros req 8 24 = true → Answers (.attest req) s (fun t =>
      t = { s with mb := t.mb, hostMem := t.hostMem, free := s.free + 1 } ∧ t.mb.status = 2 ∧ t.mb.result = 0 ∧
      t.mb.challenge = none ∧ rd (hostPeek t (s.mb.buf + 64) 4) 0 4 = 0x50455241)) ∧
    (rd req 0 8 = s.job.session → s.glob.jobState = 2 → rd req 8 1 < 16 → zeros req 9 55 = true → s.act = none →
      s.actQueue = [] → s.boot.floors.length = 4 →
      Answers (.raiseFloor req) s (fun t =>
        t = { s with mb := t.mb, boot := { s.boot with floors := t.boot.floors }, flash := t.flash } ∧ t.mb.result = 0 ∧
        (∀ c, c < 4 → (s.boot.floors[c]?).getD 0 ≤ (t.boot.floors[c]?).getD 0) ∧
        (∀ c, c < 4 → (rd req 8 1).testBit c = false → t.boot.floors[c]? = s.boot.floors[c]?) ∧
        t.flash.floor = writeHalf floorBytes s.flash.floor t.boot.floors)) ∧
    (rd req 0 8 = s.job.session → s.glob.jobState = 2 → rd req 8 1 < 2 → zeros req 9 55 = true → s.boot.ownerKey = [] →
      (slice req 64 64).any (fun b => b != 0) = true →
      Answers (.enrollOwner req) s (fun t =>
        t = { s with mb := t.mb, boot := t.boot, flash := t.flash } ∧ t.mb.result = 0 ∧
        t.boot.ownerKey = slice req 64 64 ∧ (t.boot.rootAllowed = true ↔ rd req 8 1 = 1) ∧
        t.boot.floors = s.boot.floors ∧
        t.flash.owner = writeHalf ownerBytes s.flash.owner ⟨t.boot.ownerKey, t.boot.rootAllowed⟩)) ∧
    (rd req 0 8 ≠ s.job.session → ∀ c, c = Instr.raiseFloor req ∨ c = .enrollOwner req ∨ c = .replaceOwner req →
      Answers c s (fun t =>
        t = { s with mb := t.mb } ∧ t.mb.result = 0x12 ∧ t.mb.challenge = none)))

/-- R316: the owner is replaced only on a challenge that its key has signed, with the message of Table 12.8; the new key and
ROOT_ALLOWED are in force and in flash. Without a challenge the command fails and nothing of the owner changes. -/
def Claim.OwnerIsReplacedBySignature : Prop :=
  ∀ (s : State) (req ch : List Byte), alive s = true → req.length = 4096 → mbRefused s = false →
    s.mb.status ≠ 1 → rd req 0 8 = s.job.session → s.glob.jobState = 2 →
    (s.mb.challenge = some ch → rd req 8 1 < 2 → zeros req 9 55 = true → s.boot.ownerKey ≠ [] →
      sm2Verify s.boot.ownerKey (replaceMessage s ch req) (slice req 128 64) = true →
      (slice req 64 64).any (fun b => b != 0) = true →
      Answers (.replaceOwner req) s (fun t =>
        t = { s with mb := t.mb, boot := t.boot, flash := t.flash } ∧ t.mb.result = 0 ∧ t.mb.challenge = none ∧
        t.boot.ownerKey = slice req 64 64 ∧ (t.boot.rootAllowed = true ↔ rd req 8 1 = 1) ∧
        t.flash.owner = writeHalf ownerBytes s.flash.owner ⟨t.boot.ownerKey, t.boot.rootAllowed⟩)) ∧
    (s.mb.challenge = none → Answers (.replaceOwner req) s (fun t => t = { s with mb := t.mb } ∧ t.mb.result = 0x11))

/-- The security mailbox, and the replacement of the owner by its signature. -/
def Obligations.MailboxCommandsComplete : Prop :=
  Claim.MailboxCommandsComplete ∧ Claim.OwnerIsReplacedBySignature

/-- R321 to R327: live update. A checked image is staged and runs nowhere. An activation is checked when it is received: it begins
where none is under way, and waits behind another. It is armed when nothing blocks it, sealed with the handoff block of the old image,
and accepted by the new one; a rejected or late handoff and a watchdog in the validation window end it with the reason, with the
images as they were; a rolling update whose next Folio has no spare stops; a deferred one expires with its image still staged. While the
security core switches, a descriptor for it waits (R324); a watchdog of a core that has sealed its block does nothing. -/
def Obligations.LiveUpdateStages : Prop :=
  ∀ (s : State) (h g : Hdr) (src bytes c f r : Nat) (w : Bool) (pay : List Byte) (a : Activation), alive s = true →
    (Admitted s h → s.glob.jobState = 2 ∨ s.glob.jobState = 4 ∨ s.glob.jobState = 5 → s.rings.host = 0 → src < 2 ^ 64 →
      bytes < 2 ^ 32 →
      (coreSwitching s 0 = true →
        exec (.updateStage h src bytes) s = .next (hold s h (.stage src bytes)) ∧
        (c < 4 → f < 68 ∨ f = 0xFF → exec (.updateActivate h c f) s = .next (hold s h (.activate c f)))) ∧
      (coreSwitching s 0 = false →
      (checkImage s (hostPeek s src bytes) bytes false = none → activating s (imgCore (hostPeek s src bytes)) = false →
        exec (.updateStage h src bytes) s = .next (complete
          { s with boot := { s.boot with staged := tput s.boot.staged (imgCore (hostPeek s src bytes)) (hostPeek s src bytes) } }
          h 0 0)) ∧
      (heldCount s < 256 → c < 4 → f < 68 ∨ f = 0xFF →
        (∀ st d, activateBad s c f = some (st, d) → exec (.updateActivate h c f) s = .next (complete s h st d)) ∧
        (activateBad s c f = none → s.act = some a → exec (.updateActivate h c f) s = .next
          { s with actQueue := s.actQueue ++ [(h, activationFor s c f)] }) ∧
        (activateBad s c f = none → s.act = none → s.actQueue = [] → s.frame.live = true → c < 3 → majorDiffers s c = false →
          exec (.updateActivate h c f) s = .next
            { s with actHdr := some h, act := some { core := c, folio := f, stage := 1, imgs := s.boot.staged } })))) ∧
    (s.act = some a → s.actHdr = some g → s.actQueue = [] →
      (a.stage = 1 → s.frame.live = false → s.power.level < 2 → updateBlocked s = false →
        (a.core = 3 → a.all = false → (folio s a.target).state = 0) →
        ((a.rolling = true → spareReady s a.target = true) →
          exec .activationDeferRetest s = .next { s with act := some { a with stage := 2 } }) ∧
        (a.rolling = true → spareReady s a.target = false →
          exec .activationDeferRetest s = .next (endAct (reform s) 0x15 (stopData a a.target)))) ∧
      (a.stage = 2 → s.power.level < 2 → s.frame.live = true → pay.length ≤ 16256 →
        exec (.handoffSeal pay) s = .next { s with act := some { a with stage := 3, blocks := (a.folios s).map (fun n => (n, handoffBlock s a pay n)) } }) ∧
      (a.stage = 3 → ∀ k, (a.core = 0 ∧ k = Instr.securityWatchdog) ∨ (a.core = 1 ∧ k = .powerWatchdog w) ∨
        (a.core = 2 ∧ k = .schedulerWatchdog w) → exec k s = .next s) ∧
      (a.stage = 4 → s.frame.live = true → handoffBad a = none →
        exec .handoffAccept s = .next (servedBy { s with act := some { a with stage := 5 } } a)) ∧
      (a.stage = 4 → a.rolling = false → s.rings.held.all (fun x => !x.op.ofSecurity) = true →
        (∀ k, handoffBad a = some k →
          exec .handoffAccept s = .next (servedBy (complete { s with act := none, actHdr := none } g 0x13 k) a)) ∧
        (1 ≤ r → r ≤ 4 →
          exec (.handoffReject r) s = .next (servedBy (complete { s with act := none, actHdr := none } g 0x13 r) a)) ∧
        Answers (.handoffTimeout w) s (fun t =>
          t.act = none ∧ t.actHdr = none ∧ t.boot = s.boot ∧ t.mem = s.mem ∧
          (w = false → t = servedBy (complete { s with act := none, actHdr := none } g 0x13 5) a) ∧
          (w = true → t.flt.last.length = 64 ∧ t.flt.seq = (s.flt.seq + 1) % 2 ^ 32)) ∧
        (∀ k, (a.core = 0 ∧ k = Instr.securityWatchdog) ∨ (a.core = 1 ∧ k = .powerWatchdog w ∧ s.power.dead = false) ∨
            (a.core = 2 ∧ k = .schedulerWatchdog w) →
          Answers k s (fun t =>
            t.act = none ∧ t.boot = s.boot ∧ alive t = true ∧ t.flt.seq = (s.flt.seq + 1) % 2 ^ 32))) ∧
      (a.stage = 1 → a.deferred = true → Answers .activationExpire s (fun t =>
        t = complete { (if a.rolling then reform s else s) with act := none, actHdr := none } g 0x17 0 ∧
        t.boot.staged = s.boot.staged ∧ t.boot.running = s.boot.running)))

/-! ### Descriptors, the session and the job -/

/-- R285, R290, Table 11.6: the completion of a descriptor. A ring with room takes one record of 32 bytes at its tail, with the status,
the submission ring, TAG and DATA of the descriptor and the ring's phase in STATUS2; the tail advances, and no other byte of
the host's memory and nothing but that ring, and the interrupt that was asked for, changes. -/
def Claim.CompletionRecordIsWritten : Prop :=
  ∀ (s : State) (h : Hdr) (status data : Nat), h.wf = true → RoomFor s h → status < 256 → data < 2 ^ 64 →
    (cq s h.cq).phase ≤ 1 →
    let t := complete s h status data
    let a := (cq s h.cq).base + 32 * (cq s h.cq).tail
    rd (hostPeek t a 32) 0 1 = 1 ∧ rd (hostPeek t a 32) 1 1 = status ∧ rd (hostPeek t a 32) 2 1 = (cq s h.cq).phase ∧
    rd (hostPeek t a 32) 3 1 = h.sq ∧ rd (hostPeek t a 32) 4 4 = h.tag ∧ rd (hostPeek t a 32) 24 8 = data ∧
    (∀ x, x < a ∨ a + 32 ≤ x → readByte t.hostMem x = readByte s.hostMem x) ∧ cq t h.cq = (cq s h.cq).pushed ∧
    (∀ k, k ≠ h.cq → cq t k = cq s k) ∧
    t = { s with hostMem := t.hostMem, rings := { s.rings with cq := t.rings.cq }, pcie := t.pcie, out := t.out } ∧
    (h.flags.testBit 0 = false → t.pcie = s.pcie ∧ t.out = s.out)

/-- R287, R292 to R294: a descriptor that breaks its header, comes in BOOT, names another session, comes from a restricted session
or in a state that its type does not allow completes with its status and has no other effect; over a degraded link, and while the
scheduler core switches to another image or is stopped, none is accepted (R12, R280, R304, R324). The order among these checks is
the model's reading (log 43). -/
def Claim.DescriptorsAreGated : Prop :=
  ∀ (s : State) (h : Hdr) (c : Instr), alive s = true → c.wf = true → h.wf = true → s.rings.host = 0 →
    (∃ n k, c = .stepBegin h n k) ∨ (∃ n, c = .jobPause h n) ∨ c = .jobEnd h ∨ c = .checkpointOnce h ∨
      (∃ n, c = .checkpointInterval h n) ∨ (∃ w, c = .paramWrite h w) ∨ (∃ a b, c = .jobStart h a b) →
    (degraded s = true ∨ schedAway s = true → exec c s = .next s) ∧
    (degraded s = false → schedAway s = false →
    (4 ≤ h.flags → exec c s = .next (complete s h 0x11 1)) ∧
    (h.flags < 4 → 4 ≤ h.cq → exec c s = .next (complete s h 0x11 2)) ∧
    (h.flags < 4 → h.cq < 4 →
      (s.glob.jobState = 0 → exec c s = .next (complete s h 0x19 0)) ∧
      (s.glob.jobState ≠ 0 → s.job.session ≠ 0 → h.owner ≠ s.job.session → exec c s = .next (complete s h 0x12 0)) ∧
      (s.glob.jobState ≠ 0 → h.owner = s.job.session → s.job.restricted = true → exec c s = .next (complete s h 0x13 0)) ∧
      (h.owner = s.job.session → s.job.restricted = false → s.glob.jobState = 1 ∨ s.glob.jobState = 6 →
        exec c s = .next (complete s h 0x19 0))))

/-- R285: the next ring in turn gives one descriptor: its head advances, the turn passes on, and the descriptor in the 64 bytes at
the head is carried out; nothing is fetched while the PCIe link of the host is down or degraded, or the part may not master the bus,
while the scheduler core is away, and while the PCIe domain drains (log 68). -/
def Claim.FetchTakesOneDescriptor : Prop :=
  ∀ (s : State) (n : Nat), alive s = true → s.rings.host = 0 →
    (((List.range 16).map (fun i => (s.rings.turn + i) % 16)).find? (mayFetch s) = some n → fetchBlocked s = false →
      let u := { setSq s n { sq s n with head := ((sq s n).head + 1) % 2 ^ (sq s n).size } with
        rings := { (setSq s n { sq s n with head := ((sq s n).head + 1) % 2 ^ (sq s n).size }).rings with turn := (n + 1) % 16, fetchFailed := none } }
      let b := nextDescriptor s n
      exec (.descriptorFetch true) s = .next (runDescriptor u n b) ∧
      (rd b 0 1 = 0 ∨ 0x12 ≤ rd b 0 1 → exec (.descriptorFetch true) s = .next (complete u (headerOf n b) 0x11 0)) ∧
      exec (.descriptorFetch false) s = .next { s with rings := { s.rings with fetchFailed := none } }) ∧
    (s.pcie.up = false ∨ s.pcie.busMaster = false ∨ degraded s = true ∨ schedAway s = true ∨ (dom s 128).state = 3 → exec (.descriptorFetch true) s = .next s)

/-- The completion record, the checks that gate a descriptor, and the fetch. -/
def Obligations.DescriptorsComplete : Prop :=
  Claim.CompletionRecordIsWritten ∧ Claim.DescriptorsAreGated ∧ Claim.FetchTakesOneDescriptor

/-- R293 to R295, R298: the session. A CLAIM in IDLE opens it, with the restriction that the driver's major gives, and an ORPHANED
job is adopted by the session that it belongs to, in the state it had; a CLAIM while another session holds the part is
refused; a RELEASE of a CLAIMED session ends it, in IDLE, with nothing held. -/
def Obligations.SessionIsClaimedAndReleased : Prop :=
  ∀ (s : State) (h : Hdr) (major minor flags : Nat), alive s = true → h.wf = true → h.flags < 4 → h.cq < 4 → h.owner ≠ 0 →
    major < 65536 → minor < 65536 → flags < 2 → degraded s = false → schedAway s = false →
    (s.glob.jobState = 1 → Answers (.claim h major minor flags) s (fun t =>
      t.glob.jobState = 2 ∧ t.job.session = h.owner ∧ t.job.driver = major ∧ t.job.restricted = restrictedFor s major ∧
      t.mem = s.mem ∧ t.frame = s.frame ∧ t.folios = s.folios ∧ t.rings.sq = s.rings.sq)) ∧
    (s.glob.jobState = 6 → h.owner = s.job.session → Answers (.claim h major minor flags) s (fun t =>
      t.glob.jobState = s.job.savedState ∧ t.job.session = h.owner ∧ t.job.blk = s.job.blk ∧ t.job.step = s.job.step ∧
      t.mem = s.mem ∧ t.frame = s.frame)) ∧
    (2 ≤ s.glob.jobState → s.glob.jobState ≤ 5 → exec (.claim h major minor flags) s = .next (complete s h 0x12 0)) ∧
    (s.glob.jobState = 2 → h.owner = s.job.session → Answers (.release h flags) s (fun t =>
      t.glob.jobState = 1 ∧ t.job = {} ∧ t.rings.held = [] ∧ t.cnt.userRead = false ∧ t.mem = s.mem ∧ t.frame = s.frame))

/-- R42: a Ductus is copied whole to DST, where no byte of an earlier one may remain, and stands under its id when the load check
passes; when it does not, the load is rejected with a record whose DETAIL is the number of the condition that fails, and no Ductus is added. -/
def Obligations.DuctusIsLoadedAndChecked : Prop :=
  ∀ (s : State) (h : Hdr) (src bytes dst : Nat), alive s = true → Admitted s h → 2 ≤ s.glob.jobState → s.glob.jobState ≤ 5 →
    s.rings.host = 0 → src < 2 ^ 64 → 6 ≤ bytes → bytes < 2 ^ 32 → dst < 2 ^ 48 → installed s dst bytes = true → s.mem.bad = [] →
    (rotation s).any (fun d => d.id == leNat (hostPeek s (src + 4) 2)) = false →
    let c := { store s dst (hostPeek s src bytes) with
      ductus := s.ductus.filter (fun e => decide (e.addr + e.bytes ≤ dst) || decide (dst + bytes ≤ e.addr)) }
    let d : Loaded := { id := leNat (hostPeek s (src + 4) 2), addr := dst, bytes := bytes }
    let n := loadCheck c d (fbInForce s) (wellInForce s)
    Answers (.loadDuctus h src bytes dst) s (fun t =>
      peek t dst bytes = hostPeek s src bytes ∧ SameOutside s t dst bytes ∧ t.frame = s.frame ∧ t.job = s.job ∧
      (n = 0 → d ∈ t.ductus ∧ (∀ e ∈ t.ductus, e.id = d.id → e = d) ∧ t.flt = s.flt) ∧
      (n ≠ 0 → t.ductus = c.ductus ∧ t.flt.seq = (s.flt.seq + 1) % 2 ^ 32 ∧ rd t.flt.last 0 1 = 0x11 ∧ rd t.flt.last 32 8 = n))

/-- R296, R24: a job block that passes starts the job: STARTING, with the block's registers, step, frame period and bank masks, and no
frame running; one that fails completes with its status and changes nothing but what the reads of the replica table count and correct
(R354, R194), and a line of it that cannot be corrected completes with MEM_UNCORRECTABLE; a part whose die was short of Folios at its
cold start runs no job, and completes with SPARE_EXHAUSTED and its record. That only the completion of JOB_START says so, and with which
DATA, is the model's choice (log 54). -/
def Obligations.JobStartsFromItsBlock : Prop :=
  ∀ (s : State) (h : Hdr) (block bytes : Nat), alive s = true → Admitted s h → s.glob.jobState = 2 → s.rings.host = 0 →
    block < 2 ^ 64 → bytes < 2 ^ 32 →
    (s.folios.short = none → readsBad s (replicaReads s) = none →
      (jobBlockBad (noteReads s (replicaReads s)) block bytes = none → Answers (.jobStart h block bytes) s (fun t =>
        t.glob.jobState = 3 ∧ t.job.blk = readBlock s block ∧ t.job.step = (readBlock s block).startStep ∧
        t.job.session = s.job.session ∧ t.frame.live = false ∧ t.time.period = rd (hostPeek s block 256) 20 4 ∧
        t.glob.stackUse = rd (hostPeek s block 256) 43 1 ∧ t.glob.ckptBase = rd (hostPeek s block 256) 64 8 ∧
        (∀ n, n < 68 → (folio s n).state = 0 → (folio t n).fbOn = (readBlock s block).fbMask ∧
          (folio t n).wellOn = (readBlock s block).wellMask) ∧
        t.rings.sq = s.rings.sq ∧ t.boot = s.boot ∧ t.flash = s.flash ∧ t.ductus = s.ductus)) ∧
      (∀ st d, jobBlockBad (noteReads s (replicaReads s)) block bytes = some (st, d) →
        exec (.jobStart h block bytes) s = .next (complete (noteReads s (replicaReads s)) h st d))) ∧
    (∀ l, s.folios.short = none → readsBad s (replicaReads s) = some l →
      exec (.jobStart h block bytes) s = .next (complete (lineError s l) h 0x0B (lineDetail s (64 * l)))) ∧
    (∀ d, s.folios.short = some d → ∃ t, t.glob = s.glob ∧ t.flt.seq = (s.flt.seq + 1) % 2 ^ 32 ∧ rd t.flt.last 0 1 = 0x15 ∧
      t.job = s.job ∧ t.folios = s.folios ∧ exec (.jobStart h block bytes) s = .next (complete t h 0x15 0))

/-- R297, R226, R228, R229, R156: what the job's descriptors do between steps. While no frame runs STEP_BEGIN, PARAM_WRITE and
SHAPE_CELL take effect at once; while frames run they are held; a write for a past step is late; CHECKPOINT sets the interval
or is held for the next boundary. -/
def Obligations.JobDescriptorsTakeEffectOrWait : Prop :=
  ∀ (s : State) (h : Hdr) (n k dst src : Nat) (w : ParamWrite), alive s = true → Admitted s h →
    s.glob.jobState = 4 ∨ s.glob.jobState = 5 → s.rings.host = 0 → n < 2 ^ 32 → k < 2 ^ 32 → dst < 2 ^ 48 → src < 2 ^ 64 →
    w.wf = true → paramBad w = none → s.mem.bad = [] → heldCount s < 256 →
    (s.frame.live = false →
      exec (.stepBegin h n k) s = .next (complete
        { s with job := { s.job with step := n, allowance := if k = 0 then none else some k } } h 0 0) ∧
      (s.job.step ≤ w.target → Answers (.paramWrite h w) s (fun t =>
        (w.fields.testBit 0 = true → peek t (groupAt s w.group) 4 = leBytes 4 w.lr ∧
          peek t (groupAt s w.group + 24) 4 = leBytes 4 w.target) ∧
        (w.fields.testBit 1 = true → peek t (groupAt s w.group + 4) 4 = leBytes 4 w.beta1) ∧
        (w.fields.testBit 2 = true → peek t (groupAt s w.group + 8) 4 = leBytes 4 w.beta2) ∧
        (w.fields.testBit 3 = true → peek t (groupAt s w.group + 12) 4 = leBytes 4 w.eps) ∧
        (w.fields.testBit 4 = true → peek t (groupAt s w.group + 16) 4 = leBytes 4 w.wd) ∧
        SameOutside s t (groupAt s w.group) 28 ∧ t.frame = s.frame ∧ t.job = s.job)) ∧
      (dst % 64 = 0 → installed s dst 64 = true → Answers (.shapeCellWrite h dst src) s (fun t =>
        peek t dst 64 = hostPeek s src 64 ∧ SameOutside s t dst 64 ∧ t.frame = s.frame ∧ t.job = s.job))) ∧
    (s.frame.live = true →
      exec (.stepBegin h n k) s = .next { s with rings := { s.rings with held := s.rings.held ++ [⟨h, .stepBegin n k, pastSwitch s⟩] } } ∧
      (s.job.step ≤ w.target → s.job.params.length < 4096 → exec (.paramWrite h w) s = .next
        { s with job := { s.job with params := s.job.params ++ [⟨h, .param w, false⟩] } })) ∧
    (w.target < s.job.step → exec (.paramWrite h w) s = .next (complete s h 0x18 0)) ∧
    exec (.checkpointInterval h n) s = .next (complete
      { s with job := { s.job with blk := { s.job.blk with ckptInterval := n } } } h 0 0) ∧
    exec (.checkpointOnce h) s = .next { s with rings := { s.rings with held := s.rings.held ++ [⟨h, .ckptOnce none, pastSwitch s⟩] } }

/-- R297, R298: PAUSE, RESUME and END. A PAUSE for a later step and a RESUME for a later frame wait; one for a step or frame that
has begun is late, but a PAUSE of a paused job at its own step is met (the model's choice, log 54); END of a paused job ends it: CLAIMED, no frames, every bank on, no checkpoint or rollback under way. -/
def Obligations.JobPausesResumesAndEnds : Prop :=
  ∀ (s : State) (h : Hdr) (n f : Nat), alive s = true → Admitted s h → s.rings.host = 0 → n < 2 ^ 32 → f < 2 ^ 48 →
    heldCount s < 256 →
    (s.glob.jobState = 4 →
      (s.job.step < n → exec (.jobPause h n) s = .next
        { s with rings := { s.rings with held := s.rings.held ++ [⟨h, .pause n, pastSwitch s⟩] } }) ∧
      (n ≤ s.job.step → exec (.jobPause h n) s = .next (complete s h 0x18 0)) ∧
      exec (.jobEnd h) s = .next { s with rings := { s.rings with held := s.rings.held ++ [⟨h, .jobEnd, pastSwitch s⟩] } } ∧
      exec (.jobResume h f) s = .next (complete s h 0x19 0)) ∧
    (s.glob.jobState = 5 →
      (n = s.job.step → exec (.jobPause h n) s = .next (complete s h 0 0)) ∧
      (laterFrame f (currentFrame s) = false → exec (.jobResume h f) s = .next (complete s h 0x18 0)) ∧
      (laterFrame f (currentFrame s) = true → (∀ x ∈ s.rings.held, ∀ g, x.op ≠ .resume g) →
        exec (.jobResume h f) s = .next { s with rings := { s.rings with held := s.rings.held ++ [⟨h, .resume f, pastSwitch s⟩] } }) ∧
      Answers (.jobEnd h) s (fun t =>
        t.glob.jobState = 2 ∧ t.job.session = s.job.session ∧ t.job.blk = {} ∧ t.job.step = 0 ∧ t.frame.live = false ∧
        t.frame.current = none ∧ t.frame.prog = [] ∧ t.train = {} ∧ t.glob.stackUse = 0xFF ∧
        (∀ k, k < 68 → (folio t k).fbOn = 2 ^ 64 - 1 ∧ (folio t k).wellOn = 2 ^ 16 - 1) ∧
        (∀ x ∈ t.rings.held, HeldOp.ofJob x.op = false) ∧ t.ductus = s.ductus ∧
        (s.folios.remaps = [] → s.time.pendSource = none → s.act = none → s.actQueue = [] → t.mem = s.mem ∧ t.boot = s.boot)))

/-- R269, R270: windows. While no frame runs an OPEN of a closed window over installed memory opens it with its entry, and a CLOSE
closes it at the checkers and waits for the close to be done, which completes it; while frames run both are held, and take
effect in the window phase of the seam. -/
def Claim.WindowsOpenAndClose : Prop :=
  ∀ (s : State) (h : Hdr) (w : Nat) (e : List Byte), alive s = true → Admitted s h → 2 ≤ s.glob.jobState → s.glob.jobState ≤ 5 →
    w < 256 → e.length = 32 → windowBad e = none → heldCount s < 256 →
    (s.frame.live = false →
      ((window s w).isOpen = false → installed s (windowOf e).base (windowOf e).length = true →
        Answers (.openWindow h w e) s (fun t =>
          window t w = { windowOf e with closing := (window s w).closing } ∧ w ∈ t.job.opened ∧
          (∀ v, v ≠ w → window t v = window s v) ∧ t.mem = s.mem ∧ t.fab.routes = s.fab.routes)) ∧
      ((window s w).isOpen = true → Answers (.closeWindow h w) s (fun t =>
        t = { s with fab := { s.fab with windows := t.fab.windows }, rings := { s.rings with held := s.rings.held ++ [⟨h, .closing w, false⟩] } } ∧
        (window t w).isOpen = false ∧ (window t w).closing = true ∧ ∀ v, v ≠ w → window t v = window s v))) ∧
    (s.frame.live = true →
      exec (.openWindow h w e) s = .next { s with rings := { s.rings with held := s.rings.held ++ [⟨h, .openWindow w e, pastSwitch s⟩] } } ∧
      exec (.closeWindow h w) s = .next { s with rings := { s.rings with held := s.rings.held ++ [⟨h, .closeWindow w, pastSwitch s⟩] } }) ∧
    ((window s w).closing = true → Answers (.windowCloseDone w) s (fun t =>
      (window t w).closing = false ∧ (window t w).isOpen = (window s w).isOpen ∧ t.cnt = (devEvent s 0x5B 1).cnt ∧
      (∀ x ∈ t.rings.held, x.op ≠ .closing w) ∧ t.mem = s.mem ∧ t.frame = s.frame)) ∧
    (s.frame.seam = true → s.frame.phase = 2 → s.rings.held = [⟨h, .closeWindow w, false⟩] → (window s w).isOpen = true →
      Answers .windowPhase s (fun t =>
        (window t w).isOpen = false ∧ (window t w).closing = true ∧ t.rings.held = [⟨h, .closing w, false⟩] ∧ t.streams = [] ∧
        t.frame = { s.frame with phase := 3 } ∧ t.mem = s.mem))

/-- R130, R359, R371: descriptors of the supervisor's own. A snapshot is taken at once while no frame runs and the previous record is written
whole, and held for the seam otherwise (the model's choice, log 66); a test request makes the Folio due, by its deadline, and waits for the test; a mask operation whose record decodes
and runs, once what other devices hold is here, completes with what it did (log 49). -/
def Claim.SnapshotTestAndMaskDescriptors : Prop :=
  ∀ (s : State) (h : Hdr) (n d rec : Nat), alive s = true → Admitted s h → s.rings.host = 0 → heldCount s < 256 → n < 68 →
    d < 2 ^ 32 → rec < 2 ^ 48 →
    (2 ≤ s.glob.jobState → s.glob.jobState ≤ 5 →
      (s.frame.live = false → captureBusy s = false → exec (.counterSnapshot h) s = .next (complete (capture s false true) h 0 0)) ∧
      (s.frame.live = true ∨ captureBusy s = true → exec (.counterSnapshot h) s = .next
        { s with rings := { s.rings with held := s.rings.held ++ [⟨h, .snapshot, pastSwitch s⟩] } })) ∧
    (s.glob.jobState = 2 ∨ s.glob.jobState = 4 ∨ s.glob.jobState = 5 → s.scan.available = true →
      Answers (.testRequest h n d) s (fun t =>
        t = { s with scan := { s.scan with due := t.scan.due }, rings := { s.rings with held := s.rings.held ++ [⟨h, .test n, pastSwitch s⟩] } } ∧
        ∃ x ∈ t.scan.due, x.folio = n ∧ x.deadlineAt ≤ timeSec s.time.now + (if d = 0 then 86400 else d))) ∧
    (s.glob.jobState = 2 ∨ s.glob.jobState = 3 ∨ s.glob.jobState = 5 →
      readsBad s (maskRecReads s rec) = none →
      let u := noteReads s (maskRecReads s rec)
      let x : Held := ⟨h, .maskOp rec, false⟩
      (∀ r v t, decodeMask u rec = .ok r →
        fetchMask { u with rings := { u.rings with held := u.rings.held ++ [x] } } { tag := 0, dst := 0, idx := rec, cls := 1 } r = (v, some (t, none)) →
        exec (.maskOp h rec) s = .next (complete { t with rings := { t.rings with held := t.rings.held.erase x } } h 0 0)) ∧
      (∀ e, decodeMask u rec = .error e → e.code = 0x11 →
        exec (.maskOp h rec) s = .next (complete u h 0x11 e.detail)))

/-- Windows open and close; snapshots, test requests and mask operations. -/
def Obligations.WindowsAndRequests : Prop :=
  Claim.WindowsOpenAndClose ∧ Claim.SnapshotTestAndMaskDescriptors

/-! ### The frame -/

/-- R34, R37, R43, R49: the frame tick. After the seam of a running job the tick begins the frame that the seam has advanced to: its
stroke region opens at cycle and Ductus clock 0, with no stall counted and no stroke issued; before the seam it does nothing.
A STARTING job whose START_FRAME has come runs from it, unless the scheduler core that starts it is stopped (R304): RUNNING, in the
stroke region, with the Ductus of that frame. -/
def Obligations.FrameTickBeginsTheFrame : Prop :=
  ∀ s : State, alive s = true → s.time.period ≠ 0 → s.fab.holdNext = [] → s.rings.writes = [] → s.mem.bad = [] → s.mem.corr = [] →
    s.train.asSpare = none →
    (s.frame.live = true → s.frame.seam = true → s.frame.phase = 7 → jobPhase s = 4 → Answers .frameTick s (fun t =>
      t.frame = { freshFrame s s.frame.number with region := true, blocked := t.frame.blocked } ∧ t.mem = s.mem ∧
      t.job = s.job ∧ t.glob = s.glob ∧ t.rings = s.rings ∧
      t.flt = { s.flt with region := s.flt.region ++ s.flt.inSeam, inSeam := [] } ∧ t.folios = s.folios)) ∧
    (s.frame.live = true → s.frame.seam = false → exec .frameTick s = .next s) ∧
    (s.frame.live = false → s.glob.jobState = 3 → laterFrame s.job.blk.startFrame (tickNumber s) = false →
      s.boot.schedDown = false → s.train.retake = none → s.job.blk.ckptInterval = 0 → s.colo.interval = 0 → s.rings.held = [] → Answers .frameTick s (fun t =>
        t.glob.jobState = 4 ∧ t.frame.live = true ∧ t.frame.region = true ∧ t.frame.cycle = 0 ∧ t.frame.clock = 0 ∧
        t.frame.number = tickNumber s ∧ t.frame.current = overlayAt s (tickNumber s) s.job.blk.startFrame ∧
        t.frame.issued = [] ∧ t.job = { s.job with f0 := s.job.blk.startFrame } ∧ t.mem.cells = s.mem.cells)) ∧
    (s.frame.live = false → s.glob.jobState ≤ 2 ∨ s.boot.schedDown = true → Answers .frameTick s (fun t =>
      t.frame = freshFrame s (tickNumber s) ∧ t.mem = s.mem ∧ t.job = s.job ∧ t.glob = s.glob ∧ t.rings = s.rings))

/-- R39, R43, R47, R52, R114, Table 2.5: one cycle of the issue loop. Where no stall holds, every stroke that is due issues, at the
Ductus clock, with what its records name in that cycle, and the clock advances; where one holds nothing issues, the clock waits, and S and the classes that hold advance. Either
way the cycle ends, but for the one in which S passes the margin M. Memory and tags do not change by the loop itself. Once the seam
is due, no cycle of it runs. A stroke whose record or descriptors break a rule aborts the frame as it issues. That a stroke's issue is
the moment of its decoding, and that the cycle in which S passes M ends with the overrun, are the model's choices (logs 7, 52). -/
def Obligations.StrokeIssueRunsOneCycle : Prop :=
  ∀ (s : State) (d : Loaded), alive s = true → s.frame.live = true → s.frame.region = true → s.frame.exceeded = false →
    s.frame.aborted = false → curDuctus s = some d → s.frame.cls.length = 6 →
    let ps := picks s d
    let cs := stallClasses s d (firstWait ps).isSome
    let u := stallSignals s cs
    (seamDue s = true → exec .strokeIssue s = .next s) ∧
    (seamDue s = false → cs.any id = true → Answers .strokeIssue s (fun t =>
      t.frame.stall = s.frame.stall + 1 ∧ t.frame.cls = List.zipWith (fun n c => n + b2n c) s.frame.cls cs ∧
      t.frame.clock = s.frame.clock ∧ t.frame.issued = s.frame.issued ∧ t.frame.prog = s.frame.prog ∧ t.mem = s.mem ∧
      t.flt = s.flt ∧ t.job = s.job ∧
      (s.frame.stall + 1 ≤ margin s → t.frame.exceeded = false ∧ t.frame.cycle = s.frame.cycle + 1 ∧
        t.frame.seen = s.mem.full ∧ t.time.now = (elapse s unitsPerCycle).time.now) ∧
      (margin s < s.frame.stall + 1 → t.frame.exceeded = true ∧ t.frame.cycle = s.frame.cycle))) ∧
    (seamDue s = false → cs.any id = false → s.mem.bad = [] → s.mem.corr = [] →
      (∀ y sw, Pick.go y sw ∈ ps → ∃ r, decodeAt u y = .ok r) → (dueNow s d).length ≤ 1 → Answers .strokeIssue s (fun t =>
        t.frame.clock = s.frame.clock + 1 ∧ t.frame.cycle = s.frame.cycle + 1 ∧ t.frame.stall = s.frame.stall ∧
        t.frame.cls = s.frame.cls ∧ t.mem = s.mem ∧ t.flt = s.flt ∧
        (dueNow s d = [] → t.frame.issued = s.frame.issued ∧ t.frame.prog = s.frame.prog) ∧
        (∀ x, dueNow s d = [x] → holdOn s d (ctxFor s x.1 x.2.1 x.2.2) = none →
          t.frame.issued = s.frame.issued ++ [(x.1, x.2.1)] ∧
          ∃ r, t.frame.prog = s.frame.prog ++ [r] ∧ r.folio = x.1 ∧ r.idx = x.2.1 ∧ r.start = s.frame.clock ∧ r.done = false ∧
            decodeAt u (ctxFor s x.1 x.2.1 x.2.2) = .ok r.dec))) ∧
    (∀ x b, seamDue s = false → cs.any id = false → s.mem.bad = [] → s.mem.corr = [] → dueNow s d = [x] →
      holdOn s d (ctxFor s x.1 x.2.1 x.2.2) = none → decodeAt u (ctxFor s x.1 x.2.1 x.2.2) = .error b → Answers .strokeIssue s (fun t =>
        t.frame.aborted = true ∧ t.frame.prog = [] ∧ t.mem = s.mem ∧ t.flt.seq = (s.flt.seq + 1) % 2 ^ 32 ∧
        rd t.flt.last 0 1 = b.code % 256))

/-- R184, R187: a stroke that completes leaves the strokes in progress; its input slots become EMPTY, but for those that it keeps
or also outputs, and then its output slots become FULL; a slot that has been set in the same cycle ends FULL. No other tag, and no byte
of memory, changes. In a stalled cycle no stroke completes (R43), and none after an abort (R45). -/
def Obligations.CompletedStrokeSetsItsTags : Prop :=
  ∀ (s : State) (d : Loaded) (l i : Nat) (r : Running), alive s = true → curDuctus s = some d → r ∈ s.frame.prog →
    r.folio = l → r.idx = i → r.done = true → l < 64 → i < 2 ^ 20 →
    (s.frame.blocked = true ∨ s.frame.aborted = true → exec (.strokeComplete l i) s = .next s) ∧
    (s.frame.blocked = false → s.frame.aborted = false →
    let k := strokeAt s d l i
    let outs := outSlots s d k
    Answers (.strokeComplete l i) s (fun t =>
      t = { s with
        mem := { s.mem with full := t.mem.full }, cnt := t.cnt
        frame := { s.frame with prog := t.frame.prog, setNow := t.frame.setNow, clearedNow := t.frame.clearedNow } } ∧
      t.frame.prog = s.frame.prog.filter (fun r => !(r.folio == l && r.idx == i)) ∧
      (∀ n ∈ outs, n ∈ t.mem.full) ∧
      (∀ e ∈ inSlots s d k, slotKeep e = false → slotNo e ∉ outs →
        (s.frame.region = false ∨ slotNo e ∉ s.frame.setNow → slotNo e ∉ t.mem.full) ∧
        (s.frame.region = true → slotNo e ∈ s.frame.setNow → slotNo e ∈ s.mem.full → slotNo e ∈ t.mem.full)) ∧
      (∀ n, n ∉ outs → (∀ e ∈ inSlots s d k, slotKeep e = false → slotNo e ≠ n) → (n ∈ t.mem.full ↔ n ∈ s.mem.full))))

/-- R44, R45, R233: the frame overrun. Once S has passed M the frame aborts: no stroke issues any more, those in progress
do not complete and are gone with the cycle, FRAME_OVERRUN is recorded as a cause with the stall cycles by class in its detail, and a
rollback is asked for. Where the wait in progress is on a slot, TAG_TIMEOUT with the slot's address is recorded before it. -/
def Claim.FrameOverrunAborts : Prop :=
  ∀ s : State, alive s = true → s.frame.live = true → s.frame.region = true → s.frame.aborted = false →
    (s.frame.exceeded = true → s.frame.waitSlot = none → Answers .frameOverrun s (fun t =>
      t.frame.aborted = true ∧ t.frame.exceeded = false ∧ t.frame.issued = s.frame.issued ∧
      t.frame.clock = s.frame.clock ∧ t.mem = s.mem ∧ t.streams = s.streams ∧
      t.flt.seq = (s.flt.seq + 1) % 2 ^ 32 ∧
      (∃ x, t.flt.region = s.flt.region ++ [x] ∧ x.code = 1 ∧ x.cause = true ∧ x.sev = 2 ∧ x.detail = overrunDetail s) ∧
      t.train.waiting = some (s.train.waiting.getD s.frame.number) ∧ t.train.waitCode = 1 ∧
      (∀ l i, l < 64 → i < 2 ^ 20 → exec (.strokeComplete l i) t = .next t) ∧
      (seamDue s = false → margin s < s.frame.stall → Answers .strokeIssue t (fun u =>
        u.frame.prog = [] ∧ u.frame.issued = s.frame.issued ∧ u.mem = s.mem)))) ∧
    (∀ l i n, s.frame.exceeded = true → s.frame.waitSlot = some (l, i, n) → n < 2 ^ 19 → Answers .frameOverrun s (fun t =>
      t.frame.aborted = true ∧ t.frame.exceeded = false ∧ t.frame.waitSlot = none ∧ t.mem = s.mem ∧
      t.flt.seq = (s.flt.seq + 2) % 2 ^ 32 ∧ t.train.waitCode = 1 ∧
      ∃ y x, t.flt.region = s.flt.region ++ [y, x] ∧ y.code = 2 ∧ y.cause = true ∧ y.sev = 2 ∧ y.addr = slotAddr n ∧ y.stroke = i ∧
        x.code = 1 ∧ x.cause = true ∧ x.sev = 2 ∧ x.detail = overrunDetail s)) ∧
    (s.frame.exceeded = false → exec .frameOverrun s = .next s)

/-- R52, R196, R200: a forced-refresh slot begins where the region's cycle is a multiple of 3,120 (stacks) or 6,240 (LPDDR6),
and holds the issue loop for as long as it lasts, at most 48 and 112 cycles; elsewhere it does nothing, an LPDDR6 slot at an odd
multiple of 3,120 among it. That the slot's command comes in its first cycle is the model's choice (log 7). -/
def Claim.RefreshSlotsHoldTheLoop : Prop :=
  ∀ (s : State) (n m : Nat), alive s = true → n ≤ 48 → m ≤ 112 →
    (s.frame.region = true → s.frame.cycle % 3120 = 0 → Answers (.stackRefreshSlot n [] []) s (fun t =>
      t = { s with frame := { s.frame with stkLeft := n, blocked := t.frame.blocked }, cnt := t.cnt } ∧
      (0 < n → (curDuctus s).isSome = true → t.frame.blocked = true))) ∧
    (s.frame.region = true → s.frame.cycle % 6240 = 0 → Answers (.lpRefreshSlot m []) s (fun t =>
      t = { s with frame := { s.frame with lpLeft := m, blocked := t.frame.blocked }, cnt := t.cnt } ∧
      (∀ d, 0 < m → curDuctus s = some d → lpUsed s d = true → t.frame.blocked = true))) ∧
    (s.frame.region = false ∨ s.frame.cycle % 3120 ≠ 0 → exec (.stackRefreshSlot n [] []) s = .next s) ∧
    (s.frame.region = false ∨ s.frame.cycle % 6240 ≠ 0 → exec (.lpRefreshSlot m []) s = .next s)

/-- The frame overrun aborts the frame; forced-refresh slots hold the issue loop. -/
def Obligations.OverrunAndRefresh : Prop :=
  Claim.FrameOverrunAborts ∧ Claim.RefreshSlotsHoldTheLoop

/-- R39, R46, R49: the seam begins. Stroke issue ends; a frame with no stroke left in progress goes into the seam without a
fault; strokes left in progress at the seam abort the frame. A checkpoint boundary that is due makes the seam of a step's end one (R360).
To which cycle the seam moves the frame is the model's choice (log 7). -/
def Claim.SeamBegins : Prop :=
  ∀ s : State, alive s = true → jobExists s = true → s.frame.seam = false → s.frame.live = true → s.frame.aborted = false →
    s.frame.exceeded = false → s.time.pendSource = none →
    (s.frame.prog = [] → (∀ x ∈ s.rings.held, x.late = false) → Answers .seamStart s (fun t =>
      let c := max s.frame.cycle (regionLen s - driftBound s)
      t.frame = { s.frame with cycle := c, seamAt := c, abortedAt := none, region := false, seam := true,
                               phase := 0, stalled := 0, blocked := false } ∧
      t.mem = s.mem ∧ t.flt = s.flt ∧ t.job = s.job ∧ t.glob = s.glob ∧ t.rings = s.rings ∧
      t.train = { s.train with atCkpt := stepEnds s && s.train.ckptBoundary, ckptBoundary := s.train.ckptBoundary && !stepEnds s })) ∧
    (s.frame.prog ≠ [] → (curDuctus s).isSome = true → s.frame.region = true → Answers .seamStart s (fun t =>
      t.frame.seam = true ∧ t.frame.region = false ∧ t.frame.phase = 0 ∧ t.frame.aborted = true ∧ t.frame.prog = [] ∧
      t.mem = s.mem ∧ ∃ x, t.flt.region = s.flt.region ++ [x] ∧ x.code = 1 ∧ x.cause = true ∧
        x.detail = overrunDetail s + 2 ^ 63))

/-- R49, R351: the seam's phases come in their order. Fault collection writes the records of the stroke region, at most 64, and
those raised in this seam wait for the next; a phase out of its turn does nothing. A phase acts no sooner than its cycle of Table 2.4. -/
def Claim.FaultCollectionWritesTheRegionsRecords : Prop :=
  ∀ s : State, alive s = true →
    (s.frame.seam = true → s.frame.phase = 1 → Answers .faultCollection s (fun t =>
      t.flt.region = [] ∧ t.flt.inSeam = s.flt.inSeam ∧
      t.flt.suppressed = sat32 (s.flt.suppressed + (s.flt.region.length - 64)) ∧
      t.frame = { s.frame with phase := 2, cycle := max s.frame.cycle (s.frame.seamAt + 640) } ∧ t.mem = s.mem ∧ t.job = s.job ∧
      (s.flt.region = [] → t = { s with flt := t.flt, frame := t.frame, time := (seamTo s 640).time }) ∧
      (s.flt.region.length = 1 → canWrite s s.rings.fq = true → t.rings.fq = s.rings.fq.pushed) ∧
      (∀ x, s.flt.region = [x] → canWrite s s.rings.fq = true → s.rings.host = 0 → s.rings.fq.phase = 0 →
        hostPeek t (s.rings.fq.base + 64 * s.rings.fq.tail) 64 = x.bytes))) ∧
    (s.frame.seam = false ∨ s.frame.phase ≠ 1 → exec .faultCollection s = .next s)

/-- The seam begins, and its fault collection writes the records of the stroke region. -/
def Obligations.SeamBeginsAndCollects : Prop :=
  Claim.SeamBegins ∧ Claim.FaultCollectionWritesTheRegionsRecords

/-- R50, R51, R184, R426: the Ductus switch and the tag phase. With nothing held the switch names the Ductus of the next frame of
the rotation; the tag phase sets every tag as the image of that Ductus marks it; memory does not change. -/
def Claim.SeamSwitchesDuctusAndTags : Prop :=
  ∀ s : State, alive s = true → s.frame.seam = true →
    (s.frame.phase = 3 → s.frame.live = true → jobExists s = true → s.rings.held = [] → s.job.pauseNow = false → s.folios.remaps = [] →
      s.glob.routePending = false → s.job.params = [] → s.act = none → s.actQueue = [] → s.train.ownerFix = [] →
      s.train.restart = none → Answers .ductusSwitch s (fun t =>
        t = { s with
          time := (seamTo s 1152).time
          frame := { s.frame with
            phase := 4, cycle := max s.frame.cycle (s.frame.seamAt + 1152), current := overlayAt s (nextFrame s) s.job.f0 } })) ∧
    (s.frame.phase = 5 → s.frame.live = true → ∀ i d, s.frame.current = some i → loadedOf s i = some d →
      (∀ l, l < 64 → physOf s l ≠ none) → Answers .tagPhase s (fun t =>
        t = { s with
          time := (seamTo s 1408).time, mem := { s.mem with full := imageSlots s d }
          frame := { s.frame with phase := 6, cycle := max s.frame.cycle (s.frame.seamAt + 1408), seen := imageSlots s d } }))

/-- R49: the last phase of the seam. The frame number advances by one and the time state is sampled for the next frame. -/
def Claim.SeamAdvancesTheFrame : Prop :=
  ∀ s : State, alive s = true → s.frame.seam = true →
    (s.frame.phase = 6 → Answers .frameAdvance s (fun t =>
      t.frame = { s.frame with
        phase := 7, cycle := max s.frame.cycle (s.frame.seamAt + 1536), number := (s.frame.number + 1) % 2 ^ 48
        timeSampled := s.time.state } ∧
      t = { s with
        frame := t.frame, experts := t.experts, fab := t.fab, train := { s.train with atCkpt := false, ckptBoundary := t.train.ckptBoundary }
        time := (seamTo s 1536).time } ∧
      t.experts.count = s.experts.count ∧ t.fab.windows = s.fab.windows ∧ t.fab.routes = s.fab.routes)) ∧
    (s.frame.phase ≠ 6 → exec .frameAdvance s = .next s)

/-- The Ductus switch, the tag phase and the frame advance of a seam. -/
def Obligations.SeamSwitchesAndAdvances : Prop :=
  Claim.SeamSwitchesDuctusAndTags ∧ Claim.SeamAdvancesTheFrame

/-- R225, R229, R297: the step boundary. In the seam of the last frame of a step the step number advances by one, T of each
parameter group that the step's optimiser strokes used advances by one, and what belongs to one step starts afresh; a PAUSE
for the step that begins pauses the job. In the seam of another frame nothing but the phase changes. -/
def Obligations.StepBoundaryEndsTheStep : Prop :=
  ∀ (s : State) (g : Nat), alive s = true → s.frame.seam = true → s.frame.phase = 4 →
    (stepEnds s = false → exec .stepBoundary s = .next { s with
      time := (seamTo s 1152).time
      frame := { s.frame with phase := 5, cycle := max s.frame.cycle (s.frame.seamAt + 1152) } }) ∧
    (stepEnds s = true → s.glob.jobState = 4 → s.job.allowance = none → s.job.blk.ckptInterval = 0 → s.colo.interval = 0 →
      s.job.blk.np1 = 0 → s.glob.expertCounts = 0 → s.train.writing = none → s.train.retake = none → s.train.remirror = false → s.scan.due = [] →
      s.job.skipped = [] → s.mem.bad = [] → s.act = none → s.actQueue = [] → s.job.optGroups = [g] →
      (s.rings.held = [] → Answers .stepBoundary s (fun t =>
        t.job.step = (s.job.step + 1) % 2 ^ 32 ∧ t.job.optGroups = [] ∧ t.job.optIssued = false ∧ t.job.allowance = none ∧
        t.glob.jobState = 4 ∧ t.frame = { s.frame with phase := 5, cycle := max s.frame.cycle (s.frame.seamAt + 1152) } ∧
        peekN t (groupAt s g + 20) 4 = satN 0xFFFFFFFF (peekN s (groupAt s g + 20) 4 + 1) ∧
        SameOutside s t (groupAt s g + 20) 4)) ∧
      (∀ h, s.rings.held = [⟨h, .pause ((s.job.step + 1) % 2 ^ 32), false⟩] → Answers .stepBoundary s (fun t =>
        t.job.step = (s.job.step + 1) % 2 ^ 32 ∧ t.glob.jobState = 5 ∧ t.frame.live = false ∧ t.rings.held = [] ∧
        SameOutside s t (groupAt s g + 20) 4)))

/-! ### The data work of a stroke -/

/-- R112 to R121, R76 to R87, R154, R178: the product that a stroke named as it issued, when its tiles pass their checks and its output is
one tile. It writes the tile, in the output's form and format, with its status word, and no other byte but what its Well tile
buffers leave undefined (log 64); no tag changes; the stroke's data effect is made. A tile that fails its checks aborts the
frame with nothing written; an extent of zero computes nothing, and only the status words of the outside are written. That a product's
effect is made whole by its command, and in passes, is the model's choice (log 22). -/
def Claim.ProductWritesItsTile : Prop :=
  ∀ (s : State) (x : Ctx) (l i n : Nat) (c : Instr) (w : Prod), alive s = true → l < 64 →
    (c = .product l i ∧ n = 1) ∨ (c = .productT l i ∧ n = 2) ∨ (c = .maskedOuter l i ∧ n = 3) ∨ (c = .probe l i ∧ n = 4) →
    ctxOf s l i 1 = some x → x.run.dec = .product w → w.op = n → s.mem.bad = [] →
    let d := w.atDev s.glob.deviceId
    let u := fillBuffers s s x d
    let ta := tilesOf s d.a (needA d.op d.m d.k).1 (needA d.op d.m d.k).2.1
    let tb := tilesOf s d.bb (needB d.op d.n d.k d.transB).1 (needB d.op d.n d.k d.transB).2.1
    (d.m = 0 ∨ d.n = 0 ∨ d.k = 0 → exec c s = .next (doneRun (putOutside s x d) l i)) ∧
    (0 < d.m → 0 < d.n → 0 < d.k → fetching s (strokeXfer l i) = [] → farReads (d.reads s) = [] →
      (d.op ≤ 2 → d.passBad s x 0 ≠ [] → Answers c s (fun t =>
        t.frame.aborted = true ∧ t.mem.cells = u.mem.cells ∧ t.mem.full = s.mem.full)) ∧
      (bit (rd d.lig 31 1) 2 = false → bit (rd d.lig 31 1) 3 = false → d.m ≤ 64 → d.cm ≤ 64 → d.m ≤ d.cm → d.n ≤ 64 → d.cn ≤ 64 →
        d.n ≤ d.cn → (d.op ≤ 2 → d.passBad s x 0 = []) → (3 ≤ d.op → d.patternBad s x 0 = []) →
        (d.op = 4 → probeBad s d (rd d.b 48 8) = none) →
        let nf := if d.op ≤ 2 then d.nfA s ta 0 (d.units ta 0) + d.nfB s tb (d.ksRead (d.units ta 0)) 0 d.n
          else d.nfOuter s 0 0 (sides (decide (d.op = 3 ∧ d.p.form = 1)) (d.blocksAt s 0))
        let o := d.finish (d.tile s x ta tb 0 0) (decide (0 < nf)) (d.long x.exact)
        Answers c s (fun t =>
          t.mem.cells = (putTile u x d o 0).mem.cells ∧ t.mem.full = s.mem.full ∧
          (rd d.b 72 8 < 2 ^ 48 → (∀ y ∈ tileRuns u d o, y.1 < 2 ^ 48) → t.frame = (doneRun s l i).frame) ∧
          t.job.step = s.job.step ∧ t.folios = s.folios ∧ t.rings.sq = s.rings.sq ∧ t.fab.windows = s.fab.windows ∧
          t.free = u.free + d.m * d.n)))

/-- R125, R104 to R106: Quill vector code occupies its Quills and writes nothing that the manual names (log 23); a decoding unit
that loads a tile writes nothing either: a tile that passes its checks leaves the frame as it was, and one that fails aborts it. -/
def Claim.VectorCodeAndTileLoadsWriteNothing : Prop :=
  ∀ (s : State) (x : Ctx) (l i : Nat) (u : TileLoad), alive s = true → l < 64 → u.wf = true →
    (ctxOf s l i 2 = some x → exec (.quillVector l i) s = .next (doneRun s l i)) ∧
    (s.frame.live = true → s.frame.aborted = false → s.frame.blocked = false → s.frame.prog.any (fun r => r.folio == u.folio && r.idx == u.idx) = true →
      u.form = 1 ∨ u.form = 2 → 1 ≤ u.fmt → u.fmt ≤ 9 →
      installed s u.addr (if u.form = 1 then t24Bytes u.fmt else hatchReserved u.fmt) = true → s.mem.bad = [] → s.mem.corr = [] →
      let bad := tileBad s u.form u.fmt u.addr (if u.nib.isSome then none else u.budget) u.colMajor
        (if u.nib.isSome then none else some u.quill) u.nib
      (bad = none → Answers (.sparseTileLoad u) s (fun t => t = { s with cnt := t.cnt })) ∧
      (∀ b, bad = some b → Answers (.sparseTileLoad u) s (fun t =>
        t.frame.aborted = true ∧ t.mem = s.mem ∧ rd t.flt.last 0 1 = b.code ∧
        (b.code = 3 ∨ b.code = 4))))

/-- Products write their tile and nothing else; vector code and tile loads write nothing. -/
def Obligations.ProductsAndQuills : Prop :=
  Claim.ProductWritesItsTile ∧ Claim.VectorCodeAndTileLoadsWriteNothing

/-- R128 to R136, R240: a mask stroke whose record decodes and whose scopes pass their checks does what its opcode says to the
tiles and companion arrays of its scopes, and its data effect is made, once what other devices hold is here (log 49); in a step that is
skipped it writes nothing. -/
def Obligations.MaskStrokesRewriteTheirScopes : Prop :=
  ∀ (s : State) (x : Ctx) (l i n : Nat) (c : Instr) (r : MaskRec), alive s = true → l < 64 →
    (c = .prune l i ∧ n = 1) ∨ (c = .regrow l i ∧ n = 2) ∨ (c = .swap l i ∧ n = 3) ∨ (c = .maskSet l i ∧ n = 4) →
    ctxOf s l i 8 = some x → x.k.op < 2 ^ 48 → peekN s x.k.op 1 = n → decodeMask s x.k.op = .ok r →
    (s.job.skipped.contains s.job.step = true → exec c s = .next (doneRun s l i)) ∧
    (s.job.skipped.contains s.job.step = false →
      let q := ({ r with back := x.back } : MaskRec)
      let m := q.atDev s.glob.deviceId
      (∀ v, fetchMask s (strokeXfer l i) q = (v, none) → exec c s = .next v) ∧
      (∀ v t, fetchMask s (strokeXfer l i) q = (v, some (t, none)) → exec c s = .next (doneRun t l i)) ∧
      (n ≠ 4 → rd r.b 60 4 = r.group → 0 < r.group → s.mem.bad = [] → fetching s (strokeXfer l i) = [] → farReads (m.reads s) = [] →
        ∀ xs, loadScope s m (rd r.b 56 4) (homeOf s m (rd r.b 56 4)) = .ok xs →
        let ws := (xs.zip (selectScope m xs).1.ms).flatMap (fun p => tileWrites s m p.1 p.2)
        Answers c s (fun t =>
          t.mem.cells = (commitAll s (strokeXfer l i) ws).mem.cells ∧ t.mem.full = s.mem.full ∧ t.job = s.job ∧ t.rings = s.rings ∧
          ((∀ y ∈ ws, y.1 < 2 ^ 48) → t.frame = (doneRun s l i).frame))))

/-- R139 to R145, R148: routing, by the record and the shares that the stroke named as it issued. A DISPATCH starts at token 0; the
next token is scored and walks down its choices, its entries go to its place in the admission list and nowhere else, and its first
choice counts it; COMBINE writes one row for each token; a count cell goes to the share range of its expert with the rows that it took. -/
def Obligations.TokensAreDispatchedAndCombined : Prop :=
  ∀ (s : State) (x : Ctx) (l i k : Nat) (r : Routing), alive s = true → l < 64 →
    (ctxOf s l i 6 = some x → x.run.dec = .routing r → rd r.b 0 1 = 1 →
      (s.experts.run.any (fun y => y.1 == l + 64 * i) = false →
        (r.tokens = 0 → exec (.dispatch l i k) s = .next (doneRun (setRun s l i { tokens := 0, record := some r }) l i)) ∧
        (0 < r.tokens → exec (.dispatch l i 0) s = .next (setRun s l i { tokens := r.tokens, record := some r }))) ∧
      (s.experts.run.any (fun y => y.1 == l + 64 * i) = true → (routeRun s l i).token = k → k < (routeRun s l i).tokens →
        s.mem.bad = [] → fetching s (strokeXfer l i) = [] → farReads (rowReads s r.score k ++ rowReads s r.token k) = [] →
        let cs := choose r.k (r.scores s k)
        let w := r.walk (routeRun s l i).shares (cs.zip (weights (bit (rd r.b 1 1) 0) cs)) [] []
        let list := rd r.b 40 8 + 8 * r.assign * k
        let e := (cs.headD (0, Val.zero, false)).1
        Answers (.tokenAdmit l i k) s (fun t =>
          (routeRun t l i).token = k + 1 ∧ (routeRun t l i).shares = w.2.1 ∧ w.1.length ≤ r.assign ∧
          peek t list (8 * w.1.length) = w.1.flatMap Admit.bytes ∧ SameOutside s t list (8 * r.assign) ∧
          (expert t e).first = sat32 ((expert s e).first + 1) ∧ t.mem.full = s.mem.full))) ∧
    (ctxOf s l i 6 = some x → x.run.dec = .routing r → rd r.b 0 1 = 2 → s.mem.bad = [] →
      let outs := (List.range r.tokens).flatMap (fun t => (List.range (r.token.e 0)).map (fun j =>
        ((placeOf s r.token (at2 j t)).bit, encE r.token.fmt (r.sum s (r.entries s t) j) rneNat)))
      let buf := outs.foldl (fun b o => putBits s b o.1 (fmtBits r.token.fmt) o.2.1) ([] : Buf)
      Answers (.combine l i) s (fun t =>
        t.mem.cells = (commitAll s (strokeXfer l i) (runsOf buf)).mem.cells ∧ t.mem.full = s.mem.full ∧ t.experts = s.experts ∧
        ((∀ y ∈ runsOf buf, y.1 < 2 ^ 48) → t.frame = (doneRun s l i).frame))) ∧
    (∀ e, s.frame.region = true → s.frame.aborted = false → e < 1024 →
      s.experts.run.any (fun y => y.1 == l + 64 * i) = true → (routeRun s l i).tokens ≤ (routeRun s l i).token →
      (routeRun s l i).record = some r → r.reps = 1 → (routeRun s l i).sent.contains e = false →
      s.fab.xfers.all (fun y => y.acked) = true →
      let h := r.at_share e 0
      e < r.experts → h.share ≠ 0 → s.glob.deviceId ≠ 0xFFFFFF → (routeOf s h.dev).isSome = true →
      Answers (.countCellSend l i e) s (fun t =>
        (routeRun t l i).sent.contains e = true ∧ t.mem = s.mem ∧ t.frame = s.frame ∧ t.job = s.job ∧
        ∃ y, t.fab.xfers = s.fab.xfers ++ [y] ∧ y.dst = h.dev ∧ y.window = h.win ∧
          y.pkts.map (fun u => (u.pkt.addr, u.pkt.payload)) = [(h.loc + h.share * r.rowBytes,
            countCell s.job.step (r.rowsIn e 0 (tget (routeRun s l i).shares e 0)) h.share r.rowBytes)]))

/-- R165 to R175: a move that decoded, as its stroke issued or as its core asks, on this device alone, and breaks no edge or owner rule. What it writes to its
destination is what the record says, and no other byte, no tag and nothing of the job changes; a stroke's data effect is then
made. A firmware move does the same outside a stroke. -/
def Obligations.MovesWriteTheirDestination : Prop :=
  ∀ (s : State) (x : Ctx) (l i a n : Nat) (m : Move) (f : MoveSrc → Instr), alive s = true → l < 64 → a < 2 ^ 48 →
    (f = Instr.copy ∧ n = 1) ∨ (f = Instr.gather ∧ n = 2) ∨ (f = Instr.scatter ∧ n = 3) → s.mem.bad = [] → s.fab.xfers = [] →
    m.remote = none → m.flag 1 = false →
    let alone := fun v : State => m.needs v (m.resolved (m.pairs v)).1 = [] ∧ ∀ p ∈ (m.puts v [] (m.resolved (m.pairs v)).1).1, p.dev = none
    let new := fun (v : State) (who : Option (Nat × Nat)) =>
      (commit v who (runsOf (bufFor v none (m.puts v [] (m.resolved (m.pairs v)).1).1))).mem.cells
    let u := noteReads s (moveRecReads s a)
    (moveCtx s l i = some x → x.run.dec = .move m → m.op = n → onStream s l i m = true → strictBad m (curFlag s 2) (m.pairs s) = none →
      blockBad s m (some x.k.cls) (m.resolved (m.pairs s)).1 = none → alone s → Answers (f (.stroke l i)) s (fun t =>
        t.mem.cells = new s (some (l, i)) ∧ t.mem.full = s.mem.full ∧ t.frame = (doneRun s l i).frame ∧ t.job = s.job ∧
        t.rings = s.rings ∧ t.fab = s.fab)) ∧
    (rd (peek s a 128) 0 1 = n → decodeMove u a none = .ok m → strictBad m false (m.pairs u) = none →
      blockBad u m none (m.resolved (m.pairs u)).1 = none → alone u → Answers (f (.firmware a)) s (fun t =>
        t.mem.cells = new u none ∧ t.mem.full = s.mem.full ∧ t.frame = s.frame ∧ t.job = s.job ∧ t.rings = s.rings ∧ t.fab = s.fab))

/-- R168, R176, R177, Table 7.5: a stream. An arm makes an idle stream's move active, and waits in the shadow behind an active
move; a third arm replaces the shadow when its record says so, and is refused otherwise; when the active move is done the
shadow becomes active. The landing cell of a move follows the acknowledgement of its last write, within its frame. -/
def Obligations.StreamsHoldTheirMoves : Prop :=
  ∀ (s : State) (x : Ctx) (l i tag : Nat) (m : Move), alive s = true → l < 64 → tag < 2 ^ 16 →
    (moveCtx s l i = some x → x.run.dec = .move m →
      let n := rd m.b 2 1
      let st := stream s l n
      let new : StreamMove := { folio := l, idx := i }
      m.flag 2 = true →
      (st.active = none → st.shadow = none → Answers (.streamArm l i) s (fun t =>
        t = { s with streams := t.streams } ∧ stream t l n = { active := some new } ∧ ∀ k, k ≠ 16 * l + n → tget t.streams k {} = tget s.streams k {})) ∧
      (∀ y, st.active = some y → y.idx ≠ i → st.shadow = none → Answers (.streamArm l i) s (fun t =>
        t = { s with streams := t.streams } ∧ stream t l n = { active := some y, shadow := some new })) ∧
      (∀ y z, st.active = some y → st.shadow = some z → y.idx ≠ i → z.idx ≠ i →
        (m.flag 3 = true → Answers (.streamArm l i) s (fun t =>
          t = { s with streams := t.streams, frame := (doneRun s l z.idx).frame, cnt := t.cnt } ∧
          stream t l n = { active := some y, shadow := some new })) ∧
        (m.flag 3 = false → Answers (.streamArm l i) s (fun t =>
          t.frame.aborted = true ∧ t.streams = s.streams ∧ t.mem = s.mem ∧ rd t.flt.last 0 1 = 7)))) ∧
    (∀ n y, n < 16 → (stream s l n).active = some y → s.frame.blocked = false → s.frame.aborted = false →
      s.frame.prog.any (fun r => r.folio == l && r.idx == y.idx && !r.done) = false → Answers (.moveComplete l n) s (fun t =>
        t = { s with streams := t.streams } ∧ stream t l n = { active := (stream s l n).shadow })) ∧
    (∀ y a cell, s.fab.xfers = [y] → y.tag = tag → y.acked = true → y.land = some (a, cell) → y.frame = s.frame.number →
      s.frame.region = true → (routeOf s y.dst).isSome = true → s.glob.deviceId ≠ 0xFFFFFF → Answers (.landCellSend tag) s (fun t =>
        t.mem = s.mem ∧ t.frame = s.frame ∧ t.job = s.job ∧ t.flt = s.flt ∧
        ∃ u v, t.fab.xfers = [u, v] ∧ u.land = none ∧ v.dst = y.dst ∧ v.land = none ∧
          v.pkts.map (fun q => (q.pkt.addr, q.pkt.payload)) = [(a, cell)]))

/-- R202, R206, R210, R211, R223 to R225, R240: Nib records. A record of a chain runs once, after the earlier records of its Nibs, and the
stroke's data effect is made when every record has run; a stencil writes, at each point of its output, what its taps give (R206); a digest
of data under one Nib leaves the SM3 digest of that Nib's SM3 digest; an optimiser record of a skipped step writes nothing, and another
updates its parameters as R224 has it and enters its group for the step. -/
def Obligations.NibRecordsRunInTheirChain : Prop :=
  ∀ (s : State) (x : Ctx) (l i k n : Nat) (c : Instr) (rs : List NibRec) (r : NibRec), alive s = true → l < 64 →
    (c = .stencil l i k ∧ n = 1) ∨ (c = .digest l i k ∧ n = 2) ∨ (c = .optimiser l i k ∧ n = 3) →
    ctxOf s l i 4 = some x → x.run.dec = .chain rs → rs[k]? = some r → r.op = n →
    (x.run.recs.contains k = true → exec c s = .next s) ∧
    (x.run.recs.contains k = false → (∀ j, j < k → x.run.recs.contains j = true) →
      (∀ t, r.run s x = (t, none) → exec c s = .next t) ∧
      (∀ t b, r.run s x = (t, some (some b)) → exec c s = .next (failStroke t l i b)) ∧
      (∀ d, r = .stencil d → s.mem.bad = [] →
        let outs := (coordsOf ((List.range 3).map d.out.e)).map (fun p =>
          (((placeOf s d.out p).bit / 8).toNat, encE d.fmt (d.point s (if d.fmt = 11 then fp64 else fp32) p).1 rneNat))
        let buf := outs.foldl (fun b o => putBytes b o.1 (leBytes (fmtBytes d.fmt) o.2.1)) ([] : Buf)
        Answers c s (fun t =>
          t.mem.cells = (commit s (some (l, i)) (runsOf buf)).mem.cells ∧ t.mem.full = s.mem.full ∧
          t.frame.aborted = s.frame.aborted ∧ t.rings.sq = s.rings.sq)) ∧
      (∀ t, r.run s x = (t, some none) → t.frame.aborted = false →
        exec c s = .next (if (List.range rs.length).all (fun j => j == k || x.run.recs.contains j)
          then doneRun (markRec t l i k) l i else markRec t l i k)) ∧
      (∀ d, r = .optimiser d → s.job.skipped.contains s.job.step = true → Answers c s (fun t =>
        t.mem = s.mem ∧ t.job.optGroups = s.job.optGroups ∧ t.frame.aborted = s.frame.aborted)) ∧
      (∀ d, r = .optimiser d → s.job.skipped.contains s.job.step = false → s.mem.bad = [] → d.desc = none →
        fetching s (strokeXfer l i) = [] →
        let runs := runsOf (d.writes s (d.results s (d.params s)))
        (∀ y ∈ runs, y.1 < 2 ^ 48) →
        Answers c s (fun t =>
          t.mem.cells = (commit s (some (l, i)) runs).mem.cells ∧ d.group ∈ t.job.optGroups ∧ t.mem.full = s.mem.full ∧
          t.frame.aborted = s.frame.aborted ∧ t.rings.sq = s.rings.sq ∧
          -- one parameter with an FP32 gradient, whose weight is not written
          (rd d.b 64 8 = 1 → rd d.b 18 1 = 1 → d.writeW = false → d.base 1 + 4 ≤ d.base 2 → d.base 2 + 4 ≤ d.base 3 →
            let k := readGroup s d.group
            let g := nMul (lit (of32 (rd d.b 20 4))) (lit (of32 (peekN s (d.base 4) 4)))
            let w := of32 (peekN s (d.base 1) 4)
            let m := nAdd (nMul (lit k.b1) (lit (of32 (peekN s (d.base 2) 4)))) (nMul (lit k.d1) g)
            let v := nAdd (nMul (lit k.b2) (lit (of32 (peekN s (d.base 3) 4)))) (nMul (lit k.d2) (nMul (lit g.1) (lit g.1)))
            let u := nDiv (nDiv (lit m.1) (lit k.c1)) (nAdd (nSqrt (nDiv (lit v.1) (lit k.c2))) (lit k.eps))
            let z := nMul (lit k.lr) (nAdd u (nMul (lit k.wd) (lit w)))
            peekN t (d.base 2) 4 = m.1.bits32 ∧ peekN t (d.base 3) 4 = v.1.bits32 ∧
            peekN t (d.base 1) 4 = (nAdd (lit w) (z.1.opp, z.2)).1.bits32))) ∧
      (∀ d, r = .digest d → d.desc = none → d.first = true → d.last = true → rd d.b 56 8 = 0 → s.mem.bad = [] →
        let a := rd d.b 24 8
        let len := rd d.b 32 8
        0 < len → a / 32768 = (a + len - 1) / 32768 → rd d.b 48 8 + 32 ≤ rd d.b 40 8 ∨ rd d.b 40 8 + 32768 ≤ rd d.b 48 8 →
        Answers c s (fun t => peek t (rd d.b 48 8) 32 = sm3 (sm3 (peek s a len)) ∧ t.mem.full = s.mem.full ∧ t.job = s.job)))

/-- R213, R214, R217, R218: a reduction of one bucket of bucket arrays. The inputs whose headers agree are decoded and summed in
the tree order, and the sum, as FP32 or as a bucket of the wire format with its header, is what the output holds; no other
byte changes. A header that disagrees aborts the frame with nothing written. -/
def Obligations.ReduceWritesItsBucket : Prop :=
  ∀ (s : State) (x : Ctx) (l i : Nat) (d : Red), alive s = true → l < 64 → ctxOf s l i 7 = some x →
    x.run.dec = .reduce d → d.buckets = 1 → d.tiles = none → s.mem.bad = [] → fetching s (strokeXfer l i) = [] →
    let sums := (List.range (d.count s 0)).map (fun p => (tree ((List.range d.inputs).map (fun j => d.value s [] 0 j p))).1)
    let bytes := if d.fp32 then sums.flatMap (fun v => leBytes 4 v.bits32) else (encodeBucket d.wire s.job.step 0 sums).1
    (d.headerBad s 0 = none → Answers (.reduce l i) s (fun t =>
      peek t (rd d.b 16 8) bytes.length = bytes ∧ SameOutside s t (rd d.b 16 8) bytes.length ∧ t.mem.full = s.mem.full ∧
      t.frame = (doneRun s l i).frame ∧ t.rings.sq = s.rings.sq)) ∧
    (d.headerBad s 0 ≠ none → Answers (.reduce l i) s (fun t =>
      t.frame.aborted = true ∧ t.mem = s.mem ∧ rd t.flt.last 0 1 = 0x11))

/-- R55, R57, R81: a value that a format can represent narrows to itself, under rounding to nearest, with nothing saturated. -/
def Obligations.RepresentableValuesNarrowToThemselves : Prop :=
  ∀ f c : Nat, f ∈ [1, 2, 3, 4, 5, 6, 7, 8, 9, 10, 11, 12, 13] → c < 2 ^ fmtBits f → (decE f c).nf = false →
    encE f (decE f c) rneNat = (c, false)

/-! ### Training services, watchdogs and tests -/

/-- R233, R234, R267: the coordinator. A request of the job's device asks for a rollback: it is ordered to every device with a new
number, to the step of the request or, where the policy or the request says so, to the last checkpoint, at a restart frame
RESTART_FRAMES ahead; the ROLLBACK leaves for every device of the list, and the order to pause likewise. A request for a pause, or one
while the job is paused, orders none. READY of the order in force counts. Without a COMMITTED checkpoint the last one is START_STEP (the
model's choice, log 53). -/
def Obligations.CoordinatorOrdersRollbacks : Prop :=
  ∀ (s : State) (src : Nat) (m : SvcMsg), alive s = true → src < 2 ^ 24 → m.wf = true → jobExists s = true →
    schedAway s = false → acceptsMsg s src m.typ m.job m.spare = true → isCoordinator s = true →
    (m.typ = 1 →
      (s.train.paused = true → exec (.rollbackReqReceive src m) s = .next (takeMsg s src (SvcMsg.bytes m))) ∧
      (s.train.paused = false → m.code ≠ 0x0F → m.code ≠ 0x15 → m.flags.testBit 1 = false → s.train.incident = none →
        let toCkpt := s.glob.abortPolicy == 1 || m.flags.testBit 0
        let rf := (currentFrame s + s.job.blk.restartFrames) % 2 ^ 48
        let target := if toCkpt then (match s.train.committed with | some (n, _) => n | none => s.job.blk.startStep) else m.step
        let u := { takeMsg s src (SvcMsg.bytes m) with train := { s.train with
          seq := nextSeq s, incident := some (m.step, rf), toCkpt := toCkpt, target := target, ready := [], notReady := 0 } }
        Answers (.rollbackReqReceive src m) s (fun t =>
          t = sendAll u (svc u 2 (if toCkpt then 4 else 0) 0 target (nextSeq s) rf) ∧ t.train = u.train ∧
          t.mem = s.mem ∧ t.frame = s.frame ∧ t.job = s.job ∧ t.glob = s.glob ∧ t.flt = s.flt)) ∧
      (s.train.paused = false → m.code = 0x0F ∨ m.code = 0x15 →
        let u := { takeMsg s src (SvcMsg.bytes m) with train := { s.train with seq := nextSeq s, paused := true, incident := none } }
        Answers (.rollbackReqReceive src m) s (fun t =>
          t = sendAll u (svc u 2 32 m.code 0 (nextSeq s) (currentFrame s)) ∧ t.train = u.train ∧ t.mem = s.mem ∧ t.frame = s.frame ∧
          t.job = s.job))) ∧
    (m.typ = 3 →
      (m.seq = s.train.seq → exec (.readyReceive src m) s = .next
        { takeMsg s src (SvcMsg.bytes m) with train := { s.train with ready := insertNat src s.train.ready } }) ∧
      (m.seq ≠ s.train.seq → exec (.readyReceive src m) s = .next (takeMsg s src (SvcMsg.bytes m))))

/-- R234, R353, R355: a device. A newer ROLLBACK is obeyed: the frame aborts without a fault record, the restart frame and step are set,
and READY is sent, or the restore begins; an order to pause pauses the job and undoes no step; an older one does nothing. RESTART_FRAME begins
the target step, with the digest of a Colophon step at zero; a device that waits longer than ROLLBACK_WAIT pauses the job by itself with a record. -/
def Claim.RollbackIsObeyed : Prop :=
  ∀ (s : State) (src : Nat) (m : SvcMsg), alive s = true → src < 2 ^ 24 → m.wf = true → jobExists s = true →
    schedAway s = false →
    (m.typ = 2 → acceptsMsg s src 2 m.job m.spare = true →
      (newerSeq m.seq s.train.obeyed = true → m.flags.testBit 5 = false → s.train.pausedRb = false → s.power.level < 2 →
        s.scan.asked = none → s.train.writing = none → testHolds s = false → Answers (.rollbackReceive src m) s (fun t =>
          t.train.obeyed = m.seq ∧ t.train.restart = some m.frame ∧ t.train.restartStep = m.step ∧ t.train.waiting = none ∧
          t.train.restoring = m.flags.testBit 2 ∧ t.train.sentReady = !m.flags.testBit 2 ∧ t.mem = s.mem ∧ t.flt = s.flt ∧
          t.job = s.job ∧ t.glob = s.glob ∧ t.colo.own = [] ∧
          (s.frame.live = true → t.frame.aborted = true ∧ (s.frame.aborted = false → t.frame.abortedAt = some s.frame.cycle)) ∧
          (s.frame.live = false → t.frame = s.frame))) ∧
      (newerSeq m.seq s.train.obeyed = false →
        exec (.rollbackReceive src m) s = .next (takeMsg s src (SvcMsg.bytes m)) ∧
        exec (.rollbackPauseReceive src m) s = .next (takeMsg s src (SvcMsg.bytes m))) ∧
      (newerSeq m.seq s.train.obeyed = true → m.flags.testBit 5 = true → s.glob.jobState = 4 → s.train.writing = none →
        s.act = none → s.actQueue = [] → Answers (.rollbackPauseReceive src m) s (fun t =>
          t.glob.jobState = 5 ∧ t.frame.live = false ∧ t.train.pausedRb = true ∧ t.train.restart = none ∧
          t.train.obeyed = m.seq ∧ t.mem = s.mem ∧ t.job.step = s.job.step ∧ t.experts.past = s.experts.past))) ∧
    (∀ rf, s.train.restart = some rf → laterFrame rf (currentFrame s) = false → s.train.sentReady = true → testHolds s = false →
      s.train.remirror = false → s.train.retake = none → s.job.blk.ckptInterval = 0 → s.rings.held = [] →
      (s.colo.interval ≠ 0 → s.train.restartStep % s.colo.interval = 0 → s.mem.bad = [] → Answers .restartFrame s (fun t =>
        t.job.step = s.train.restartStep ∧ peek t s.colo.digest 32 = leBytes 32 0 ∧ SameOutside s t s.colo.digest 32)) ∧
      (s.colo.interval = 0 → Answers .restartFrame s (fun t =>
        t.job.step = s.train.restartStep ∧ t.job.f0 = rf ∧ t.job.optIssued = false ∧ t.job.optGroups = [] ∧ t.job.skipped = [] ∧
        t.train.restart = none ∧ t.train.sentReady = false ∧ t.frame = { s.frame with aborted := false, exceeded := false } ∧
        t.mem = s.mem ∧ t.glob = s.glob ∧ t.flt = s.flt))) ∧
    (∀ f, s.train.waiting = some f → s.job.blk.rollbackWait ≠ 0 → s.glob.jobState = 4 → s.act = none → s.actQueue = [] →
      s.job.blk.rollbackWait ≤ ((currentFrame s) + 2 ^ 48 - f) % 2 ^ 48 → Answers .rollbackWaitTimeout s (fun t =>
        t.glob.jobState = 5 ∧ t.frame.live = false ∧ t.train.waiting = none ∧ t.mem = s.mem ∧
        t.flt.seq = (s.flt.seq + 1) % 2 ^ 32 ∧ rd t.flt.last 0 1 = s.train.waitCode % 256))

/-- R231, R234: a restore. The regions of the own COMMITTED slot, once its seal and digest hold, come back with the loss monitor's
state, and READY follows; a slot that fails is asked of the buddy's mirror; when that fails too the record says so and the
device asks for the pause. -/
def Claim.RestoreBringsTheCheckpointBack : Prop :=
  ∀ (s : State) (b : List Byte), alive s = true → s.train.restoring = true →
    (restoreBytes s = some b → imageOk b = true → testHolds s = false → s.mem.bad = [] → s.mem.corr = [] → Answers (.restoreComplete .ok) s (fun t =>
      t.mem.cells = (restoreImage s b).mem.cells ∧ t.loss.avg = rd b 64 4 ∧ t.loss.count = rd b 68 4 ∧
      t.train.restoring = false ∧ t.train.fromMirror = false ∧ t.train.sentReady = true ∧ t.job = s.job ∧ t.frame = s.frame)) ∧
    (s.train.fromMirror = false → s.mem.bad = [] → s.mem.corr = [] → Answers (.restoreComplete .localFailed) s (fun t =>
      t.train.restoring = true ∧ t.train.fromMirror = true ∧ t.mem = s.mem ∧ t.job = s.job ∧ t.frame = s.frame ∧ t.flt = s.flt)) ∧
    Answers (.restoreComplete .mirrorFailed) s (fun t =>
      t.train.restoring = false ∧ t.train.fromMirror = false ∧ t.train.waitCode = 0x0F ∧ t.train.waiting.isSome = true ∧
      t.mem.cells = s.mem.cells ∧ t.mem.full = s.mem.full ∧ rd t.flt.last 0 1 = 0x0F)

/-- A device obeys a rollback, restores a checkpoint, and restarts. -/
def Obligations.RollbackIsObeyed : Prop :=
  Claim.RollbackIsObeyed ∧ Claim.RestoreBringsTheCheckpointBack

/-- R236 to R238, R240: a lost device. The coordinator gives its place to the first spare of the list that is neither in the job nor lost:
TAKEOVER, which names both, and a ROLLBACK to the last checkpoint go to every device and to the spare; without one it pauses the job with
SPARE_EXHAUSTED, reason 0x03 of Table 9.7; every device enters the spare in its lists, and the owner tables follow in
the next seam. A SKIP marks its step, and is too late for a step whose optimiser or mask record has issued: that aborts. A record
that was itself skipped does not make it late (the model's choice, log 50). -/
def Obligations.SparesTakeOverAndStepsAreSkipped : Prop :=
  ∀ (s : State) (src : Nat) (m : SvcMsg), alive s = true → src < 2 ^ 24 → m.wf = true → jobExists s = true →
    schedAway s = false → acceptsMsg s src m.typ m.job m.spare = true →
    (m.typ = 5 → isCoordinator s = true → m.device ≠ coordinator s → s.job.blk.devices.contains m.device = true →
      s.job.lost.contains m.device = false →
      (freeSpare { s with job := { s.job with lost := insertNat m.device s.job.lost } } = none →
        Answers (.deviceLostReceive src m) s (fun t =>
          t.job.lost = insertNat m.device s.job.lost ∧ t.train.paused = true ∧ rd t.flt.last 0 1 = 0x15 ∧
          rd t.flt.last 32 8 = 3 + m.device * 2 ^ 8 ∧ t.mem = s.mem)) ∧
      (∀ sp, freeSpare { s with job := { s.job with lost := insertNat m.device s.job.lost } } = some sp →
        let v := takeMsg s src (SvcMsg.bytes m)
        let u := { v with job := { v.job with lost := insertNat m.device s.job.lost } }
        let k := { svc u 6 0 0 s.job.step s.train.seq (currentFrame s) with device := m.device, spare := sp }
        let w := sendSvc (sendAll u k) sp k
        Answers (.deviceLostReceive src m) s (fun t =>
          sp ∈ s.job.blk.spares ∧ sp ∉ s.job.blk.devices ∧ sp ∉ s.job.lost ∧ sp ≠ m.device ∧
          t = sendRollback { w with train := { w.train with notReady := 0 } } s.job.step true 0 (some sp) ∧
          t.job.lost = insertNat m.device s.job.lost ∧ t.train.toCkpt = true ∧ t.train.seq = nextSeq s ∧ t.train.ready = [] ∧
          t.train.incident = some (s.job.step, (currentFrame s + s.job.blk.restartFrames) % 2 ^ 48) ∧ t.mem = s.mem ∧
          t.frame = s.frame ∧ t.flt = s.flt))) ∧
    (m.typ = 6 → s.job.blk.ward ≠ m.device → s.job.blk.buddy ≠ m.device → m.device ≠ s.job.blk.devices.headD s.glob.deviceId →
      Answers (.takeoverReceive src m) s (fun t =>
        t.job.blk.devices = swapIn m.device m.spare s.job.blk.devices ∧ t.job.lost = insertNat m.device s.job.lost ∧
        t.train.ownerFix = s.train.ownerFix ++ [(m.device, m.spare)] ∧ t.train.acting = s.train.acting ∧ t.mem = s.mem ∧
        t.frame = s.frame ∧ t.fab.windows = s.fab.windows)) ∧
    (m.typ = 4 →
      (m.step ≠ s.job.step ∨ s.job.optRan = false → s.job.optSteps.contains m.step = false → s.job.skipped.contains m.step = false →
        Answers (.skipReceive src m) s (fun t =>
        t.job = { s.job with skipped := insertNat m.step s.job.skipped } ∧ t.mem = s.mem ∧ t.frame = s.frame ∧ t.flt = s.flt)) ∧
      (m.step = s.job.step ∧ s.job.optRan = true ∨ s.job.optSteps.contains m.step = true →
        s.frame.live = true → s.frame.aborted = false → Answers (.skipReceive src m) s (fun t =>
          t.frame.aborted = true ∧ t.job.skipped = s.job.skipped ∧ t.mem = s.mem ∧ rd t.flt.last 0 1 = 0x0D ∧
          t.train.waiting.isSome = true ∧ t.train.waitCode = 0x0D)))

/-- R229, R230: checkpoints. A DONE slot whose copy the buddy has acknowledged is reported; the coordinator commits once every
device has reported, and aborts when one fails; a step that runs again after a ROLLBACK is collected afresh; a commit makes the own slot COMMITTED and the last one, an abort EMPTY, and
nothing else of memory changes. -/
def Claim.CheckpointsAreCommitted : Prop :=
  ∀ (s : State) (src k : Nat) (m : SvcMsg), alive s = true → src < 2 ^ 24 → m.wf = true → jobExists s = true →
    schedAway s = false →
    (∀ n, s.train.doneSlot = some (n, k) → s.train.mirrored = false → ckptPending s 0 = false → Answers (.ckptDoneSend false) s (fun t =>
      t.train = { s.train with mirrored := true } ∧ t.mem = s.mem ∧ t.frame = s.frame ∧ t.job = s.job)) ∧
    (acceptsMsg s src m.typ m.job m.spare = true → m.typ = 7 → isCoordinator s = true → s.train.ckptStep = m.step →
      s.train.ckptSeq = m.seq → s.train.ckptSent = false →
      (m.flags.testBit 3 = true → Answers (.ckptDoneReceive src m) s (fun t =>
        t.train = { s.train with ckptSent := true } ∧ t.mem = s.mem ∧ t.job = s.job)) ∧
      (m.flags.testBit 3 = false → Answers (.ckptDoneReceive src m) s (fun t =>
        t.train = { s.train with
          ckptDone := insertNat src s.train.ckptDone
          ckptSent := (jobDevices s).all (fun d => (insertNat src s.train.ckptDone).contains d) } ∧
        t.mem = s.mem ∧ t.job = s.job))) ∧
    (acceptsMsg s src m.typ m.job m.spare = true → m.typ = 7 → isCoordinator s = true → m.flags.testBit 3 = false →
      (s.train.ckptStep = m.step → s.train.ckptSeq ≠ m.seq) → newerSeq s.train.ckptSeq m.seq = false →
      Answers (.ckptDoneReceive src m) s (fun t =>
        t.train = { s.train with
          ckptStep := m.step, ckptSeq := m.seq, ckptDone := [src], ckptSent := (jobDevices s).all (fun d => [src].contains d) } ∧
        t.mem = s.mem ∧ t.job = s.job)) ∧
    (acceptsMsg s src m.typ m.job m.spare = true → m.typ = 8 → s.train.doneSlot = some (m.step, k) → s.train.writing = none →
      mirrorsOf s m.step = [] → s.mem.bad = [] →
      (m.flags.testBit 4 = false → Answers (.ckptCommitReceive src m) s (fun t =>
        slotState t k = 3 ∧ SameOutside s t (slotBase s k + 15) 1 ∧
        t.train = { s.train with doneSlot := none, committed := some (m.step, k), ckptBoundary := true } ∧ t.frame = s.frame)) ∧
      (m.flags.testBit 4 = true → Answers (.ckptCommitReceive src m) s (fun t =>
        slotState t k = 0 ∧ SameOutside s t (slotBase s k + 15) 1 ∧ t.train = { s.train with doneSlot := none } ∧
        t.frame = s.frame)))

/-- R354 to R356: Colophon. When the last digest of a step arrives it is compared with the own one: a step on which all members
agree becomes the good step; one that differs is recorded, and the device asks for the pause. A message with another
rollback number is discarded. -/
def Claim.ColophonComparesDigests : Prop :=
  ∀ (s : State) (src step : Nat) (own pay : List Byte), alive s = true → src < 2 ^ 24 → pay.length = 64 → jobExists s = true → schedAway s = false →
    rd pay 0 1 = 9 → rd pay 2 2 = s.job.blk.tag → inJob s src = true → rd pay 8 4 = step →
    (rd pay 12 2 ≠ s.train.obeyed → exec (.colophonReceive src pay) s = .next (takeMsg s src pay)) ∧
    (rd pay 12 2 = s.train.obeyed → otherMembers s = [src] → s.colo.own = [(step, own)] → s.colo.got = [] →
      (slice pay 32 32 = own → Answers (.colophonReceive src pay) s (fun t =>
        t.colo = { s.colo with own := [], goodStep := step } ∧ t.flt = s.flt ∧ t.train = s.train ∧ t.mem = s.mem ∧
        t.frame = s.frame)) ∧
      (slice pay 32 32 ≠ own → Answers (.colophonReceive src pay) s (fun t =>
        t.colo = { s.colo with own := [] } ∧ rd t.flt.last 0 1 = 0x0F ∧ t.train.waitCode = 0x0F ∧
        t.train.waiting.isSome = true ∧ t.mem = s.mem ∧ t.frame = s.frame)))

/-- Checkpoints are reported and committed; Colophon compares digests. -/
def Obligations.CheckpointsAndColophon : Prop :=
  Claim.CheckpointsAreCommitted ∧ Claim.ColophonComparesDigests

/-- R22, R23, R235, R304: a Folio that fails, without a job. It is quarantined with a record; the die's spare, where one is in
state SPARE, becomes ACTIVE and carries its logical Folio; without one the logical Folio has none, and SPARE_EXHAUSTED says
so. A scheduler that its watchdog stops is restarted once; a second expiry is the fault state. The record's severity without a job is the
model's choice (log 55). -/
def Claim.FoliosAndCoresThatFail : Prop :=
  ∀ (s : State) (n l code : Nat) (within : Bool) (c : Instr), alive s = true → n < 68 → code < 256 →
    s.frame.live = false → s.act = none → s.folios.remaps = [] →
    (c = .clusterWatchdog n ∨ c = .folioInternalFault n code → c.wf = true → jobExists s = false → (folio s n).state = 0 →
      logicalOf s n = some l → s.scan.running = none →
      (∀ k, spareOf s (n / 17) = some k → Answers c s (fun t =>
        (folio t n).state = 3 ∧ (folio t k).state = 0 ∧ physOf t l = some k ∧ t.flt.seq = (s.flt.seq + 1) % 2 ^ 32 ∧
        (∀ j, j ≠ n → j ≠ k → (folio t j).state = (folio s j).state) ∧ t.job = s.job ∧ t.train = s.train)) ∧
      (spareOf s (n / 17) = none → Answers c s (fun t =>
        (folio t n).state = 3 ∧ physOf t l = none ∧ rd t.flt.last 0 1 = 0x15 ∧
        (∀ j, j ≠ n → (folio t j).state = (folio s j).state) ∧ t.job = s.job ∧ t.train = s.train))) ∧
    ((s.boot.schedExpired && within) = false → Answers (.schedulerWatchdog within) s (fun t =>
      t.boot = { s.boot with schedDown := true } ∧ rd t.flt.last 0 1 = 0x10 ∧ t.mem = s.mem ∧ t.job = s.job ∧ t.frame = s.frame)) ∧
    (s.boot.schedExpired = true → Answers (.schedulerWatchdog true) s (fun t => t.glob.faultState = true)) ∧
    (s.boot.schedDown = true → Answers .schedulerImageRestart s (fun t =>
      t.boot = { s.boot with schedDown := false, schedExpired := true } ∧ t.mem = s.mem ∧ t.job = s.job ∧
      (jobExists s = false → t.train = s.train) ∧
      (jobExists s = true → t.train.waiting.isSome = true ∧ t.train.waitCode = 0x10)))

/-- R357 to R361, R193, R197, R200: in-field test and retraining. A periodic test becomes due by its deadline; a deadline that
passes is noted; the first due test that may start isolates its Folio; a Folio that passes is a spare, one that fails is
quarantined with a record of what failed; a logical Folio that waits on the die is taken by the one, and refused on the other. A vault and an LPDDR6 channel retrain, without losing what memory holds, while no
job uses them. What the retraining leaves of a repaired row, and the codes of a test without a verdict, are the model's choices
(logs 12, 55). -/
def Claim.TestsRunAndMemoryRetrains : Prop :=
  ∀ (s : State) (n v c a b r : Nat), alive s = true → n < 68 → v < 256 → c < s.mem.lpChannels → s.mem.lpChannels ≤ 32 →
    (s.glob.testPeriod ≠ 0 → s.scan.available = true → s.scan.due = [] → exec (.testPeriodDue n) s = .next
      { s with scan := { s.scan with due := [{ folio := n, deadlineAt := timeSec s.time.now + s.glob.testDeadline }] } }) ∧
    (∀ d : DueTest, s.scan.due = [d] → d.folio = n → exec (.testDeadlinePassed n) s = .next
      { s with scan := { s.scan with due := [{ d with passed := true }] } }) ∧
    (∀ d : DueTest, s.scan.due = [d] → d.folio = n → (folio s n).state = 1 → s.glob.jobState = 2 → testsOpen s = true →
      s.frame.live = false → Answers (.testStart n) s (fun t =>
        (folio t n).state = 2 ∧ (folio t n).before = 1 ∧ t.scan.running = some n ∧ t.scan.due = [] ∧
        (∀ j, j ≠ n → folio t j = folio s j) ∧ t.job = s.job ∧ t.frame = s.frame)) ∧
    (s.scan.running = some n → (folio s n).state = 2 → (folio s n).before = 1 → s.rings.held = [] → s.folios.waiting = [] →
      s.train.restart = none → a < 2 ^ 16 → b < 2 ^ 16 → r < 2 ^ 32 →
      Answers (.testComplete .pass) s (fun t =>
        (folio t n).state = 1 ∧ t.scan = { s.scan with running := none } ∧ t.flt = s.flt ∧ t.job = s.job ∧
        (∀ j, j ≠ n → folio t j = folio s j)) ∧
      Answers (.testComplete (.fail a b r)) s (fun t =>
        (folio t n).state = 3 ∧ t.scan = { s.scan with running := none } ∧ rd t.flt.last 0 1 = 0x16 ∧
        rd t.flt.last 32 8 = a + b * 2 ^ 16 + r * 2 ^ 32 ∧ t.job = s.job ∧ (∀ j, j ≠ n → folio t j = folio s j))) ∧
    (∀ l, s.scan.running = some n → (folio s n).state = 2 → s.rings.held = [] → s.folios.waiting = [l] → l < 64 → l / 16 = n / 17 →
      s.train.restart = none → jobExists s = false →
      Answers (.testComplete .pass) s (fun t =>
        (folio t n).state = 0 ∧ physOf t l = some n ∧ t.folios.waiting = [] ∧ t.flt = s.flt) ∧
      ((folio s n).before = 3 → Answers (.testComplete .inconclusive) s (fun t =>
        (folio t n).state = 3 ∧ t.folios.waiting = [] ∧ rd t.flt.last 0 1 = 0x15 ∧ t.scan.available = false))) ∧
    (jobExists s = false →
      Answers (.vaultRetrain v) s (fun t =>
        tget t.mem.vaultTrained v 0 = tget s.mem.vaultTrained v 0 + 1 ∧ t.mem.cells = s.mem.cells ∧ t.mem.full = s.mem.full ∧
        (∀ x ∈ t.mem.repairList, x.1 ≠ v) ∧ t.frame = s.frame) ∧
      Answers (.lpChannelRetrain c) s (fun t =>
        t = { s with mem := { s.mem with channelTrained := t.mem.channelTrained } } ∧
        tget t.mem.channelTrained c 0 = tget s.mem.channelTrained c 0 + 1))

/-- Folios and cores that fail, in-field tests, and retraining of memory. -/
def Obligations.FailuresAndTests : Prop :=
  Claim.FoliosAndCoresThatFail ∧ Claim.TestsRunAndMemoryRetrains
end

