-- ==== Sys2Proof/Laws/Crypto.lean ====
section
/-! SUPPORT. Laws of byte strings and of SM3: the lengths of what they answer. -/

namespace Sys2Proof

@[simp] theorem leBytes_length (n v : Nat) : (leBytes n v).length = n := by
  induction n generalizing v with
  | zero => rfl
  | succ n ih => simp [leBytes, ih]

@[simp] theorem beBytes_length (n v : Nat) : (beBytes n v).length = n := by simp [beBytes]

@[simp] theorem slice_length (bs : List Byte) (off n : Nat) : (slice bs off n).length = n := by
  simp [slice]

/-- A slice that lies past the first part of a string. -/
theorem slice_append_right (xs ys : List Byte) (off n : Nat) (h : xs.length ≤ off) :
    slice (xs ++ ys) off n = slice ys (off - xs.length) n := by
  simp [slice, List.drop_append, List.drop_eq_nil_of_le h]

/-- A slice that lies within the first part of a string. -/
theorem slice_append_left (xs ys : List Byte) (off n : Nat) (h : off + n ≤ xs.length) : slice (xs ++ ys) off n = slice xs off n := by
  have : (List.drop off (xs ++ ys)).take n = (xs.drop off).take n := by
    rw [List.drop_append, List.take_append_of_le_length]
    simp; omega
  simp [slice, this]

/-- A slice past the end of a string is zeros. -/
theorem slice_past (bs : List Byte) (off n : Nat) (h : bs.length ≤ off) : slice bs off n = List.replicate n 0 := by
  simp [slice, List.drop_eq_nil_of_le h]

/-- A field that lies within the first part of a string. -/
theorem rd_append_left (xs ys : List Byte) (off n : Nat) (h : off + n ≤ xs.length) : rd (xs ++ ys) off n = rd xs off n := by
  have : (List.drop off (xs ++ ys)).take n = (xs.drop off).take n := by
    rw [List.drop_append, List.take_append_of_le_length]
    simp; omega
  simp only [rd, this]

namespace Machine

theorem sm3Round_length (r : List Nat) (j w w4 : Nat) (h : r.length = 8) : (sm3Round r j w w4).length = 8 := by
  match r, h with
  | [_, _, _, _, _, _, _, _], _ => rfl

theorem sm3Rounds_length (k j : Nat) (w r : List Nat) (h : r.length = 8) : (sm3Rounds k j w r).length = 8 := by
  induction k generalizing j w r with
  | zero => exact h
  | succ k ih => exact ih _ _ _ (sm3Round_length r j _ _ h)

theorem sm3Blocks_length (n : Nat) (v : List Nat) (b : List Byte) (h : v.length = 8) : (sm3Blocks n v b).length = 8 := by
  induction n generalizing v b with
  | zero => exact h
  | succ n ih =>
    refine ih _ _ ?_
    simp [sm3Block, sm3Rounds_length _ _ _ _ h, h]

/-- SM3 answers 32 bytes. -/
@[simp] theorem sm3_length (m : List Byte) : (sm3 m).length = 32 := by
  have h := sm3Blocks_length ((m ++ sm3Pad m.length).length / 64) sm3Init (m ++ sm3Pad m.length) rfl
  simp [sm3, sm3Finish, sm3Out, List.length_flatMap] at h ⊢
  simp [h]

end Machine

end Sys2Proof
end

