-- ==== Sys2Proof/Laws/Tables.lean ====
section
/-! SUPPORT. Laws of tables and of memory: what is read after a write, what a write leaves alone, and that every memory
operation keeps the canonical form. -/

namespace Sys2Proof.Machine

open Sys2Proof

section tables
variable {α : Type}

@[simp] theorem tget_tput_self (t : Tbl α) (k : Nat) (d v : α) : tget (tput t k v) k d = v := by
  induction t with
  | nil => simp [tput, tget]
  | cons x r ih =>
    obtain ⟨j, w⟩ := x
    by_cases h1 : k < j
    · simp [tput, tget, h1]
    · by_cases h2 : k = j
      · simp [tput, tget, h2]
      · have h3 : j ≠ k := fun h => h2 h.symm
        simp [tput, tget, h1, h2, h3, ih]

theorem tget_tput_ne (t : Tbl α) (k i : Nat) (d v : α) (h : i ≠ k) : tget (tput t k v) i d = tget t i d := by
  have hk : k ≠ i := fun e => h e.symm
  induction t with
  | nil => simp only [tput, tget, if_neg hk]
  | cons x r ih =>
    obtain ⟨j, w⟩ := x
    simp only [tput]
    split
    · simp only [tget, if_neg hk]
    · split
      · rename_i h2; subst h2; simp only [tget, if_neg hk]
      · simp only [tget, ih]

@[simp] theorem tget_tdel_self (t : Tbl α) (k : Nat) (d : α) : tget (tdel t k) k d = d := by
  induction t with
  | nil => rfl
  | cons x r ih =>
    obtain ⟨j, w⟩ := x
    by_cases h : j = k <;> simp [tdel, tget, h, ih]

theorem tget_tdel_ne (t : Tbl α) (k i : Nat) (d : α) (h : i ≠ k) : tget (tdel t k) i d = tget t i d := by
  have hk : k ≠ i := fun e => h e.symm
  induction t with
  | nil => rfl
  | cons x r ih =>
    obtain ⟨j, w⟩ := x
    simp only [tdel]
    split
    · rename_i h1; subst h1; simp only [tget, if_neg hk, ih]
    · simp only [tget, ih]

variable [DecidableEq α]

@[simp] theorem tget_tset_self (t : Tbl α) (k : Nat) (d v : α) : tget (tset t k d v) k d = v := by
  by_cases h : v = d <;> simp [tset, h]

theorem tget_tset_ne (t : Tbl α) (k i : Nat) (d e v : α) (h : i ≠ k) : tget (tset t k d v) i e = tget t i e := by
  unfold tset
  split
  · exact tget_tdel_ne t k i e h
  · exact tget_tput_ne t k i e v h

end tables

/-! ### Bytes -/

@[simp] theorem readByte_writeByte_self (c : List Host.Cell) (a : Nat) (b : Byte) : readByte (writeByte c a b) a = b :=
  tget_tset_self c a 0 b

theorem readByte_writeByte_ne (c : List Host.Cell) (a x : Nat) (b : Byte) (h : x ≠ a) :
    readByte (writeByte c a b) x = readByte c x := tget_tset_ne c a x 0 0 b h

/-- A write leaves every byte outside its range alone. -/
theorem readByte_writeBytes_outside (bs : List Byte) (c : List Host.Cell) (a x : Nat) (h : x < a ∨ a + bs.length ≤ x) :
    readByte (writeBytes c a bs) x = readByte c x := by
  induction bs generalizing c a with
  | nil => rfl
  | cons b r ih =>
    have hl : (b :: r).length = r.length + 1 := rfl
    rw [writeBytes, ih (writeByte c a b) (a + 1) (by omega)]
    exact readByte_writeByte_ne c a x b (by omega)

/-- What was written is read. -/
theorem readBytes_writeBytes (bs : List Byte) (c : List Host.Cell) (a : Nat) :
    readBytes (writeBytes c a bs) a bs.length = bs := by
  induction bs generalizing c a with
  | nil => rfl
  | cons b r ih =>
    show readByte (writeBytes (writeByte c a b) (a + 1) r) a :: readBytes (writeBytes (writeByte c a b) (a + 1) r) (a + 1) r.length = b :: r
    rw [ih, readByte_writeBytes_outside r _ (a + 1) a (by omega), readByte_writeByte_self]

/-- A write with skipped addresses leaves every entry outside its range alone, whatever an absent entry reads as. -/
theorem tget_writeBytesBut_outside (p keep : Nat → Bool) (bs : List Byte) (c : List Host.Cell) (a x : Nat) (d : Byte)
    (h : x < a ∨ a + bs.length ≤ x) : tget (writeBytesBut p keep c a bs) x d = tget c x d := by
  induction bs generalizing c a with
  | nil => rfl
  | cons b r ih =>
    have hl : (b :: r).length = r.length + 1 := rfl
    rw [writeBytesBut, ih _ (a + 1) (by omega)]
    split
    · rfl
    · split
      · exact tget_tput_ne c a x d b (by omega)
      · exact tget_tset_ne c a x 0 d b (by omega)

/-! ### The canonical form -/

theorem risingFrom_mono (c : List Host.Cell) (j k : Nat) (h : j ≤ k) (hc : risingFrom k c = true) : risingFrom j c = true := by
  cases c with
  | nil => rfl
  | cons x r =>
    simp only [risingFrom, Bool.and_eq_true, decide_eq_true_eq] at hc ⊢
    exact ⟨by omega, hc.2⟩

theorem risingFrom_tput (c : List Host.Cell) (k a : Nat) (v : Byte) (h : k ≤ a) (hc : risingFrom k c = true) :
    risingFrom k (tput c a v) = true := by
  induction c generalizing k with
  | nil => simp [tput, risingFrom, h]
  | cons x r ih =>
    obtain ⟨j, w⟩ := x
    simp only [risingFrom, Bool.and_eq_true, decide_eq_true_eq] at hc
    by_cases h1 : a < j
    · simp [tput, risingFrom, h1, h, hc.2]
    · by_cases h2 : a = j
      · subst h2; simp [tput, risingFrom, h, hc.2]
      · simp [tput, risingFrom, h1, h2, hc.1, ih (j + 1) (by omega) hc.2]

theorem risingFrom_tdel (c : List Host.Cell) (k a : Nat) (hc : risingFrom k c = true) : risingFrom k (tdel c a) = true := by
  induction c generalizing k with
  | nil => rfl
  | cons x r ih =>
    obtain ⟨j, w⟩ := x
    simp only [risingFrom, Bool.and_eq_true, decide_eq_true_eq] at hc
    by_cases h : j = a
    · simp only [tdel, h, if_true]
      exact risingFrom_mono _ k (j + 1) (by omega) (ih (j + 1) hc.2)
    · simp [tdel, risingFrom, h, hc.1, ih (j + 1) hc.2]

theorem risingFrom_filter (c : List Host.Cell) (k : Nat) (p : Host.Cell → Bool) (hc : risingFrom k c = true) :
    risingFrom k (c.filter p) = true := by
  induction c generalizing k with
  | nil => rfl
  | cons x r ih =>
    obtain ⟨j, w⟩ := x
    simp only [risingFrom, Bool.and_eq_true, decide_eq_true_eq] at hc
    by_cases h : p (j, w) = true
    · simp [List.filter, h, risingFrom, hc.1, ih (j + 1) hc.2]
    · simp only [List.filter, h]
      exact risingFrom_mono _ k (j + 1) (by omega) (ih (j + 1) hc.2)

theorem mem_tput (c : List Host.Cell) (a : Nat) (v : Byte) (x : Host.Cell) (h : x ∈ tput c a v) : x = (a, v) ∨ x ∈ c := by
  induction c with
  | nil => simpa [tput] using h
  | cons y r ih =>
    obtain ⟨j, w⟩ := y
    unfold tput at h
    split at h
    · simpa using h
    · split at h
      · rcases List.mem_cons.mp h with h | h
        · exact .inl h
        · exact .inr (List.mem_cons_of_mem _ h)
      · rcases List.mem_cons.mp h with h | h
        · exact .inr (by simp [h])
        · rcases ih h with h | h
          · exact .inl h
          · exact .inr (List.mem_cons_of_mem _ h)

theorem mem_tdel (c : List Host.Cell) (a : Nat) (x : Host.Cell) (h : x ∈ tdel c a) : x ∈ c := by
  induction c with
  | nil => simp [tdel] at h
  | cons y r ih =>
    obtain ⟨j, w⟩ := y
    unfold tdel at h
    split at h
    · exact List.mem_cons_of_mem _ (ih h)
    · rcases List.mem_cons.mp h with h | h
      · simp [h]
      · exact List.mem_cons_of_mem _ (ih h)

theorem Memory.wf_nil (keep : Nat → Bool) : Memory.wf keep [] = true := rfl

/-- The canonical form said of each entry. -/
theorem Memory.wf_iff (keep : Nat → Bool) (c : List Host.Cell) :
    Memory.wf keep c = true ↔ risingFrom 0 c = true ∧ ∀ x ∈ c, x.2 ≠ 0 ∨ keep x.1 = true := by
  simp [Memory.wf]

/-- Listing a byte keeps the canonical form, where it is not 0 or an unlisted byte has no value. -/
theorem Memory.wf_tput (keep : Nat → Bool) (c : List Host.Cell) (a : Nat) (b : Byte) (hb : b ≠ 0 ∨ keep a = true)
    (h : Memory.wf keep c = true) : Memory.wf keep (tput c a b) = true := by
  rw [Memory.wf_iff] at h ⊢
  refine ⟨risingFrom_tput c 0 a b (Nat.zero_le a) h.1, fun x hx => ?_⟩
  rcases mem_tput c a b x hx with rfl | e
  · exact hb
  · exact h.2 x e

/-- Writing a byte keeps the canonical form. -/
theorem Memory.wf_writeByte (keep : Nat → Bool) (c : List Host.Cell) (a : Nat) (b : Byte) (h : Memory.wf keep c = true) :
    Memory.wf keep (writeByte c a b) = true := by
  unfold writeByte tset
  split
  · rw [Memory.wf_iff] at h ⊢
    exact ⟨risingFrom_tdel c 0 a h.1, fun x hx => h.2 x (mem_tdel c a x hx)⟩
  · exact Memory.wf_tput keep c a b (.inl ‹_›) h

/-- Writing bytes keeps the canonical form. -/
theorem Memory.wf_writeBytes (keep : Nat → Bool) (bs : List Byte) (c : List Host.Cell) (a : Nat)
    (h : Memory.wf keep c = true) : Memory.wf keep (writeBytes c a bs) = true := by
  induction bs generalizing c a with
  | nil => exact h
  | cons b r ih => exact ih (writeByte c a b) (a + 1) (Memory.wf_writeByte keep c a b h)

/-- Writing bytes but for skipped addresses keeps the canonical form. -/
theorem Memory.wf_writeBytesBut (p keep : Nat → Bool) (bs : List Byte) (c : List Host.Cell) (a : Nat)
    (h : Memory.wf keep c = true) : Memory.wf keep (writeBytesBut p keep c a bs) = true := by
  induction bs generalizing c a with
  | nil => exact h
  | cons b r ih =>
    refine ih _ (a + 1) ?_
    split
    · exact h
    · split
      · exact Memory.wf_tput keep c a b (.inr ‹_›) h
      · exact Memory.wf_writeByte keep c a b h

/-- Dropping entries keeps the canonical form, and so does a wider `keep`. -/
theorem Memory.wf_filter (keep keep' : Nat → Bool) (c : List Host.Cell) (p : Host.Cell → Bool)
    (hk : ∀ x, keep x = true → keep' x = true) (h : Memory.wf keep c = true) : Memory.wf keep' (c.filter p) = true := by
  rw [Memory.wf_iff] at h ⊢
  exact ⟨risingFrom_filter c 0 p h.1, fun x hx => (h.2 x (List.mem_filter.mp hx).1).imp_right (hk x.1)⟩

/-! ### The memory operations of the state -/

theorem poke_wf (s : State) (a : Nat) (bs : List Byte) (h : Memory.wf (isUndef s.mem.undef) s.mem.cells = true) :
    Memory.wf (isUndef (poke s a bs).mem.undef) (poke s a bs).mem.cells = true := Memory.wf_writeBytesBut _ _ bs _ a h

/-- What covers an undefined range holds every address of it. -/
theorem Undef.covers_has (u v : Undef) (x : Nat) (h : u.covers v = true) (hv : v.has x = true) : u.has x = true := by
  obtain ⟨ulo, uhi, ug, ugr⟩ := u
  obtain ⟨vlo, vhi, vg, vgr⟩ := v
  simp only [Undef.covers, Undef.has, Bool.and_eq_true, Bool.or_eq_true, decide_eq_true_eq] at h hv ⊢
  refine ⟨⟨by omega, by omega⟩, ?_⟩
  rcases h.2 with h | h
  · cases ugr <;> simp_all
  · cases eq_of_beq h; exact hv.2

/-- Undefined memory stays undefined when more is forgotten. -/
theorem forget_isUndef (s : State) (lo hi : Nat) (g : Option (Nat × Nat)) (x : Nat) (h : isUndef s.mem.undef x = true) :
    isUndef (forget s lo hi g).mem.undef x = true := by
  simp only [isUndef, List.any_eq_true] at h ⊢
  obtain ⟨v, hv, hx⟩ := h
  by_cases hc : Undef.covers { lo := lo, hi := hi, gen := s.free, group := g } v = true
  · exact ⟨_, List.mem_cons_self .., Undef.covers_has _ v x hc hx⟩
  · exact ⟨v, List.mem_cons_of_mem _ (List.mem_filter.mpr ⟨hv, by simpa using hc⟩), hx⟩

theorem forget_wf (s : State) (lo hi : Nat) (g : Option (Nat × Nat))
    (h : Memory.wf (isUndef s.mem.undef) s.mem.cells = true) :
    Memory.wf (isUndef (forget s lo hi g).mem.undef) (forget s lo hi g).mem.cells = true :=
  Memory.wf_filter _ _ _ _ (fun x hx => forget_isUndef s lo hi g x hx) h

theorem hostPoke_wf (s : State) (a : Nat) (bs : List Byte) (h : Memory.wf (fun _ => false) s.hostMem = true) :
    Memory.wf (fun _ => false) (hostPoke s a bs).hostMem = true := Memory.wf_writeBytes _ bs _ a h

@[simp] theorem poke_hostMem (s : State) (a : Nat) (bs : List Byte) : (poke s a bs).hostMem = s.hostMem := rfl
@[simp] theorem poke_undef (s : State) (a : Nat) (bs : List Byte) : (poke s a bs).mem.undef = s.mem.undef := rfl
@[simp] theorem hostPoke_mem (s : State) (a : Nat) (bs : List Byte) : (hostPoke s a bs).mem = s.mem := rfl

/-- A write to device memory leaves every byte outside its range alone. -/
theorem poke_outside (s : State) (a x : Nat) (bs : List Byte) (h : x < a ∨ a + bs.length ≤ x) :
    memByte (poke s a bs).mem x = memByte s.mem x :=
  tget_writeBytesBut_outside _ _ bs _ a x _ h

/-- What a write that skips nothing has written is read, whatever an absent byte of undefined content reads as. -/
theorem memBytes_writeBytesBut (m : Mem) (u : List Undef) (bs : List Byte) (p : Nat → Bool) (c : List Host.Cell) (a : Nat)
    (h : ∀ x, p x = false) :
    memBytes { m with cells := writeBytesBut p (isUndef u) c a bs, undef := u } a bs.length = bs := by
  induction bs generalizing c a with
  | nil => rfl
  | cons b r ih =>
    rw [writeBytesBut]
    show tget (writeBytesBut p (isUndef u) _ (a + 1) r) a (unlisted u a) :: memBytes _ (a + 1) r.length = b :: r
    rw [ih _ (a + 1), tget_writeBytesBut_outside _ _ r _ (a + 1) a _ (by omega), h a]
    simp only [Bool.false_eq_true, if_false]
    split
    · rw [tget_tput_self]
    · have hu : unlisted u a = 0 := by
        have : u.find? (fun x => x.has a) = none := by simp_all [isUndef]
        simp [unlisted, this]
      rw [hu, writeByte, tget_tset_self]

/-- A write to device memory whose lines are good is read back. -/
theorem peek_poke (s : State) (a : Nat) (bs : List Byte) (h : failLines s a bs.length = []) :
    peek (poke s a bs) a bs.length = bs := by
  have w := memBytes_writeBytesBut (poke s a bs).mem s.mem.undef bs (fun x => (failLines s a bs.length).contains (x / 64))
    s.mem.cells a (fun x => by simp [h])
  exact w

/-- A write to the ring host is read back. -/
theorem hostPeek_hostPoke (s : State) (a : Nat) (bs : List Byte) : hostPeek (hostPoke s a bs) a bs.length = bs :=
  readBytes_writeBytes bs _ a

end Sys2Proof.Machine
end

