-- ==== Sys2Proof/Laws/State.lean ====
section
/-! SUPPORT. The fields of the state under each named update: what an update leaves alone, by `rfl`, and what is read after it. -/

namespace Sys2Proof.Machine

open Sys2Proof

/-! ### Outcomes -/

theorem whenAlive_next (i : Instr) (s t : State) (hw : i.wf = true) (ha : alive s = true) : whenAlive i s t = .next t := by
  simp [whenAlive, hw, ha]

theorem whenAlive_idle (i : Instr) (s t : State) (hw : i.wf = true) (ha : alive s = false) : whenAlive i s t = .next s := by
  simp [whenAlive, hw, ha]

theorem whenAlive_fault (i : Instr) (s t : State) (hw : i.wf = false) : whenAlive i s t = .fault .noSuchUnit := by
  simp [whenAlive, hw]

theorem always_next (i : Instr) (t : State) (hw : i.wf = true) : always i t = .next t := by simp [always, hw]

theorem always_fault (i : Instr) (t : State) (hw : i.wf = false) : always i t = .fault .noSuchUnit := by simp [always, hw]

/-! ### Read after write -/

@[simp] theorem dom_setDom (s : State) (n : Nat) (x : Domain) : dom (setDom s n x) n = x := tget_tset_self _ _ _ _
theorem dom_setDom_ne (s : State) (n m : Nat) (x : Domain) (h : m ≠ n) : dom (setDom s n x) m = dom s m := tget_tset_ne _ _ _ _ _ _ h
@[simp] theorem folio_setFolio (s : State) (n : Nat) (x : Folio) : folio (setFolio s n x) n = x := tget_tset_self _ _ _ _
theorem folio_setFolio_ne (s : State) (n m : Nat) (x : Folio) (h : m ≠ n) : folio (setFolio s n x) m = folio s m := tget_tset_ne _ _ _ _ _ _ h
@[simp] theorem lane_setLane (s : State) (n : Nat) (x : Lane) : lane (setLane s n x) n = x := tget_tset_self _ _ _ _
theorem lane_setLane_ne (s : State) (n m : Nat) (x : Lane) (h : m ≠ n) : lane (setLane s n x) m = lane s m := tget_tset_ne _ _ _ _ _ _ h
@[simp] theorem link_setLink (s : State) (n : Nat) (x : LinkLayer) : link (setLink s n x) n = x := tget_tset_self _ _ _ _
theorem link_setLink_ne (s : State) (n m : Nat) (x : LinkLayer) (h : m ≠ n) : link (setLink s n x) m = link s m := tget_tset_ne _ _ _ _ _ _ h
@[simp] theorem port_setPort (s : State) (n : Nat) (x : Port) : port (setPort s n x) n = x := tget_tset_self _ _ _ _
theorem port_setPort_ne (s : State) (n m : Nat) (x : Port) (h : m ≠ n) : port (setPort s n x) m = port s m := tget_tset_ne _ _ _ _ _ _ h
@[simp] theorem sq_setSq (s : State) (n : Nat) (x : SubRing) : sq (setSq s n x) n = x := tget_tset_self _ _ _ _
theorem sq_setSq_ne (s : State) (n m : Nat) (x : SubRing) (h : m ≠ n) : sq (setSq s n x) m = sq s m := tget_tset_ne _ _ _ _ _ _ h
@[simp] theorem cq_setCq (s : State) (n : Nat) (x : OutRing) : cq (setCq s n x) n = x := tget_tset_self _ _ _ _
theorem cq_setCq_ne (s : State) (n m : Nat) (x : OutRing) (h : m ≠ n) : cq (setCq s n x) m = cq s m := tget_tset_ne _ _ _ _ _ _ h
@[simp] theorem window_setWindow (s : State) (n : Nat) (x : Window) : window (setWindow s n x) n = x := tget_tset_self _ _ _ _
theorem window_setWindow_ne (s : State) (n m : Nat) (x : Window) (h : m ≠ n) : window (setWindow s n x) m = window s m := tget_tset_ne _ _ _ _ _ _ h
@[simp] theorem ethPort_setEth (s : State) (n : Nat) (x : Eth) : ethPort (setEth s n x) n = x := tget_tset_self _ _ _ _
theorem ethPort_setEth_ne (s : State) (n m : Nat) (x : Eth) (h : m ≠ n) : ethPort (setEth s n x) m = ethPort s m := tget_tset_ne _ _ _ _ _ _ h
@[simp] theorem ctr_setCtr (s : State) (n : Nat) (x : Counter) : ctr (setCtr s n x) n = x := tget_tset_self _ _ _ _
theorem ctr_setCtr_ne (s : State) (n m : Nat) (x : Counter) (h : m ≠ n) : ctr (setCtr s n x) m = ctr s m := tget_tset_ne _ _ _ _ _ _ h

@[simp] theorem stream_setStream (s : State) (l n : Nat) (x : Stream) : stream (setStream s l n x) l n = x := tget_tset_self _ _ _ _
@[simp] theorem expert_setExpert (s : State) (n : Nat) (x : Expert) : expert (setExpert s n x) n = x := tget_tset_self _ _ _ _
theorem expert_setExpert_ne (s : State) (n m : Nat) (x : Expert) (h : m ≠ n) : expert (setExpert s n x) m = expert s m := tget_tset_ne _ _ _ _ _ _ h

/-! ### setDom -/

@[simp] theorem setDom_pending (s : State) (n : Nat) (x : Domain) : (setDom s n x).pending = s.pending := rfl
@[simp] theorem setDom_free (s : State) (n : Nat) (x : Domain) : (setDom s n x).free = s.free := rfl
@[simp] theorem setDom_out (s : State) (n : Nat) (x : Domain) : (setDom s n x).out = s.out := rfl
@[simp] theorem setDom_hostMem (s : State) (n : Nat) (x : Domain) : (setDom s n x).hostMem = s.hostMem := rfl
@[simp] theorem setDom_pins (s : State) (n : Nat) (x : Domain) : (setDom s n x).pins = s.pins := rfl
@[simp] theorem setDom_flash (s : State) (n : Nat) (x : Domain) : (setDom s n x).flash = s.flash := rfl
@[simp] theorem setDom_mem (s : State) (n : Nat) (x : Domain) : (setDom s n x).mem = s.mem := rfl
@[simp] theorem setDom_glob (s : State) (n : Nat) (x : Domain) : (setDom s n x).glob = s.glob := rfl
@[simp] theorem setDom_loss (s : State) (n : Nat) (x : Domain) : (setDom s n x).loss = s.loss := rfl
@[simp] theorem setDom_colo (s : State) (n : Nat) (x : Domain) : (setDom s n x).colo = s.colo := rfl
@[simp] theorem setDom_time (s : State) (n : Nat) (x : Domain) : (setDom s n x).time = s.time := rfl
@[simp] theorem setDom_rings (s : State) (n : Nat) (x : Domain) : (setDom s n x).rings = s.rings := rfl
@[simp] theorem setDom_mb (s : State) (n : Nat) (x : Domain) : (setDom s n x).mb = s.mb := rfl
@[simp] theorem setDom_i3c (s : State) (n : Nat) (x : Domain) : (setDom s n x).i3c = s.i3c := rfl
@[simp] theorem setDom_flt (s : State) (n : Nat) (x : Domain) : (setDom s n x).flt = s.flt := rfl
@[simp] theorem setDom_cnt (s : State) (n : Nat) (x : Domain) : (setDom s n x).cnt = s.cnt := rfl
@[simp] theorem setDom_folios (s : State) (n : Nat) (x : Domain) : (setDom s n x).folios = s.folios := rfl
@[simp] theorem setDom_lanes (s : State) (n : Nat) (x : Domain) : (setDom s n x).lanes = s.lanes := rfl
@[simp] theorem setDom_links (s : State) (n : Nat) (x : Domain) : (setDom s n x).links = s.links := rfl
@[simp] theorem setDom_ports (s : State) (n : Nat) (x : Domain) : (setDom s n x).ports = s.ports := rfl
@[simp] theorem setDom_fab (s : State) (n : Nat) (x : Domain) : (setDom s n x).fab = s.fab := rfl
@[simp] theorem setDom_pcie (s : State) (n : Nat) (x : Domain) : (setDom s n x).pcie = s.pcie := rfl
@[simp] theorem setDom_eth (s : State) (n : Nat) (x : Domain) : (setDom s n x).eth = s.eth := rfl
@[simp] theorem setDom_scan (s : State) (n : Nat) (x : Domain) : (setDom s n x).scan = s.scan := rfl
@[simp] theorem setDom_boot (s : State) (n : Nat) (x : Domain) : (setDom s n x).boot = s.boot := rfl
@[simp] theorem setDom_serve (s : State) (n : Nat) (x : Domain) : (setDom s n x).serve = s.serve := rfl
@[simp] theorem setDom_act (s : State) (n : Nat) (x : Domain) : (setDom s n x).act = s.act := rfl
@[simp] theorem setDom_actQueue (s : State) (n : Nat) (x : Domain) : (setDom s n x).actQueue = s.actQueue := rfl
@[simp] theorem setDom_actHdr (s : State) (n : Nat) (x : Domain) : (setDom s n x).actHdr = s.actHdr := rfl
@[simp] theorem setDom_job (s : State) (n : Nat) (x : Domain) : (setDom s n x).job = s.job := rfl
@[simp] theorem setDom_ductus (s : State) (n : Nat) (x : Domain) : (setDom s n x).ductus = s.ductus := rfl
@[simp] theorem setDom_frame (s : State) (n : Nat) (x : Domain) : (setDom s n x).frame = s.frame := rfl
@[simp] theorem setDom_streams (s : State) (n : Nat) (x : Domain) : (setDom s n x).streams = s.streams := rfl
@[simp] theorem setDom_experts (s : State) (n : Nat) (x : Domain) : (setDom s n x).experts = s.experts := rfl
@[simp] theorem setDom_train (s : State) (n : Nat) (x : Domain) : (setDom s n x).train = s.train := rfl
@[simp] theorem setDom_digests (s : State) (n : Nat) (x : Domain) : (setDom s n x).digests = s.digests := rfl

/-! ### setFolio -/

@[simp] theorem setFolio_pending (s : State) (n : Nat) (x : Folio) : (setFolio s n x).pending = s.pending := rfl
@[simp] theorem setFolio_free (s : State) (n : Nat) (x : Folio) : (setFolio s n x).free = s.free := rfl
@[simp] theorem setFolio_out (s : State) (n : Nat) (x : Folio) : (setFolio s n x).out = s.out := rfl
@[simp] theorem setFolio_hostMem (s : State) (n : Nat) (x : Folio) : (setFolio s n x).hostMem = s.hostMem := rfl
@[simp] theorem setFolio_pins (s : State) (n : Nat) (x : Folio) : (setFolio s n x).pins = s.pins := rfl
@[simp] theorem setFolio_flash (s : State) (n : Nat) (x : Folio) : (setFolio s n x).flash = s.flash := rfl
@[simp] theorem setFolio_mem (s : State) (n : Nat) (x : Folio) : (setFolio s n x).mem = s.mem := rfl
@[simp] theorem setFolio_glob (s : State) (n : Nat) (x : Folio) : (setFolio s n x).glob = s.glob := rfl
@[simp] theorem setFolio_loss (s : State) (n : Nat) (x : Folio) : (setFolio s n x).loss = s.loss := rfl
@[simp] theorem setFolio_colo (s : State) (n : Nat) (x : Folio) : (setFolio s n x).colo = s.colo := rfl
@[simp] theorem setFolio_time (s : State) (n : Nat) (x : Folio) : (setFolio s n x).time = s.time := rfl
@[simp] theorem setFolio_rings (s : State) (n : Nat) (x : Folio) : (setFolio s n x).rings = s.rings := rfl
@[simp] theorem setFolio_mb (s : State) (n : Nat) (x : Folio) : (setFolio s n x).mb = s.mb := rfl
@[simp] theorem setFolio_power (s : State) (n : Nat) (x : Folio) : (setFolio s n x).power = s.power := rfl
@[simp] theorem setFolio_i3c (s : State) (n : Nat) (x : Folio) : (setFolio s n x).i3c = s.i3c := rfl
@[simp] theorem setFolio_flt (s : State) (n : Nat) (x : Folio) : (setFolio s n x).flt = s.flt := rfl
@[simp] theorem setFolio_cnt (s : State) (n : Nat) (x : Folio) : (setFolio s n x).cnt = s.cnt := rfl
@[simp] theorem setFolio_lanes (s : State) (n : Nat) (x : Folio) : (setFolio s n x).lanes = s.lanes := rfl
@[simp] theorem setFolio_links (s : State) (n : Nat) (x : Folio) : (setFolio s n x).links = s.links := rfl
@[simp] theorem setFolio_ports (s : State) (n : Nat) (x : Folio) : (setFolio s n x).ports = s.ports := rfl
@[simp] theorem setFolio_fab (s : State) (n : Nat) (x : Folio) : (setFolio s n x).fab = s.fab := rfl
@[simp] theorem setFolio_pcie (s : State) (n : Nat) (x : Folio) : (setFolio s n x).pcie = s.pcie := rfl
@[simp] theorem setFolio_eth (s : State) (n : Nat) (x : Folio) : (setFolio s n x).eth = s.eth := rfl
@[simp] theorem setFolio_scan (s : State) (n : Nat) (x : Folio) : (setFolio s n x).scan = s.scan := rfl
@[simp] theorem setFolio_boot (s : State) (n : Nat) (x : Folio) : (setFolio s n x).boot = s.boot := rfl
@[simp] theorem setFolio_serve (s : State) (n : Nat) (x : Folio) : (setFolio s n x).serve = s.serve := rfl
@[simp] theorem setFolio_act (s : State) (n : Nat) (x : Folio) : (setFolio s n x).act = s.act := rfl
@[simp] theorem setFolio_actQueue (s : State) (n : Nat) (x : Folio) : (setFolio s n x).actQueue = s.actQueue := rfl
@[simp] theorem setFolio_actHdr (s : State) (n : Nat) (x : Folio) : (setFolio s n x).actHdr = s.actHdr := rfl
@[simp] theorem setFolio_job (s : State) (n : Nat) (x : Folio) : (setFolio s n x).job = s.job := rfl
@[simp] theorem setFolio_ductus (s : State) (n : Nat) (x : Folio) : (setFolio s n x).ductus = s.ductus := rfl
@[simp] theorem setFolio_frame (s : State) (n : Nat) (x : Folio) : (setFolio s n x).frame = s.frame := rfl
@[simp] theorem setFolio_streams (s : State) (n : Nat) (x : Folio) : (setFolio s n x).streams = s.streams := rfl
@[simp] theorem setFolio_experts (s : State) (n : Nat) (x : Folio) : (setFolio s n x).experts = s.experts := rfl
@[simp] theorem setFolio_train (s : State) (n : Nat) (x : Folio) : (setFolio s n x).train = s.train := rfl
@[simp] theorem setFolio_digests (s : State) (n : Nat) (x : Folio) : (setFolio s n x).digests = s.digests := rfl

/-! ### setLane -/

@[simp] theorem setLane_pending (s : State) (n : Nat) (x : Lane) : (setLane s n x).pending = s.pending := rfl
@[simp] theorem setLane_free (s : State) (n : Nat) (x : Lane) : (setLane s n x).free = s.free := rfl
@[simp] theorem setLane_out (s : State) (n : Nat) (x : Lane) : (setLane s n x).out = s.out := rfl
@[simp] theorem setLane_hostMem (s : State) (n : Nat) (x : Lane) : (setLane s n x).hostMem = s.hostMem := rfl
@[simp] theorem setLane_pins (s : State) (n : Nat) (x : Lane) : (setLane s n x).pins = s.pins := rfl
@[simp] theorem setLane_flash (s : State) (n : Nat) (x : Lane) : (setLane s n x).flash = s.flash := rfl
@[simp] theorem setLane_mem (s : State) (n : Nat) (x : Lane) : (setLane s n x).mem = s.mem := rfl
@[simp] theorem setLane_glob (s : State) (n : Nat) (x : Lane) : (setLane s n x).glob = s.glob := rfl
@[simp] theorem setLane_loss (s : State) (n : Nat) (x : Lane) : (setLane s n x).loss = s.loss := rfl
@[simp] theorem setLane_colo (s : State) (n : Nat) (x : Lane) : (setLane s n x).colo = s.colo := rfl
@[simp] theorem setLane_time (s : State) (n : Nat) (x : Lane) : (setLane s n x).time = s.time := rfl
@[simp] theorem setLane_rings (s : State) (n : Nat) (x : Lane) : (setLane s n x).rings = s.rings := rfl
@[simp] theorem setLane_mb (s : State) (n : Nat) (x : Lane) : (setLane s n x).mb = s.mb := rfl
@[simp] theorem setLane_power (s : State) (n : Nat) (x : Lane) : (setLane s n x).power = s.power := rfl
@[simp] theorem setLane_i3c (s : State) (n : Nat) (x : Lane) : (setLane s n x).i3c = s.i3c := rfl
@[simp] theorem setLane_flt (s : State) (n : Nat) (x : Lane) : (setLane s n x).flt = s.flt := rfl
@[simp] theorem setLane_cnt (s : State) (n : Nat) (x : Lane) : (setLane s n x).cnt = s.cnt := rfl
@[simp] theorem setLane_folios (s : State) (n : Nat) (x : Lane) : (setLane s n x).folios = s.folios := rfl
@[simp] theorem setLane_links (s : State) (n : Nat) (x : Lane) : (setLane s n x).links = s.links := rfl
@[simp] theorem setLane_ports (s : State) (n : Nat) (x : Lane) : (setLane s n x).ports = s.ports := rfl
@[simp] theorem setLane_fab (s : State) (n : Nat) (x : Lane) : (setLane s n x).fab = s.fab := rfl
@[simp] theorem setLane_pcie (s : State) (n : Nat) (x : Lane) : (setLane s n x).pcie = s.pcie := rfl
@[simp] theorem setLane_eth (s : State) (n : Nat) (x : Lane) : (setLane s n x).eth = s.eth := rfl
@[simp] theorem setLane_scan (s : State) (n : Nat) (x : Lane) : (setLane s n x).scan = s.scan := rfl
@[simp] theorem setLane_boot (s : State) (n : Nat) (x : Lane) : (setLane s n x).boot = s.boot := rfl
@[simp] theorem setLane_serve (s : State) (n : Nat) (x : Lane) : (setLane s n x).serve = s.serve := rfl
@[simp] theorem setLane_act (s : State) (n : Nat) (x : Lane) : (setLane s n x).act = s.act := rfl
@[simp] theorem setLane_actQueue (s : State) (n : Nat) (x : Lane) : (setLane s n x).actQueue = s.actQueue := rfl
@[simp] theorem setLane_actHdr (s : State) (n : Nat) (x : Lane) : (setLane s n x).actHdr = s.actHdr := rfl
@[simp] theorem setLane_job (s : State) (n : Nat) (x : Lane) : (setLane s n x).job = s.job := rfl
@[simp] theorem setLane_ductus (s : State) (n : Nat) (x : Lane) : (setLane s n x).ductus = s.ductus := rfl
@[simp] theorem setLane_frame (s : State) (n : Nat) (x : Lane) : (setLane s n x).frame = s.frame := rfl
@[simp] theorem setLane_streams (s : State) (n : Nat) (x : Lane) : (setLane s n x).streams = s.streams := rfl
@[simp] theorem setLane_experts (s : State) (n : Nat) (x : Lane) : (setLane s n x).experts = s.experts := rfl
@[simp] theorem setLane_train (s : State) (n : Nat) (x : Lane) : (setLane s n x).train = s.train := rfl
@[simp] theorem setLane_digests (s : State) (n : Nat) (x : Lane) : (setLane s n x).digests = s.digests := rfl

/-! ### setLink -/

@[simp] theorem setLink_pending (s : State) (n : Nat) (x : LinkLayer) : (setLink s n x).pending = s.pending := rfl
@[simp] theorem setLink_free (s : State) (n : Nat) (x : LinkLayer) : (setLink s n x).free = s.free := rfl
@[simp] theorem setLink_out (s : State) (n : Nat) (x : LinkLayer) : (setLink s n x).out = s.out := rfl
@[simp] theorem setLink_hostMem (s : State) (n : Nat) (x : LinkLayer) : (setLink s n x).hostMem = s.hostMem := rfl
@[simp] theorem setLink_pins (s : State) (n : Nat) (x : LinkLayer) : (setLink s n x).pins = s.pins := rfl
@[simp] theorem setLink_flash (s : State) (n : Nat) (x : LinkLayer) : (setLink s n x).flash = s.flash := rfl
@[simp] theorem setLink_mem (s : State) (n : Nat) (x : LinkLayer) : (setLink s n x).mem = s.mem := rfl
@[simp] theorem setLink_glob (s : State) (n : Nat) (x : LinkLayer) : (setLink s n x).glob = s.glob := rfl
@[simp] theorem setLink_loss (s : State) (n : Nat) (x : LinkLayer) : (setLink s n x).loss = s.loss := rfl
@[simp] theorem setLink_colo (s : State) (n : Nat) (x : LinkLayer) : (setLink s n x).colo = s.colo := rfl
@[simp] theorem setLink_time (s : State) (n : Nat) (x : LinkLayer) : (setLink s n x).time = s.time := rfl
@[simp] theorem setLink_rings (s : State) (n : Nat) (x : LinkLayer) : (setLink s n x).rings = s.rings := rfl
@[simp] theorem setLink_mb (s : State) (n : Nat) (x : LinkLayer) : (setLink s n x).mb = s.mb := rfl
@[simp] theorem setLink_power (s : State) (n : Nat) (x : LinkLayer) : (setLink s n x).power = s.power := rfl
@[simp] theorem setLink_i3c (s : State) (n : Nat) (x : LinkLayer) : (setLink s n x).i3c = s.i3c := rfl
@[simp] theorem setLink_flt (s : State) (n : Nat) (x : LinkLayer) : (setLink s n x).flt = s.flt := rfl
@[simp] theorem setLink_cnt (s : State) (n : Nat) (x : LinkLayer) : (setLink s n x).cnt = s.cnt := rfl
@[simp] theorem setLink_folios (s : State) (n : Nat) (x : LinkLayer) : (setLink s n x).folios = s.folios := rfl
@[simp] theorem setLink_lanes (s : State) (n : Nat) (x : LinkLayer) : (setLink s n x).lanes = s.lanes := rfl
@[simp] theorem setLink_ports (s : State) (n : Nat) (x : LinkLayer) : (setLink s n x).ports = s.ports := rfl
@[simp] theorem setLink_fab (s : State) (n : Nat) (x : LinkLayer) : (setLink s n x).fab = s.fab := rfl
@[simp] theorem setLink_pcie (s : State) (n : Nat) (x : LinkLayer) : (setLink s n x).pcie = s.pcie := rfl
@[simp] theorem setLink_eth (s : State) (n : Nat) (x : LinkLayer) : (setLink s n x).eth = s.eth := rfl
@[simp] theorem setLink_scan (s : State) (n : Nat) (x : LinkLayer) : (setLink s n x).scan = s.scan := rfl
@[simp] theorem setLink_boot (s : State) (n : Nat) (x : LinkLayer) : (setLink s n x).boot = s.boot := rfl
@[simp] theorem setLink_serve (s : State) (n : Nat) (x : LinkLayer) : (setLink s n x).serve = s.serve := rfl
@[simp] theorem setLink_act (s : State) (n : Nat) (x : LinkLayer) : (setLink s n x).act = s.act := rfl
@[simp] theorem setLink_actQueue (s : State) (n : Nat) (x : LinkLayer) : (setLink s n x).actQueue = s.actQueue := rfl
@[simp] theorem setLink_actHdr (s : State) (n : Nat) (x : LinkLayer) : (setLink s n x).actHdr = s.actHdr := rfl
@[simp] theorem setLink_job (s : State) (n : Nat) (x : LinkLayer) : (setLink s n x).job = s.job := rfl
@[simp] theorem setLink_ductus (s : State) (n : Nat) (x : LinkLayer) : (setLink s n x).ductus = s.ductus := rfl
@[simp] theorem setLink_frame (s : State) (n : Nat) (x : LinkLayer) : (setLink s n x).frame = s.frame := rfl
@[simp] theorem setLink_streams (s : State) (n : Nat) (x : LinkLayer) : (setLink s n x).streams = s.streams := rfl
@[simp] theorem setLink_experts (s : State) (n : Nat) (x : LinkLayer) : (setLink s n x).experts = s.experts := rfl
@[simp] theorem setLink_train (s : State) (n : Nat) (x : LinkLayer) : (setLink s n x).train = s.train := rfl
@[simp] theorem setLink_digests (s : State) (n : Nat) (x : LinkLayer) : (setLink s n x).digests = s.digests := rfl

/-! ### setPort -/

@[simp] theorem setPort_pending (s : State) (n : Nat) (x : Port) : (setPort s n x).pending = s.pending := rfl
@[simp] theorem setPort_free (s : State) (n : Nat) (x : Port) : (setPort s n x).free = s.free := rfl
@[simp] theorem setPort_out (s : State) (n : Nat) (x : Port) : (setPort s n x).out = s.out := rfl
@[simp] theorem setPort_hostMem (s : State) (n : Nat) (x : Port) : (setPort s n x).hostMem = s.hostMem := rfl
@[simp] theorem setPort_pins (s : State) (n : Nat) (x : Port) : (setPort s n x).pins = s.pins := rfl
@[simp] theorem setPort_flash (s : State) (n : Nat) (x : Port) : (setPort s n x).flash = s.flash := rfl
@[simp] theorem setPort_mem (s : State) (n : Nat) (x : Port) : (setPort s n x).mem = s.mem := rfl
@[simp] theorem setPort_glob (s : State) (n : Nat) (x : Port) : (setPort s n x).glob = s.glob := rfl
@[simp] theorem setPort_loss (s : State) (n : Nat) (x : Port) : (setPort s n x).loss = s.loss := rfl
@[simp] theorem setPort_colo (s : State) (n : Nat) (x : Port) : (setPort s n x).colo = s.colo := rfl
@[simp] theorem setPort_time (s : State) (n : Nat) (x : Port) : (setPort s n x).time = s.time := rfl
@[simp] theorem setPort_rings (s : State) (n : Nat) (x : Port) : (setPort s n x).rings = s.rings := rfl
@[simp] theorem setPort_mb (s : State) (n : Nat) (x : Port) : (setPort s n x).mb = s.mb := rfl
@[simp] theorem setPort_power (s : State) (n : Nat) (x : Port) : (setPort s n x).power = s.power := rfl
@[simp] theorem setPort_i3c (s : State) (n : Nat) (x : Port) : (setPort s n x).i3c = s.i3c := rfl
@[simp] theorem setPort_flt (s : State) (n : Nat) (x : Port) : (setPort s n x).flt = s.flt := rfl
@[simp] theorem setPort_cnt (s : State) (n : Nat) (x : Port) : (setPort s n x).cnt = s.cnt := rfl
@[simp] theorem setPort_folios (s : State) (n : Nat) (x : Port) : (setPort s n x).folios = s.folios := rfl
@[simp] theorem setPort_lanes (s : State) (n : Nat) (x : Port) : (setPort s n x).lanes = s.lanes := rfl
@[simp] theorem setPort_links (s : State) (n : Nat) (x : Port) : (setPort s n x).links = s.links := rfl
@[simp] theorem setPort_fab (s : State) (n : Nat) (x : Port) : (setPort s n x).fab = s.fab := rfl
@[simp] theorem setPort_pcie (s : State) (n : Nat) (x : Port) : (setPort s n x).pcie = s.pcie := rfl
@[simp] theorem setPort_eth (s : State) (n : Nat) (x : Port) : (setPort s n x).eth = s.eth := rfl
@[simp] theorem setPort_scan (s : State) (n : Nat) (x : Port) : (setPort s n x).scan = s.scan := rfl
@[simp] theorem setPort_boot (s : State) (n : Nat) (x : Port) : (setPort s n x).boot = s.boot := rfl
@[simp] theorem setPort_serve (s : State) (n : Nat) (x : Port) : (setPort s n x).serve = s.serve := rfl
@[simp] theorem setPort_act (s : State) (n : Nat) (x : Port) : (setPort s n x).act = s.act := rfl
@[simp] theorem setPort_actQueue (s : State) (n : Nat) (x : Port) : (setPort s n x).actQueue = s.actQueue := rfl
@[simp] theorem setPort_actHdr (s : State) (n : Nat) (x : Port) : (setPort s n x).actHdr = s.actHdr := rfl
@[simp] theorem setPort_job (s : State) (n : Nat) (x : Port) : (setPort s n x).job = s.job := rfl
@[simp] theorem setPort_ductus (s : State) (n : Nat) (x : Port) : (setPort s n x).ductus = s.ductus := rfl
@[simp] theorem setPort_frame (s : State) (n : Nat) (x : Port) : (setPort s n x).frame = s.frame := rfl
@[simp] theorem setPort_streams (s : State) (n : Nat) (x : Port) : (setPort s n x).streams = s.streams := rfl
@[simp] theorem setPort_experts (s : State) (n : Nat) (x : Port) : (setPort s n x).experts = s.experts := rfl
@[simp] theorem setPort_train (s : State) (n : Nat) (x : Port) : (setPort s n x).train = s.train := rfl
@[simp] theorem setPort_digests (s : State) (n : Nat) (x : Port) : (setPort s n x).digests = s.digests := rfl

/-! ### setSq -/

@[simp] theorem setSq_pending (s : State) (n : Nat) (x : SubRing) : (setSq s n x).pending = s.pending := rfl
@[simp] theorem setSq_free (s : State) (n : Nat) (x : SubRing) : (setSq s n x).free = s.free := rfl
@[simp] theorem setSq_out (s : State) (n : Nat) (x : SubRing) : (setSq s n x).out = s.out := rfl
@[simp] theorem setSq_hostMem (s : State) (n : Nat) (x : SubRing) : (setSq s n x).hostMem = s.hostMem := rfl
@[simp] theorem setSq_pins (s : State) (n : Nat) (x : SubRing) : (setSq s n x).pins = s.pins := rfl
@[simp] theorem setSq_flash (s : State) (n : Nat) (x : SubRing) : (setSq s n x).flash = s.flash := rfl
@[simp] theorem setSq_mem (s : State) (n : Nat) (x : SubRing) : (setSq s n x).mem = s.mem := rfl
@[simp] theorem setSq_glob (s : State) (n : Nat) (x : SubRing) : (setSq s n x).glob = s.glob := rfl
@[simp] theorem setSq_loss (s : State) (n : Nat) (x : SubRing) : (setSq s n x).loss = s.loss := rfl
@[simp] theorem setSq_colo (s : State) (n : Nat) (x : SubRing) : (setSq s n x).colo = s.colo := rfl
@[simp] theorem setSq_time (s : State) (n : Nat) (x : SubRing) : (setSq s n x).time = s.time := rfl
@[simp] theorem setSq_mb (s : State) (n : Nat) (x : SubRing) : (setSq s n x).mb = s.mb := rfl
@[simp] theorem setSq_power (s : State) (n : Nat) (x : SubRing) : (setSq s n x).power = s.power := rfl
@[simp] theorem setSq_i3c (s : State) (n : Nat) (x : SubRing) : (setSq s n x).i3c = s.i3c := rfl
@[simp] theorem setSq_flt (s : State) (n : Nat) (x : SubRing) : (setSq s n x).flt = s.flt := rfl
@[simp] theorem setSq_cnt (s : State) (n : Nat) (x : SubRing) : (setSq s n x).cnt = s.cnt := rfl
@[simp] theorem setSq_folios (s : State) (n : Nat) (x : SubRing) : (setSq s n x).folios = s.folios := rfl
@[simp] theorem setSq_lanes (s : State) (n : Nat) (x : SubRing) : (setSq s n x).lanes = s.lanes := rfl
@[simp] theorem setSq_links (s : State) (n : Nat) (x : SubRing) : (setSq s n x).links = s.links := rfl
@[simp] theorem setSq_ports (s : State) (n : Nat) (x : SubRing) : (setSq s n x).ports = s.ports := rfl
@[simp] theorem setSq_fab (s : State) (n : Nat) (x : SubRing) : (setSq s n x).fab = s.fab := rfl
@[simp] theorem setSq_pcie (s : State) (n : Nat) (x : SubRing) : (setSq s n x).pcie = s.pcie := rfl
@[simp] theorem setSq_eth (s : State) (n : Nat) (x : SubRing) : (setSq s n x).eth = s.eth := rfl
@[simp] theorem setSq_scan (s : State) (n : Nat) (x : SubRing) : (setSq s n x).scan = s.scan := rfl
@[simp] theorem setSq_boot (s : State) (n : Nat) (x : SubRing) : (setSq s n x).boot = s.boot := rfl
@[simp] theorem setSq_serve (s : State) (n : Nat) (x : SubRing) : (setSq s n x).serve = s.serve := rfl
@[simp] theorem setSq_act (s : State) (n : Nat) (x : SubRing) : (setSq s n x).act = s.act := rfl
@[simp] theorem setSq_actQueue (s : State) (n : Nat) (x : SubRing) : (setSq s n x).actQueue = s.actQueue := rfl
@[simp] theorem setSq_actHdr (s : State) (n : Nat) (x : SubRing) : (setSq s n x).actHdr = s.actHdr := rfl
@[simp] theorem setSq_job (s : State) (n : Nat) (x : SubRing) : (setSq s n x).job = s.job := rfl
@[simp] theorem setSq_ductus (s : State) (n : Nat) (x : SubRing) : (setSq s n x).ductus = s.ductus := rfl
@[simp] theorem setSq_frame (s : State) (n : Nat) (x : SubRing) : (setSq s n x).frame = s.frame := rfl
@[simp] theorem setSq_streams (s : State) (n : Nat) (x : SubRing) : (setSq s n x).streams = s.streams := rfl
@[simp] theorem setSq_experts (s : State) (n : Nat) (x : SubRing) : (setSq s n x).experts = s.experts := rfl
@[simp] theorem setSq_train (s : State) (n : Nat) (x : SubRing) : (setSq s n x).train = s.train := rfl
@[simp] theorem setSq_digests (s : State) (n : Nat) (x : SubRing) : (setSq s n x).digests = s.digests := rfl

/-! ### setCq -/

@[simp] theorem setCq_pending (s : State) (n : Nat) (x : OutRing) : (setCq s n x).pending = s.pending := rfl
@[simp] theorem setCq_free (s : State) (n : Nat) (x : OutRing) : (setCq s n x).free = s.free := rfl
@[simp] theorem setCq_out (s : State) (n : Nat) (x : OutRing) : (setCq s n x).out = s.out := rfl
@[simp] theorem setCq_hostMem (s : State) (n : Nat) (x : OutRing) : (setCq s n x).hostMem = s.hostMem := rfl
@[simp] theorem setCq_pins (s : State) (n : Nat) (x : OutRing) : (setCq s n x).pins = s.pins := rfl
@[simp] theorem setCq_flash (s : State) (n : Nat) (x : OutRing) : (setCq s n x).flash = s.flash := rfl
@[simp] theorem setCq_mem (s : State) (n : Nat) (x : OutRing) : (setCq s n x).mem = s.mem := rfl
@[simp] theorem setCq_glob (s : State) (n : Nat) (x : OutRing) : (setCq s n x).glob = s.glob := rfl
@[simp] theorem setCq_loss (s : State) (n : Nat) (x : OutRing) : (setCq s n x).loss = s.loss := rfl
@[simp] theorem setCq_colo (s : State) (n : Nat) (x : OutRing) : (setCq s n x).colo = s.colo := rfl
@[simp] theorem setCq_time (s : State) (n : Nat) (x : OutRing) : (setCq s n x).time = s.time := rfl
@[simp] theorem setCq_mb (s : State) (n : Nat) (x : OutRing) : (setCq s n x).mb = s.mb := rfl
@[simp] theorem setCq_power (s : State) (n : Nat) (x : OutRing) : (setCq s n x).power = s.power := rfl
@[simp] theorem setCq_i3c (s : State) (n : Nat) (x : OutRing) : (setCq s n x).i3c = s.i3c := rfl
@[simp] theorem setCq_flt (s : State) (n : Nat) (x : OutRing) : (setCq s n x).flt = s.flt := rfl
@[simp] theorem setCq_cnt (s : State) (n : Nat) (x : OutRing) : (setCq s n x).cnt = s.cnt := rfl
@[simp] theorem setCq_folios (s : State) (n : Nat) (x : OutRing) : (setCq s n x).folios = s.folios := rfl
@[simp] theorem setCq_lanes (s : State) (n : Nat) (x : OutRing) : (setCq s n x).lanes = s.lanes := rfl
@[simp] theorem setCq_links (s : State) (n : Nat) (x : OutRing) : (setCq s n x).links = s.links := rfl
@[simp] theorem setCq_ports (s : State) (n : Nat) (x : OutRing) : (setCq s n x).ports = s.ports := rfl
@[simp] theorem setCq_fab (s : State) (n : Nat) (x : OutRing) : (setCq s n x).fab = s.fab := rfl
@[simp] theorem setCq_pcie (s : State) (n : Nat) (x : OutRing) : (setCq s n x).pcie = s.pcie := rfl
@[simp] theorem setCq_eth (s : State) (n : Nat) (x : OutRing) : (setCq s n x).eth = s.eth := rfl
@[simp] theorem setCq_scan (s : State) (n : Nat) (x : OutRing) : (setCq s n x).scan = s.scan := rfl
@[simp] theorem setCq_boot (s : State) (n : Nat) (x : OutRing) : (setCq s n x).boot = s.boot := rfl
@[simp] theorem setCq_serve (s : State) (n : Nat) (x : OutRing) : (setCq s n x).serve = s.serve := rfl
@[simp] theorem setCq_act (s : State) (n : Nat) (x : OutRing) : (setCq s n x).act = s.act := rfl
@[simp] theorem setCq_actQueue (s : State) (n : Nat) (x : OutRing) : (setCq s n x).actQueue = s.actQueue := rfl
@[simp] theorem setCq_actHdr (s : State) (n : Nat) (x : OutRing) : (setCq s n x).actHdr = s.actHdr := rfl
@[simp] theorem setCq_job (s : State) (n : Nat) (x : OutRing) : (setCq s n x).job = s.job := rfl
@[simp] theorem setCq_ductus (s : State) (n : Nat) (x : OutRing) : (setCq s n x).ductus = s.ductus := rfl
@[simp] theorem setCq_frame (s : State) (n : Nat) (x : OutRing) : (setCq s n x).frame = s.frame := rfl
@[simp] theorem setCq_streams (s : State) (n : Nat) (x : OutRing) : (setCq s n x).streams = s.streams := rfl
@[simp] theorem setCq_experts (s : State) (n : Nat) (x : OutRing) : (setCq s n x).experts = s.experts := rfl
@[simp] theorem setCq_train (s : State) (n : Nat) (x : OutRing) : (setCq s n x).train = s.train := rfl
@[simp] theorem setCq_digests (s : State) (n : Nat) (x : OutRing) : (setCq s n x).digests = s.digests := rfl

/-! ### setWindow -/

@[simp] theorem setWindow_pending (s : State) (n : Nat) (x : Window) : (setWindow s n x).pending = s.pending := rfl
@[simp] theorem setWindow_free (s : State) (n : Nat) (x : Window) : (setWindow s n x).free = s.free := rfl
@[simp] theorem setWindow_out (s : State) (n : Nat) (x : Window) : (setWindow s n x).out = s.out := rfl
@[simp] theorem setWindow_hostMem (s : State) (n : Nat) (x : Window) : (setWindow s n x).hostMem = s.hostMem := rfl
@[simp] theorem setWindow_pins (s : State) (n : Nat) (x : Window) : (setWindow s n x).pins = s.pins := rfl
@[simp] theorem setWindow_flash (s : State) (n : Nat) (x : Window) : (setWindow s n x).flash = s.flash := rfl
@[simp] theorem setWindow_mem (s : State) (n : Nat) (x : Window) : (setWindow s n x).mem = s.mem := rfl
@[simp] theorem setWindow_glob (s : State) (n : Nat) (x : Window) : (setWindow s n x).glob = s.glob := rfl
@[simp] theorem setWindow_loss (s : State) (n : Nat) (x : Window) : (setWindow s n x).loss = s.loss := rfl
@[simp] theorem setWindow_colo (s : State) (n : Nat) (x : Window) : (setWindow s n x).colo = s.colo := rfl
@[simp] theorem setWindow_time (s : State) (n : Nat) (x : Window) : (setWindow s n x).time = s.time := rfl
@[simp] theorem setWindow_rings (s : State) (n : Nat) (x : Window) : (setWindow s n x).rings = s.rings := rfl
@[simp] theorem setWindow_mb (s : State) (n : Nat) (x : Window) : (setWindow s n x).mb = s.mb := rfl
@[simp] theorem setWindow_power (s : State) (n : Nat) (x : Window) : (setWindow s n x).power = s.power := rfl
@[simp] theorem setWindow_i3c (s : State) (n : Nat) (x : Window) : (setWindow s n x).i3c = s.i3c := rfl
@[simp] theorem setWindow_flt (s : State) (n : Nat) (x : Window) : (setWindow s n x).flt = s.flt := rfl
@[simp] theorem setWindow_cnt (s : State) (n : Nat) (x : Window) : (setWindow s n x).cnt = s.cnt := rfl
@[simp] theorem setWindow_folios (s : State) (n : Nat) (x : Window) : (setWindow s n x).folios = s.folios := rfl
@[simp] theorem setWindow_lanes (s : State) (n : Nat) (x : Window) : (setWindow s n x).lanes = s.lanes := rfl
@[simp] theorem setWindow_links (s : State) (n : Nat) (x : Window) : (setWindow s n x).links = s.links := rfl
@[simp] theorem setWindow_ports (s : State) (n : Nat) (x : Window) : (setWindow s n x).ports = s.ports := rfl
@[simp] theorem setWindow_pcie (s : State) (n : Nat) (x : Window) : (setWindow s n x).pcie = s.pcie := rfl
@[simp] theorem setWindow_eth (s : State) (n : Nat) (x : Window) : (setWindow s n x).eth = s.eth := rfl
@[simp] theorem setWindow_scan (s : State) (n : Nat) (x : Window) : (setWindow s n x).scan = s.scan := rfl
@[simp] theorem setWindow_boot (s : State) (n : Nat) (x : Window) : (setWindow s n x).boot = s.boot := rfl
@[simp] theorem setWindow_serve (s : State) (n : Nat) (x : Window) : (setWindow s n x).serve = s.serve := rfl
@[simp] theorem setWindow_act (s : State) (n : Nat) (x : Window) : (setWindow s n x).act = s.act := rfl
@[simp] theorem setWindow_actQueue (s : State) (n : Nat) (x : Window) : (setWindow s n x).actQueue = s.actQueue := rfl
@[simp] theorem setWindow_actHdr (s : State) (n : Nat) (x : Window) : (setWindow s n x).actHdr = s.actHdr := rfl
@[simp] theorem setWindow_job (s : State) (n : Nat) (x : Window) : (setWindow s n x).job = s.job := rfl
@[simp] theorem setWindow_ductus (s : State) (n : Nat) (x : Window) : (setWindow s n x).ductus = s.ductus := rfl
@[simp] theorem setWindow_frame (s : State) (n : Nat) (x : Window) : (setWindow s n x).frame = s.frame := rfl
@[simp] theorem setWindow_streams (s : State) (n : Nat) (x : Window) : (setWindow s n x).streams = s.streams := rfl
@[simp] theorem setWindow_experts (s : State) (n : Nat) (x : Window) : (setWindow s n x).experts = s.experts := rfl
@[simp] theorem setWindow_train (s : State) (n : Nat) (x : Window) : (setWindow s n x).train = s.train := rfl
@[simp] theorem setWindow_digests (s : State) (n : Nat) (x : Window) : (setWindow s n x).digests = s.digests := rfl

/-! ### setEth -/

@[simp] theorem setEth_pending (s : State) (n : Nat) (x : Eth) : (setEth s n x).pending = s.pending := rfl
@[simp] theorem setEth_free (s : State) (n : Nat) (x : Eth) : (setEth s n x).free = s.free := rfl
@[simp] theorem setEth_out (s : State) (n : Nat) (x : Eth) : (setEth s n x).out = s.out := rfl
@[simp] theorem setEth_hostMem (s : State) (n : Nat) (x : Eth) : (setEth s n x).hostMem = s.hostMem := rfl
@[simp] theorem setEth_pins (s : State) (n : Nat) (x : Eth) : (setEth s n x).pins = s.pins := rfl
@[simp] theorem setEth_flash (s : State) (n : Nat) (x : Eth) : (setEth s n x).flash = s.flash := rfl
@[simp] theorem setEth_mem (s : State) (n : Nat) (x : Eth) : (setEth s n x).mem = s.mem := rfl
@[simp] theorem setEth_glob (s : State) (n : Nat) (x : Eth) : (setEth s n x).glob = s.glob := rfl
@[simp] theorem setEth_loss (s : State) (n : Nat) (x : Eth) : (setEth s n x).loss = s.loss := rfl
@[simp] theorem setEth_colo (s : State) (n : Nat) (x : Eth) : (setEth s n x).colo = s.colo := rfl
@[simp] theorem setEth_time (s : State) (n : Nat) (x : Eth) : (setEth s n x).time = s.time := rfl
@[simp] theorem setEth_rings (s : State) (n : Nat) (x : Eth) : (setEth s n x).rings = s.rings := rfl
@[simp] theorem setEth_mb (s : State) (n : Nat) (x : Eth) : (setEth s n x).mb = s.mb := rfl
@[simp] theorem setEth_power (s : State) (n : Nat) (x : Eth) : (setEth s n x).power = s.power := rfl
@[simp] theorem setEth_i3c (s : State) (n : Nat) (x : Eth) : (setEth s n x).i3c = s.i3c := rfl
@[simp] theorem setEth_flt (s : State) (n : Nat) (x : Eth) : (setEth s n x).flt = s.flt := rfl
@[simp] theorem setEth_cnt (s : State) (n : Nat) (x : Eth) : (setEth s n x).cnt = s.cnt := rfl
@[simp] theorem setEth_folios (s : State) (n : Nat) (x : Eth) : (setEth s n x).folios = s.folios := rfl
@[simp] theorem setEth_lanes (s : State) (n : Nat) (x : Eth) : (setEth s n x).lanes = s.lanes := rfl
@[simp] theorem setEth_links (s : State) (n : Nat) (x : Eth) : (setEth s n x).links = s.links := rfl
@[simp] theorem setEth_ports (s : State) (n : Nat) (x : Eth) : (setEth s n x).ports = s.ports := rfl
@[simp] theorem setEth_fab (s : State) (n : Nat) (x : Eth) : (setEth s n x).fab = s.fab := rfl
@[simp] theorem setEth_pcie (s : State) (n : Nat) (x : Eth) : (setEth s n x).pcie = s.pcie := rfl
@[simp] theorem setEth_scan (s : State) (n : Nat) (x : Eth) : (setEth s n x).scan = s.scan := rfl
@[simp] theorem setEth_boot (s : State) (n : Nat) (x : Eth) : (setEth s n x).boot = s.boot := rfl
@[simp] theorem setEth_serve (s : State) (n : Nat) (x : Eth) : (setEth s n x).serve = s.serve := rfl
@[simp] theorem setEth_act (s : State) (n : Nat) (x : Eth) : (setEth s n x).act = s.act := rfl
@[simp] theorem setEth_actQueue (s : State) (n : Nat) (x : Eth) : (setEth s n x).actQueue = s.actQueue := rfl
@[simp] theorem setEth_actHdr (s : State) (n : Nat) (x : Eth) : (setEth s n x).actHdr = s.actHdr := rfl
@[simp] theorem setEth_job (s : State) (n : Nat) (x : Eth) : (setEth s n x).job = s.job := rfl
@[simp] theorem setEth_ductus (s : State) (n : Nat) (x : Eth) : (setEth s n x).ductus = s.ductus := rfl
@[simp] theorem setEth_frame (s : State) (n : Nat) (x : Eth) : (setEth s n x).frame = s.frame := rfl
@[simp] theorem setEth_streams (s : State) (n : Nat) (x : Eth) : (setEth s n x).streams = s.streams := rfl
@[simp] theorem setEth_experts (s : State) (n : Nat) (x : Eth) : (setEth s n x).experts = s.experts := rfl
@[simp] theorem setEth_train (s : State) (n : Nat) (x : Eth) : (setEth s n x).train = s.train := rfl
@[simp] theorem setEth_digests (s : State) (n : Nat) (x : Eth) : (setEth s n x).digests = s.digests := rfl

/-! ### setCtr -/

@[simp] theorem setCtr_pending (s : State) (n : Nat) (x : Counter) : (setCtr s n x).pending = s.pending := rfl
@[simp] theorem setCtr_free (s : State) (n : Nat) (x : Counter) : (setCtr s n x).free = s.free := rfl
@[simp] theorem setCtr_out (s : State) (n : Nat) (x : Counter) : (setCtr s n x).out = s.out := rfl
@[simp] theorem setCtr_hostMem (s : State) (n : Nat) (x : Counter) : (setCtr s n x).hostMem = s.hostMem := rfl
@[simp] theorem setCtr_pins (s : State) (n : Nat) (x : Counter) : (setCtr s n x).pins = s.pins := rfl
@[simp] theorem setCtr_flash (s : State) (n : Nat) (x : Counter) : (setCtr s n x).flash = s.flash := rfl
@[simp] theorem setCtr_mem (s : State) (n : Nat) (x : Counter) : (setCtr s n x).mem = s.mem := rfl
@[simp] theorem setCtr_glob (s : State) (n : Nat) (x : Counter) : (setCtr s n x).glob = s.glob := rfl
@[simp] theorem setCtr_loss (s : State) (n : Nat) (x : Counter) : (setCtr s n x).loss = s.loss := rfl
@[simp] theorem setCtr_colo (s : State) (n : Nat) (x : Counter) : (setCtr s n x).colo = s.colo := rfl
@[simp] theorem setCtr_time (s : State) (n : Nat) (x : Counter) : (setCtr s n x).time = s.time := rfl
@[simp] theorem setCtr_rings (s : State) (n : Nat) (x : Counter) : (setCtr s n x).rings = s.rings := rfl
@[simp] theorem setCtr_mb (s : State) (n : Nat) (x : Counter) : (setCtr s n x).mb = s.mb := rfl
@[simp] theorem setCtr_power (s : State) (n : Nat) (x : Counter) : (setCtr s n x).power = s.power := rfl
@[simp] theorem setCtr_i3c (s : State) (n : Nat) (x : Counter) : (setCtr s n x).i3c = s.i3c := rfl
@[simp] theorem setCtr_flt (s : State) (n : Nat) (x : Counter) : (setCtr s n x).flt = s.flt := rfl
@[simp] theorem setCtr_folios (s : State) (n : Nat) (x : Counter) : (setCtr s n x).folios = s.folios := rfl
@[simp] theorem setCtr_lanes (s : State) (n : Nat) (x : Counter) : (setCtr s n x).lanes = s.lanes := rfl
@[simp] theorem setCtr_links (s : State) (n : Nat) (x : Counter) : (setCtr s n x).links = s.links := rfl
@[simp] theorem setCtr_ports (s : State) (n : Nat) (x : Counter) : (setCtr s n x).ports = s.ports := rfl
@[simp] theorem setCtr_fab (s : State) (n : Nat) (x : Counter) : (setCtr s n x).fab = s.fab := rfl
@[simp] theorem setCtr_pcie (s : State) (n : Nat) (x : Counter) : (setCtr s n x).pcie = s.pcie := rfl
@[simp] theorem setCtr_eth (s : State) (n : Nat) (x : Counter) : (setCtr s n x).eth = s.eth := rfl
@[simp] theorem setCtr_scan (s : State) (n : Nat) (x : Counter) : (setCtr s n x).scan = s.scan := rfl
@[simp] theorem setCtr_boot (s : State) (n : Nat) (x : Counter) : (setCtr s n x).boot = s.boot := rfl
@[simp] theorem setCtr_serve (s : State) (n : Nat) (x : Counter) : (setCtr s n x).serve = s.serve := rfl
@[simp] theorem setCtr_act (s : State) (n : Nat) (x : Counter) : (setCtr s n x).act = s.act := rfl
@[simp] theorem setCtr_actQueue (s : State) (n : Nat) (x : Counter) : (setCtr s n x).actQueue = s.actQueue := rfl
@[simp] theorem setCtr_actHdr (s : State) (n : Nat) (x : Counter) : (setCtr s n x).actHdr = s.actHdr := rfl
@[simp] theorem setCtr_job (s : State) (n : Nat) (x : Counter) : (setCtr s n x).job = s.job := rfl
@[simp] theorem setCtr_ductus (s : State) (n : Nat) (x : Counter) : (setCtr s n x).ductus = s.ductus := rfl
@[simp] theorem setCtr_frame (s : State) (n : Nat) (x : Counter) : (setCtr s n x).frame = s.frame := rfl
@[simp] theorem setCtr_streams (s : State) (n : Nat) (x : Counter) : (setCtr s n x).streams = s.streams := rfl
@[simp] theorem setCtr_experts (s : State) (n : Nat) (x : Counter) : (setCtr s n x).experts = s.experts := rfl
@[simp] theorem setCtr_train (s : State) (n : Nat) (x : Counter) : (setCtr s n x).train = s.train := rfl
@[simp] theorem setCtr_digests (s : State) (n : Nat) (x : Counter) : (setCtr s n x).digests = s.digests := rfl

/-! ### poke -/

@[simp] theorem poke_pending (s : State) (a : Nat) (b : List Byte) : (poke s a b).pending = s.pending := rfl
@[simp] theorem poke_free (s : State) (a : Nat) (b : List Byte) : (poke s a b).free = s.free := rfl
@[simp] theorem poke_out (s : State) (a : Nat) (b : List Byte) : (poke s a b).out = s.out := rfl
@[simp] theorem poke_pins (s : State) (a : Nat) (b : List Byte) : (poke s a b).pins = s.pins := rfl
@[simp] theorem poke_flash (s : State) (a : Nat) (b : List Byte) : (poke s a b).flash = s.flash := rfl
@[simp] theorem poke_glob (s : State) (a : Nat) (b : List Byte) : (poke s a b).glob = s.glob := rfl
@[simp] theorem poke_loss (s : State) (a : Nat) (b : List Byte) : (poke s a b).loss = s.loss := rfl
@[simp] theorem poke_colo (s : State) (a : Nat) (b : List Byte) : (poke s a b).colo = s.colo := rfl
@[simp] theorem poke_time (s : State) (a : Nat) (b : List Byte) : (poke s a b).time = s.time := rfl
@[simp] theorem poke_rings (s : State) (a : Nat) (b : List Byte) : (poke s a b).rings = s.rings := rfl
@[simp] theorem poke_mb (s : State) (a : Nat) (b : List Byte) : (poke s a b).mb = s.mb := rfl
@[simp] theorem poke_power (s : State) (a : Nat) (b : List Byte) : (poke s a b).power = s.power := rfl
@[simp] theorem poke_i3c (s : State) (a : Nat) (b : List Byte) : (poke s a b).i3c = s.i3c := rfl
@[simp] theorem poke_flt (s : State) (a : Nat) (b : List Byte) : (poke s a b).flt = s.flt := rfl
@[simp] theorem poke_cnt (s : State) (a : Nat) (b : List Byte) : (poke s a b).cnt = s.cnt := rfl
@[simp] theorem poke_folios (s : State) (a : Nat) (b : List Byte) : (poke s a b).folios = s.folios := rfl
@[simp] theorem poke_lanes (s : State) (a : Nat) (b : List Byte) : (poke s a b).lanes = s.lanes := rfl
@[simp] theorem poke_links (s : State) (a : Nat) (b : List Byte) : (poke s a b).links = s.links := rfl
@[simp] theorem poke_ports (s : State) (a : Nat) (b : List Byte) : (poke s a b).ports = s.ports := rfl
@[simp] theorem poke_fab (s : State) (a : Nat) (b : List Byte) : (poke s a b).fab = s.fab := rfl
@[simp] theorem poke_pcie (s : State) (a : Nat) (b : List Byte) : (poke s a b).pcie = s.pcie := rfl
@[simp] theorem poke_eth (s : State) (a : Nat) (b : List Byte) : (poke s a b).eth = s.eth := rfl
@[simp] theorem poke_scan (s : State) (a : Nat) (b : List Byte) : (poke s a b).scan = s.scan := rfl
@[simp] theorem poke_boot (s : State) (a : Nat) (b : List Byte) : (poke s a b).boot = s.boot := rfl
@[simp] theorem poke_serve (s : State) (a : Nat) (b : List Byte) : (poke s a b).serve = s.serve := rfl
@[simp] theorem poke_act (s : State) (a : Nat) (b : List Byte) : (poke s a b).act = s.act := rfl
@[simp] theorem poke_actQueue (s : State) (a : Nat) (b : List Byte) : (poke s a b).actQueue = s.actQueue := rfl
@[simp] theorem poke_actHdr (s : State) (a : Nat) (b : List Byte) : (poke s a b).actHdr = s.actHdr := rfl
@[simp] theorem poke_job (s : State) (a : Nat) (b : List Byte) : (poke s a b).job = s.job := rfl
@[simp] theorem poke_ductus (s : State) (a : Nat) (b : List Byte) : (poke s a b).ductus = s.ductus := rfl
@[simp] theorem poke_frame (s : State) (a : Nat) (b : List Byte) : (poke s a b).frame = s.frame := rfl
@[simp] theorem poke_streams (s : State) (a : Nat) (b : List Byte) : (poke s a b).streams = s.streams := rfl
@[simp] theorem poke_experts (s : State) (a : Nat) (b : List Byte) : (poke s a b).experts = s.experts := rfl
@[simp] theorem poke_train (s : State) (a : Nat) (b : List Byte) : (poke s a b).train = s.train := rfl
@[simp] theorem poke_digests (s : State) (a : Nat) (b : List Byte) : (poke s a b).digests = s.digests := rfl

/-! ### forget -/

@[simp] theorem forget_pending (s : State) (lo hi : Nat) (g : Option (Nat × Nat)) : (forget s lo hi g).pending = s.pending := rfl
@[simp] theorem forget_free (s : State) (lo hi : Nat) (g : Option (Nat × Nat)) : (forget s lo hi g).free = s.free + 1 := rfl
@[simp] theorem forget_out (s : State) (lo hi : Nat) (g : Option (Nat × Nat)) : (forget s lo hi g).out = s.out := rfl
@[simp] theorem forget_hostMem (s : State) (lo hi : Nat) (g : Option (Nat × Nat)) : (forget s lo hi g).hostMem = s.hostMem := rfl
@[simp] theorem forget_pins (s : State) (lo hi : Nat) (g : Option (Nat × Nat)) : (forget s lo hi g).pins = s.pins := rfl
@[simp] theorem forget_flash (s : State) (lo hi : Nat) (g : Option (Nat × Nat)) : (forget s lo hi g).flash = s.flash := rfl
@[simp] theorem forget_glob (s : State) (lo hi : Nat) (g : Option (Nat × Nat)) : (forget s lo hi g).glob = s.glob := rfl
@[simp] theorem forget_loss (s : State) (lo hi : Nat) (g : Option (Nat × Nat)) : (forget s lo hi g).loss = s.loss := rfl
@[simp] theorem forget_colo (s : State) (lo hi : Nat) (g : Option (Nat × Nat)) : (forget s lo hi g).colo = s.colo := rfl
@[simp] theorem forget_time (s : State) (lo hi : Nat) (g : Option (Nat × Nat)) : (forget s lo hi g).time = s.time := rfl
@[simp] theorem forget_rings (s : State) (lo hi : Nat) (g : Option (Nat × Nat)) : (forget s lo hi g).rings = s.rings := rfl
@[simp] theorem forget_mb (s : State) (lo hi : Nat) (g : Option (Nat × Nat)) : (forget s lo hi g).mb = s.mb := rfl
@[simp] theorem forget_power (s : State) (lo hi : Nat) (g : Option (Nat × Nat)) : (forget s lo hi g).power = s.power := rfl
@[simp] theorem forget_i3c (s : State) (lo hi : Nat) (g : Option (Nat × Nat)) : (forget s lo hi g).i3c = s.i3c := rfl
@[simp] theorem forget_flt (s : State) (lo hi : Nat) (g : Option (Nat × Nat)) : (forget s lo hi g).flt = s.flt := rfl
@[simp] theorem forget_cnt (s : State) (lo hi : Nat) (g : Option (Nat × Nat)) : (forget s lo hi g).cnt = s.cnt := rfl
@[simp] theorem forget_folios (s : State) (lo hi : Nat) (g : Option (Nat × Nat)) : (forget s lo hi g).folios = s.folios := rfl
@[simp] theorem forget_lanes (s : State) (lo hi : Nat) (g : Option (Nat × Nat)) : (forget s lo hi g).lanes = s.lanes := rfl
@[simp] theorem forget_links (s : State) (lo hi : Nat) (g : Option (Nat × Nat)) : (forget s lo hi g).links = s.links := rfl
@[simp] theorem forget_ports (s : State) (lo hi : Nat) (g : Option (Nat × Nat)) : (forget s lo hi g).ports = s.ports := rfl
@[simp] theorem forget_fab (s : State) (lo hi : Nat) (g : Option (Nat × Nat)) : (forget s lo hi g).fab = s.fab := rfl
@[simp] theorem forget_pcie (s : State) (lo hi : Nat) (g : Option (Nat × Nat)) : (forget s lo hi g).pcie = s.pcie := rfl
@[simp] theorem forget_eth (s : State) (lo hi : Nat) (g : Option (Nat × Nat)) : (forget s lo hi g).eth = s.eth := rfl
@[simp] theorem forget_scan (s : State) (lo hi : Nat) (g : Option (Nat × Nat)) : (forget s lo hi g).scan = s.scan := rfl
@[simp] theorem forget_boot (s : State) (lo hi : Nat) (g : Option (Nat × Nat)) : (forget s lo hi g).boot = s.boot := rfl
@[simp] theorem forget_serve (s : State) (lo hi : Nat) (g : Option (Nat × Nat)) : (forget s lo hi g).serve = s.serve := rfl
@[simp] theorem forget_act (s : State) (lo hi : Nat) (g : Option (Nat × Nat)) : (forget s lo hi g).act = s.act := rfl
@[simp] theorem forget_actQueue (s : State) (lo hi : Nat) (g : Option (Nat × Nat)) : (forget s lo hi g).actQueue = s.actQueue := rfl
@[simp] theorem forget_actHdr (s : State) (lo hi : Nat) (g : Option (Nat × Nat)) : (forget s lo hi g).actHdr = s.actHdr := rfl
@[simp] theorem forget_job (s : State) (lo hi : Nat) (g : Option (Nat × Nat)) : (forget s lo hi g).job = s.job := rfl
@[simp] theorem forget_ductus (s : State) (lo hi : Nat) (g : Option (Nat × Nat)) : (forget s lo hi g).ductus = s.ductus := rfl
@[simp] theorem forget_frame (s : State) (lo hi : Nat) (g : Option (Nat × Nat)) : (forget s lo hi g).frame = s.frame := rfl
@[simp] theorem forget_streams (s : State) (lo hi : Nat) (g : Option (Nat × Nat)) : (forget s lo hi g).streams = s.streams := rfl
@[simp] theorem forget_experts (s : State) (lo hi : Nat) (g : Option (Nat × Nat)) : (forget s lo hi g).experts = s.experts := rfl
@[simp] theorem forget_train (s : State) (lo hi : Nat) (g : Option (Nat × Nat)) : (forget s lo hi g).train = s.train := rfl
@[simp] theorem forget_digests (s : State) (lo hi : Nat) (g : Option (Nat × Nat)) : (forget s lo hi g).digests = s.digests := rfl

/-! ### hostPoke -/

@[simp] theorem hostPoke_pending (s : State) (a : Nat) (b : List Byte) : (hostPoke s a b).pending = s.pending := rfl
@[simp] theorem hostPoke_free (s : State) (a : Nat) (b : List Byte) : (hostPoke s a b).free = s.free := rfl
@[simp] theorem hostPoke_out (s : State) (a : Nat) (b : List Byte) : (hostPoke s a b).out = s.out := rfl
@[simp] theorem hostPoke_pins (s : State) (a : Nat) (b : List Byte) : (hostPoke s a b).pins = s.pins := rfl
@[simp] theorem hostPoke_flash (s : State) (a : Nat) (b : List Byte) : (hostPoke s a b).flash = s.flash := rfl
@[simp] theorem hostPoke_glob (s : State) (a : Nat) (b : List Byte) : (hostPoke s a b).glob = s.glob := rfl
@[simp] theorem hostPoke_loss (s : State) (a : Nat) (b : List Byte) : (hostPoke s a b).loss = s.loss := rfl
@[simp] theorem hostPoke_colo (s : State) (a : Nat) (b : List Byte) : (hostPoke s a b).colo = s.colo := rfl
@[simp] theorem hostPoke_time (s : State) (a : Nat) (b : List Byte) : (hostPoke s a b).time = s.time := rfl
@[simp] theorem hostPoke_rings (s : State) (a : Nat) (b : List Byte) : (hostPoke s a b).rings = s.rings := rfl
@[simp] theorem hostPoke_mb (s : State) (a : Nat) (b : List Byte) : (hostPoke s a b).mb = s.mb := rfl
@[simp] theorem hostPoke_power (s : State) (a : Nat) (b : List Byte) : (hostPoke s a b).power = s.power := rfl
@[simp] theorem hostPoke_i3c (s : State) (a : Nat) (b : List Byte) : (hostPoke s a b).i3c = s.i3c := rfl
@[simp] theorem hostPoke_flt (s : State) (a : Nat) (b : List Byte) : (hostPoke s a b).flt = s.flt := rfl
@[simp] theorem hostPoke_cnt (s : State) (a : Nat) (b : List Byte) : (hostPoke s a b).cnt = s.cnt := rfl
@[simp] theorem hostPoke_folios (s : State) (a : Nat) (b : List Byte) : (hostPoke s a b).folios = s.folios := rfl
@[simp] theorem hostPoke_lanes (s : State) (a : Nat) (b : List Byte) : (hostPoke s a b).lanes = s.lanes := rfl
@[simp] theorem hostPoke_links (s : State) (a : Nat) (b : List Byte) : (hostPoke s a b).links = s.links := rfl
@[simp] theorem hostPoke_ports (s : State) (a : Nat) (b : List Byte) : (hostPoke s a b).ports = s.ports := rfl
@[simp] theorem hostPoke_fab (s : State) (a : Nat) (b : List Byte) : (hostPoke s a b).fab = s.fab := rfl
@[simp] theorem hostPoke_pcie (s : State) (a : Nat) (b : List Byte) : (hostPoke s a b).pcie = s.pcie := rfl
@[simp] theorem hostPoke_eth (s : State) (a : Nat) (b : List Byte) : (hostPoke s a b).eth = s.eth := rfl
@[simp] theorem hostPoke_scan (s : State) (a : Nat) (b : List Byte) : (hostPoke s a b).scan = s.scan := rfl
@[simp] theorem hostPoke_boot (s : State) (a : Nat) (b : List Byte) : (hostPoke s a b).boot = s.boot := rfl
@[simp] theorem hostPoke_serve (s : State) (a : Nat) (b : List Byte) : (hostPoke s a b).serve = s.serve := rfl
@[simp] theorem hostPoke_act (s : State) (a : Nat) (b : List Byte) : (hostPoke s a b).act = s.act := rfl
@[simp] theorem hostPoke_actQueue (s : State) (a : Nat) (b : List Byte) : (hostPoke s a b).actQueue = s.actQueue := rfl
@[simp] theorem hostPoke_actHdr (s : State) (a : Nat) (b : List Byte) : (hostPoke s a b).actHdr = s.actHdr := rfl
@[simp] theorem hostPoke_job (s : State) (a : Nat) (b : List Byte) : (hostPoke s a b).job = s.job := rfl
@[simp] theorem hostPoke_ductus (s : State) (a : Nat) (b : List Byte) : (hostPoke s a b).ductus = s.ductus := rfl
@[simp] theorem hostPoke_frame (s : State) (a : Nat) (b : List Byte) : (hostPoke s a b).frame = s.frame := rfl
@[simp] theorem hostPoke_streams (s : State) (a : Nat) (b : List Byte) : (hostPoke s a b).streams = s.streams := rfl
@[simp] theorem hostPoke_experts (s : State) (a : Nat) (b : List Byte) : (hostPoke s a b).experts = s.experts := rfl
@[simp] theorem hostPoke_train (s : State) (a : Nat) (b : List Byte) : (hostPoke s a b).train = s.train := rfl
@[simp] theorem hostPoke_digests (s : State) (a : Nat) (b : List Byte) : (hostPoke s a b).digests = s.digests := rfl

/-! ### advance -/

@[simp] theorem advance_pending (s : State) (u : Nat) : (advance s u).pending = s.pending := rfl
@[simp] theorem advance_free (s : State) (u : Nat) : (advance s u).free = s.free := rfl
@[simp] theorem advance_out (s : State) (u : Nat) : (advance s u).out = s.out := rfl
@[simp] theorem advance_hostMem (s : State) (u : Nat) : (advance s u).hostMem = s.hostMem := rfl
@[simp] theorem advance_pins (s : State) (u : Nat) : (advance s u).pins = s.pins := rfl
@[simp] theorem advance_flash (s : State) (u : Nat) : (advance s u).flash = s.flash := rfl
@[simp] theorem advance_mem (s : State) (u : Nat) : (advance s u).mem = s.mem := rfl
@[simp] theorem advance_glob (s : State) (u : Nat) : (advance s u).glob = s.glob := rfl
@[simp] theorem advance_loss (s : State) (u : Nat) : (advance s u).loss = s.loss := rfl
@[simp] theorem advance_colo (s : State) (u : Nat) : (advance s u).colo = s.colo := rfl
@[simp] theorem advance_rings (s : State) (u : Nat) : (advance s u).rings = s.rings := rfl
@[simp] theorem advance_mb (s : State) (u : Nat) : (advance s u).mb = s.mb := rfl
@[simp] theorem advance_power (s : State) (u : Nat) : (advance s u).power = s.power := rfl
@[simp] theorem advance_i3c (s : State) (u : Nat) : (advance s u).i3c = s.i3c := rfl
@[simp] theorem advance_flt (s : State) (u : Nat) : (advance s u).flt = s.flt := rfl
@[simp] theorem advance_cnt (s : State) (u : Nat) : (advance s u).cnt = s.cnt := rfl
@[simp] theorem advance_folios (s : State) (u : Nat) : (advance s u).folios = s.folios := rfl
@[simp] theorem advance_lanes (s : State) (u : Nat) : (advance s u).lanes = s.lanes := rfl
@[simp] theorem advance_links (s : State) (u : Nat) : (advance s u).links = s.links := rfl
@[simp] theorem advance_ports (s : State) (u : Nat) : (advance s u).ports = s.ports := rfl
@[simp] theorem advance_fab (s : State) (u : Nat) : (advance s u).fab = s.fab := rfl
@[simp] theorem advance_pcie (s : State) (u : Nat) : (advance s u).pcie = s.pcie := rfl
@[simp] theorem advance_eth (s : State) (u : Nat) : (advance s u).eth = s.eth := rfl
@[simp] theorem advance_scan (s : State) (u : Nat) : (advance s u).scan = s.scan := rfl
@[simp] theorem advance_boot (s : State) (u : Nat) : (advance s u).boot = s.boot := rfl
@[simp] theorem advance_serve (s : State) (u : Nat) : (advance s u).serve = s.serve := rfl
@[simp] theorem advance_act (s : State) (u : Nat) : (advance s u).act = s.act := rfl
@[simp] theorem advance_actQueue (s : State) (u : Nat) : (advance s u).actQueue = s.actQueue := rfl
@[simp] theorem advance_actHdr (s : State) (u : Nat) : (advance s u).actHdr = s.actHdr := rfl
@[simp] theorem advance_job (s : State) (u : Nat) : (advance s u).job = s.job := rfl
@[simp] theorem advance_ductus (s : State) (u : Nat) : (advance s u).ductus = s.ductus := rfl
@[simp] theorem advance_frame (s : State) (u : Nat) : (advance s u).frame = s.frame := rfl
@[simp] theorem advance_streams (s : State) (u : Nat) : (advance s u).streams = s.streams := rfl
@[simp] theorem advance_experts (s : State) (u : Nat) : (advance s u).experts = s.experts := rfl
@[simp] theorem advance_train (s : State) (u : Nat) : (advance s u).train = s.train := rfl
@[simp] theorem advance_digests (s : State) (u : Nat) : (advance s u).digests = s.digests := rfl

/-! ### setFull -/

@[simp] theorem setFull_pending (s : State) (n : Nat) : (setFull s n).pending = s.pending := rfl
@[simp] theorem setFull_free (s : State) (n : Nat) : (setFull s n).free = s.free := rfl
@[simp] theorem setFull_out (s : State) (n : Nat) : (setFull s n).out = s.out := rfl
@[simp] theorem setFull_hostMem (s : State) (n : Nat) : (setFull s n).hostMem = s.hostMem := rfl
@[simp] theorem setFull_pins (s : State) (n : Nat) : (setFull s n).pins = s.pins := rfl
@[simp] theorem setFull_flash (s : State) (n : Nat) : (setFull s n).flash = s.flash := rfl
@[simp] theorem setFull_glob (s : State) (n : Nat) : (setFull s n).glob = s.glob := rfl
@[simp] theorem setFull_loss (s : State) (n : Nat) : (setFull s n).loss = s.loss := rfl
@[simp] theorem setFull_colo (s : State) (n : Nat) : (setFull s n).colo = s.colo := rfl
@[simp] theorem setFull_time (s : State) (n : Nat) : (setFull s n).time = s.time := rfl
@[simp] theorem setFull_rings (s : State) (n : Nat) : (setFull s n).rings = s.rings := rfl
@[simp] theorem setFull_mb (s : State) (n : Nat) : (setFull s n).mb = s.mb := rfl
@[simp] theorem setFull_power (s : State) (n : Nat) : (setFull s n).power = s.power := rfl
@[simp] theorem setFull_i3c (s : State) (n : Nat) : (setFull s n).i3c = s.i3c := rfl
@[simp] theorem setFull_flt (s : State) (n : Nat) : (setFull s n).flt = s.flt := rfl
@[simp] theorem setFull_cnt (s : State) (n : Nat) : (setFull s n).cnt = s.cnt := rfl
@[simp] theorem setFull_folios (s : State) (n : Nat) : (setFull s n).folios = s.folios := rfl
@[simp] theorem setFull_lanes (s : State) (n : Nat) : (setFull s n).lanes = s.lanes := rfl
@[simp] theorem setFull_links (s : State) (n : Nat) : (setFull s n).links = s.links := rfl
@[simp] theorem setFull_ports (s : State) (n : Nat) : (setFull s n).ports = s.ports := rfl
@[simp] theorem setFull_fab (s : State) (n : Nat) : (setFull s n).fab = s.fab := rfl
@[simp] theorem setFull_pcie (s : State) (n : Nat) : (setFull s n).pcie = s.pcie := rfl
@[simp] theorem setFull_eth (s : State) (n : Nat) : (setFull s n).eth = s.eth := rfl
@[simp] theorem setFull_scan (s : State) (n : Nat) : (setFull s n).scan = s.scan := rfl
@[simp] theorem setFull_boot (s : State) (n : Nat) : (setFull s n).boot = s.boot := rfl
@[simp] theorem setFull_serve (s : State) (n : Nat) : (setFull s n).serve = s.serve := rfl
@[simp] theorem setFull_act (s : State) (n : Nat) : (setFull s n).act = s.act := rfl
@[simp] theorem setFull_actQueue (s : State) (n : Nat) : (setFull s n).actQueue = s.actQueue := rfl
@[simp] theorem setFull_actHdr (s : State) (n : Nat) : (setFull s n).actHdr = s.actHdr := rfl
@[simp] theorem setFull_job (s : State) (n : Nat) : (setFull s n).job = s.job := rfl
@[simp] theorem setFull_ductus (s : State) (n : Nat) : (setFull s n).ductus = s.ductus := rfl
@[simp] theorem setFull_frame (s : State) (n : Nat) : (setFull s n).frame = s.frame := rfl
@[simp] theorem setFull_streams (s : State) (n : Nat) : (setFull s n).streams = s.streams := rfl
@[simp] theorem setFull_experts (s : State) (n : Nat) : (setFull s n).experts = s.experts := rfl
@[simp] theorem setFull_train (s : State) (n : Nat) : (setFull s n).train = s.train := rfl
@[simp] theorem setFull_digests (s : State) (n : Nat) : (setFull s n).digests = s.digests := rfl

/-! ### setEmpty -/

@[simp] theorem setEmpty_pending (s : State) (n : Nat) : (setEmpty s n).pending = s.pending := rfl
@[simp] theorem setEmpty_free (s : State) (n : Nat) : (setEmpty s n).free = s.free := rfl
@[simp] theorem setEmpty_out (s : State) (n : Nat) : (setEmpty s n).out = s.out := rfl
@[simp] theorem setEmpty_hostMem (s : State) (n : Nat) : (setEmpty s n).hostMem = s.hostMem := rfl
@[simp] theorem setEmpty_pins (s : State) (n : Nat) : (setEmpty s n).pins = s.pins := rfl
@[simp] theorem setEmpty_flash (s : State) (n : Nat) : (setEmpty s n).flash = s.flash := rfl
@[simp] theorem setEmpty_glob (s : State) (n : Nat) : (setEmpty s n).glob = s.glob := rfl
@[simp] theorem setEmpty_loss (s : State) (n : Nat) : (setEmpty s n).loss = s.loss := rfl
@[simp] theorem setEmpty_colo (s : State) (n : Nat) : (setEmpty s n).colo = s.colo := rfl
@[simp] theorem setEmpty_time (s : State) (n : Nat) : (setEmpty s n).time = s.time := rfl
@[simp] theorem setEmpty_rings (s : State) (n : Nat) : (setEmpty s n).rings = s.rings := rfl
@[simp] theorem setEmpty_mb (s : State) (n : Nat) : (setEmpty s n).mb = s.mb := rfl
@[simp] theorem setEmpty_power (s : State) (n : Nat) : (setEmpty s n).power = s.power := rfl
@[simp] theorem setEmpty_i3c (s : State) (n : Nat) : (setEmpty s n).i3c = s.i3c := rfl
@[simp] theorem setEmpty_flt (s : State) (n : Nat) : (setEmpty s n).flt = s.flt := rfl
@[simp] theorem setEmpty_cnt (s : State) (n : Nat) : (setEmpty s n).cnt = s.cnt := rfl
@[simp] theorem setEmpty_folios (s : State) (n : Nat) : (setEmpty s n).folios = s.folios := rfl
@[simp] theorem setEmpty_lanes (s : State) (n : Nat) : (setEmpty s n).lanes = s.lanes := rfl
@[simp] theorem setEmpty_links (s : State) (n : Nat) : (setEmpty s n).links = s.links := rfl
@[simp] theorem setEmpty_ports (s : State) (n : Nat) : (setEmpty s n).ports = s.ports := rfl
@[simp] theorem setEmpty_fab (s : State) (n : Nat) : (setEmpty s n).fab = s.fab := rfl
@[simp] theorem setEmpty_pcie (s : State) (n : Nat) : (setEmpty s n).pcie = s.pcie := rfl
@[simp] theorem setEmpty_eth (s : State) (n : Nat) : (setEmpty s n).eth = s.eth := rfl
@[simp] theorem setEmpty_scan (s : State) (n : Nat) : (setEmpty s n).scan = s.scan := rfl
@[simp] theorem setEmpty_boot (s : State) (n : Nat) : (setEmpty s n).boot = s.boot := rfl
@[simp] theorem setEmpty_serve (s : State) (n : Nat) : (setEmpty s n).serve = s.serve := rfl
@[simp] theorem setEmpty_act (s : State) (n : Nat) : (setEmpty s n).act = s.act := rfl
@[simp] theorem setEmpty_actQueue (s : State) (n : Nat) : (setEmpty s n).actQueue = s.actQueue := rfl
@[simp] theorem setEmpty_actHdr (s : State) (n : Nat) : (setEmpty s n).actHdr = s.actHdr := rfl
@[simp] theorem setEmpty_job (s : State) (n : Nat) : (setEmpty s n).job = s.job := rfl
@[simp] theorem setEmpty_ductus (s : State) (n : Nat) : (setEmpty s n).ductus = s.ductus := rfl
@[simp] theorem setEmpty_frame (s : State) (n : Nat) : (setEmpty s n).frame = s.frame := rfl
@[simp] theorem setEmpty_streams (s : State) (n : Nat) : (setEmpty s n).streams = s.streams := rfl
@[simp] theorem setEmpty_experts (s : State) (n : Nat) : (setEmpty s n).experts = s.experts := rfl
@[simp] theorem setEmpty_train (s : State) (n : Nat) : (setEmpty s n).train = s.train := rfl
@[simp] theorem setEmpty_digests (s : State) (n : Nat) : (setEmpty s n).digests = s.digests := rfl

end Sys2Proof.Machine
end

