-- ==== Sys2Proof/Tests/Slice0.lean ====
section
/-! SUPPORT. Tests of the model. Each statement of the obligations that has hypotheses has here a concrete state and operands that
meet them, with what the command answers; the expected values are the manual's, or worked out by hand from it. The last test
is the smoke test of WellFormed: a command that breaks each check is refused. -/

namespace Sys2Proof.Tests.Slice0

set_option Elab.async false

open Sys2Proof Sys2Proof.Machine

/-- A command answers a next state of which a check holds. -/
def ans (c : Instr) (s : State) (p : State → Bool) : Bool := match exec c s with | .next t => p t | _ => false

/-- A command answers exactly this state. -/
def gives (c : Instr) (s u : State) : Bool := ans c s (fun t => decide (t = u))

/-- A part that runs, without a session: device 5, every domain ON, ports 0 and 8 UP, a route to device 7 on port 8, completion
ring 0 and the fault ring enabled. -/
def up : State :=
  { State.reset with
    pins.sysReset := false, pins.perst := false, glob.deviceId := 5, glob.jobState := 1, boot.phase := 6
    power.dom := (List.range 131).map (fun n => (n, { Domain.dflt n with state := 2 }))
    lanes := [(0, { state := 3, rate := 1 }), (8, { state := 3, rate := 1 })]
    fab.routes := [{ value := 7, mask := 0xFFFFFF, port := 8, alt := 0xFF, flags := 1 }]
    rings.cq := [(0, { base := 0x1000, en := true, phase := 1 })], rings.fq := { base := 0x2000, en := true }
    pcie.up := true, pcie.busMaster := true, pcie.rate := 6, pcie.width := 16, pcie.bar4En := true }

/-- A header of owner 9. -/
def hdr : Hdr := { sq := 0, cq := 0, owner := 9, tag := 3, flags := 0 }

/-- The same part with a session. -/
def claimed : State := { up with glob.jobState := 2, job.session := 9 }

/-- The same part in the stroke region of a frame of a job. -/
def running : State :=
  { claimed with
    glob.jobState := 4, time.period := 1000, frame.live := true, frame.region := true, frame.number := 12
    job.blk.devices := [5, 7], job.blk.tag := 2, job.blk.restartFrames := 3, job.f0 := 10, job.step := 20 }

/-! ### The block and the board -/

theorem test_idle_step : (up.pending.isEmpty && decide (up.time.now < 2 ^ 48 * unitsPerSec) && decide (-(10 ^ 12 : Int) ≤ up.time.trim) &&
    !(up.pins.sysReset || up.pins.lostSys) && (State.reset.pins.sysReset || State.reset.pins.lostSys) &&
    (match step up with | .next t => t.time.now == 2621440 && t.time.res == 0 | _ => false) &&
    (match step State.reset with | .next t => decide (t = State.reset) | _ => false)) = true := by decide +kernel

theorem test_dead_part : (Instr.frameTick.wf && !alive State.reset && !alwaysObeyed .frameTick &&
    gives .frameTick State.reset State.reset) = true := by decide +kernel

theorem test_step_keeps_memory : (Memory.wf (isUndef State.reset.mem.undef) State.reset.mem.cells && Memory.wf (fun _ => false) State.reset.hostMem &&
    (match step State.reset with | .next t => Memory.wf (isUndef t.mem.undef) t.mem.cells | _ => false)) = true := by decide +kernel

theorem test_cold_reset : (ans (.sysResetNAssert 1000) running (fun t => !alive t && !t.frame.live && t.pins.vid == 15) &&
    ans .vddAuxUndervoltage running (fun t => !alive t && t.glob.deviceId == 0xFFFFFF) &&
    gives (.sysResetNAssert 999) running running) = true := by decide +kernel

theorem test_fault_state_entered : (alive running && !inValidation running 0 0 &&
    ans .refclkSysLoss running (fun t => t.glob.faultState && t.pins.lostSys && (lane t 8).state == 0 && (dom t 113).state == 0 &&
      rd t.flt.last 0 1 == 0x10) &&
    ans .securityWatchdog running (fun t => t.glob.faultState && !t.frame.live && t.mem == running.mem)) = true := by decide +kernel

/-- A part in the fault state. -/
def faulted : State := { up with glob.faultState := true }

theorem test_fault_state_left : (faulted.glob.faultState && !faulted.pins.sysReset && !coldResets .frameTick &&
    gives .frameTick faulted faulted && ans .perstNAssert faulted (fun t => t.glob.faultState)) = true := by decide +kernel

theorem test_ring_host_lost : (alive running && running.rings.host == 0 && running.job.session != 0 &&
    ans .ringHostLost running (fun t => t.glob.jobState == 6 && t.job.savedState == 4 && t.frame == running.frame) &&
    ans .ringHostLost claimed (fun t => t.glob.jobState == 1 && t.job.session == 0) &&
    ans .refclkPcieLoss running (fun t => t.pins.lostPcie && !t.pcie.up && t.glob.jobState == 6) &&
    ans .perstNAssert running (fun t => t.pins.perst && !t.pcie.up && t.pcie.msix.isEmpty)) = true := by decide +kernel

theorem test_pcie_link : (alive up && !up.pins.perst && !up.pins.lostPcie &&
    ans (.pcieLinkTrained 3 8 { flit := false }) up (fun t => degraded t && t.pcie.width == 8) &&
    ans (.pcieLinkTrained 4 16 { flit := true, busMaster := false, maxPayload := 256 }) up (fun t =>
      !degraded t && t.pcie.flit && t.pcie.maxPayload == 256 && !hostReady t) &&
    ans (.refclkSdLoss 0) up (fun t => t.pins.lostSd0) && ans (.refclkSdLoss 1) up (fun t => t.pins.lostSd1) &&
    gives .perstNDeassert up up) = true := by decide +kernel

theorem test_thermtrip : (!up.pins.sysReset && !up.pins.thermtrip &&
    ans (.thermtrip 3 1760) up (fun t => t.pins.thermtrip && !alive t && t.i3c.ibi.contains 4 && decide (3 ≤ t.power.level)) &&
    ans (.thermtrip 8 1520) up (fun t => t.pins.clocksStopped) &&
    gives (.thermtrip 3 1759) up up && gives (.thermtrip 15 1519) up up) = true := by decide +kernel

theorem test_tap : (ans (.jtagInstruction .idcode) up (fun t => tapEffective t == .idcode) &&
    ans (.jtagInstruction .extest) up (fun t => tapEffective t == .bypass && tapEffective { t with pins.sysReset := true } == .extest) &&
    ans (.jtagInstruction .extest) State.reset (fun t => tapEffective t == .extest && tapEffective { t with pins.sysReset := false } == .bypass) &&
    ans (.jtagInstruction .trst) State.reset (fun t => t.pins.trst && tapEffective t == .idcode) &&
    ans (.jtagInstruction (.other 99)) up (fun t => tapEffective t == .bypass)) = true := by decide +kernel

theorem test_i3c : (!up.pins.sysReset && alive up && ans (.i3cDynamicAddress 5) up (fun t => t.i3c.dynamic == 5) &&
    ans (.i3cPrivateRead 2) { up with i3c.offset := 6 } (fun t => t.out.i3cBytes == leBytes 2 450) &&
    ans (.i3cPrivateWrite [2, 0, 0xFF, 0xFF]) up (fun t => t.power.limitBoard == 850) &&
    ans (.i3cPrivateWrite [10, 0, 0, 0]) up (fun t => t.power.window == 1) &&
    ans (.i3cRailWrite 12 77) up (fun t => tget t.power.rails 12 0 == 77 && !t.power.uncalibrated)) = true := by decide +kernel

/-! ### Power -/

/-- A domain of the part replaced. -/
def withDom (s : State) (n : Nat) (d : Domain) : State := setDom s n d

theorem test_masked_votes : (alive up && !powerHeld up &&
    ans (.supvVoteSet 1 (2 ^ 63)) up (fun t => (dom t 127).votes.testBit 2 && (dom t 127).state == 2) &&
    ans (.supvVoteClr 2 5) up (fun t => !(dom t 130).votes.testBit 2) &&
    ans (.i3cVoteSet (2 ^ 68)) up (fun t => (dom t 68).votes.testBit 5 && t.job == up.job) &&
    ans (.i3cVoteClr (2 ^ 130)) up (fun t => !(dom t 130).votes.testBit 5)) = true := by decide +kernel

/-- A packet from device 7 on port 8. -/
def pkt0 : Packet :=
  { typ := 6, flags := 0, cls := 2, status := 0, dst := 5, src := 7, window := 0, elemFmt := 0, length := 32, tag := 0, addr := 0,
    gen := 0, frame := 12, hops := 0, payload := [] }

theorem test_partner_votes : (alive up && !powerHeld up &&
    Packet.wf { pkt0 with payload := [0x30, 1] ++ List.replicate 30 0 } &&
    ans (.powerVote 8 { pkt0 with payload := [0x30, 1] ++ List.replicate 30 0 }) up (fun t =>
      t.power.partner == [8] && (dom t 113).votes.testBit 3) &&
    ans (.powerVote 8 { pkt0 with payload := [0x30, 0] ++ List.replicate 30 0 }) up (fun t => t.power.partner == []) &&
    gives (.powerVote 8 pkt0) up (devEvent up 0x55 1) &&
    ans (.powerDomClear 70) (withDom up 70 { refused := 4, aborted := 2, last := 9, state := 2 }) (fun t =>
      (dom t 70).refused == 0 && (dom t 70).aborted == 0 && (dom t 70).last == 0)) = true := by decide +kernel

/-- A part whose stack domain 72 is OFF with a vote, and whose domain 80 wakes. -/
def waking : State := withDom (withDom up 72 { state := 0, votes := 4 }) 80 { state := 1, votes := 36 }

theorem test_wakes : (alive waking && !powerHeld waking && wakeOrder.find? (readyToWake waking) == some 72 &&
    ans .wakeSlot waking (fun t => (dom t 72).state == 1) &&
    (dom waking 80).state == 1 && (dom waking 80).votes.testBit 2 &&
    ans (.wakeComplete 80) waking (fun t => (dom t 80).state == 2 && t.i3c.ibi.contains 2 && t.mem == waking.mem)) = true := by
  decide +kernel

/-- Domain 79 in a state. -/
def inState (st : Nat) : State := withDom up 79 { Domain.dflt 79 with state := st }

theorem test_entry_sequence : (holdOf (inState 3) 79 == none &&
    ans (.drainComplete 79) (inState 3) (fun t => (dom t 79).state == 4) &&
    holdOf { inState 3 with glob.jobState := 4 } 79 == some 0x8FFF &&
    ans (.drainComplete 79) { inState 3 with glob.jobState := 4 } (fun t => (dom t 79).state == 2 && (dom t 79).last == 0x8FFF) &&
    ans (.drainTimeout 79 80) (inState 3) (fun t => (dom t 79).retry && (dom t 79).last == 0xD000 + 80) &&
    ans (.entryRetry 79) (withDom up 79 { state := 2, retry := true }) (fun t => (dom t 79).state == 3 && !(dom t 79).retry) &&
    ans (.holdRelease 79) (withDom up 79 { state := 2, refusedNow := true, refused := 3 }) (fun t =>
      (dom t 79).state == 3 && (dom t 79).refused == 3) &&
    ans (.shutdownComplete 79) (withDom up 79 { state := 4, toSr := true, votes := 4 }) (fun t =>
      (dom t 79).state == 5 && (dom t 79).wakePending)) = true := by decide +kernel

theorem test_power_estimate : (alive up && !powerHeld up && !up.power.uncalibrated &&
    ans (.powerUpdate 4000 []) up (fun t => t.power.limitEff == 450 && t.power.average == 4000 && t.power.stallRatio == 16 &&
      t.power.conditions.contains 1) &&
    ans .powerCalibrate { up with power.average := 100, power.rails := [(0, 100)] } (fun t =>
      t.power.calib == railPower { up with power.rails := [(0, 100)] } * 1024 / 100) &&
    ans .railTelemetryTimeout up (fun t => t.power.uncalibrated)) = true := by decide +kernel

theorem test_emergency_levels : (alive running && decide (running.power.level < 2) &&
    ans .alertNLow running (fun t => t.pins.alertBoard && t.power.conditions.contains 1) &&
    ans .alertNHoldTimeout { running with pins.alertBoard := true, power.conditions := [1], power.level := 1 } (fun t =>
      t.power.cause == 4 && t.power.level == 2 && t.job.pauseNow && rd t.flt.last 0 1 == 0x17) &&
    !level1 up && level2 up == none &&
    ans (.emergencyLevelClear 1) { up with power.conditions := [1], power.level := 1 } (fun t => t.power.conditions.isEmpty && t.power.level == 0) &&
    ans (.emergencyLevelClear 2) { up with power.conditions := [2], power.level := 2 } (fun t => t.power.level == 0)) = true := by
  decide +kernel

theorem test_power_watchdog : (alive up && !up.power.dead && !coreSwitching up 1 &&
    ans (.powerWatchdog false) up (fun t => t.power.stopped && !t.power.dead && t.flt.seq == 1) &&
    ans (.powerWatchdog true) { up with boot.powerExpired := true } (fun t => t.power.dead && t.power.conditions.contains 2) &&
    ans .powerImageReload { up with power.stopped := true, power.queued := [(80, 2, true)] } (fun t =>
      !t.power.stopped && (dom t 80).votes.testBit 2)) = true := by decide +kernel

/-! ### Time -/

theorem test_time_registers : (alive up && !jobExists up && jobExists running &&
    ans .timeSecondsRead { up with time.now := 7 * unitsPerSec + 5 } (fun t => t.time.capture == 7 * unitsPerSec + 5 && t.out.readData == 7) &&
    ans (.timeSecondsWrite (2 ^ 48 + 3)) up (fun t => t.time.heldSeconds == 3) &&
    ans (.timeSourceWrite 0x803) up (fun t => t.time.source == 3 && t.time.sourceLane == 8 && t.time.state == 0) &&
    ans (.timeStep 999999999) { up with time.heldSeconds := 3 } (fun t => t.time.now == 3 * unitsPerSec + 999999999 * 65536) &&
    gives (.timeStep 1000000000) up (devEvent up 0x51 1) && gives (.timeStep 0) running (devEvent running 0x51 1) &&
    gives (.timeStep 0) { up with time.state := 2 } (devEvent { up with time.state := 2 } 0x51 1) &&
    gives (.timeSecondsWrite 1) running (devEvent running 0x51 1) &&
    ans (.timeSourceWrite 1) running (fun t => t.time.pendSource == some 1 && t.time.source == 0)) = true := by decide +kernel

theorem test_time_trim : (up.time.source == 0 &&
    ans (.timeTrimWrite 50000001) up (fun t => t.time.trim == 50000000) &&
    ans (.timeTrimWrite 0xFFFFFFFF) up (fun t => t.time.trim == -1) &&
    ans (.timeTrimWrite 0x80000000) up (fun t => t.time.trim == -50000000) &&
    gives (.timeTrimWrite 1) { up with time.source := 1 } (devEvent { up with time.source := 1 } 0x51 1)) = true := by decide +kernel

/-- A TIME payload of type `ty`. -/
def timePay (ty seq : Nat) (now : Nat) : List Byte := leBytes 1 ty ++ leBytes 1 0 ++ leBytes 2 seq ++ leBytes 4 0 ++ ptpBytes now ++ leBytes 14 0

/-- The part with the time of lane 8 as its source. -/
def timed : State :=
  setLane { up with time.source := 3, time.sourceLane := 8, time.now := 9 * unitsPerSec } 8 { state := 3, rate := 1, partnerFeat := 8 }

theorem test_time_packets : (alive timed && portUp timed (portOf timed 8) && portOf timed 8 == 8 && (timePay 1 4 0).length == 32 &&
    timeLane timed 8 &&
    ans (.syncSend 8) timed (fun t => t.time.syncSeq == 1 && (port t 8).queue.length == 1) &&
    ans (.delayReqReceive 8 (timePay 2 4 0) 77) timed (fun t => (port t 8).queue.length == 1) &&
    ans (.syncReceive 8 (timePay 1 4 (8 * unitsPerSec)) 100 200) timed (fun t =>
      (match t.time.exch with | some e => e.seq == 4 && e.t1 == 8 * unitsPerSec && e.t2 == 100 && e.t3 == 200 | none => false))) = true := by
  decide +kernel

/-- The part with an exchange open: offset 100 units, no delay. -/
def exchanging : State :=
  { timed with time.exch := some { seq := 4, t1 := 65536000, t2 := 65536100, t3 := 65536200, locked := true }, time.good := 15 }

theorem test_time_exchanges : (timeLane exchanging 8 &&
    ans (.delayRespReceive 8 (timePay 3 4 65536000)) exchanging (fun t =>
      t.time.exch == none && t.time.bound == 65686 && t.time.pathDelay == -50 && t.time.good == 16 && t.time.state == 2 && t.time.offset == 0) &&
    ans .timeExchangeMissed { timed with time.state := 2, time.missed := 3 } (fun t => t.time.state == 3 && t.time.missed == 4)) = true := by
  decide +kernel

/-- A Sync that port 0 takes, from its master. -/
def sync0 : PtpMsg :=
  { kind := 0, profile := 1, domain := 0, vlan := none, master := 4, quality := 0, twoStep := true, seq := 6, log := 0, t := 0,
    t' := 0, corr := 3, udp := false }

/-- The part with Ethernet port 0 up, as a clock of profile 1. -/
def ethUp : State := setEth up 0 { up := true, profile := 1, master := some (4, 0), rxDelay := 10, txDelay := 20, ipv4 := 0x0A000001 }

theorem test_ethernet_clock : (alive ethUp && ptpTakes (ethPort ethUp 0) sync0 &&
    ans (.ptpMessageReceive 0 sync0 1000) ethUp (fun t =>
      (match (ethPort t 0).exch with | some x => x.t2 == 990 && x.seq == 6 && x.corr == 3 | none => false)) &&
    !ptpTakes (ethPort ethUp 0) { sync0 with domain := 9 } &&
    gives (.ptpMessageReceive 0 { sync0 with domain := 9 } 1000) ethUp (devEvent ethUp 0x54 1) &&
    gives (.ethDiscard 0) ethUp (devEvent ethUp 0x54 1) &&
    ans (.ptpDelayReqSend 0 500) ethUp (fun t => (ethPort t 0).pdSent == some 520) &&
    ans (.ptpSyncMissed 0) ethUp (fun t => t.time == ethUp.time) &&
    ans (.ptpSyncMissed 0) { ethUp with time.source := 1 } (fun t => t.time.missed == 1)) = true := by decide +kernel

/-- A Pdelay_Req is answered by a port that measures the peer delay. -/
theorem test_ethernet_peer : (ptpTakes (ethPort ethUp 0) { sync0 with kind := 6 } && (ethPort ethUp 0).profile != 0 &&
    ans (.ptpMessageReceive 0 { sync0 with kind := 6 } 1000) ethUp (fun t =>
      (ethPort t 0).pdReplies == 1 && (ethPort t 0).pdLast == (6, 990))) = true := by decide +kernel

theorem test_ethernet_links : (domOn ethUp 129 &&
    ans (.ethLinkUp 0 5 6) ethUp (fun t => (ethPort t 0).txDelay == 5 && (ethPort t 0).rxDelay == 6) &&
    ans (.ethLinkDown 0) ethUp (fun t => !(ethPort t 0).up) &&
    ans (.arpRequest 0 0x0A000001) ethUp (fun t => (ethPort t 0).arpReplies == 1) &&
    gives (.arpRequest 0 0x0A000002) ethUp (devEvent ethUp 0x54 1) &&
    ans (.ethModeWrite 0 2) { ethUp with time.source := 1 } (fun t => (ethPort t 0).mode == 2 && t.time.state == 3) &&
    gives (.ethModeWrite 1 2) running (devEvent running 0x51 1)) = true := by decide +kernel

/-! ### Rings and registers -/

/-- Submission ring 0 enabled, with two descriptors in it. -/
def ringed : State := { claimed with rings.sq := [(0, { base := 0x4000, en := true, head := 1, tail := 3 })] }

theorem test_doorbells : (alive ringed && !degraded ringed &&
    decide (ringDist 16 1 3 ≤ ringDist 16 1 0) && decide ((0 : Nat) < 2 ^ 4) &&
    ans (.sqTailDoorbell 0 0 [(0x4040, [1, 2])]) ringed (fun t => (sq t 0).tail == 0 && hostPeek t 0x4040 2 == [1, 2]) &&
    ans (.sqTailDoorbell 0 15 []) ringed (fun t => (sq t 0).tail == 15) &&
    ans (.sqTailDoorbell 0 16 []) ringed (fun t => t.rings.sq == ringed.rings.sq) &&
    ans (.sqTailDoorbell 1 0 []) ringed (fun t => t.rings.sq == ringed.rings.sq) &&
    headOk (cq ringed 0) 0 && ans (.cqHeadDoorbell 0 0) ringed (fun t => (cq t 0).head == 0) &&
    headOk { ringed.rings.fq with tail := 2 } 2 &&
    ans (.fqHeadDoorbell 2) { ringed with rings.fq := { ringed.rings.fq with tail := 2 } } (fun t => t.rings.fq.head == 2) &&
    !headOk ringed.rings.fq 1 && ans (.fqHeadDoorbell 1) ringed (fun t => t.rings.fq == ringed.rings.fq) &&
    headOk { ringed.rings.ctr with en := true, tail := 1 } 1 &&
    ans (.ctrHeadDoorbell 1) { ringed with rings.ctr := { en := true, size := 2, tail := 1 } } (fun t => t.rings.ctr.head == 1)) = true := by
  decide +kernel

theorem test_ring_enable : (ans (.ringEnable (.sq 3)) up (fun t => (sq t 3).en && (sq t 3).size == 4) &&
    ans (.ringEnable (.cq 2)) up (fun t => (cq t 2).en && (cq t 2).phase == 1) &&
    ans (.ringEnable .ctr) up (fun t => t.rings.ctr.en && t.rings.ctr.phase == 1) &&
    gives (.ringEnable (.sq 3)) (setSq up 3 { size := 17 }) (setSq up 3 { size := 17 }) &&
    ans (.ringDisable (.sq 0)) ringed (fun t => !(sq t 0).en && (sq t 0).tail == 3) &&
    ans (.ringDisable .fq) ringed (fun t => !t.rings.fq.en)) = true := by decide +kernel

/-- A record that waits in ring 0, whose tail is its last entry. -/
def waitingRec : State := setCq up 0 { base := 0x1000, en := true, head := 1, tail := 15, phase := 1, queue := [(leBytes 32 2, false)] }

theorem test_record_flush : (alive waitingRec && waitingRec.rings.host == 0 && canWrite waitingRec (cq waitingRec 0) && rd (leBytes 32 2) 0 1 != 1 &&
    ans (.queuedRecordFlush 0) waitingRec (fun t => (cq t 0).queue.isEmpty && (cq t 0).tail == 0 && (cq t 0).phase == 0 &&
      hostPeek t (0x1000 + 32 * 15) 4 == [2, 0, 1, 0])) = true := by decide +kernel

/-- BAR4 over the first stack, which a job uses. -/
def bar4 : State := { up with glob.stackUse := 0xFF }

theorem test_bar4 : (alive bar4 && bar4.pcie.bar4En && installed bar4 64 4 &&
    ans (.bar4Write 64 [1, 2, 3, 4]) bar4 (fun t => peek t 64 4 == [1, 2, 3, 4] && peek t 68 1 == [0]) &&
    ans (.bar4Read 64 2) { bar4 with mem.cells := [(65, 7)] } (fun t => t.out.readBytes == [0, 7]) &&
    !installed { bar4 with pcie.bar4Base := mirrorBase } mirrorBase 4 &&
    gives (.bar4Write 0 [1, 2, 3, 4]) { bar4 with pcie.bar4Base := mirrorBase } (devEvent { bar4 with pcie.bar4Base := mirrorBase } 0x53 1) &&
    ans (.bar4Read 0 2) { bar4 with pcie.bar4Base := mirrorBase } (fun t => t.out.readBytes == [0, 0])) = true := by decide +kernel

theorem test_register_writes : (ans (.registerWrite .bar0 0x10 4 0x1234567) up (fun t => t.glob.deviceId == 0x234567) &&
    gives (.registerWrite .bar0 0x10 4 1) running (devEvent running 0x51 1) &&
    ans (.registerWrite .bar0 0x43100 4 1000) up (fun t => t.power.limitSupv == 850) &&
    ans (.registerWrite .bar0 0x43100 4 0) up (fun t => t.power.limitSupv == 450) &&
    !regAccess 0x10 2 && gives (.registerWrite .bar0 0x10 2 1) up up &&
    !inDoorbells 0x3FFF00 && !msixSlot 0x3FFF00 && regKind 0x3FFF00 == none && gives (.registerWrite .bar0 0x3FFF00 4 1) up up) = true := by
  decide +kernel

theorem test_wide_register : (match exec (.registerWrite .bar0 0x68 4 0x11111111) up with
    | .next u => u.glob.bcast0 == 0 && ans (.registerWrite .bar0 0x6C 4 0x22222222) u (fun t => t.glob.bcast0 == 0x2222222211111111)
    | _ => false) = true := by decide +kernel

theorem test_register_reads : (ans (.rcRegisterRead 0x10 4) up (fun t => t.out.readData == 5) &&
    ans (.rcRegisterRead 0x10 4) faulted (fun t => t.out.readData == 5) &&
    ans (.rcRegisterRead 0x50008 4) { up with flt.suppressed := 3 } (fun t => t.out.readData == 3 && t.flt.suppressed == 0) &&
    ans .faultLastRead { up with flt.last := leBytes 64 0x0807060504030201 } (fun t => t.out.readData == 0x0807060504030201) &&
    ans (.rcRegisterRead 0x60000 8) faulted (fun t => t.out.readData == 0)) = true := by decide +kernel

/-- A WRITE of register 0x68 through the mirror. -/
def mirrorPkt : Packet :=
  { pkt0 with typ := 1, flags := 8, cls := 1, length := 8, addr := mirrorBase + 0x68, window := 0, payload := leBytes 8 77 }

theorem test_mirror : (mirrorPkt.wf && !mirrorPkt.malformed && !mirrorPkt.resp &&
    toMirror up mirrorPkt && !gateAdmits up 7 && gateAdmits { up with glob.gateEn := true, glob.gateSrc := 7, glob.gateMask := 0xFFFFFF } 7 &&
    ans (.mirrorAccess 8 mirrorPkt) { up with glob.gateEn := true, glob.gateSrc := 7, glob.gateMask := 0xFFFFFF } (fun t => t.glob.bcast0 == 77) &&
    ans (.mirrorAccess 8 mirrorPkt) up (fun t => t.glob.bcast0 == 0 && t.flt.seq == 1)) = true := by decide +kernel

/-- A route table of one entry at 4096. -/
def routed : State := { up with glob.routeTable := 4096, glob.routeCount := 1,
                                mem.cells := writeBytes [] 4096 (leBytes 3 7 ++ leBytes 3 0xFFFFFF ++ leBytes 1 8 ++ leBytes 1 0xFF ++ leBytes 8 1) }

theorem test_route_load : (alive routed && installed routed 4096 16 && badLine routed 4096 16 == none &&
    routeEntryOk (peek routed 4096 16) &&
    ans .routeLoad routed (fun t => t.fab.routes.length == 1 && t.glob.routeDone) &&
    ans .routeLoad { routed with glob.routeTable := mirrorBase } (fun t => t.fab.routes == routed.fab.routes && t.glob.routeError) &&
    ans .routeLoad running (fun t => t.glob.routePending)) = true := by decide +kernel

theorem test_counters : (ans (.counterSelectWrite 0x60008 0x148) up (fun t => (ctr t 1).sel % 256 == 0x48 && (ctr t 1).resel) &&
    ans (.counterSelectWrite 0x60008 0x13F) up (fun t => (ctr t 1).sel % 256 == 0) &&
    ans .counterClear { up with cnt.ctr := [(1, { sel := 0x148, val := 9 })] } (fun t => (ctr t 1).val == 0 && (ctr t 1).sel == 0x148) &&
    ans (.counterSelectWrite 0x60008 0x148) running (fun t => (ctr t 1).pend == some 0x148) &&
    ans .counterClear running (fun t => t.cnt.pendClear)) = true := by decide +kernel

/-- The seam of a frame of a job, before its first phase. -/
def seamed : State := { running with frame.region := false, frame.seam := true }

theorem test_capture : (seamed.frame.seam && seamed.frame.phase == 0 && !seamed.cnt.pendClear &&
    ans .counterCapture { seamed with rings.held := [⟨hdr, .snapshot, false⟩], rings.ctr := { size := 2, en := true } } (fun t =>
      t.frame.phase == 1 && t.cnt.snapSeq == 1 && t.rings.ctr.tail == 1 && t.rings.held.isEmpty) &&
    ans .counterCapture seamed (fun t => t.frame.phase == 1 && t.cnt.snapSeq == 0)) = true := by decide +kernel

/-! ### The fabric -/

/-- Window 3 open over one KiB of a stack for device 7, in a part whose stacks a job may use. -/
def opened : State := setWindow { up with glob.stackUse := 0xFF } 3 { isOpen := true, base := 0x8000, flags := 7, length := 4096, gen := 1,
                                                                      srcId := 7, srcMask := 0xFFFFFF }

/-- A WRITE of eight bytes into that window. -/
def write3 : Packet :=
  { pkt0 with typ := 1, flags := 8, cls := 1, window := 3, length := 8, addr := 0x8010, gen := 1, payload := leBytes 8 0x1122334455667788 }

theorem test_inbound_write : (write3.wf && !write3.resp && !toMirror opened write3 && preRefusal opened write3 == none &&
    decide (verdict opened write3 = .pass) && !landsCell write3 &&
    ans (.inboundWrite 8 write3) opened (fun t => peekN t 0x8010 8 == 0x1122334455667788 && peekN t 0x8018 1 == 0 && (port t 8).queue.length == 1)) = true := by
  decide +kernel

/-- SLOT_FILL fills the slot that the packet touches, and in an aborted frame it does not. -/
theorem test_slot_fill : (let o := setWindow opened 3 { isOpen := true, base := apBase, flags := 7, length := 4096, gen := 1, srcId := 7, srcMask := 0xFFFFFF }
    let k := { write3 with flags := 12, addr := apBase + 16 }
    k.slotFill && preRefusal o k == none && decide (verdict o k = .pass) && slotsOf k.addr 8 == [0] &&
    ans (.inboundWrite 8 k) o (fun t => t.mem.full == [0] && peekN t (apBase + 16) 8 == 0x1122334455667788) &&
    (let s := { o with frame.live := true, frame.aborted := true }
     decide (verdict s k = .pass) && ans (.inboundWrite 8 k) s (fun t => t.mem.full == []))) = true := by
  decide +kernel

/-- A REDUCE_WRITE of two FP32 ones. -/
def reduce3 : Packet := { write3 with typ := 3, elemFmt := 10, payload := leBytes 4 0x3F800000 ++ leBytes 4 0x3F800000 }

theorem test_inbound_reduce : (reduce3.wf && preRefusal opened reduce3 == none && decide (verdict opened reduce3 = .pass) &&
    ans (.inboundReduceWrite 8 reduce3) (poke opened 0x8010 (leBytes 4 0x40000000)) (fun t =>
      peekN t 0x8010 4 == 0x40400000 && peekN t 0x8014 4 == 0x3F800000)) = true := by decide +kernel

/-- A READ of four bytes. -/
def read3 : Packet := { write3 with typ := 2, length := 4, payload := [] }

theorem test_inbound_read : (read3.wf && !read3.resp && preRefusal opened read3 == none && decide (verdict opened read3 = .pass) &&
    routeOf opened 7 == some (some 8) &&
    ans (.inboundRead 8 read3) (poke opened 0x8010 [1, 2, 3, 4]) (fun t =>
      (match (port t 8).queue with
       | [w] => (match takePacket w.bytes with | some r => r.1.payload == [1, 2, 3, 4] && r.1.resp && r.1.dst == 7 | none => false)
       | _ => false))) = true := by decide +kernel

theorem test_refused_packets : (decide (verdict opened { write3 with gen := 2 } = .refuse 0x0A) &&
    ans (.inboundWrite 8 { write3 with gen := 2 }) opened (fun t => t.mem == opened.mem && (port t 8).queue.length == 1) &&
    decide (verdict opened { write3 with addr := 0x9010 } = .refuse 0x09) &&
    ans (.inboundWrite 8 { write3 with addr := 0x9010 }) opened (fun t => t.mem == opened.mem && t.flt.seq == 1)) = true := by decide +kernel

/-- The part in a running frame with window 3 for SCHEDULED packets. -/
def scheduled : State := setWindow running 3 { isOpen := true, base := 0x8000, flags := 7, length := 4096, gen := 1, srcId := 7, srcMask := 0xFFFFFF }

theorem test_scheduled_packets : (decide (verdict scheduled { write3 with cls := 0, frame := 13 } = .hold) &&
    ans (.inboundWrite 8 { write3 with cls := 0, frame := 13 }) scheduled (fun t => t.fab.holdNext.length == 1 && t.mem == scheduled.mem) &&
    (match verdict scheduled { write3 with cls := 0, frame := 11 } with | .late _ _ => true | _ => false) &&
    ans (.inboundWrite 8 { write3 with cls := 0, frame := 11 }) scheduled (fun t => t.mem == scheduled.mem)) = true := by decide +kernel

theorem test_routers : (!write3.neighbour && preRefusal up { write3 with dst := 7 } == none && routeOf up 7 == some (some 8) &&
    ans (.packetForward 0 { write3 with dst := 7 }) up (fun t => (port t 8).queue.length == 1 && (port t 0).queue.length == 0) &&
    !Packet.malformed { pkt0 with dst := 0xFFFFFF, flags := 8, payload := leBytes 32 1 } &&
    ans (.broadcastReceive 0 { pkt0 with dst := 0xFFFFFF, flags := 8, payload := leBytes 32 1 }) { up with glob.bcast0 := 0x101 } (fun t =>
      t.fab.selfBox.length == 1 && (port t 8).queue.length == 1 && (port t 0).queue.length == 0)) = true := by decide +kernel

/-- The partner of port 8 has no REDUCE_WRITE: it is answered for here. -/
theorem test_no_reduce : (noReduce up 8 &&
    (let s := { up with fab.routes := up.fab.routes ++ [{ value := 9, mask := 0xFFFFFF, port := 8, alt := 0xFF, flags := 1 }] }
     routeOf s 9 == some (some 8) && noReduce s 8 && preRefusal s { reduce3 with dst := 9 } == none &&
     ans (.packetForward 0 { reduce3 with dst := 9 }) s (fun t =>
       (match (port t 8).queue with
        | [w] => (match takePacket w.bytes with | some r => r.1.resp && r.1.status == 0x11 && r.1.dst == 7 | none => false)
        | _ => false)))) = true := by decide +kernel

/-- A packet of a transfer of this device, and the transfer. -/
def sent : Packet := { write3 with dst := 7, src := 5, tag := 6, window := 2 }
/-- The transfer. -/
def xfer1 : Transfer := { tag := 6, dst := 7, window := 2, cls := 1, pkts := [{ pkt := sent }] }
/-- The part with that transfer under way. -/
def sending : State := { up with fab.xfers := [xfer1] }
/-- An answer to it. -/
def answer (status : Nat) : Packet := { sent with flags := 9, dst := 5, src := 7, status := status, length := 0, payload := [] }

theorem test_answers : ((answer 0).wf && (answer 0).resp && isXfer sending (answer 0) xfer1 && !(answer 0).resend &&
    ans (.responseOk 8 (answer 0)) sending (fun t => t.fab.xfers.all (fun y => y.pkts.isEmpty)) &&
    !Transfer.gone xfer1 &&
    ans (.responseBusy 8 (answer 0x19)) sending (fun t => t.fab.xfers.any (fun y => y.pkts.any (fun u => u.busy))) &&
    ans (.responseLateData 8 (answer 0x18)) sending (fun t => t.fab.xfers.all (fun y => y.pkts.isEmpty)) &&
    isXfer { up with fab.xfers := [{ xfer1 with reads := true }] } { answer 0 with typ := 2, length := 4, payload := [1, 2, 3, 4] } { xfer1 with reads := true } &&
    ans (.readResponseReceive 8 { answer 0 with typ := 2, length := 4, payload := [1, 2, 3, 4] })
      { up with fab.xfers := [{ xfer1 with reads := true }] } (fun t => t.fab.xfers.any (fun y => y.got == [(0x8010, [1, 2, 3, 4])])) &&
    refusalCode 9 && !ckptXfer xfer1 &&
    ans (.responseRefusal 8 (answer 9)) sending (fun t => t.fab.xfers.isEmpty)) = true := by decide +kernel

/-- A firmware move that is refused has its record, a stroke's aborts its frame, and a packet that waits keeps its transfer. -/
theorem test_refusals : (let f := { xfer1 with idx := 1 }
    let k := { xfer1 with folio := some 0 }
    !ckptXfer f && isXfer sending (answer 9) f && isXfer sending (answer 9) k &&
    isXfer sending (answer 0x0B) f && ans (.responseRefusal 8 (answer 9)) { up with fab.xfers := [f] } (fun t => t.fab.xfers.isEmpty && t.flt.seq == 0) &&
    ans (.responseRefusal 8 (answer 0x0B)) { up with fab.xfers := [f] } (fun t => t.fab.xfers.isEmpty && t.flt.seq == 1 && rd t.flt.last 0 1 == 0x0B) &&
    ans (.responseRefusal 8 (answer 9)) { running with fab.xfers := [k] } (fun t => t.fab.xfers.isEmpty && t.frame.aborted && t.train.waiting.isSome) &&
    ans (.responseOk 8 (answer 0)) { up with fab.xfers := [{ xfer1 with pkts := [{ pkt := sent }, { pkt := sent, busy := true }] }] } (fun t =>
      t.fab.xfers.map (fun y => y.pkts.map (fun u => u.busy)) == [[true]])) = true := by decide +kernel

theorem test_resends : (routeOf sending 7 == some (some 8) &&
    ans (.busyResend 6 0x8010) { up with fab.xfers := [{ xfer1 with pkts := [{ pkt := { sent with frame := 0 }, busy := true }] }] } (fun t => (port t 8).queue.length == 1) &&
    ans (.slotFillSend 6) { up with fab.xfers := [{ xfer1 with pkts := [{ pkt := sent, held := true }] }] } (fun t =>
      (port t 8).queue.length == 1 && t.fab.xfers.any (fun y => y.pkts.any (fun u => !u.held)))) = true := by decide +kernel

theorem test_window_query : (portUp opened 8 &&
    ans (.windowCtrlQuery 8 { pkt0 with typ := 4, flags := 2, payload := leBytes 32 0x0301 }) opened (fun t => (port t 8).queue.length == 1) &&
    ans (.windowCtrlState 8 { pkt0 with typ := 4, flags := 2, payload := leBytes 32 0x0302 }) opened (fun t => t.fab.windows == opened.fab.windows) &&
    !acceptsMsg up 7 1 0 0 &&
    ans (.mgmtMessageRefuse 8 { pkt0 with payload := leBytes 32 1 }) up (fun t => (port t 8).queue.length == 1 && t.flt == up.flt)) = true := by
  decide +kernel

/-! ### Lanes and flits -/

/-- A capability page of device 7 for rate 1 that echoes `echo`. -/
def page (echo : Nat) : List Byte :=
  let b := leBytes 2 0x5244 ++ leBytes 1 7 ++ leBytes 1 echo ++ leBytes 9 0 ++ leBytes 3 7 ++ leBytes 44 0
  b ++ leBytes 4 (crc32c b)

/-- The part with lane 16 exchanging pages, its own number 3. -/
def paging : State := setLane up 16 { state := 1, pageSeq := 3 }

theorem test_pages : ((page 3).length == 64 && rd (page 3) 60 4 == crc32c ((page 3).take 60) && rd (page 3) 0 2 == 0x5244 &&
    rd (page 3) 3 1 == 3 && (lane paging 16).state == 1 &&
    ans (.capabilityPageReceive 16 (page 3)) paging (fun t => (lane t 16).state == 4 && (lane t 16).reason != 0 && (lane t 16).partner == 7) &&
    gives (.capabilityPageReceive 16 (leBytes 64 1)) paging paging) = true := by decide +kernel

/-- A page of one lane at 100 Gbit/s and below with the plain code. -/
def goodPage (rates : Nat) : List Byte :=
  let b := leBytes 2 0x5244 ++ leBytes 1 7 ++ leBytes 1 3 ++ leBytes 2 1 ++ leBytes 1 rates ++ leBytes 1 3 ++ leBytes 4 0 ++ leBytes 1 1 ++
    leBytes 3 7 ++ leBytes 8 0 ++ leBytes 8 99 ++ leBytes 28 0
  b ++ leBytes 4 (crc32c b)

/-- The two sides agree on 100 Gbit/s; where it was the only common rate and has failed, the port waits. -/
theorem test_pages_agree : (mismatch paging 16 (goodPage 3) == 0 &&
    ans (.capabilityPageReceive 16 (goodPage 3)) paging (fun t => (lane t 16).state == 2 && (lane t 16).rate == 2 && (lane t 16).partner == 7) &&
    (let s := setPort paging 16 { removed := 2 }
     mismatch s 16 (goodPage 2) == 4 && ratesWith s 16 (goodPage 2) == 0 && ratesWith paging 16 (goodPage 2) != 0 &&
     ans (.capabilityPageReceive 16 (goodPage 2)) s (fun t => (lane t 16).state == 5 && (port t 16).removed == 0))) = true := by
  decide +kernel

/-- Lane 16 in training at rate 1. -/
def training : State := setLane up 16 { state := 2, rate := 1, common := 3 }

theorem test_lane_training : (!(link training 16).quality && lanesOf training 16 == [16] && domOn training (112 + 2) &&
    ans (.laneTrainingDone 16 true) training (fun t => (lane t 16).inverted && (link t 16).quality) &&
    ans (.laneQualityCheck 16 1 10000) (setLink training 16 { quality := true }) (fun t => (lane t 16).state == 3) &&
    ans (.laneTrainingTimeout 16) training (fun t => (lane t 16).state == 1 && (lane t 16).rate == 0) &&
    ans (.laneTrainingTimeout 16) (setLane up 16 { state := 2, rate := 1, common := 1 }) (fun t => (lane t 16).state == 5) &&
    ans (.laneWaitRestart 16) (setLane up 16 { state := 5 }) (fun t => (lane t 16).state == 1 && (lane t 16).pageSeq == 1) &&
    ans (.codewordLock 16 256 8) (setLane up 16 { state := 2, rate := 4 }) (fun t => (link t 16).locked)) = true := by decide +kernel

theorem test_lanes_down : ((lane up 8).state == 3 && domOn up 113 && mayRetrain up 8 &&
    ans (.laneSilenceDown 8) up (fun t => (lane t 8).state == 1 && rd t.flt.last 0 1 == 0x0C) &&
    ans (.linkDisable 8) up (fun t => (lane t 8).state == 0 && (lane t 8).disable) &&
    ans (.linkRetrain 8) up (fun t => (lane t 8).state == 1) &&
    ans (.linkCtrlWrite 8 4) up (fun t => (lane t 8).bootServe)) = true := by decide +kernel

/-- A port of one lane whose partner has given a credit of BULK, and a packet of 32 bytes that waits there. -/
def oneWaits : State :=
  setPort (setLink up 8 { credits := [0, 1, 0] }) 8 { queue := [⟨1, 1, leBytes 32 0x2101⟩] }

theorem test_flit_slot_packet : (!laneStill oneWaits 8 && (link oneWaits 8).replay == [] && portOf oneWaits 8 == 8 && lanesOf oneWaits 8 == [8] &&
    laneUp oneWaits 8 && (port oneWaits 8).cur == [] && rd (leBytes 32 0x2101) 0 1 != 5 && nth3 (link oneWaits 8).credits 1 == 1 &&
    ans (.flitSlot 8) oneWaits (fun t =>
      (match t.out.flits with | [(8, f)] => rd f 0 2 == 4096 && slice f 8 32 == leBytes 32 0x2101 | _ => false) &&
      (port t 8).queue.isEmpty && (port t 8).cur.isEmpty && (link t 8).credits == [0, 0, 0])) = true := by decide +kernel

theorem test_flit_slot : (ans (.flitSlot 8) up (fun t =>
      (match t.out.flits with | [(8, f)] => f.length == 256 && rd f 252 4 == crc32c (f.take 252) | _ => false) && (link t 8).slot == 1) &&
    ans (.flitSlot 8) (setLink up 8 { retry := [⟨5, 1, []⟩, ⟨6, 1, []⟩], replay := [5, 6] }) (fun t => (link t 8).replay == [6]) &&
    ans (.nakReceive 8 5) (setLink up 8 { retry := [⟨5, 1, []⟩, ⟨6, 1, []⟩] }) (fun t => (link t 8).replay == [6])) = true := by decide +kernel

/-- A flit with a word 0 and the right CRC. -/
def flit (w : Nat) : List Byte := let b := leBytes 252 w; b ++ leBytes 4 (crc32c b)

/-- A link layer that has decoded the codewords of five equal flits, of which the fourth is to come. -/
def heard (l : LinkLayer) (f : List Byte) : LinkLayer := { l with rxWords := (flitSymbols (f ++ f ++ f ++ f ++ f)).map some }

/-- The link layer of lane 8 after the fourth flit. -/
def after (l : LinkLayer) (f : List Byte) : LinkLayer :=
  match exec (.flitReceive 8 3 [] []) (setLink up 8 (heard l f)) with | .next t => link t 8 | _ => {}

theorem test_flit_reads : ((flit 0).length == 256 && (lane up 8).rate == 1 && wordsFlit (heard {} (flit 0)).rxWords 3 == flit 0 &&
    !wordsBad (heard {} (flit 0)).rxWords 3) = true := by decide +kernel

theorem test_flit_crc : ((after {} (leBytes 256 1)).nak && (after {} (leBytes 256 1)).rxRetry && (after {} (leBytes 256 1)).rxNext == 0 &&
    (after { rxRetry := true } (leBytes 256 1)).nak) = true := by decide +kernel

theorem test_flit_credits : (!(rd (flit (2 ^ 32 * 0x010203)) 2 2).testBit 13 &&
    (after { credits := [0, 63, 16] } (flit (2 ^ 32 * 0x010203))).credits == [3, 64, 16]) = true := by decide +kernel

theorem test_flit_order : ((after {} (flit 4096)).rxNext == 1 && (after {} (flit 4097)).rxNext == 0 && (after {} (flit 4097)).nak &&
    !(after { rxRetry := true } (flit 4097)).nak && (after {} (flit 8192)).nak) = true := by decide +kernel

theorem test_flit_undecoded : (ans (.flitReceive 8 0 [[]] []) up (fun t =>
    (link t 8).nak && (link t 8).rxRetry && (link t 8).rxWords == [none] && (link t 8).rxNext == 0)) = true := by decide +kernel

/-! ### Boot, the mailbox, live update -/

/-- A flash whose directory fails its check, and one whose PUF helper does. -/
def flash0 : Flash := { Flash.factory with dir := Flash.factoryDir.set 8 0 }
def flash1 : Flash := { Flash.factory with pufHelper := ([1], Flash.factory.pufHelper.2) }

theorem test_cold_start : (State.reset.pins.sysReset && dirOk Flash.factory && pufGood Flash.factory &&
    flashArea Flash.factory 0x12 == some (0x30000, 0x20000) && !dirOk flash0 && dirOk flash1 && !pufGood flash1 &&
    ans (.coldStart 0 1 2 true (some flash0)) State.reset (fun t =>
      t.glob.faultState && !alive t && t.pins.bootSrc == 0 && t.pins.flashMode == 1 && t.pins.i3cAddr == 2 && (dom t 131).state == 2) &&
    ans (.coldStart 0 1 2 true (some flash1)) State.reset (fun t => t.glob.faultState && t.flash == flash1 && (dom t 128).state == 0) &&
    ans (.coldStart 0 1 2 false none) State.reset (fun t => t.glob.faultState && t.flash == State.reset.flash) &&
    (let t := openSource (coldBoot (strapsSampled State.reset 0 1 2 Flash.factory) Flash.factory 25)
     alive t && t.pins.vid == 9 && t.boot.phase == 1 && t.glob.deviceId == 0xFFFFFF && (folio t 16).state == 1 && (folio t 67).state == 1 &&
      (folio t 0).state == 0 && (dom t 128).state == 2 && !t.scan.available) &&
    gives (.coldStart 0 1 2 true none) up up) = true := by
  decide +kernel

/-- A part in the ROM's hands. -/
def booting : State := { up with glob.jobState := 0, boot.phase := 1 }

theorem test_rom_refuses : (checkImage booting (hostPeek booting 0x8000 64) 64 true).isSome = true ∧
    gives (.loadImage { hdr with owner := 0 } 0x8000 64) booting (complete booting { hdr with owner := 0 } 0x11
      ((checkImage booting (hostPeek booting 0x8000 64) 64 true).getD 0 + 2 ^ 63)) = true := by decide +kernel

/-- Four images, with versions only. -/
def images : Tbl Image := (List.range 4).map (fun k => (k, leBytes 12 0 ++ leBytes 4 1 ++ leBytes 112 0))

/-- The same part with every cluster core started. -/
def started : State := { booting with folios.phys := (List.range 68).map (fun n => (n, { Folio.dflt n with started := true })) }

theorem test_boot_phases : (ans .securityImageStart { booting with boot.held := images } (fun t => t.boot.phase == 2 && t.boot.coresUp == [0]) &&
    boardOf booting.flash == none) = true := by decide +kernel

theorem test_power_core_ready : (ans (.coreReady 1 true) { booting with boot.phase := 2 } (fun t => t.boot.phase == 3 && (dom t 128).votes.testBit 4)) = true := by
  decide +kernel

theorem test_scheduler_core_ready : (ans (.coreReady 2 true) { booting with boot.phase := 3 } (fun t => t.boot.phase == 4)) = true := by decide +kernel

theorem test_cluster_starts : (ans (.coreReady 70 true) { booting with boot.phase := 4 } (fun t => (folio t 67).started) &&
    ans (.clusterStartTimeout 5) { booting with boot.phase := 4 } (fun t => (folio t 5).state == 3 && [t.flash.repair.1, t.flash.repair.2].any (fun h => h.any (fun x => x.val.quarantined == [5])))) = true := by
  decide +kernel

theorem test_boot_completes : (ans .bootComplete { started with boot.phase := 4, boot.running := images } (fun t =>
      t.glob.jobState == 1 && t.boot.phase == 6 && t.glob.floorRebuilt)) = true := by decide +kernel

/-- The part with lane 8 serving images. -/
def serving : State := { setLane up 8 { state := 3, rate := 1, bootServe := true } with boot.running := images }

/-- A part that boots through port 8. -/
def chained : State := { booting with pins.bootSrc := 1, boot.bootPort := 8, boot.helloDue := true }

theorem test_chain_boot : (portUp chained 8 && ans .chainBootHello chained (fun t => (port t 8).queue.length == 1) &&
    ans (.chainBootHelloReceive 8 (leBytes 32 0x20)) serving (fun t => (tget t.serve 8 {}).active && (tget t.serve 8 {}).core == 0) &&
    gives (.chainBootHelloReceive 8 (leBytes 32 0x20)) up up &&
    ans (.chainBootAckReceive 8 (leBytes 16 0x02000022)) { serving with serve := [(8, { active := true })] } (fun t => !(tget t.serve 8 {}).active) &&
    ans (.chainBootData 8 7 (leBytes 1 0x21 ++ leBytes 7 0 ++ leBytes 8 16 ++ leBytes 16 5)) chained (fun t =>
      t.boot.server == some 7 && t.boot.rxBytes == leBytes 16 5)) = true := by decide +kernel

/-- A mailbox request of session 9. -/
def request (arg : Nat) : List Byte := leBytes 8 9 ++ leBytes 1 arg ++ leBytes 55 0 ++ leBytes 64 3 ++ List.replicate 3968 0

theorem test_mailbox : ((request 1).length == 4096 && !mbRefused claimed && zeros (request 1) 9 55 && claimed.act == none &&
    zeros (List.replicate 4096 0) 8 56 && zeros (List.replicate 4096 0) 8 24 && claimed.boot.floors.length == 4 &&
    ans (.challenge (List.replicate 4096 0)) claimed (fun t => t.mb.status == 2 && t.mb.result == 0 && t.mb.challenge.isSome) &&
    ans (.raiseFloor (request 1)) claimed (fun t => t.mb.result == 0) &&
    ans (.enrollOwner (request 1)) claimed (fun t => t.mb.result == 0 && t.boot.ownerKey == leBytes 64 3 && t.boot.rootAllowed) &&
    ans (.raiseFloor (List.replicate 4096 0)) claimed (fun t => t.mb.result == 0x12)) = true := by decide +kernel

/-- A write of SECMB_CMD makes the mailbox BUSY with its command; another one is ignored, and that one answers. -/
theorem test_mailbox_busy : (let b := { claimed with mb.status := 1, mb.cmd := 2, mb.runBuf := 0x9000 }
    hostReady claimed && claimed.mb.status != 1 &&
    ans (.registerWrite .bar0 0x30008 4 2) { claimed with mb.buf := 0x9000 } (fun t => t.mb.status == 1 && t.mb.cmd == 2 && t.mb.runBuf == 0x9000) &&
    ans (.attest (List.replicate 4096 0)) b (fun t => t.mb.status == 1 && t.mb.ignored == 1) &&
    zeros (hostPeek b 0x9000 4096) 8 56) = true := by decide +kernel

theorem test_replace_owner_needs_a_challenge : (claimed.mb.challenge == none &&
    ans (.replaceOwner (request 1)) claimed (fun t => t.mb.result == 0x11 && t.boot == claimed.boot)) = true := by decide +kernel

/-! ### Descriptors, the session and the job -/

theorem test_completion : (decide (RoomFor up hdr) && hdr.wf &&
    (let t := complete up hdr 0x19 7
     rd (hostPeek t 0x1000 32) 0 1 == 1 && rd (hostPeek t 0x1000 32) 1 1 == 0x19 && rd (hostPeek t 0x1000 32) 2 1 == 1 &&
     rd (hostPeek t 0x1000 32) 4 4 == 3 && rd (hostPeek t 0x1000 32) 24 8 == 7 && (cq t 0).tail == 1)) = true := by decide +kernel

theorem test_gates : (gives (.jobPause { hdr with flags := 4 } 1) claimed (complete claimed { hdr with flags := 4 } 0x11 1) &&
    gives (.jobPause { hdr with cq := 4 } 1) claimed (complete claimed { hdr with cq := 4 } 0x11 2) &&
    gives (.stepBegin hdr 1 0) { claimed with glob.jobState := 0 } (complete { claimed with glob.jobState := 0 } hdr 0x19 0) &&
    gives (.jobEnd { hdr with owner := 8 }) claimed (complete claimed { hdr with owner := 8 } 0x12 0) &&
    gives (.jobEnd hdr) { claimed with job.restricted := true } (complete { claimed with job.restricted := true } hdr 0x13 0) &&
    gives (.checkpointOnce hdr) up (complete up hdr 0x19 0)) = true := by decide +kernel

/-- No descriptor is taken over a degraded link, nor while the scheduler core switches. -/
theorem test_gates_closed : (let d := { claimed with pcie.rate := 3 }
    let u := { claimed with act := some { core := 2, folio := 0, stage := 4 } }
    degraded d && coreSwitching u 2 && gives (.jobEnd hdr) d d && gives (.jobEnd hdr) u u &&
    gives (.descriptorFetch true) d d && gives (.descriptorFetch true) { claimed with pcie.busMaster := false } { claimed with pcie.busMaster := false }) = true := by
  decide +kernel

/-- Ring 2 holds one RELEASE. -/
def posted : State := { claimed with rings.sq := [(2, { base := 0x4000, en := true, tail := 1 })],
                                      hostMem := writeBytes [] 0x4000 (leBytes 4 0x11 ++ leBytes 4 77 ++ leBytes 8 9) }

theorem test_fetch : (!fetchBlocked posted && ((List.range 16).find? (mayFetch posted)) == some 2 &&
    ans (.descriptorFetch true) posted (fun t => t.glob.jobState == 1 && (sq t 2).head == 1 && t.rings.turn == 3 &&
      rd (hostPeek t 0x1020 32) 4 4 == 77 && rd (hostPeek t 0x1020 32) 3 1 == 2 && rd (hostPeek t 0x1020 32) 1 1 == 0) &&
    gives (.descriptorFetch false) { posted with rings.fetchFailed := some 2 } posted &&
    gives (.descriptorFetch true) { posted with pcie.up := false } { posted with pcie.up := false } &&
    ans (.descriptorFetch true) { posted with hostMem := writeBytes [] 0x4000 (leBytes 4 0x12 ++ leBytes 4 77 ++ leBytes 8 9) }
      (fun t => t.glob.jobState == 2 && rd (hostPeek t 0x1000 32) 1 1 == 0x11)) = true := by decide +kernel

theorem test_session : (ans (.claim hdr 0 0 0) up (fun t => t.glob.jobState == 2 && t.job.session == 9) &&
    ans (.claim hdr 0 0 0) { running with glob.jobState := 6, job.savedState := 4 } (fun t => t.glob.jobState == 4 && t.job.step == 20) &&
    gives (.claim { hdr with owner := 8 } 0 0 1) claimed (complete claimed { hdr with owner := 8 } 0x12 0) &&
    ans (.release hdr 0) { claimed with rings.held := [⟨hdr, .snapshot, false⟩] } (fun t => t.glob.jobState == 1 && t.rings.held == [] &&
      (cq t 0).tail == 3)) = true := by decide +kernel

/-- A Ductus of id 7 without strokes, at 0x10000, for a frame of 4,000 ns: its header and its Folio table. The digest is SM3 of
the header and the table (Table 2.2). -/
def emptyDuctus : List Byte :=
  leBytes 4 0x54435544 ++ leBytes 4 0x10007 ++ leBytes 4 4000 ++ leBytes 4 240 ++ leBytes 4 0 ++ leBytes 4 100 ++ leBytes 8 0 ++
  leBytes 2 0 ++ leBytes 2 1 ++ leBytes 2 7 ++ leBytes 2 0 ++ leBytes 8 0x10080 ++ leBytes 8 0x10480 ++ leBytes 8 0x10480
def emptyDigest : List Byte := [0x64, 0x01, 0x58, 0x8e, 0xca, 0xa9, 0xc8, 0x03, 0xea, 0xd7, 0x1c, 0x63, 0x8c, 0x92, 0xe7, 0xe6, 0xd0, 0xaa, 0x8c, 0xee, 0xde, 0x10, 0x93, 0x4c, 0xd6, 0xbb, 0x2d, 0x4b, 0xd5, 0x15, 0xed, 0x98]

/-- The bytes of that Ductus that are not zero, at 0x5000. -/
def ductusCells : List Host.Cell :=
  [(20480, 68), (20481, 85), (20482, 67), (20483, 84), (20484, 7), (20486, 1), (20488, 160), (20489, 15), (20492, 240),
   (20500, 100), (20514, 1), (20516, 7), (20520, 128), (20522, 1), (20528, 128), (20529, 4), (20530, 1), (20536, 128), (20537,
   4), (20538, 1), (20544, 100), (20545, 1), (20546, 88), (20547, 142), (20548, 202), (20549, 169), (20550, 200), (20551, 3),
   (20552, 234), (20553, 215), (20554, 28), (20555, 99), (20556, 140), (20557, 146), (20558, 231), (20559, 230), (20560, 208),
   (20561, 170), (20562, 140), (20563, 238), (20564, 222), (20565, 16), (20566, 147), (20567, 76), (20568, 214), (20569, 187),
   (20570, 45), (20571, 75), (20572, 213), (20573, 21), (20574, 237), (20575, 152)]

theorem test_ductus_cells : (writeBytes [] 0x5000 (emptyDuctus ++ emptyDigest) == ductusCells) = true := by decide +kernel

/-- The part of a session whose host holds that Ductus at 0x5000. -/
def loading : State := { claimed with time.period := 4000, hostMem := ductusCells }

/-- The same part with the Ductus copied to 0x10000. -/
def copied : State := { loading with mem.cells := ductusCells.map (fun c => (c.1 - 0x5000 + 0x10000, c.2)) }

theorem test_load_ductus_copies : (decide (Admitted loading hdr) && installed loading 0x10000 1152 && loading.mem.bad.isEmpty &&
    (store loading 0x10000 (hostPeek loading 0x5000 1152) == copied)) = true := by decide +kernel

/-- That Ductus passes the load check. -/
theorem test_load_ductus : (loadCheck copied { id := 7, addr := 0x10000, bytes := 1152 } (fbInForce copied) (wellInForce copied) == 0) = true := by
  decide +kernel

theorem test_load_ductus_rejected : (ans (.loadDuctus hdr 0x5000 64 0x10000) loading (fun t =>
      t.ductus.isEmpty && rd t.flt.last 0 1 == 0x11 && peekN t 0x10004 2 == 7)) = true := by decide +kernel

/-- A job block at 0x6000, for the Ductus 7: one device, one region. -/
def jobBlock : List Byte :=
  leBytes 4 0x4A424F4A ++ leBytes 2 3 ++ leBytes 2 1 ++ leBytes 8 0 ++ leBytes 4 0 ++ leBytes 4 4000 ++ leBytes 8 50 ++ leBytes 4 20 ++
  leBytes 4 2 ++ leBytes 2 7 ++ leBytes 2 0xFF00 ++ leBytes 8 (2 ^ 64 - 1) ++ leBytes 4 0xFFFF ++ leBytes 4 0 ++ leBytes 2 1 ++
  leBytes 2 1 ++ leBytes 8 lpBase ++ leBytes 16 0 ++ leBytes 8 0 ++ leBytes 8 1 ++ leBytes 8 0x100000 ++ leBytes 4 256 ++ leBytes 4 0 ++ leBytes 4 256 ++
  leBytes 4 512 ++ leBytes 128 0 ++ leBytes 4 5

def starting : State := { claimed with hostMem := writeBytes [] 0x6000 jobBlock, ductus := [{ id := 7, addr := 0x10000, bytes := 1152 }],
                                        mem.cells := writeBytes [] 0x10000 emptyDuctus, mem.lpChannels := 1, mem.lpGib := 1 }


theorem test_job_start : (decide (Admitted starting hdr) && starting.folios.short == none &&
    jobBlockBad starting 0x6000 200000 == none && (readBlock starting 0x6000).devices == [5] &&
    jobBlockBad starting 0x6000 255 == some (0x11, 0) &&
    gives (.jobStart hdr 0x6000 255) starting (complete starting hdr 0x11 0)) = true := by decide +kernel

/-- A die that was short of Folios at the cold start: its job is refused with FOLIO_FAILED. -/
theorem test_job_start_short : (let s := { starting with folios.short := some 2 }
    decide (Admitted s hdr) && ans (.jobStart hdr 0x6000 200000) s (fun t =>
      t.glob.jobState == 2 && rd t.flt.last 0 1 == 0x15 && rd (hostPeek t 0x1000 32) 1 1 == 0x15)) = true := by decide +kernel

def param0 : ParamWrite := { group := 2, fields := 1, target := 20, lr := 0x3F800000, beta1 := 0, beta2 := 0, eps := 0, wd := 0 }

/-- The job paused, so that no frame runs. -/
def paused : State := { running with glob.jobState := 5, frame := {}, glob.paramTable := 0x20000,
                                      hostMem := writeBytes [] 0x7000 (leBytes 8 11) }

theorem test_job_descriptors : (decide (Admitted paused hdr) && decide (Admitted running hdr) && param0.wf && paramBad param0 == none &&
    heldCount paused == 0 && heldCount running == 0 && installed paused 0x30000 64 &&
    ans (.stepBegin hdr 30 4) paused (fun t => t.job.step == 30 && t.job.allowance == some 4) &&
    ans (.paramWrite hdr param0) paused (fun t => peekN t 0x20040 4 == 0x3F800000 && peekN t 0x20058 4 == 20) &&
    ans (.shapeCellWrite hdr 0x30000 0x7000) paused (fun t => peekN t 0x30000 8 == 11) &&
    ans (.stepBegin hdr 30 0) running (fun t => t.rings.held == [⟨hdr, .stepBegin 30 0, false⟩]) &&
    ans (.paramWrite hdr param0) running (fun t => t.job.params == [⟨hdr, .param param0, false⟩]) &&
    gives (.paramWrite hdr { param0 with target := 19 }) running (complete running hdr 0x18 0) &&
    ans (.checkpointInterval hdr 6) running (fun t => t.job.blk.ckptInterval == 6) &&
    ans (.checkpointOnce hdr) running (fun t => t.rings.held == [⟨hdr, .ckptOnce none, false⟩])) = true := by decide +kernel

theorem test_pause_resume_end : (ans (.jobPause hdr 21) running (fun t => t.rings.held == [⟨hdr, .pause 21, false⟩]) &&
    gives (.jobPause hdr 20) running (complete running hdr 0x18 0) && gives (.jobResume hdr 40) running (complete running hdr 0x19 0) &&
    ans (.jobEnd hdr) running (fun t => t.rings.held == [⟨hdr, .jobEnd, false⟩]) &&
    gives (.jobResume hdr 0) paused (complete paused hdr 0x18 0) && laterFrame 40 (currentFrame paused) &&
    ans (.jobResume hdr 40) paused (fun t => t.rings.held == [⟨hdr, .resume 40, false⟩]) &&
    ans (.jobEnd hdr) { paused with rings.held := [⟨hdr, .pause 5, false⟩] } (fun t => t.glob.jobState == 2 && t.rings.held == [] &&
      t.job.session == 9 && t.job.blk == {} && !t.frame.live)) = true := by decide +kernel

/-- A window entry over 4,096 bytes at 0x40000, for reads and writes of any device. -/
def entry0 : List Byte := leBytes 7 0x40000 ++ leBytes 1 3 ++ leBytes 6 4096 ++ leBytes 2 1 ++ leBytes 16 0

theorem test_windows : (entry0.length == 32 && windowBad entry0 == none && installed claimed (windowOf entry0).base (windowOf entry0).length &&
    ans (.openWindow hdr 4 entry0) claimed (fun t => (window t 4).isOpen && (window t 4).base == 0x40000 && t.job.opened == [4]) &&
    ans (.closeWindow hdr 4) (setWindow claimed 4 { isOpen := true }) (fun t => !(window t 4).isOpen && (window t 4).closing &&
      t.rings.held == [⟨hdr, .closing 4, false⟩]) &&
    ans (.openWindow hdr 4 entry0) running (fun t => t.rings.held == [⟨hdr, .openWindow 4 entry0, false⟩]) &&
    ans (.closeWindow hdr 4) running (fun t => t.rings.held == [⟨hdr, .closeWindow 4, false⟩]) &&
    ans (.windowCloseDone 4) { setWindow claimed 4 { closing := true } with rings.held := [⟨hdr, .closing 4, false⟩] } (fun t =>
      !(window t 4).closing && t.rings.held == [] && (cq t 0).tail == 1) &&
    ans .windowPhase { setWindow running 4 { isOpen := true } with rings.held := [⟨hdr, .closeWindow 4, false⟩], frame.seam := true, frame.phase := 2 } (fun t =>
      !(window t 4).isOpen && t.rings.held == [⟨hdr, .closing 4, false⟩] && t.frame.phase == 3)) = true := by decide +kernel


theorem test_supervisor_descriptors : (gives (.counterSnapshot hdr) claimed (complete (capture claimed false true) hdr 0 0) &&
    ans (.counterSnapshot hdr) running (fun t => t.rings.held == [⟨hdr, .snapshot, false⟩]) &&
    ans (.testRequest hdr 3 60) { claimed with scan.available := true } (fun t => t.scan.due.map (fun x => x.folio) == [3] &&
      t.rings.held == [⟨hdr, .test 3, false⟩]) &&
    (match decodeMask claimed 0x50000 with | .error e => e.code == 0x11 | .ok _ => false) &&
    ans (.maskOp hdr 0x50000) claimed (fun t => rd (hostPeek t 0x1000 32) 1 1 == 0x11)) = true := by decide +kernel

/-! ### The frame -/

/-- Memory with these bytes at these addresses. -/
def mem (l : List (Nat × List Byte)) : List Host.Cell := l.foldl (fun c x => writeBytes c x.1 x.2) []

/-- The Ductus 7 at 0x1000: Folio 0 has one stroke, due at cycle 5, with one input slot and one output slot. -/
def ductus (cls op : Nat) : List (Nat × List Byte) :=
  [(0x1004, leBytes 2 7), (0x100C, leBytes 4 500), (0x1014, leBytes 4 200), (0x1018, leBytes 8 1), (0x1022, leBytes 2 1 ++ leBytes 2 7),
   (0x1028, leBytes 8 0x1080 ++ leBytes 8 0x1800 ++ leBytes 8 0x1700), (0x1080, leBytes 8 0x1600 ++ leBytes 4 1),
   (0x1600, leBytes 4 5 ++ leBytes 4 100 ++ leBytes 1 cls ++ leBytes 1 0 ++ leBytes 1 (if cls ≤ 2 then 1 else 0) ++ leBytes 5 0 ++ leBytes 8 op ++
     leBytes 4 0 ++ leBytes 2 1 ++ leBytes 2 1), (0x1700, leBytes 4 3 ++ leBytes 4 4), (0x1800, leBytes 1 8)]

/-- A job whose frames run that Ductus, before its stroke issues. -/
def framed (cls op : Nat) (l : List (Nat × List Byte)) : State :=
  { running with
    ductus := [{ id := 7, addr := 0x1000, bytes := 0x900 }], mem.cells := mem (ductus cls op ++ l), mem.full := [3], frame.current := some 7
    job.blk.firstDuctus := 7, frame.clock := 5, frame.seen := [3] }

/-- The same job with the stroke in progress, and with this of what it named. -/
def inProgress (cls op : Nat) (l : List (Nat × List Byte)) (dec : Decoded) : State :=
  { framed cls op l with
    frame.issued := [(0, 0)], frame.prog := [{ folio := 0, idx := 0, start := 5, budget := 100, cls := cls, at_ := 0, dec := dec }] }

/-- The issued stroke of a state, as its data work sees it. -/
def ctx0 (s : State) (cls : Nat) : Ctx :=
  (ctxOf s 0 0 cls).getD { l := 0, i := 0, p := 0, k := strokeOf [], run := { folio := 0, idx := 0, start := 0, budget := 0, cls := 0, at_ := 0 } }

/-- The stroke in progress, with what it decodes to. -/
def issued (cls op : Nat) (l : List (Nat × List Byte)) : State :=
  let s := inProgress cls op l .none
  inProgress cls op l (match decodeAt s (ctx0 s cls) with | .ok d => d | .error _ => .none)

theorem test_frame_tick : (ans .frameTick { running with frame.region := false, frame.seam := true, frame.phase := 7 } (fun t =>
      t.frame.region && !t.frame.seam && t.frame.number == 12) &&
    gives .frameTick running running &&
    (let s := { running with glob.jobState := 3, frame.live := false, frame.region := false }
     !laterFrame s.job.blk.startFrame (tickNumber s) && ans .frameTick s (fun t => t.glob.jobState == 4 && t.frame.live && t.frame.region)) &&
    ans .frameTick { claimed with time.period := 1000 } (fun t => !t.frame.live && t.frame.cycle == 0)) = true := by decide +kernel

theorem test_stroke_issue : (let s := framed 2 0 []
    let d : Loaded := { id := 7, addr := 0x1000, bytes := 0x900 }
    curDuctus s == some d && (dueNow s d).map (fun x => (x.1, x.2.1)) == [(0, 0)] && decide (s.frame.cycle < regionLen s + driftBound s) &&
    (holdOn s d (ctxFor s 0 0 (strokeAt s d 0 0))).isNone &&
    ans .strokeIssue s (fun t => t.frame.issued == [(0, 0)] && t.frame.clock == 6)) = true := by decide +kernel


/-- Once the seam is due the loop runs no cycle, and in a stalled cycle no stroke completes. -/
theorem test_seam_due : (let s := { framed 2 0 [] with frame.cycle := regionLen (framed 2 0 []) + driftBound (framed 2 0 []) }
    !seamDue (framed 2 0 []) && seamDue s && gives .strokeIssue s s &&
    (let b := { doneRun (issued 2 0 []) 0 0 with frame.seen := [3], frame.blocked := true }
     gives (.strokeComplete 0 0) b b)) = true := by decide +kernel

theorem test_stroke_waits : (let s := { framed 2 0 [] with frame.seen := [], mem.full := [] }
    ans .strokeIssue s (fun t => t.frame.issued == [] && t.frame.clock == 5 && t.frame.stall == 1 && t.frame.cycle == 1) &&
    ans .strokeIssue { s with frame.stall := 500 } (fun t => t.frame.exceeded && t.frame.cycle == 0)) = true := by decide +kernel

theorem test_stroke_completes : (let s := { doneRun (issued 2 0 []) 0 0 with frame.seen := [3] }
    ans (.strokeComplete 0 0) s (fun t => t.mem.full == [4] && t.frame.prog == [])) = true := by decide +kernel

theorem test_overrun : (let s := { issued 2 0 [] with frame.exceeded := true }
    ans .frameOverrun s (fun t => t.frame.aborted && t.frame.prog == s.frame.prog && t.train.waiting == some 12 && t.train.waitCode == 1) &&
    gives .frameOverrun running running) = true := by decide +kernel

/-- After the overrun the next cycle begins with no stroke in progress. -/
theorem test_overrun_ends : (match exec .frameOverrun { issued 2 0 [] with frame.exceeded := true, frame.stall := 501 } with
    | .next t => decide (margin t < t.frame.stall) && !seamDue t && gives (.strokeComplete 0 0) t t &&
        ans .strokeIssue t (fun u => u.frame.prog.isEmpty && u.frame.issued == [(0, 0)])
    | _ => false) = true := by decide +kernel

theorem test_refresh_slots : (ans (.stackRefreshSlot 48 [] []) running (fun t => t.frame.stkLeft == 48) &&
    ans (.lpRefreshSlot 112 []) running (fun t => t.frame.lpLeft == 112) &&
    gives (.stackRefreshSlot 48 [] []) { running with frame.cycle := 1 } { running with frame.cycle := 1 }) = true := by decide +kernel

theorem test_seam_start : (ans .seamStart running (fun t => t.frame.seam && !t.frame.region && !t.frame.aborted && t.flt == running.flt) &&
    ans .seamStart (issued 2 0 []) (fun t => t.frame.seam && t.frame.aborted && t.flt.region.length == 1)) = true := by decide +kernel

/-- A state in the seam, after phase `k`. -/
def inSeam (s : State) (k : Nat) : State := { s with frame.region := false, frame.seam := true, frame.phase := k }

theorem test_fault_collection : (let s := { inSeam running 1 with flt.region := [{ code := 1, seq := 8 }] }
    s.rings.fq.room && ans .faultCollection s (fun t => rd (hostPeek t 0x2000 64) 44 4 == 8 && t.rings.fq.tail == 1 && t.flt.region == []) &&
    gives .faultCollection running running) = true := by decide +kernel

theorem test_switch_and_tags : (let s := framed 2 0 []
    ans .ductusSwitch (inSeam s 3) (fun t => t.frame.current == some 7) &&
    ans .tagPhase (inSeam s 5) (fun t => t.mem.full == [3]) && (List.range 64).all (fun l => physOf s l != none) &&
    loadedOf s 7 != none) = true := by decide +kernel

theorem test_advance : (ans .frameAdvance (inSeam running 6) (fun t => t.frame.number == 13 && t.frame.phase == 7) &&
    gives .frameAdvance (inSeam running 7) (inSeam running 7)) = true := by decide +kernel

theorem test_step_boundary : (let s := { inSeam running 4 with job.optGroups := [2], glob.paramTable := 0x20000 }
    stepEnds s && !stepEnds { s with job.blk.stepFrames := 2 } &&
    ans .stepBoundary s (fun t => t.job.step == 21 && peekN t 0x20054 4 == 1 && t.glob.jobState == 4) &&
    ans .stepBoundary { s with rings.held := [⟨hdr, .pause 21, false⟩] } (fun t => t.job.step == 21 && t.glob.jobState == 5) &&
    ans .stepBoundary { s with job.blk.stepFrames := 2 } (fun t => t.job.step == 20 && t.frame.phase == 5)) = true := by decide +kernel

/-! ### The data work of a stroke -/

/-- A tensor of rank 1: `n` elements side by side. -/
def tensor1 (fmt base n : Nat) : List Byte :=
  leBytes 2 0x4454 ++ leBytes 1 1 ++ leBytes 5 fmt ++ leBytes 8 base ++ leBytes 24 n ++ leBytes 32 1 ++ leBytes 2 n

/-- A tensor of rank 2 with rows of `e0` units `s1` apart. -/
def tensor2 (fmt form base e0 e1 s1 : Nat) : List Byte :=
  leBytes 2 0x4454 ++ leBytes 1 2 ++ leBytes 1 fmt ++ leBytes 4 form ++ leBytes 8 base ++ leBytes 4 e0 ++ leBytes 20 e1 ++ leBytes 5 1 ++
  leBytes 27 s1 ++ leBytes 2 e0 ++ leBytes 2 e1

/-- A product of a 1 × 1 by a 1 × 1 of BF16: A at 0x280, B at 0x300, C at 0x380, the Ligature block at 0x400. -/
def product0 (op : Nat) : List (Nat × List Byte) :=
  [(0x200, leBytes 8 op ++ leBytes 4 1 ++ leBytes 4 1 ++ leBytes 8 1 ++ leBytes 8 0x280 ++ leBytes 8 0x300 ++ leBytes 16 0x380 ++
      leBytes 16 0x400 ++ leBytes 8 0x500),
   (0x280, tensor2 8 0 0x600 1 1 1), (0x300, tensor2 8 0 0x640 1 1 1), (0x380, tensor2 8 0 0x680 1 1 1), (0x41D, leBytes 1 8),
   (0x600, leBytes 2 0x4000), (0x640, leBytes 2 0x4040)]

/-- The hypotheses of a product's result: it decodes, its operands are readable and its tiles pass. -/
def productRuns (op : Nat) : Bool :=
  let s := issued 1 0x200 (product0 op)
  (ctxOf s 0 0 1).isSome && (match (ctx0 s 1).run.dec with
    | .product w =>
      let d := w.atDev s.glob.deviceId
      w.op == op && farReads (d.reads s) == [] && d.passBad s (ctx0 s 1) 0 == [] && d.m == 1 && d.n == 1 && d.k == 1 && d.cm == 1 && d.cn == 1 &&
        !bit (rd d.lig 31 1) 2 && !bit (rd d.lig 31 1) 3
    | _ => false)

theorem test_product : (productRuns 1) = true := by decide +kernel

/-- An extent of zero: the same product of 1 × 1 by 1 × 1 with K cut to 0 by its shape cell's stand-in, the record. -/
theorem test_product_of_nothing : (let s := issued 1 0x200 (product0 1)
    match (ctx0 s 1).run.dec with
    | .product w =>
      let z := inProgress 1 0x200 (product0 1) (.product { w with k := 0 })
      (w.atDev z.glob.deviceId).op == 1 && ans (.product 0 0) z (fun t => t.mem.full == [3] && peekN t 0x680 2 == 0 && t.frame.prog.all (fun r => r.done))
    | _ => false) = true := by decide +kernel

/-- A Hatch tile of BF16 without a stored value. -/
def emptyTile : List Byte := leBytes 161 0x08014854 ++ leBytes 95 1

theorem test_empty_tile : (buildHatch 8 1 0 0 (List.replicate 64 0) [] [] == emptyTile) = true := by decide +kernel

/-- A tensor of rank 2 of BF16, as decoded. -/
def desc2 (at_ form base e0 e1 : Nat) : Desc :=
  { at_ := at_, magic := 0x4454, rank := 2, fmt := 8, form := form, flags := 0, mxDim := 0, base := base, ext := [e0, e1, 0, 0, 0, 0],
    str := [1, 1, 0, 0, 0, 0], blk := [e0, e1, 0, 0, 0, 0], scale := 0, spare := 0 }

/-- PROBE of 64 × 1 by 64 × 1 on no candidate block, and MASKED_OUTER of the same in the empty pattern of the tile at 0xA000. -/
def patterned0 (op : Nat) : Machine.Prod :=
  { at_ := 0x200, b := leBytes 3 op ++ leBytes 2 (if op = 3 then 1 else 0) ++ leBytes 3 (if op = 4 then 1 else 0) ++ leBytes 4 64 ++
      leBytes 4 64 ++ leBytes 8 1 ++ leBytes 8 0x280 ++ leBytes 8 0x300 ++ leBytes 8 0x380 ++ leBytes 8 (if op = 3 then 0x480 else 0xA800) ++
      leBytes 16 0x400 ++ leBytes 56 0x500
    a := desc2 0x280 0 0x9000 1 64, bb := desc2 0x300 0 0x9100 1 64, c := desc2 0x380 2 0x8000 64 64, p := desc2 0x480 2 0xA000 64 64
    lig := leBytes 29 0 ++ leBytes 35 8, blot := [], kind := .float, m := 64, n := 64, k := 1 }

/-- The hypotheses of a product in a pattern: its pattern or its candidates pass. -/
def patternRuns (op : Nat) : Bool :=
  let s := inProgress 1 0x200 [(0xA000, leBytes 4 0x08014854), (0xA0A1, leBytes 1 1)] (.product (patterned0 op))
  let d := (patterned0 op).atDev 5
  (ctxOf s 0 0 1).isSome && d.op == op && s.glob.deviceId == 5 && d.patternBad s (ctx0 s 1) 0 == [] &&
    (op == 3 || probeBad s d (rd d.b 48 8) == none) && d.cm == 64 && d.cn == 64 && !bit (rd d.lig 31 1) 2 && !bit (rd d.lig 31 1) 3

theorem test_masked_outer : patternRuns 3 = true := by decide +kernel

theorem test_probe : (patternRuns 4 && (let s := inProgress 1 0x200 [] (.product (patterned0 4))
    ans (.probe 0 0) s (fun t => t.frame.prog.all (fun r => r.done) && peekN t 0x8000 1 == 0x54))) = true := by decide +kernel

/-- PRODUCT of a Hatch tile that does not hold at 0xA000 by a column aborts the frame, with nothing written. -/
theorem test_product_tile_fails : (let l := [(0x200, leBytes 3 1 ++ leBytes 5 1 ++ leBytes 4 64 ++ leBytes 4 1 ++ leBytes 8 64 ++ leBytes 8 0x480 ++
        leBytes 8 0x300 ++ leBytes 16 0x380 ++ leBytes 16 0x400 ++ leBytes 8 0x500), (0x300, tensor2 8 0 0x9000 1 64 1),
        (0x380, tensor2 8 0 0x8000 1 64 1), (0x41D, leBytes 1 8), (0x480, tensor2 8 2 0xA000 64 64 1)]
    let s := issued 1 0x200 l
    match (ctx0 s 1).run.dec with
    | .product w => w.op == 1 && (w.atDev s.glob.deviceId).passBad s (ctx0 s 1) 0 != [] &&
        ans (.product 0 0) s (fun t => t.frame.aborted && t.mem.full == [3] && t.mem.cells == s.mem.cells)
    | _ => false) = true := by decide +kernel

/-- Without a pattern MASKED_OUTER is rejected as it issues, and the frame aborts. -/
theorem test_product_rejected : (let s := framed 1 0x200 (product0 3)
    (match decodeAt s (ctxFor s 0 0 (strokeAt s { id := 7, addr := 0x1000, bytes := 0x900 } 0 0)) with
      | .error b => b.code == 0x11 | .ok _ => false) &&
    ans .strokeIssue s (fun t => t.frame.aborted && t.flt.seq == 1 && rd t.flt.last 0 1 == 0x11)) = true := by decide +kernel

theorem test_vector_and_tile_load : (let s := issued 2 0 []
    let u : TileLoad := { folio := 0, idx := 0, quill := 0, nib := some 0, addr := 0x8000, form := 2, fmt := 8, colMajor := false, budget := none }
    gives (.quillVector 0 0) s (doneRun s 0 0) && u.wf && installed s 0x8000 (hatchReserved 8) &&
    (tileBad s 2 8 0x8000 none false none (some 0)).isSome &&
    ans (.sparseTileLoad u) s (fun t => t.frame.aborted && rd t.flt.last 0 1 == 3)) = true := by decide +kernel

theorem test_tile_passes : (let s := issued 2 0 [(0x8000, emptyTile)]
    tileBad s 2 8 0x8000 none false none (some 0) == none) = true := by decide +kernel

/-- A mask record at 0x200 over the one tile of a tensor at 0x8000, with a probe tensor at 0x9000. -/
def maskRec (op : Nat) : List (Nat × List Byte) :=
  [(0x200, leBytes 2 op ++ leBytes 14 1 ++ leBytes 8 0x280 ++ leBytes 36 (if op = 1 then 0 else if op = 4 then 0x9000 else 0x300) ++ leBytes 4 1),
   (0x280, tensor2 8 2 0x8000 64 64 1), (0x300, tensor2 8 2 0xA000 64 64 1)]

/-- The record decodes, and a step that is skipped does nothing. -/
def maskSkips (op : Nat) (c : Instr) : Bool :=
  let s := { issued 8 0x200 (maskRec op) with job.skipped := [20] }
  (ctxOf s 0 0 8).isSome && peekN s 0x200 1 == op && (match decodeMask s 0x200 with | .ok r => r.group == 1 | .error _ => false) &&
  gives c s (doneRun s 0 0)

theorem test_masks_skip : (maskSkips 1 (.prune 0 0)) = true := by decide +kernel

/-- A prune of an empty tile keeps it. -/
theorem test_mask_runs : (let s := issued 8 0x200 (maskRec 1 ++ [(0x8000, emptyTile)])
    match decodeMask s 0x200 with
    | .ok r => (match loadScope s r (rd r.b 56 4) (homeNib (tileOfLinear s r.w (rd r.b 56 4)) % 256) with | .ok xs => xs.length == 1 | .error _ => false) &&
        ans (.prune 0 0) s (fun t => t.frame.prog.all (fun q => q.done))
    | .error _ => false) = true := by decide +kernel

/-- A routing record of two experts and one token: scores at 0x600, the token at 0x640, the shares at 0x700, the list at 0x800. -/
def routing0 (op : Nat) : List (Nat × List Byte) :=
  [(0x200, leBytes 2 op ++ leBytes 1 1 ++ leBytes 1 1 ++ leBytes 4 2 ++ leBytes 4 1 ++ leBytes 4 64 ++ leBytes 8 0x280 ++ leBytes 8 0x300 ++
      leBytes 8 0x700 ++ leBytes 8 0x800 ++ leBytes 8 0x10000),
   (0x280, tensor2 8 0 0x600 2 1 2), (0x300, tensor2 8 0 0x640 32 1 32), (0x600, leBytes 2 0x3F80 ++ leBytes 2 0x4000),
   (0x640, leBytes 2 0x4040), (0x700, leBytes 6 0x5000 ++ leBytes 4 7 ++ leBytes 6 1), (0x710, leBytes 6 0x6000 ++ leBytes 4 7 ++ leBytes 6 1)]

theorem test_dispatch : (let s := issued 6 0x200 (routing0 1)
    (ctxOf s 0 0 6).isSome && (match (ctx0 s 6).run.dec with
      | .routing r => r.tokens == 1 && gives (.dispatch 0 0 0) s (setRun s 0 0 { tokens := 1, record := some r }) | _ => false)) = true := by decide +kernel

/-- The routing that the stroke of a state named. -/
def routing (s : State) : Option Routing := match (ctx0 s 6).run.dec with | .routing r => some r | _ => none

/-- The routing stroke with its dispatch begun. -/
def dispatching (token : Nat) : State :=
  let s := issued 6 0x200 (routing0 1)
  setRun s 0 0 { token := token, tokens := 1, record := routing s }

/-- The token goes to expert 1, which has the larger score, with that score as its weight. -/
theorem test_token_admit : (let s := dispatching 0
    ans (.tokenAdmit 0 0 0) s (fun t => (routeRun t 0 0).token == 1 && peekN t 0x800 2 == 1 && peekN t 0x804 4 == 0x40000000 &&
      (expert t 1).first == 1)) = true := by decide +kernel

theorem test_combine_decodes : (let s := issued 6 0x200 (routing0 2)
    (ctxOf s 0 0 6).isSome && peekN s ((ctx0 s 6).k.op % 2 ^ 48) 1 == 2 && s.mem.bad.isEmpty &&
    (match routing s with | some r => r.tokens == 1 && rd r.b 0 1 == 2 | none => false)) = true := by decide +kernel

theorem test_count_cell : (let s := dispatching 1
    (match routing s with | some r => r.reps == 1 && r.experts == 2 && (r.at_share 1 0).share == 1 && (r.at_share 1 0).dev == 7 | none => false) && ans (.countCellSend 0 0 1) s (fun t =>
      (routeRun t 0 0).sent == [1] && t.fab.xfers.map (fun y => (y.dst, y.pkts.map (fun u => u.pkt.addr))) == [(7, [0x6040])])) = true := by
  decide +kernel

/-- A move record at 0x200 of four bytes from 0x600 to 0x680. -/
def move0 (op flags : Nat) : List (Nat × List Byte) :=
  [(0x200, leBytes 1 op ++ leBytes 1 flags ++ leBytes 6 (if flags = 0 then 0 else 2) ++ leBytes 8 0x280 ++ leBytes 8 0x300 ++
      leBytes 8 (if op = 1 then 0 else 0x700) ++ leBytes 32 (if op = 1 then 0 else 1) ++ leBytes 4 (if op = 1 then 4 else 0)),
   (0x280, tensor1 12 0x600 4), (0x300, tensor1 12 0x680 4), (0x600, leBytes 4 0x44332211)]

def moveRuns (op : Nat) (c : MoveSrc → Instr) : Bool :=
  let s := issued 3 0x200 (move0 op 0)
  (moveCtx s 0 0).isSome && (match decodeMove s 0x200 (some 3) with
    | .ok m => (ctx0 s 3).run.dec == .move m && m.flag 1 == false && m.remote == none && (strictBad m (curFlag s 2) (m.pairs s)).isNone && (blockBad s m (some 3) (m.resolved (m.pairs s)).1).isNone &&
        (m.needs s (m.resolved (m.pairs s)).1).isEmpty && (m.puts s [] (m.resolved (m.pairs s)).1).1.all (fun p => p.dev == none)
    | .error _ => false) &&
  ans (c (.stroke 0 0)) s (fun t => peekN t 0x680 4 == 0x44332211 && t.frame.prog.all (fun r => r.done)) &&
  ans (c (.firmware 0x200)) s (fun t => peekN t 0x680 4 == 0x44332211)

theorem test_copy : (moveRuns 1 .copy) = true := by decide +kernel
theorem test_gather : (moveRuns 2 .gather) = true := by decide +kernel
theorem test_scatter : (moveRuns 3 .scatter) = true := by decide +kernel

theorem test_streams : (let s := issued 3 0x200 (move0 1 4)
    let r := issued 3 0x200 (move0 1 12)
    let y : StreamMove := { folio := 0, idx := 5 }
    let z : StreamMove := { folio := 0, idx := 6 }
    ans (.streamArm 0 0) s (fun t => stream t 0 2 == { active := some { folio := 0, idx := 0 } }) &&
    ans (.streamArm 0 0) (setStream s 0 2 { active := some y }) (fun t => (stream t 0 2).shadow.isSome && (stream t 0 2).active == some y) &&
    ans (.streamArm 0 0) (setStream s 0 2 { active := some y, shadow := some z }) (fun t => t.frame.aborted && rd t.flt.last 0 1 == 7) &&
    ans (.streamArm 0 0) (setStream r 0 2 { active := some y, shadow := some z }) (fun t => (stream t 0 2).shadow == some { folio := 0, idx := 0 }) &&
    ans (.moveComplete 0 2) (setStream s 0 2 { active := some y, shadow := some z }) (fun t => stream t 0 2 == { active := some z })) = true := by
  decide +kernel

theorem test_landing_cell : (let y : Transfer := { tag := 4, dst := 7, acked := true, land := some (0x5000, leBytes 64 9), frame := 12 }
    let s := { running with fab.xfers := [y] }
    (routeOf s 7).isSome && ans (.landCellSend 4) s (fun t => t.fab.xfers.map (fun x => x.land) == [none, none] &&
      t.fab.xfers.map (fun x => x.pkts.map (fun q => q.pkt.addr)) == [[], [0x5000]])) = true := by decide +kernel

/-- A stencil of one tap with coefficient 1.0 over a grid of one FP32 point. -/
def tensor3 (base : Nat) : List Byte :=
  leBytes 2 0x4454 ++ leBytes 1 3 ++ leBytes 5 10 ++ leBytes 8 base ++ leBytes 4 1 ++ leBytes 4 1 ++ leBytes 16 1 ++ leBytes 5 1 ++ leBytes 5 1 ++
  leBytes 22 1 ++ leBytes 2 1 ++ leBytes 2 1 ++ leBytes 2 1

def stencil0 : List (Nat × List Byte) :=
  [(0x200, leBytes 16 1 ++ leBytes 4 10 ++ leBytes 2 1 ++ leBytes 2 1 ++ leBytes 8 0x400 ++ leBytes 8 0x280 ++ leBytes 8 0x300),
   (0x400, leBytes 8 0 ++ leBytes 8 0x3F800000), (0x280, tensor3 0x600), (0x300, tensor3 0x680), (0x600, leBytes 4 0x40490FDB)]

theorem test_stencil : (let s := issued 4 0x200 stencil0
    (match (ctx0 s 4).run.dec with | .chain rs => rs.map NibRec.op == [1] | _ => false) &&
    ans (.stencil 0 0 0) s (fun t => peekN t 0x680 4 == 0x40490FDB && t.frame.prog.all (fun r => r.done)) &&
    gives (.stencil 0 0 0) { s with frame.prog := s.frame.prog.map (fun r => { r with recs := [0] }) }
      { s with frame.prog := s.frame.prog.map (fun r => { r with recs := [0] }) }) = true := by decide +kernel

/-- A digest of three bytes, first and last: the hypotheses of its result. -/
def digest0 : List (Nat × List Byte) :=
  [(0x200, leBytes 16 2 ++ leBytes 1 0 ++ leBytes 7 3 ++ leBytes 8 0x600 ++ leBytes 8 64 ++ leBytes 8 0x10000 ++ leBytes 8 0x9000)]

theorem test_digest_decodes : (let s := issued 4 0x200 digest0
    match (ctx0 s 4).run.dec with
    | .chain [.digest d] => d.desc.isNone && d.first && d.last && rd d.b 56 8 == 0 && rd d.b 32 8 == 64 && s.mem.bad.isEmpty
    | _ => false) = true := by decide +kernel

/-- An optimiser record of one parameter, in group 2, with gradients in FP32. -/
def optimiser0 : List (Nat × List Byte) :=
  [(0x200, leBytes 16 3 ++ leBytes 2 2 ++ leBytes 2 1 ++ leBytes 12 0x3F800000 ++ leBytes 8 0x680 ++ leBytes 8 0x700 ++ leBytes 8 0x780 ++
      leBytes 8 0x800 ++ leBytes 8 1)]

theorem test_optimiser : (let s := { issued 4 0x200 optimiser0 with glob.paramTable := 0x20000 }
    (match (ctx0 s 4).run.dec with | .chain [.optimiser d] => d.desc.isNone && d.group == 2 | _ => false) &&
    ans (.optimiser 0 0 0) s (fun t => t.job.optGroups == [2] && !t.frame.aborted) &&
    ans (.optimiser 0 0 0) { s with job.skipped := [20] } (fun t => t.job.optGroups == [] && !t.frame.aborted)) = true := by decide +kernel

/-- A reduction of one bucket with one value, 1.0 in BF16, to FP32. -/
def reduce0 (step : Nat) : List (Nat × List Byte) :=
  [(0x200, leBytes 1 1 ++ leBytes 1 1 ++ leBytes 1 1 ++ leBytes 1 8 ++ leBytes 12 1 ++ leBytes 8 0x18000 ++ leBytes 8 0x10000),
   (0x10000, leBytes 2 0x4B42 ++ leBytes 2 8 ++ leBytes 8 step ++ leBytes 52 1 ++ leBytes 2 0x3F80)]

theorem test_reduce : (let s := issued 7 0x200 (reduce0 20)
    (match (ctx0 s 7).run.dec with | .reduce d => d.buckets == 1 && d.tiles.isNone && (d.headerBad s 0).isNone | _ => false) &&
    ans (.reduce 0 0) s (fun t => peekN t 0x18000 4 == 0x3F800000)) = true := by decide +kernel

theorem test_reduce_header : (let s := issued 7 0x200 (reduce0 21)
    ans (.reduce 0 0) s (fun t => t.frame.aborted && rd t.flt.last 0 1 == 0x11)) = true := by decide +kernel

/-- BF16 1.0, FP32 −2.0 and E4M3 448 narrow to themselves. -/
def narrows (f c : Nat) : Bool := !(decE f c).nf && decide (encE f (decE f c) rneNat = (c, false))

theorem test_narrowing : (narrows 8 0x3F80 && narrows 10 0xC0000000 && narrows 1 0x7E) = true := by decide +kernel

/-! ### Training services, watchdogs and tests -/

/-- A message of the job from device 7. -/
def msg (typ code flags step seq frame : Nat) : SvcMsg :=
  { typ := typ, flags := flags, job := 2, device := 7, code := code, step := step, seq := seq, frame := frame, spare := 0 }

/-- The device that is not the first of its job. -/
def member : State := { running with job.blk.devices := [7, 5] }

theorem test_coordinator : (jobExists running && isCoordinator running && (msg 1 1 0 20 0 12).wf && acceptsMsg running 7 1 2 0 &&
    ans (.rollbackReqReceive 7 (msg 1 1 0 20 0 12)) running (fun t => t.train.seq == 1 && t.train.target == 20 && t.train.incident.isSome) &&
    ans (.rollbackReqReceive 7 (msg 1 0x0F 0 20 0 12)) running (fun t => t.train.paused && t.train.incident == none) &&
    gives (.rollbackReqReceive 7 (msg 1 1 0 20 0 12)) { running with train.paused := true }
      (takeMsg { running with train.paused := true } 7 (SvcMsg.bytes (msg 1 1 0 20 0 12))) &&
    ans (.readyReceive 7 (msg 3 0 0 20 0 12)) running (fun t => t.train.ready == [7]) &&
    ans (.readyReceive 7 (msg 3 0 0 20 4 12)) running (fun t => t.train.ready == [])) = true := by decide +kernel

theorem test_rollback : (acceptsMsg member 7 2 2 0 && !testHolds member && newerSeq 1 0 &&
    ans (.rollbackReceive 7 (msg 2 0 0 18 1 30)) member (fun t => t.train.obeyed == 1 && t.train.restart == some 30 && t.frame.aborted) &&
    ans (.rollbackReceive 7 (msg 2 0 0 18 0 30)) member (fun t => t.train.restart == none && !t.frame.aborted) &&
    ans (.rollbackPauseReceive 7 (msg 2 0 32 18 1 30)) member (fun t => t.glob.jobState == 5 && t.train.pausedRb) &&
    (let s := { member with train.restart := some 12, train.restartStep := 18, train.sentReady := true }
     !laterFrame 12 (currentFrame s) && ans .restartFrame s (fun t => t.job.step == 18 && t.job.f0 == 12 && t.train.restart == none)) &&
    (let s := { member with train.waiting := some 4, train.waitCode := 1, job.blk.rollbackWait := 5 }
     ans .rollbackWaitTimeout s (fun t => t.glob.jobState == 5 && rd t.flt.last 0 1 == 1))) = true := by decide +kernel

theorem test_restore_fails : (let s := { member with train.restoring := true, train.committed := some (18, 0) }
    !testHolds s && ans (.restoreComplete .mirrorFailed) s (fun t => !t.train.restoring && t.train.waitCode == 0x0F)) = true := by decide +kernel

/-- A COMMITTED manifest of no regions, with a loss average of 2.0 over 7 samples, up to its SEAL. DIGEST is SM3 of nothing. -/
def ckptHead : List Byte :=
  leBytes 4 0x54504B43 ++ leBytes 11 1 ++ leBytes 17 3 ++ beBytes 32 0x1ab21d8355cfa17f8e61194831e81a8f22bec8c728fefb747ed035eb5082aa2b ++
  leBytes 4 0x40000000 ++ leBytes 12 7

/-- The same with its SEAL (Table 9.5). -/
def ckptSealed : List Byte := ckptHead ++ sealOf ckptHead

theorem ckptHead_length : ckptHead.length = 80 := by decide +kernel

theorem sealOf_ckptSealed : sealOf ckptSealed = sealOf ckptHead := by
  have h1 : ckptSealed.take 15 = ckptHead.take 15 := by
    rw [ckptSealed, List.take_append_of_le_length]; simp [ckptHead_length]
  have h2 : slice ckptSealed 16 64 = slice ckptHead 16 64 := slice_append_left _ _ _ _ (by simp [ckptHead_length])
  have h3 : slice ckptSealed 128 3840 = slice ckptHead 128 3840 := by
    rw [slice_past ckptHead _ _ (by simp [ckptHead_length])]
    exact slice_past _ _ _ (by simp [ckptSealed, ckptHead_length, sealOf])
  simp only [sealOf, h1, h2, h3]

theorem test_checkpoint_image : imageOk ckptSealed = true := by
  have hs : slice ckptSealed 80 32 = sealOf ckptHead := by
    rw [ckptSealed, slice_append_right _ _ _ _ (by simp [ckptHead_length]), ckptHead_length]
    have e : (sealOf ckptHead).length = 32 := sm3_length _
    simp [slice, ← e]
  have hr : ∀ off n, off + n ≤ 80 → rd ckptSealed off n = rd ckptHead off n :=
    fun off n h => rd_append_left _ _ _ _ (by simpa [ckptHead_length] using h)
  have hd : slice ckptSealed 32 32 = slice ckptHead 32 32 := slice_append_left _ _ _ _ (by simp [ckptHead_length])
  have hi : imageRegions ckptSealed = [] := by
    have : rd ckptHead 24 2 = 0 := by decide +kernel
    simp [imageRegions, hr, this]
  have hg : slice ckptHead 32 32 = shardDigest [] := by decide +kernel
  have h0 : rd ckptHead 0 4 = 0x54504B43 ∧ rd ckptHead 4 2 = 1 ∧ rd ckptHead 15 1 = 3 := by decide +kernel
  simp [imageOk, hr, h0, hs, sealOf_ckptSealed, hd, hg, imagePieces, hi, regionPlaces]

/-- A restore that has read that manifest from the mirror. -/
def restoring : State :=
  { member with
    train.restoring := true, train.fromMirror := true, train.committed := some (18, 0)
    fab.xfers := [{ tag := 1, dst := 7, idx := ckptIdx 3, cls := 1, reads := true, got := [(0, ckptSealed)] }] }

theorem test_restore : restoreBytes restoring = some ckptSealed ∧ imageOk ckptSealed = true ∧ testHolds restoring = false :=
  ⟨by simp [restoreBytes, restoring, member, running, claimed, up, ckptXfer, ckptIdx, slotBase, restoreSlot, State.reset],
    test_checkpoint_image, by decide +kernel⟩

theorem test_spares : (acceptsMsg running 7 5 2 0 && !running.job.lost.contains 7 &&
    ans (.deviceLostReceive 7 (msg 5 0 0 20 0 12)) running (fun t => t.job.lost == [7] && t.train.paused && rd t.flt.last 0 1 == 0x15) &&
    (let s := { running with job.blk.spares := [9] }
     (freeSpare { s with job.lost := [7] }).isSome &&
     ans (.deviceLostReceive 7 (msg 5 0 0 20 0 12)) s (fun t => t.job.lost == [7] && t.train.toCkpt && t.train.seq == 1)) &&
    (let s := { running with job.blk.ward := 0xFFFFFF, job.blk.buddy := 0xFFFFFF }
     ans (.takeoverReceive 7 { msg 6 0 0 20 0 12 with spare := 9 }) s (fun t => t.job.blk.devices == [5, 9] && t.train.ownerFix == [(7, 9)])) &&
    ans (.skipReceive 7 (msg 4 0 0 20 0 12)) running (fun t => t.job.skipped == [20]) &&
    ans (.skipReceive 7 (msg 4 0 0 20 0 12)) { running with job.optRan := true } (fun t => t.frame.aborted && rd t.flt.last 0 1 == 0x0D) &&
    ans (.skipReceive 7 (msg 4 0 0 18 0 12)) { running with job.optSteps := [18] } (fun t => t.frame.aborted && t.train.waitCode == 0x0D)) = true := by
  decide +kernel

theorem test_checkpoints : (let s := { running with train.doneSlot := some (20, 1) }
    !ckptPending s 0 && ans (.ckptDoneSend false) s (fun t => t.train.mirrored) &&
    (let u := { running with train.ckptStep := 20 }
     ans (.ckptDoneReceive 7 (msg 7 0 0 20 0 12)) u (fun t => t.train.ckptDone == [7] && !t.train.ckptSent) &&
     ans (.ckptDoneReceive 7 (msg 7 4 8 20 0 12)) u (fun t => t.train.ckptSent)) &&
    mirrorsOf s 20 == [] &&
    ans (.ckptCommitReceive 7 (msg 8 0 0 20 0 12)) s (fun t => slotState t 1 == 3 && t.train.committed == some (20, 1)) &&
    ans (.ckptCommitReceive 7 (msg 8 0 16 20 0 12)) s (fun t => slotState t 1 == 0 && t.train.doneSlot == none)) = true := by decide +kernel

/-- A Colophon message of step 20 with a digest. -/
def colophon (seq d : Nat) : List Byte := leBytes 2 9 ++ leBytes 6 2 ++ leBytes 4 20 ++ leBytes 20 seq ++ leBytes 32 d

/-- DONE of a step that runs again after a ROLLBACK is collected afresh. -/
theorem test_checkpoint_again : (let u := { running with train.ckptStep := 20, train.ckptSeq := 1, train.ckptSent := true, train.ckptDone := [5, 7] }
    !newerSeq 1 2 && ans (.ckptDoneReceive 7 (msg 7 0 0 20 2 12)) u (fun t =>
      t.train.ckptSeq == 2 && t.train.ckptDone == [7] && !t.train.ckptSent)) = true := by decide +kernel

theorem test_colophon : (let s := { running with colo.group := 0x1000, mem.cells := mem [(0x1000, leBytes 4 2 ++ leBytes 4 5 ++ leBytes 4 7)],
                                                  colo.own := [(20, leBytes 32 6)] }
    otherMembers s == [7] && inJob s 7 && rd (colophon 0 6) 8 4 == 20 &&
    ans (.colophonReceive 7 (colophon 0 6)) s (fun t => t.colo.goodStep == 20 && t.colo.own == []) &&
    ans (.colophonReceive 7 (colophon 0 5)) s (fun t => t.colo.goodStep != 20 && rd t.flt.last 0 1 == 0x0F && t.train.waitCode == 0x0F) &&
    ans (.colophonReceive 7 (colophon 1 6)) s (fun t => t.colo == s.colo)) = true := by decide +kernel

theorem test_folio_fails : (logicalOf up 3 == some 3 && spareOf up 0 == some 16 &&
    ans (.clusterWatchdog 3) up (fun t => (folio t 3).state == 3 && (folio t 16).state == 0 && physOf t 3 == some 16) &&
    (let s := setFolio up 16 { Folio.dflt 16 with state := 3 }
     spareOf s 0 == none && ans (.folioInternalFault 3 0x10) s (fun t => physOf t 3 == none && rd t.flt.last 0 1 == 0x15))) = true := by decide +kernel

theorem test_scheduler : (ans (.schedulerWatchdog true) up (fun t => t.boot.schedDown && rd t.flt.last 0 1 == 0x10) &&
    ans (.schedulerWatchdog true) { up with boot.schedExpired := true } (fun t => t.glob.faultState) &&
    ans .schedulerImageRestart { up with boot.schedDown := true } (fun t => !t.boot.schedDown && t.boot.schedExpired) &&
    ans .schedulerImageRestart { running with boot.schedDown := true } (fun t => t.train.waiting.isSome && t.train.waitCode == 0x10)) = true := by
  decide +kernel

theorem test_in_field_test : (let s := { claimed with scan.available := true, glob.testPeriod := 100 }
    ans (.testPeriodDue 4) s (fun t => t.scan.due == [{ folio := 4, deadlineAt := 86400 }]) &&
    (let u := { s with scan.due := [{ folio := 16, deadlineAt := 5 }] }
     ans (.testDeadlinePassed 16) u (fun t => t.scan.due == [{ folio := 16, deadlineAt := 5, passed := true }]) && testsOpen u &&
     ans (.testStart 16) u (fun t => (folio t 16).state == 2 && t.scan.running == some 16)) &&
    (let r := { setFolio s 16 { Folio.dflt 16 with state := 2, before := 1 } with scan.running := some 16 }
     ans (.testComplete .pass) r (fun t => (folio t 16).state == 1 && t.scan.running == none) &&
     ans (.testComplete (.fail 5 6 7)) r (fun t => (folio t 16).state == 3 && rd t.flt.last 32 8 == 5 + 6 * 2 ^ 16 + 7 * 2 ^ 32))) = true := by
  decide +kernel

/-- A logical Folio that waits on the die of a test takes the Folio that passes, and is refused by one that ends undecided. -/
theorem test_waiting_folio : (let s := { setFolio claimed 16 { Folio.dflt 16 with state := 2, before := 3 } with
        scan.running := some 16, scan.available := true, folios.waiting := [3] }
    !jobExists s &&
    ans (.testComplete .pass) s (fun t => (folio t 16).state == 0 && physOf t 3 == some 16 && t.folios.waiting == []) &&
    ans (.testComplete .inconclusive) s (fun t => (folio t 16).state == 3 && t.folios.waiting == [] && rd t.flt.last 0 1 == 0x15)) = true := by
  decide +kernel

theorem test_retrain : (ans (.vaultRetrain 3) claimed (fun t => tget t.mem.vaultTrained 3 0 == 1) &&
    ans (.lpChannelRetrain 2) { claimed with mem.lpChannels := 8 } (fun t => tget t.mem.channelTrained 2 0 == 1)) = true := by decide +kernel

/-! ### Live update -/

/-- The images of a part that runs, and a new scheduler image staged. -/
def updating : State := { running with boot.running := images, boot.staged := [(2, leBytes 12 0 ++ leBytes 116 1)] }

/-- An activation of that image. -/
def act (stage : Nat) : State := { updating with act := some { core := 2, folio := 0, stage := stage }, actHdr := some hdr }

theorem test_update : (activateBad { updating with boot.staged := [(2, (imageOf images 2).getD [])] } 2 0 == none &&
    ans (.updateActivate hdr 2 0) { updating with boot.staged := [(2, (imageOf images 2).getD [])] } (fun t =>
      t.act == some { core := 2, folio := 0, stage := 1, imgs := [(2, (imageOf images 2).getD [])] } && t.actHdr == some hdr) &&
    (let s := { act 1 with frame := {} }
     !updateBlocked s && ans .activationDeferRetest s (fun t => t.act == some { core := 2, folio := 0, stage := 2 })) &&
    ans (.handoffSeal []) (act 2) (fun t => (t.act.map (fun a => a.stage)) == some 3) &&
    gives (.handoffReject 2) (act 4) (complete { act 4 with act := none, actHdr := none } hdr 0x13 2) &&
    gives (.handoffTimeout false) (act 4) (complete { act 4 with act := none, actHdr := none } hdr 0x13 5) &&
    ans (.handoffTimeout true) (act 4) (fun t => t.flt.seq == 1 && t.act == none) &&
    (let s := { act 1 with act := some { core := 2, folio := 0, stage := 1, deferred := true } }
     ans .activationExpire s (fun t => t.act == none && t.boot == s.boot))) = true := by decide +kernel

/-- An activation waits behind another; a rolling one whose Folio has no spare stops; a watchdog in the validation window ends one. -/
theorem test_update_ends : (let q := { act 2 with boot.staged := [(1, (imageOf images 1).getD [])] }
    ans (.updateActivate hdr 1 0) q (fun t => t.act == (act 2).act && t.actQueue.length == 1) &&
    (let s := { act 1 with frame := {}, act := some { core := 3, folio := 0xFF, stage := 1, all := true, rolling := true } }
     let n := setFolio s 16 { Folio.dflt 16 with state := 3 }
     !updateBlocked s && spareReady s 0 && ans .activationDeferRetest s (fun t => (t.act.map (fun a => a.stage)) == some 2) &&
     !updateBlocked n && !spareReady n 0 && ans .activationDeferRetest n (fun t => t.act == none && rd (hostPeek t 0x1000 32) 1 1 == 0x15)) &&
    ans (.schedulerWatchdog true) (act 4) (fun t => t.act == none && alive t && t.flt.seq == 1) &&
    inValidation (act 4) 2 0) = true := by decide +kernel

/-- The handoff block of a sealed activation is accepted by the image that takes over. -/
theorem test_handoff_accepted : (let s := act 4
    let a : Activation := { core := 2, folio := 0, stage := 4, frame := 12, imgs := [(2, leBytes 12 0 ++ leBytes 116 1)] }
    let b := [(0, handoffBlock s a [] 0)]
    handoffBad { a with blocks := b } == none && handoffBad { a with blocks := b, frame := 11 } == some 1 &&
    ans .handoffAccept { s with act := some { a with blocks := b } } (fun t => (t.act.map (fun a => a.stage)) == some 5)) = true := by decide +kernel

/-! ### Further forms -/

/-- A vote goes to a domain that stands, a wake trains what a domain holds, and an update without a cause leaves the stalls. -/
theorem test_power_forms : (up.power.queued.isEmpty && domOn up 113 && !watchSuspended up 1 0 && !domOn (withDom up 113 { state := 0 }) 113 &&
    gives (.powerVote 8 { pkt0 with payload := [0x30, 1] ++ List.replicate 30 0 }) (withDom up 113 { state := 0 }) (withDom up 113 { state := 0 }) &&
    ans (.wakeComplete 72) (withDom up 72 { state := 1, votes := 4 }) (fun t => tget t.mem.vaultTrained 31 0 == 1 && tget t.mem.vaultTrained 32 0 == 0) &&
    ans (.wakeComplete 124) { withDom up 124 { state := 1, votes := 4 } with mem.lpChannels := 8 } (fun t => tget t.mem.channelTrained 7 0 == 1) &&
    ans (.powerUpdate 0 []) { up with power.stallRatio := 9, power.below := 1000 } (fun t => !level1 t && t.power.stallRatio == 8) &&
    ans .alertNHoldTimeout { claimed with pins.alertBoard := true, power.conditions := [1], power.level := 1 } (fun t =>
      t.job == claimed.job && rd t.flt.last 0 1 == 0x17 && rd t.flt.last 1 1 == 0) &&
    (dom ethUp 129).state != 3 && gives (.ptpMessageReceive 0 { sync0 with kind := 2 } 5) ethUp ethUp &&
    gives (.ptpMessageReceive 0 { sync0 with kind := 3 } 5) ethUp ethUp &&
    gives (.ptpMessageReceive 0 sync0 5) (withDom ethUp 129 { state := 3 }) (devEvent (withDom ethUp 129 { state := 3 }) 0x54 1)) = true := by
  decide +kernel

/-- What is refused raises vector 6, or marks it pending behind its mask; a skipped capture waits. -/
theorem test_ring_forms : (let m := { ringed with pcie.msixEn := true }
    let o := { m with pcie.msix := (6, { ctrl := 0 }) :: m.pcie.msix }
    hostReady m && (msixEntry m 6).ctrl.testBit 0 && !(msixEntry o 6).ctrl.testBit 0 && (sq m 2).en == false && !headOk (cq m 0) 3 && !headOk m.rings.ctr 3 &&
    ans (.sqTailDoorbell 2 0 []) m (fun t => t.pcie.pba.testBit 6 && t.rings == m.rings) &&
    ans (.cqHeadDoorbell 0 3) o (fun t => t.out.msix == o.out.msix ++ [6] && t.rings == o.rings) &&
    ans (.ctrHeadDoorbell 3) o (fun t => t.out.msix == o.out.msix ++ [6]) &&
    (let r := { routed with mem.cells := writeBytes routed.mem.cells 4104 [1] }
     let e := { routed with mem.cells := writeBytes routed.mem.cells 4105 [1] }
     r.mem.corr.isEmpty && !routeEntryOk (peek e 4096 16) && ans .routeLoad e (fun t => t.glob.routeError && t.fab.routes == routed.fab.routes)) &&
    ans (.counterSelectWrite 0x60008 0x300) up (fun t => (ctr t 1).sel == 0) &&
    ans (.rcRegisterRead 0x10000 4) faulted (fun t => t.out.readData == 0)) = true := by decide +kernel

/-- A record of the counter ring that is not written whole, and the capture that falls due meanwhile. -/
theorem test_capture_skips : (let s := { seamed with rings.held := [⟨hdr, .snapshot, false⟩], rings.writes := [{ ring := 5, pkt := pkt0 }] }
    captureBusy s && ans .counterCapture s (fun t => t.cnt.skipped == 1 && t.rings == s.rings) &&
    (let c := { claimed with rings.writes := s.rings.writes }
     captureBusy c && !captureBusy claimed && ans (.counterSnapshot hdr) c (fun t => t.rings.held == [⟨hdr, .snapshot, false⟩])) &&
    ans .counterCapture { seamed with rings.held := [⟨hdr, .snapshot, false⟩] } (fun t => t.rings.ctr.lost == 1 && t.rings.held.isEmpty)) = true := by
  decide +kernel

/-- BUSY for a slot that is FULL, and the late packet that leaves its record. -/
theorem test_checker_forms : (let o := setWindow { opened with mem.full := [0] } 3 { isOpen := true, base := apBase, flags := 7, length := 4096, gen := 1, srcId := 7, srcMask := 0xFFFFFF }
    let k := { write3 with flags := 12, addr := apBase + 16 }
    decide (verdict o k = .refuse 0x19) && ans (.inboundWrite 8 k) o (fun t => t.mem == o.mem && (port t 8).queue.length == 1) &&
    decide (verdict scheduled { write3 with cls := 0, frame := 11 } = .late false false) && scheduled.fab.lateFrame == none &&
    ans (.inboundWrite 8 { write3 with cls := 0, frame := 11 }) scheduled (fun t => rd t.flt.last 0 1 == 0x18 && t.fab.lateFrame == some 12) &&
    (let l := { scheduled with fab.lateFrame := some (tickedFrame scheduled) }
     ans (.inboundWrite 8 { write3 with cls := 0, frame := 11 }) l (fun t => t.flt == l.flt)) &&
    decide (verdict { scheduled with train.restart := some 30, job.blk.devices := [5, 7] } { write3 with cls := 0, frame := 12 } = .late false true)) = true := by
  decide +kernel

/-- BUSY of a SCHEDULED packet blocks the cycle; the record of a refusal names the die of its port. -/
theorem test_answer_forms : (let y := { xfer1 with cls := 0, pkts := [{ pkt := { sent with cls := 0, frame := 12 } }] }
    let a := { answer 0x19 with cls := 0 }
    let s := { running with fab.xfers := [y] }
    isXfer s a y && !y.stopped && s.rings.writes.isEmpty && currentFrame s == 12 && (answer 0).cls == 1 &&
    ans (.responseBusy 8 a) s (fun t => t.frame.blocked) && refusalCode 0x0B &&
    ans (.responseRefusal 60 (answer 0x0B)) { up with fab.xfers := [{ xfer1 with idx := 1 }] } (fun t => rd t.flt.last 11 1 == 5 && rd t.flt.last 1 1 == 1) &&
    (let b := { running with fab.xfers := [{ xfer1 with tag := 6, pkts := [{ pkt := { sent with cls := 0, frame := 12 }, busy := true }] }] }
     routeFor b { sent with cls := 0, frame := 12 } == some (some 8) && !b.frame.seam &&
     ans (.busyResend 6 0x8010) b (fun t => (port t 8).queue.length == 1 && t.fab.xfers.any (fun x => x.pkts.any (fun u => u.resent))))) = true := by
  decide +kernel

/-- A die without its SerDes clock takes no page and trains no lane, and a receiver of 400 Gbit/s that has not locked takes nothing. -/
theorem test_lanes_still : (let p := { paging with pins.lostSd0 := true }
    let t0 := { training with pins.lostSd0 := true }
    let k := setLane up 8 { state := 3, rate := 4 }
    clockLost p 16 && !clockLost paging 16 && gives (.capabilityPageReceive 16 (page 3)) p p && gives (.laneTrainingDone 16 true) t0 t0 &&
    !laneStill k 8 && !(link k 8).locked && gives (.flitReceive 8 0 [] []) k k && mayRetrain up 8 && up.rings.host == 0) = true := by decide +kernel

/-- Zero times anything. -/
theorem gfMulBits_zero (k b : Nat) : gfMulBits k 0 b = 0 := by
  induction k generalizing b with
  | zero => rfl
  | succ k ih => simp [gfMulBits, gfX, ih]

/-- The word of zeros is a codeword. -/
theorem rsDecode_zeros (t n : Nat) : rsDecode t (List.replicate n 0) = some (List.replicate n 0) := by
  have h : ∀ x, gfEval (List.replicate n 0) x = 0 := by
    intro x
    induction n with
    | zero => rfl
    | succ n ih =>
      have e : gfEval (List.replicate (n + 1) 0) x = 0 ^^^ gfMul (gfEval (List.replicate n 0) x) x := rfl
      rw [e, ih]
      simp [gfMul, gfMulBits_zero]
  have hs : (rsSyndromes t (List.replicate n 0)).all (fun x => x == 0) = true := by simp [rsSyndromes, h]
  simp [rsDecode, hs]

/-- A codeword that names lane 0, where the partner is lane 5. -/
theorem test_wrong_wiring : (lineReceive 1 (List.replicate 544 0) []).1 = some (List.replicate 544 0) ∧
    wordLane (List.replicate 544 0) ≠ (lane (setLane up 8 { state := 3, rate := 1, partnerLane := 5 }) 8).partnerLane := by
  constructor
  · have e : (List.replicate 544 0).length = 544 := List.length_replicate
    simp only [lineReceive, e, rsDecode_zeros, if_true]
    rfl
  · rw [List.replicate_succ]; decide

/-! ### Further forms of the job -/

/-- LOAD_IMAGE is no owner's; what comes for a security core that switches waits; a watchdog of a core that has sealed does nothing. -/
theorem test_switching_core : (let z := { updating with act := some { core := 0, folio := 0, stage := 4 }, actHdr := some hdr }
    gives (.loadImage hdr 0x8000 64) booting (complete booting hdr 0x11 8) && coreSwitching z 0 && !schedAway z && !degraded z &&
    gives (.updateStage hdr 0x8000 64) z (hold z hdr (.stage 0x8000 64)) && gives (.updateActivate hdr 2 0) z (hold z hdr (.activate 2 0)) &&
    z.rings.held.all (fun x => !x.op.ofSecurity) &&
    gives (.schedulerWatchdog true) (act 3) (act 3) &&
    (let w := { act 3 with act := some { core := 1, folio := 0, stage := 3 } }
     gives (.powerWatchdog true) w w && watchSuspended w 1 0) &&
    (let w := { act 3 with act := some { core := 0, folio := 0, stage := 3 } }
     gives .securityWatchdog w w && watchSuspended w 0 0) &&
    (let w := { act 4 with act := some { core := 0, folio := 0, stage := 4 } }
     ans .securityWatchdog w (fun t => t.act == none && alive t)) &&
    (let w := { act 4 with act := some { core := 1, folio := 0, stage := 4 } }
     ans (.powerWatchdog true) w (fun t => t.act == none && !t.power.dead))) = true := by decide +kernel

/-- A scheduler core that is stopped takes no descriptor, and a PCIe domain that drains fetches none. -/
theorem test_scheduler_away : (let d := { claimed with boot.schedDown := true }
    let p := withDom posted 128 { state := 3 }
    schedAway d && gives (.jobEnd hdr) d d && gives (.descriptorFetch true) { posted with boot.schedDown := true } { posted with boot.schedDown := true } &&
    gives (.descriptorFetch true) p p &&
    (let s := { running with glob.jobState := 3, frame.live := false, frame.region := false, boot.schedDown := true }
     ans .frameTick s (fun t => t.frame == freshFrame s (tickNumber s) && t.glob.jobState == 3))) = true := by decide +kernel

/-- A replica table with a line that does not correct. -/
theorem test_job_start_reads : (readsBad starting (replicaReads starting) == none &&
    (let s := { starting with colo.interval := 10, colo.group := 0x40000, mem.bad := [0x1000] }
     readsBad s (replicaReads s) == some 0x1000 &&
     ans (.jobStart hdr 0x6000 200000) s (fun t => t.glob.jobState == 2 && rd (hostPeek t 0x1000 32) 1 1 == 0x0B))) = true := by decide +kernel

/-- A PAUSE of a paused job at its own step is met. -/
theorem test_pause_paused : (gives (.jobPause hdr 20) paused (complete paused hdr 0 0) && paused.job.step == 20) = true := by decide +kernel

/-- A session whose memory holds a mask record over an empty tile, as its MASK_OP runs it. -/
def masking : State :=
  { claimed with mem.cells := mem (maskRec 1 ++ [(0x8000, emptyTile)]), rings.held := [⟨hdr, .maskOp 0x200, false⟩] }

/-- A mask operation without reads of others does its work. -/
def maskWorks (r : MaskRec) : Bool :=
  match fetchMask (noteReads masking (maskRecReads masking 0x200)) { tag := 0, dst := 0, idx := 0x200, cls := 1 } r with
  | (_, some (t, none)) => ans (.maskOp hdr 0x200) { masking with rings.held := [] } (fun u => rd (hostPeek u 0x1000 32) 1 1 == 0 && u.mem == t.mem)
  | _ => false

theorem test_mask_op : (readsBad masking (maskRecReads masking 0x200) == none &&
    (match decodeMask (noteReads masking (maskRecReads masking 0x200)) 0x200 with
    | .ok r => maskWorks r
    | .error _ => false)) = true := by decide +kernel

/-! ### Further forms of the frame and its strokes -/

/-- What a stroke reads of another device and has not yet. -/
def unread (s : State) (idx : Nat) : State :=
  { s with fab.xfers := [{ tag := 1, dst := 7, cls := 1, reads := true, folio := some 0, idx := idx }] }

/-- A record whose data is still to come leaves its stroke as it is. -/
theorem test_records_wait : (let s := unread { issued 4 0x200 optimiser0 with glob.paramTable := 0x20000 } 0
    let m := unread (issued 8 0x200 (maskRec 1 ++ [(0x8000, emptyTile)])) 0
    (fetching s (strokeXfer 0 0)).length == 1 && ans (.optimiser 0 0 0) s (fun t => t.frame == s.frame && t.mem == s.mem) &&
    gives (.prune 0 0) m m) = true := by decide +kernel

/-- A gradient of 2.0 in a group without decay: the moments are 2.0 and 4.0, and a weight of 3.0 goes down by the rate of 0.5. -/
theorem test_optimiser_values : (let s := { issued 4 0x200 (optimiser0 ++ [(0x680, leBytes 4 0x40400000), (0x800, leBytes 4 0x40000000),
        (0x20040, leBytes 4 0x3F000000)]) with glob.paramTable := 0x20000 }
    (match (ctx0 s 4).run.dec with
      | .chain [.optimiser d] => rd d.b 64 8 == 1 && rd d.b 18 1 == 1 && !d.writeW && decide (d.base 1 + 4 ≤ d.base 2) &&
          decide (d.base 2 + 4 ≤ d.base 3) && (fetching s (strokeXfer 0 0)).isEmpty
      | _ => false) &&
    ans (.optimiser 0 0 0) s (fun t => peekN t 0x700 4 == 0x40000000 && peekN t 0x780 4 == 0x40800000 && peekN t 0x680 4 == 0x40200000)) = true := by
  decide +kernel

/-- An optimiser record of one Hatch tile that holds no tile. -/
def optimiser1 : List (Nat × List Byte) :=
  [(0x200, leBytes 16 3 ++ leBytes 2 2 ++ leBytes 2 0x101 ++ leBytes 4 0x3F800000 ++ leBytes 8 0x280 ++ leBytes 8 0x10000 ++ leBytes 8 0x14000 ++
      leBytes 8 0x18000 ++ leBytes 8 0x1C000 ++ leBytes 8 0 ++ leBytes 2 64), (0x280, tensor2 8 2 0xA000 64 64 1)]

theorem test_record_fails : (let s := { issued 4 0x200 optimiser1 with glob.paramTable := 0x20000 }
    match (ctx0 s 4).run.dec with
    | .chain [.optimiser d] => (match runOptimiser s (ctx0 s 4) d with
        | (t, some (some b)) => gives (.optimiser 0 0 0) s (failStroke t 0 0 b) && b.code == 3
        | _ => false)
    | _ => false) = true := by decide +kernel

/-- An overrun on a slot, an LPDDR6 slot out of its turn, and a slot that is set and cleared in one cycle. -/
theorem test_frame_forms : (let s := { issued 2 0 [] with frame.exceeded := true, frame.waitSlot := some (0, 0, 3) }
    let c := { doneRun (issued 2 0 []) 0 0 with frame.seen := [3], frame.setNow := [3] }
    ans .frameOverrun s (fun t => t.flt.region.map (fun x => (x.code, x.addr)) == [(2, slotAddr 3), (1, 0)] && t.flt.seq == 2) &&
    gives (.lpRefreshSlot 112 []) { running with frame.cycle := 3120 } { running with frame.cycle := 3120 } &&
    ans (.stackRefreshSlot 48 [] []) { running with frame.cycle := 3120 } (fun t => t.frame.stkLeft == 48) && c.frame.region &&
    ans (.strokeComplete 0 0) c (fun t => t.mem.full == [3, 4]) &&
    (let a := { c with frame.aborted := true }; gives (.strokeComplete 0 0) a a)) = true := by decide +kernel

/-- A checkpoint boundary that is due belongs to the seam of the step's end. -/
theorem test_seam_boundary : (let s := { running with train.ckptBoundary := true }
    stepEnds s && ans .seamStart s (fun t => t.train.atCkpt && !t.train.ckptBoundary)) = true := by decide +kernel

/-- A Colophon step that a rollback begins has no digest yet. -/
theorem test_colophon_restart : (let s := { member with train.restart := some 12, train.restartStep := 18, train.sentReady := true, colo.interval := 9,
                                                          colo.digest := 0x1000, mem.cells := mem [(0x1000, leBytes 32 7)] }
    !s.train.remirror && s.train.retake == none && ans .restartFrame s (fun t => t.job.step == 18 && peek t 0x1000 32 == leBytes 32 0)) = true := by
  decide +kernel

/-- A PAUSE of a rollback undoes no step. -/
theorem test_pause_undoes_nothing : (let s := { member with experts.past := [(18, [1, 2])] }
    s.train.writing == none && ans (.rollbackPauseReceive 7 (msg 2 0 32 0 1 30)) s (fun t => t.glob.jobState == 5 && t.experts.past == s.experts.past)) = true := by
  decide +kernel

/-- The first free spare of the list, and the messages to the job. -/
theorem test_takeover_messages : (let s := { running with job.blk.spares := [5, 9, 11] }
    freeSpare { s with job.lost := [7] } == some 9 && coordinator s == 5 &&
    ans (.deviceLostReceive 7 (msg 5 0 0 20 0 12)) s (fun t => t.train.incident == some (20, 15) && t.train.seq == 1)) = true := by
  decide +kernel

/-! ### Signatures (GB/T 32918) -/

/-- The public key of the worked example of GM/T 0003.5. The signatures below are made with its private key by an
implementation of its own, which gives the signature of that example. -/
def exampleKey : List Byte :=
  beBytes 32 0x09F9DF311E5421A150DD7D161E4BC5C672179FAD1833FC076BB08FF356F35020 ++
  beBytes 32 0xCCEA490CE26775A52DC6EA718CC1AA600AED05FBF35E084A6632F6072DA9AD13

/-- An image of the security core with a body of 64 zero bytes, signed with that private key. -/
def signedImage : List Byte :=
  leBytes 4 0x4C414E45 ++ leBytes 16 1 ++ leBytes 44 64 ++ beBytes 32 0x46b58571be41685c253194d20ec7f82b659cc8c6b753f26d4e9ec85bc91c231e ++
  beBytes 32 0x3d92bed6d685f38bff5ccd052119e1ecc071c2f3d915245c8d9c5a2cb131a89d ++ leBytes 256 0 ++
  beBytes 32 0x70f221d78ce1c85fe8bc09ddf7caac8567267b06211363abdbfe7fd213577985 ++
  beBytes 32 0x2902be45de25e30901cff3c541a9d84fa981ba2c8c6671b58bd62f7b6c610e47 ++ leBytes 128 0

/-- A part whose owner has that key. -/
def owned (s : State) : State := { s with boot.ownerKey := exampleKey, hostMem := writeBytes [] 0x8000 signedImage }

/-- A signature whose two multiples of points are known verifies when what is left of the check holds. -/
theorem sm2Verify_of (key msg sig : List Byte) (s t : Nat) (q r : Point) (hs : beNat ((sig.drop 32).take 32) = s)
    (ht : (beNat (sig.take 32) + s) % sm2N = t) (hq : ptMul 256 s (some sm2G) = q) (hr : ptMul 256 t (some (keyPoint key)) = r)
    (h : (decide (1 ≤ beNat (sig.take 32)) && decide (beNat (sig.take 32) < sm2N) && decide (1 ≤ s) && decide (s < sm2N) &&
      decide (t ≠ 0) && onCurve (keyPoint key) &&
      (match ptAdd q r with
        | some (x, _) => (sm2E key msg + x) % sm2N == beNat (sig.take 32)
        | none => false)) = true) : sm2Verify key msg sig = true := by
  subst hs ht hq hr
  exact h

theorem test_multiple_of_base : (ptMul 256 0x2902be45de25e30901cff3c541a9d84fa981ba2c8c6671b58bd62f7b6c610e47 (some sm2G) ==
    some (0xe42455353d81b5c967572779ddd1adc82e611dd65b116d50892e6fb7ee506008,
      0x83ae7b9c395e7bdb89369bc5804ffa456078badc8cc5cb26b8c4ca128c69dd70)) = true := by decide +kernel

theorem test_multiple_of_key : (ptMul 256 0x99f4e01d6b07ab68ea8bfda3397484d510a83532ad79d56167d4af4d7fb887cc (some (keyPoint exampleKey)) ==
    some (0x92f0915c44bc286b24c8262b87cbf26ff2001b4756a4fa586536a9b2c861f9e2,
      0x5b7ce97c9ecbf5459b292645022647ebba6e4f3111c8bd25a05e09f325966963)) = true := by decide +kernel

theorem test_image_signature : sm2Verify exampleKey (signedImage.take 384) (slice signedImage 384 64) = true :=
  sm2Verify_of _ _ _ _ _ _ _ (by decide +kernel) (by decide +kernel) (eq_of_beq test_multiple_of_base)
    (eq_of_beq test_multiple_of_key) (by decide +kernel)

/-- An image whose signer is known and whose signature verifies passes when the other checks do. -/
theorem checkImage_signed (s : State) (i : Image) (n : Nat) (cold : Bool) (k : List Byte) (hk : signer s i = some k)
    (hv : sm2Verify k (i.take 384) (slice i 384 64) = true)
    (h : (!(imgF i 0 4 ≠ 0x4C414E45 || imgF i 4 2 ≠ 1 || !zeros i 7 1 || !zeros i 34 6 || !zeros i 56 8 || !zeros i 128 256 ||
        !zeros i 448 64) &&
      !(3 < imgCore i || imgF i 20 4 % 64 ≠ 0 || bodyLimit (imgCore i) < imgF i 20 4 || imgF i 20 4 ≤ imgF i 24 4 ||
        n ≠ 512 + imgF i 20 4 || imgF i 32 2 < imgF i 30 2) &&
      !(cold && s.boot.held.any (fun x => imgMajor x.2 ≠ imgMajor i)) && sm3 (i.drop 512) == slice i 64 32 &&
      !(imgSvn i < (s.boot.floors[imgCore i]?).getD 0)) = true) : checkImage s i n cold = none := by
  simp only [Bool.and_eq_true, Bool.not_eq_true', beq_iff_eq, decide_eq_false_iff_not] at h
  simp only [checkImage, h, hk, hv]
  simp

theorem test_image_in_host_memory : (hostPeek (owned booting) 0x8000 576 == signedImage) = true := by decide +kernel

theorem test_rom_image : checkImage (owned booting) (hostPeek (owned booting) 0x8000 576) 576 true = none := by
  rw [eq_of_beq test_image_in_host_memory]
  exact checkImage_signed _ _ _ _ exampleKey (by decide +kernel) test_image_signature (by decide +kernel)

/-- What one state says of an image without the check of cold starts, another that holds no image says of it with that check. -/
theorem checkImage_warm (s t : State) (i : Image) (n : Nat) (ho : t.boot.ownerKey = s.boot.ownerKey)
    (hr : t.boot.rootAllowed = s.boot.rootAllowed) (hf : t.boot.floors = s.boot.floors) (hh : s.boot.held = []) :
    checkImage t i n false = checkImage s i n true := by
  simp [checkImage, signer, ho, hr, hf, hh]

/-- The same image may be staged. -/
theorem test_update_image : checkImage (owned claimed) (hostPeek (owned claimed) 0x8000 576) 576 false = none := by
  rw [checkImage_warm (owned booting) (owned claimed) _ _ rfl rfl rfl rfl]
  exact test_rom_image

/-- REPLACE_OWNER for device 5, with a challenge and a signature of the owner's. -/
def replaceReq : List Byte :=
  leBytes 8 9 ++ leBytes 56 1 ++ leBytes 64 3 ++ beBytes 32 0xd41ff96957a5855f6d203e4ddcfd41d41428cc32b16ae508e745c15a96734081 ++
  beBytes 32 0x57e74e62e3b794c7f8c85832248eb46b6d590f2feb83fe77b07dda6e31f9c736 ++ List.replicate 3904 0

/-- The owned part with a challenge. -/
def challenged : State := { owned claimed with mb.challenge := some (leBytes 32 77) }

theorem test_second_multiple_of_base : (ptMul 256 0x57e74e62e3b794c7f8c85832248eb46b6d590f2feb83fe77b07dda6e31f9c736 (some sm2G) ==
    some (0xf6876d04daf35c3e39f54316104c955e92e8b4c9cad7739a7028a7f0a39bcbff,
      0x85438d943157714adaf9ffc9948363df066e2c583dd7fac0382b1ec7551f502b)) = true := by decide +kernel

theorem test_second_multiple_of_key : (ptMul 256 0x2c0747cd3b5d1a2765e89680018bf6400f7dfbf77b28de554407a7bf8e97c694 (some (keyPoint exampleKey)) ==
    some (0x221c3bab16058a7e3358128b1d4b196d2df74eb527e03d0cca4ca93fc3546e5,
      0x104e58fe9e89637fb989cd3d2686d87058ac54db2431dde09743528675fa5b57)) = true := by decide +kernel

/-- The hypotheses of a replacement of the owner. -/
theorem test_replace_owner : (!mbRefused challenged && replaceReq.length == 4096 && rd replaceReq 0 8 == challenged.job.session &&
    challenged.glob.jobState == 2 && decide (rd replaceReq 8 1 < 2) && zeros replaceReq 9 55 && challenged.boot.ownerKey != [] &&
    (slice replaceReq 64 64).any (fun b => b != 0)) = true := by decide +kernel

theorem test_replace_owner_signature :
    sm2Verify challenged.boot.ownerKey (replaceMessage challenged (leBytes 32 77) replaceReq) (slice replaceReq 128 64) = true :=
  sm2Verify_of _ _ _ _ _ _ _ (by decide +kernel) (by decide +kernel) (eq_of_beq test_second_multiple_of_base)
    (eq_of_beq test_second_multiple_of_key) (by decide +kernel)

/-! ### Ill-formed commands are refused -/

/-- Each of these breaks one check of WellFormed.lean. -/
def illFormed : List Instr :=
  [.coldStart 2 0 0 true none, .coldStart 0 2 0 true none, .coldStart 0 0 4 true none, .pcieLinkTrained 0 1 { flit := false }, .pcieLinkTrained 7 1 { flit := false },
   .pcieLinkTrained 1 12 { flit := false }, .pcieLinkTrained 6 16 { flit := false }, .refclkSdLoss 2, .thermtrip 4 0, .loadImage { hdr with sq := 16 } 0 0, .loadImage { hdr with flags := 256 } 0 0,
   .loadImage { hdr with tag := 2 ^ 32 } 0 0, .loadImage { hdr with owner := 2 ^ 64 } 0 0, .loadImage hdr (2 ^ 64) 0, .coreReady 71 true,
   .clusterStartTimeout 68, .chainBootHelloReceive 96 [], .chainBootData 0 (2 ^ 24) [], .queuedRecordFlush 4, .claim hdr 65536 0 0,
   .paramWrite hdr { param0 with group := 65536 }, .openWindow hdr 0 [], .windowCloseDone 256, .sqTailDoorbell 16 0 [], .cqHeadDoorbell 4 0,
   .ringEnable (.sq 16), .ringDisable (.cq 4), .registerWrite .bar0 0x4000000 4 0, .registerWrite .bar0 0 4097 0, .rcRegisterRead 0 4097,
   .bar4Write (2 ^ 36) [], .supvVoteSet 3 0, .linkDisable 96, .ethModeWrite 2 0, .i3cDynamicAddress 128,
   .i3cVoteSet (2 ^ 136), .i3cRailWrite 16 0, .strokeComplete 64 0, .stackRefreshSlot 49 [] [], .lpRefreshSlot 113 [], .countCellSend 0 0 1024,
   .copy (.stroke 64 0), .copy (.firmware (2 ^ 48)), .moveComplete 0 16, .landCellSend 65536, .flitReceive 0 5 [] [], .nakReceive 0 4096,
   .capabilityPageReceive 0 [], .busyResend 0 (2 ^ 48), .syncReceive 0 [] 0 0, .arpRequest 0 (2 ^ 32), .rollbackReceive (2 ^ 24) (msg 2 0 0 0 0 0),
   .readyReceive 0 (msg 256 0 0 0 0 0), .colophonReceive 0 [], .folioInternalFault 0 256, .handoffSeal (List.replicate 16257 0), .handoffReject 0,
   .vaultRetrain 256, .lpChannelRetrain 32, .wakeComplete 132, .emergencyLevelClear 3,
   .sparseTileLoad { folio := 0, idx := 0, quill := 8, nib := none, addr := 0, form := 1, fmt := 1, colMajor := false, budget := none }]

theorem test_ill_formed : (illFormed.all (fun c => !c.wf && match exec c up with | .fault _ => true | _ => false)) = true := by decide +kernel

end Sys2Proof.Tests.Slice0
end

-- The proofs of the family of chapter 0: time on an empty queue, the set-up registers, the register mirror.
section
/-! SUPPORT. The idle step, the set-up registers and the register mirror: what each does, and what it leaves alone. -/

namespace Sys2Proof.Machine

open Sys2Proof

/-! ### Time on an empty queue -/

/-- The time after `u` units with its residue: nothing of what has passed is lost but for the wrap of the counter. -/
theorem elapse_total (s : State) (u : Nat) :
    (elapse s u).time.now * 10 ^ 12 + (elapse s u).time.res =
      (s.time.now * 10 ^ 12 + (((u : Int) * ((10 ^ 12 : Int) + s.time.trim)).toNat + s.time.res)) % (2 ^ 48 * unitsPerSec * 10 ^ 12) := by
  have carry (n k W : Nat) : (n + k / 10 ^ 12) % W * 10 ^ 12 + k % 10 ^ 12 = (n * 10 ^ 12 + k) % (W * 10 ^ 12) := by
    rw [Nat.mul_comm W, Nat.mod_mul, Nat.mul_add_mod_self_right,
      show (n * 10 ^ 12 + k) / 10 ^ 12 = n + k / 10 ^ 12 by omega]
    ring
  exact carry _ _ _

theorem elapse_res_lt (s : State) (u : Nat) : (elapse s u).time.res < 10 ^ 12 := Nat.mod_lt _ (by decide)

/-- Settles O2: the quotient of the adjusted period goes to the time and its remainder to the residue. -/
theorem idleStepAdvancesTimeOnly : Obligations.IdleStepAdvancesTimeOnly := by
  unfold Obligations.IdleStepAdvancesTimeOnly
  intro s hq _ _
  have hstep : step s = .next (idle s) := by simp [step, hq]
  refine ⟨fun hstop => ?_, fun hrun => ⟨opTick s, ?_, rfl, elapse_res_lt s _, ?_⟩⟩
  · simp only [hstep, idle, hstop, if_true]
  · simp [hstep, idle, hrun]
  · rw [Nat.add_assoc]
    exact elapse_total s (40 * 65536)

/-! ### Byte strings and tables -/

/-- A little-endian number fits its bytes. -/
theorem leNat_lt (bs : List Byte) : leNat bs < 256 ^ bs.length := by
  induction bs with
  | nil => decide
  | cons b r ih =>
    have hb : b.toNat < 256 := b.isLt
    rw [leNat, List.length_cons, Nat.pow_succ]
    omega

/-- A field of `n` bytes fits `n` bytes. -/
theorem rd_lt (bs : List Byte) (off n : Nat) : rd bs off n < 256 ^ n :=
  (leNat_lt _).trans_le (Nat.pow_le_pow_right (by decide) (List.length_take_le ..))

/-- The first byte of a record is the number that it was built from. -/
theorem rd_leBytes_one (v : Nat) (bs : List Byte) : rd (leBytes 1 v ++ bs) 0 1 = v % 256 := by
  simp [rd, leBytes, leNat]

/-- An entry put and taken away again leaves no trace. -/
@[simp] theorem tdel_tput_self {α : Type} (t : Tbl α) (k : Nat) (v : α) : tdel (tput t k v) k = tdel t k := by
  induction t with
  | nil => simp [tput, tdel]
  | cons x r ih =>
    obtain ⟨j, w⟩ := x
    by_cases hlt : k < j
    · simp [tput, tdel, hlt]
    · by_cases heq : k = j
      · simp [tput, tdel, heq]
      · have hne : j ≠ k := fun h => heq h.symm
        simp [tput, tdel, hlt, heq, hne, ih]

/-! ### Register accesses -/

/-- REGISTER_WRITE of at most 64 bits on a live part. -/
theorem exec_registerWrite (s : State) (path : Path) (off size v : Nat) (ha : alive s = true) (hoff : off < 0x4000000)
    (hsize : size ≤ 4096) (hv : v < 2 ^ 64) :
    exec (.registerWrite path off size v) s = .next (regWrite s path off size v) := by
  refine whenAlive_next _ _ _ ?_ ha
  have hfit : v < 256 ^ max 8 size := hv.trans_le (Nat.pow_le_pow_right (n := 256) (by decide) (Nat.le_max_left 8 size))
  simp [Instr.wf, fits, hoff, hsize, hfit]

/-- RC_REGISTER_READ. -/
theorem exec_rcRegisterRead (s : State) (off size : Nat) (hoff : off < 0x4000000) (hsize : size ≤ 4096) :
    exec (.rcRegisterRead off size) s = .next (barRead s off size) :=
  always_next _ _ (by simp [Instr.wf, hoff, hsize])

/-- A read of a running part that the fault state does not hide is the register read. -/
theorem barRead_shown (s : State) (off size : Nat) (hreset : s.pins.sysReset = false) (hclk : s.pins.clocksStopped = false)
    (hshown : s.glob.faultState = false ∨ off < 0x10000 ∨ (0x50000 ≤ off ∧ off < 0x60000)) :
    barRead s off size = { (regRead s off size).2 with out.readData := (regRead s off size).1 } := by
  have hpage : (s.glob.faultState && !(off < 0x10000 || (0x50000 ≤ off && off < 0x60000))) = false := by
    rcases hshown with h | h | h <;> simp [h]
  simp only [barRead, hreset, hclk, Bool.or_self, Bool.false_eq_true, if_false, hpage]

/-- In the fault state every page but GLOBAL and FAULT reads as zero (R305). -/
theorem barRead_hidden (s : State) (off size : Nat) (hreset : s.pins.sysReset = false) (hclk : s.pins.clocksStopped = false)
    (hfault : s.glob.faultState = true) (hlow : 0x10000 ≤ off) (hpage : off < 0x50000 ∨ 0x60000 ≤ off) :
    barRead s off size = { s with out.readData := 0 } := by
  have hhid : (s.glob.faultState && !(off < 0x10000 || (0x50000 ≤ off && off < 0x60000))) = true := by
    simp [hfault, hlow]; omega
  simp only [barRead, hreset, hclk, Bool.or_self, Bool.false_eq_true, if_false, hhid, if_true]

/-- A supported read of a slot from its lower end latches, gives the low bits of the value, and clears (R7). -/
theorem regRead_low (s : State) (a size : Nat) (hacc : regAccess a size = true) (hslot : a % 8 = 0) (hdb : inDoorbells a = false) :
    regRead s a size = (regValue (regLatch s a) a % 2 ^ (8 * size), regClear (regLatch s a) a) := by
  simp [regRead, hacc, hdb, hslot, fld]

/-- A write that is no doorbell, no MSI-X entry and not locked is the write of its register (R397, R398). -/
theorem regWrite_accepted (s : State) (path : Path) (k : RegKind) (off size v : Nat) (hacc : regAccess off size = true)
    (hdb : inDoorbells off = false) (hmsix : msixSlot (off - off % 8) = false) (hk : regKind (off - off % 8) = some k)
    (hpath : path = .bar0 ∨ off - off % 8 ≠ 0x20) (hrun : k.run = true ∨ jobExists s = false) :
    regWrite s path off size v = halfWrite s k off size v := by
  have hgate : (path = .mirror && off - off % 8 = 0x20) = false := by
    rcases hpath with h | h <;> simp [h]
  have hlock : (jobExists s && !k.run) = false := by
    rcases hrun with h | h <;> simp [h]
  simp [regWrite, hacc, hdb, hmsix, hk, hgate, hlock]

/-! ### Wide registers (R9) -/

/-- The lower half waits. -/
theorem halfWrite_lower (s : State) (k : RegKind) (a v : Nat) (hwide : k.wide = true) (hslot : a % 8 = 0) :
    halfWrite s k a 4 v = { s with glob.halves := tput s.glob.halves a (v % 2 ^ 32) } := by
  simp [halfWrite, hwide, hslot]

/-- The whole register. -/
theorem halfWrite_whole (s : State) (k : RegKind) (a v : Nat) (hwide : k.wide = true) (hslot : a % 8 = 0) :
    halfWrite s k a 8 v = regStore { s with glob.halves := tdel s.glob.halves a } a (v % 2 ^ 64) := by
  simp [halfWrite, hwide, hslot]

/-- The upper half with what waits for it. -/
theorem halfWrite_upper (s : State) (k : RegKind) (a v : Nat) (hwide : k.wide = true) (hslot : a % 8 = 0) :
    halfWrite s k (a + 4) 4 v = regStore { s with glob.halves := tdel s.glob.halves a } a
      (2 ^ 32 * (v % 2 ^ 32) + tget s.glob.halves a (lowerRest s a)) := by
  have hrem : (a + 4) % 8 = 4 := by omega
  simp [halfWrite, hwide, hrem]

/-- The two halves, one after the other, are one write of the whole register. -/
theorem halfWrite_halves (s : State) (k : RegKind) (a lo hi : Nat) (hwide : k.wide = true) (hslot : a % 8 = 0)
    (hlo : lo < 2 ^ 32) :
    halfWrite (halfWrite s k a 4 lo) k (a + 4) 4 hi = halfWrite s k a 8 (lo + 2 ^ 32 * hi) := by
  have hval : 2 ^ 32 * (hi % 2 ^ 32) + lo % 2 ^ 32 = (lo + 2 ^ 32 * hi) % 2 ^ 64 := by omega
  rw [halfWrite_upper _ k a hi hwide hslot, halfWrite_lower s k a lo hwide hslot, halfWrite_whole s k a _ hwide hslot]
  simp only [tdel_tput_self, tget_tput_self, hval]

/-- Settles O19: the upper half finds the lower one in `halves` and leaves none there, as one write of 64 bits does. -/
theorem wideRegisterIsWrittenByHalves : Obligations.WideRegisterIsWrittenByHalves := by
  unfold Obligations.WideRegisterIsWrittenByHalves
  intro s k a lo hi ha hoff hslot hk hwide hdb hmsix hrun hlo hhi
  have hbase : a - a % 8 = a := by omega
  have hupper : a + 4 - (a + 4) % 8 = a := by omega
  have hdb4 : inDoorbells (a + 4) = false := by
    simp [inDoorbells] at hdb ⊢; omega
  have hacc (size : Nat) (h : size = 4 ∨ size = 8) : regAccess a size = true := by
    rcases h with rfl | rfl <;> simp [regAccess] <;> omega
  have hacc4 : regAccess (a + 4) 4 = true := by simp [regAccess]; omega
  have write (size v : Nat) (h : size = 4 ∨ size = 8) (hv : v < 2 ^ 64) :
      exec (.registerWrite .bar0 a size v) s = .next (halfWrite s k a size v) := by
    rw [exec_registerWrite s .bar0 a size v ha hoff (by omega) hv,
      regWrite_accepted s .bar0 k a size v (hacc size h) hdb (by rwa [hbase]) (by rwa [hbase]) (.inl rfl) hrun]
  have hlow := halfWrite_lower s k a lo hwide hslot
  have haliveU : alive (halfWrite s k a 4 lo) = true := by rw [hlow]; exact ha
  have hrunU : k.run = true ∨ jobExists (halfWrite s k a 4 lo) = false := by rw [hlow]; exact hrun
  obtain ⟨⟨hreset, hclk⟩, hfault⟩ : (s.pins.sysReset = false ∧ s.pins.clocksStopped = false) ∧ s.glob.faultState = false := by
    simpa [alive] using ha
  refine ⟨halfWrite s k a 4 lo, write 4 lo (.inl rfl) (by omega), by rw [hlow], ?_, barRead s a 8, ?_, ?_⟩
  · rw [exec_registerWrite _ .bar0 (a + 4) 4 hi haliveU (by omega) (by decide) (by omega),
      regWrite_accepted _ .bar0 k (a + 4) 4 hi hacc4 hdb4 (by rwa [hupper]) (by rwa [hupper]) (.inl rfl) hrunU,
      halfWrite_halves s k a lo hi hwide hslot hlo, write 8 _ (.inr rfl) (by omega)]
  · exact exec_rcRegisterRead s a 8 hoff (by decide)
  · rw [barRead_shown s a 8 hreset hclk (.inl hfault), regRead_low s a 8 (hacc 8 (.inr rfl)) hslot hdb]

/-! ### Registers by their addresses (Tables 17.2 and 17.8) -/

@[simp] theorem regValue_deviceId (s : State) : regValue s 0x10 = s.glob.deviceId := rfl
@[simp] theorem regValue_faultSuppressed (s : State) : regValue s 0x50008 = s.flt.suppressed := rfl
@[simp] theorem regValue_faultLast (s : State) : regValue s 0x50040 = rd s.flt.latch 0 8 := rfl
theorem regKind_bcast0 : regKind 0x68 = some ⟨true, true⟩ := rfl
@[simp] theorem regStore_bcast0 (s : State) (v : Nat) : regStore s 0x68 v = { s with glob.bcast0 := v % 2 ^ 64 } := rfl

/-- The lower set of broadcast ports written whole. -/
theorem regWrite_bcast0 (s : State) (v : Nat) (hv : v < 2 ^ 64) :
    regWrite s .mirror 0x68 8 v = { s with glob.halves := tdel s.glob.halves 0x68, glob.bcast0 := v } := by
  rw [regWrite_accepted s .mirror ⟨true, true⟩ 0x68 8 v rfl rfl rfl regKind_bcast0 (.inr (by decide)) (.inl rfl),
    halfWrite_whole s _ 0x68 v rfl rfl, regStore_bcast0, Nat.mod_mod, Nat.mod_eq_of_lt hv]

/-- R7, R305, R413: the reads of O20. -/
theorem registerReadsGiveTheirValue : Claim.RegisterReadsGiveTheirValue := by
  unfold Claim.RegisterReadsGiveTheirValue
  intro s off size hreset hclk
  refine ⟨?_, ?_, ?_, fun hfault hpage hsize => ?_⟩
  · rw [exec_rcRegisterRead s 0x10 4 (by decide) (by decide), barRead_shown s 0x10 4 hreset hclk (.inr (.inl (by decide))),
      regRead_low s 0x10 4 rfl rfl rfl]
    rfl
  · rw [exec_rcRegisterRead s 0x50008 4 (by decide) (by decide),
      barRead_shown s 0x50008 4 hreset hclk (.inr (.inr (by decide))), regRead_low s 0x50008 4 rfl rfl rfl]
    rfl
  · have hexec : exec .faultLastRead s = .next (barRead s 0x50040 8) := always_next .faultLastRead _ rfl
    have hfit : rd s.flt.last 0 8 % 2 ^ (8 * 8) = rd s.flt.last 0 8 := Nat.mod_eq_of_lt (rd_lt s.flt.last 0 8)
    have hlatch : regLatch s 0x50040 = { s with flt.latch := s.flt.last } := rfl
    rw [hexec, barRead_shown s 0x50040 8 hreset hclk (.inr (.inr (by decide))), regRead_low s 0x50040 8 rfl rfl rfl,
      regValue_faultLast, hlatch, hfit]
    rfl
  · rw [exec_rcRegisterRead s off size (by omega) hsize, barRead_hidden s off size hreset hclk hfault (by omega) (by omega)]

/-! ### What answers and records leave alone -/

/-- `t` differs from `s` only in what waits at the ports or in the fabric, and in the counters. -/
def WireOnly (s t : State) : Prop := ∃ ports fab cnt, t = { s with ports := ports, fab := fab, cnt := cnt }

/-- `t` differs from `s` only in that, and in what is written or raised at the ring host. -/
def ReportOnly (s t : State) : Prop :=
  ∃ hostMem out pcie rings ports fab cnt,
    t = { s with hostMem := hostMem, out := out, pcie := pcie, rings := rings, ports := ports, fab := fab, cnt := cnt }

theorem WireOnly.refl (s : State) : WireOnly s s := ⟨_, _, _, rfl⟩

theorem WireOnly.trans {s t u : State} (h : WireOnly s t) (g : WireOnly t u) : WireOnly s u := by
  obtain ⟨_, _, _, rfl⟩ := h
  obtain ⟨_, _, _, rfl⟩ := g
  exact ⟨_, _, _, rfl⟩

theorem WireOnly.report {s t : State} (h : WireOnly s t) : ReportOnly s t := by
  obtain ⟨_, _, _, rfl⟩ := h
  exact ⟨_, _, _, _, _, _, _, rfl⟩

theorem ReportOnly.refl (s : State) : ReportOnly s s := (WireOnly.refl s).report

theorem ReportOnly.trans {s t u : State} (h : ReportOnly s t) (g : ReportOnly t u) : ReportOnly s u := by
  obtain ⟨_, _, _, _, _, _, _, rfl⟩ := h
  obtain ⟨_, _, _, _, _, _, _, rfl⟩ := g
  exact ⟨_, _, _, _, _, _, _, rfl⟩

/-- A fold of steps each of which only reports. -/
theorem ReportOnly.foldl {α : Type} (f : State → α → State) (hf : ∀ u x, ReportOnly u (f u x)) (l : List α) (s : State) :
    ReportOnly s (l.foldl f s) :=
  List.foldlRecOn l f (ReportOnly.refl s) (fun t ht x _ => ht.trans (hf t x))

theorem devEvent_wireOnly (s : State) (code n : Nat) : WireOnly s (devEvent s code n) := ⟨_, _, _, rfl⟩

theorem takeIn_wireOnly (s : State) (p : Nat) (pkt : Packet) : WireOnly s (takeIn s p pkt) := by
  unfold takeIn
  split
  · exact ⟨_, _, _, rfl⟩
  · exact ⟨_, _, _, rfl⟩

theorem enqueue_wireOnly (s : State) (p req : Nat) (pkt : Packet) : WireOnly s (enqueue s p req pkt) := ⟨_, _, _, rfl⟩

theorem sendPacket_wireOnly (s : State) (req : Nat) (pkt : Packet) : WireOnly s (sendPacket s req pkt).1 := by
  unfold sendPacket
  split
  · exact .refl s
  · split
    · exact List.foldlRecOn (bcastPorts s) _ (WireOnly.refl s) (fun t ht p _ => ht.trans (enqueue_wireOnly t p req pkt))
    · split
      · exact .refl s
      · exact ⟨_, _, _, rfl⟩
      · exact enqueue_wireOnly s _ req pkt

theorem respond_wireOnly (s : State) (p : Nat) (pkt : Packet) (status : Nat) (data : List Byte) :
    WireOnly s (respond s p pkt status data) := by
  have sent := sendPacket_wireOnly s 1 (response s pkt status data)
  unfold respond
  split
  · exact devEvent_wireOnly s _ _
  · dsimp only
    split
    · split
      · exact enqueue_wireOnly s p 1 _
      · exact devEvent_wireOnly s _ _
    · split
      · exact sent
      · exact sent.trans (devEvent_wireOnly _ _ _)

theorem acknowledge_wireOnly (s : State) (p : Nat) (pkt : Packet) : WireOnly s (acknowledge s p pkt) := by
  unfold acknowledge
  split
  · exact respond_wireOnly s p pkt 0 []
  · exact .refl s

theorem hostPoke_reportOnly (s : State) (a : Nat) (bs : List Byte) : ReportOnly s (hostPoke s a bs) :=
  ⟨_, _, _, _, _, _, _, rfl⟩

theorem hostSend_reportOnly (s : State) (a : Nat) (bs : List Byte) : ReportOnly s (hostSend s a bs) := by
  unfold hostSend
  split
  · refine (hostPoke_reportOnly s a bs).trans (ReportOnly.foldl _ (fun u x => ?_) _ _)
    exact (sendPacket_wireOnly u 1 _).report
  · split
    · exact hostPoke_reportOnly s a bs
    · exact .refl s

theorem raiseVector_reportOnly (s : State) (v : Nat) : ReportOnly s (raiseVector s v) := by
  unfold raiseVector
  split
  · exact hostSend_reportOnly s _ _
  · split
    · exact .refl s
    · split
      · exact ⟨_, _, _, _, _, _, _, rfl⟩
      · exact ⟨_, _, _, _, _, _, _, rfl⟩

theorem sendRecord_reportOnly (ring no : Nat) (waits : Bool) (s : State) (x : Nat × List Byte) :
    ReportOnly s (sendRecord ring no waits s x) := by
  have tagged : ReportOnly s (newTag s).2 := ⟨_, _, _, _, _, _, _, rfl⟩
  have sent (pkt : Packet) :
      ReportOnly (newTag s).2 (if waits = true then ((newTag s).2, true) else sendPacket (newTag s).2 1 pkt).1 := by
    cases waits with
    | true => exact .refl _
    | false => exact (sendPacket_wireOnly _ 1 pkt).report
  exact (tagged.trans (sent _)).trans ⟨_, _, _, _, _, _, _, rfl⟩

theorem hostRecord_reportOnly (s : State) (ring : Nat) (body : List (Nat × List Byte)) (a : Nat) (head : List Byte)
    (vec : Option Nat) : ReportOnly s (hostRecord s ring body a head vec) := by
  unfold hostRecord
  split
  · exact ((ReportOnly.foldl _ (sendRecord_reportOnly ring _ false) _ s).trans
      (.foldl _ (sendRecord_reportOnly ring _ _) _ _)).trans ⟨_, _, _, _, _, _, _, rfl⟩
  · have written := (ReportOnly.foldl _ (fun (u : State) (b : Nat × List Byte) => hostPoke_reportOnly u b.1 b.2) body s).trans
      (hostPoke_reportOnly _ a head)
    cases vec with
    | none => exact written
    | some v => exact written.trans (raiseVector_reportOnly _ v)

theorem putFault_reportOnly (s : State) (r : FaultRec) (more : Bool) : ReportOnly s (putFault s r more) := by
  have ring (q : OutRing) : ReportOnly s { s with rings.fq := q } := ⟨_, _, _, _, _, _, _, rfl⟩
  unfold putFault
  dsimp only
  split
  · exact (ring _).trans (hostRecord_reportOnly _ _ _ _ _ _)
  · exact (ring _).trans (raiseVector_reportOnly _ _)

/-- A fault record raised takes the next number and is the last record; registers and memory stay as they are. -/
theorem raiseFault_frame (s : State) (r : FaultRec) :
    (raiseFault s r).glob = s.glob ∧ (raiseFault s r).mem = s.mem ∧
      (raiseFault s r).flt.seq = (s.flt.seq + 1) % 2 ^ 32 ∧ (raiseFault s r).flt.last = (stamp s r).bytes := by
  unfold raiseFault
  dsimp only
  split
  · exact ⟨rfl, rfl, rfl, rfl⟩
  · split
    · exact ⟨rfl, rfl, rfl, rfl⟩
    · obtain ⟨_, _, _, _, _, _, _, h⟩ := putFault_reportOnly
        { s with flt.seq := (s.flt.seq + 1) % 2 ^ 32, flt.last := (stamp s r).bytes } (stamp s r) false
      rw [h]
      exact ⟨rfl, rfl, rfl, rfl⟩

/-- The first byte of a record's 64 is its code. -/
theorem rd_bytes_code (r : FaultRec) : rd r.bytes 0 1 = r.code % 256 := by
  simp only [FaultRec.bytes, List.append_assoc, rd_leBytes_one]

/-! ### The register mirror (R300) -/

/-- A well-formed packet of BULK class on a device with an id comes to the gate, whatever the frame. -/
theorem opMirror_atGate (s : State) (p : Nat) (pkt : Packet) (hcls : pkt.cls = 1) (hresp : pkt.resp = false)
    (hform : pkt.malformed = false) (hid : s.glob.deviceId ≠ 0xFFFFFF) (hto : toMirror s pkt = true) :
    opMirror s p pkt =
      if gateAdmits s pkt.src then mirrorPass (takeIn s p pkt) p pkt else refusePacket (takeIn s p pkt) p pkt 0x09 := by
  obtain ⟨_, _, _, htake⟩ := takeIn_wireOnly s p pkt
  have hpre : preRefusal (takeIn s p pkt) pkt = none := by
    rw [htake]; simp [preRefusal, hform, hid]
  have hgate : gateAdmits (takeIn s p pkt) pkt.src = gateAdmits s pkt.src := by rw [htake]; rfl
  have hframe : checkFrame (takeIn s p pkt) pkt = .pass := by simp [checkFrame, hcls]
  simp [opMirror, hto, hresp, hpre, hframe, hgate]

/-- A WRITE past the gate is its register write. -/
theorem mirrorPass_write (s : State) (p : Nat) (pkt : Packet) (h : pkt.typ = 1) :
    mirrorPass s p pkt =
      acknowledge (regWrite s .mirror (pkt.addr - mirrorBase) pkt.length (leNat pkt.payload)) p pkt := if_pos h

/-- A READ past the gate is answered with the register read. -/
theorem mirrorPass_read (s : State) (p : Nat) (pkt : Packet) (h : pkt.typ = 2) :
    mirrorPass s p pkt =
      respond (regRead s (pkt.addr - mirrorBase) pkt.length).2 p pkt 0
        (leBytes pkt.length (regRead s (pkt.addr - mirrorBase) pkt.length).1) := if_neg (by omega)

/-- The record of a refusal with WINDOW_BOUNDS (R266). -/
def boundsRecord (p : Nat) (pkt : Packet) : FaultRec :=
  { code := 9, sev := 0, valid := 0x20, addr := pkt.addr, detail := pkt.src + pkt.window * 2 ^ 24 + pkt.length * 2 ^ 32,
    src := 5, key := p, die := laneDie p }

/-- A refusal with WINDOW_BOUNDS raises its record, and aborts nothing while no frame of a job runs. -/
theorem refusePacket_bounds (s : State) (p : Nat) (pkt : Packet) (hlive : s.frame.live = false) :
    refusePacket s p pkt 0x09 = respond (raiseFault s (boundsRecord p pkt)) p pkt 0x09 [] := by
  simp [refusePacket, hlive, boundsRecord]

/-- R300, R397: the gate of O20. -/
theorem mirrorPassesTheGateOnly : Claim.MirrorPassesTheGateOnly := by
  unfold Claim.MirrorPassesTheGateOnly
  intro s p pkt ha hp hwf hcls hresp hform hid hto
  have hexec : exec (.mirrorAccess p pkt) s = .next (opMirror s p pkt) :=
    whenAlive_next (.mirrorAccess p pkt) _ _ (by simp [Instr.wf, isLane, hp, hwf]) ha
  have hgate := opMirror_atGate s p pkt hcls hresp hform hid hto
  obtain ⟨_, _, _, htake⟩ := takeIn_wireOnly s p pkt
  refine ⟨fun hpass => ⟨fun hwrite => ?_, fun hwrite haddr hlen hpay _ => ?_, fun hread => ?_⟩, fun hrefuse hlive => ?_⟩
  · rw [hexec, hgate, if_pos hpass, mirrorPass_write _ p pkt hwrite]
  · have hval : leNat pkt.payload < 2 ^ 64 := by
      have h := leNat_lt pkt.payload
      rwa [hpay] at h
    have hoff : pkt.addr - mirrorBase = 0x68 := by omega
    refine ⟨_, hexec, ?_⟩
    rw [hgate, if_pos hpass, mirrorPass_write _ p pkt hwrite, hoff, hlen, regWrite_bcast0 _ _ hval, htake]
    obtain ⟨_, _, _, hack⟩ := acknowledge_wireOnly
      { (takeIn s p pkt) with glob.halves := tdel s.glob.halves 0x68, glob.bcast0 := leNat pkt.payload } p pkt
    rw [htake] at hack
    rw [hack]
    exact ⟨rfl, rfl, rfl, rfl, rfl⟩
  · rw [hexec, hgate, if_pos hpass, mirrorPass_read _ p pkt hread]
  · have hnot : ¬ gateAdmits s pkt.src = true := by simp [hrefuse]
    have hidle : (takeIn s p pkt).frame.live = false := by rw [htake]; exact hlive
    obtain ⟨hglob, hmem, hseq, hlast⟩ := raiseFault_frame (takeIn s p pkt) (boundsRecord p pkt)
    obtain ⟨_, _, _, hanswer⟩ := respond_wireOnly (raiseFault (takeIn s p pkt) (boundsRecord p pkt)) p pkt 0x09 []
    refine ⟨_, hexec, ?_⟩
    rw [hgate, if_neg hnot, refusePacket_bounds _ p pkt hidle, hanswer]
    refine ⟨hglob.trans ?_, hseq.trans ?_, ?_, hmem.trans ?_⟩
    · rw [htake]
    · rw [htake]
    · exact (congrArg (rd · 0 1) hlast).trans (rd_bytes_code _)
    · rw [htake]

/-- Settles O20: the reads by their addresses, and the mirror by its gate. -/
theorem registerReadsAndTheGate : Obligations.RegisterReadsAndTheGate :=
  ⟨registerReadsGiveTheirValue, mirrorPassesTheGateOnly⟩

end Sys2Proof.Machine
end

-- The proofs of the family of chapter 1: the cold start, and Folios and cores that fail or are tested.
section
/-! SUPPORT. The cold start, failures, in-field test and retraining: what each operation does, and what it leaves alone. -/

namespace Sys2Proof.Machine

open Sys2Proof

/-! ### Power domains: what a vote leaves alone -/

/-- `t` differs from `s` only in the power core and in what waits at the I3C target. -/
def PowerOnly (s t : State) : Prop := ∃ power i3c, t = { s with power := power, i3c := i3c }

theorem PowerOnly.refl (s : State) : PowerOnly s s := ⟨_, _, rfl⟩

theorem PowerOnly.trans {s t u : State} (h : PowerOnly s t) (g : PowerOnly t u) : PowerOnly s u := by
  obtain ⟨_, _, rfl⟩ := h
  obtain ⟨_, _, rfl⟩ := g
  exact ⟨_, _, rfl⟩

/-- A fold of steps each of which only concerns power. -/
theorem PowerOnly.foldl {α : Type} (f : State → α → State) (hf : ∀ u x, PowerOnly u (f u x)) (l : List α) (s : State) :
    PowerOnly s (l.foldl f s) :=
  List.foldlRecOn l f (PowerOnly.refl s) (fun t ht x _ => ht.trans (hf t x))

theorem setDom_powerOnly (s : State) (n : Nat) (d : Domain) : PowerOnly s (setDom s n d) := ⟨_, _, rfl⟩

theorem raiseIbi_powerOnly (s : State) (b : Nat) : PowerOnly s (raiseIbi s b) := by
  unfold raiseIbi
  split
  · exact .refl s
  · exact ⟨_, _, rfl⟩

theorem requestEntry_powerOnly (s : State) (n : Nat) : PowerOnly s (requestEntry s n) := by
  unfold requestEntry
  dsimp only
  split
  · exact .refl s
  · split
    · split
      · exact (setDom_powerOnly s n _).trans (raiseIbi_powerOnly _ 3)
      · exact setDom_powerOnly s n _
    · exact setDom_powerOnly s n _

theorem abortEntry_powerOnly (s : State) (n refuser : Nat) : PowerOnly s (abortEntry s n refuser) := by
  unfold abortEntry
  dsimp only
  split
  · exact (setDom_powerOnly s n _).trans (raiseIbi_powerOnly _ 3)
  · exact setDom_powerOnly s n _

theorem gainVote_powerOnly (s : State) (n bit info : Nat) : PowerOnly s (gainVote s n bit info) := by
  unfold gainVote
  dsimp only
  split
  · exact (setDom_powerOnly s n _).trans (abortEntry_powerOnly _ n _)
  · split
    · exact setDom_powerOnly s n _
    · exact setDom_powerOnly s n _

theorem loseVote_powerOnly (s : State) (n bit : Nat) : PowerOnly s (loseVote s n bit) := by
  unfold loseVote
  dsimp only
  split
  · exact .refl s
  · exact (setDom_powerOnly s n _).trans (requestEntry_powerOnly _ n)

theorem refreshOne_powerOnly (s : State) (p : Nat) : PowerOnly s (refreshOne s p) := by
  unfold refreshOne
  dsimp only
  split
  · exact gainVote_powerOnly s p 6 0
  · split
    · exact loseVote_powerOnly s p 6
    · exact .refl s

theorem refreshDeps_powerOnly (s : State) : PowerOnly s (refreshDeps s) := by
  unfold refreshDeps
  split
  · exact .refl s
  · exact .foldl _ refreshOne_powerOnly _ s

theorem vote_powerOnly (s : State) (n bit : Nat) (on : Bool) (info : Nat) : PowerOnly s (vote s n bit on info) := by
  unfold vote
  split
  · exact .refl s
  · split
    · exact ⟨_, _, rfl⟩
    · refine PowerOnly.trans ?_ (refreshDeps_powerOnly _)
      cases on with
      | true => exact gainVote_powerOnly s n bit info
      | false => exact loseVote_powerOnly s n bit

theorem folioVote_powerOnly (s : State) (n : Nat) : PowerOnly s (folioVote s n) := by
  unfold folioVote
  dsimp only
  split
  · exact .refl s
  · exact vote_powerOnly s n 0 _ 0

/-- A Folio's entry in a new state, before its vote follows. -/
def putState (s : State) (n st : Nat) : State := setFolio s n { folio s n with state := st }

/-- A Folio in a new state is its entry in that state; the vote that follows concerns power only (R331). -/
theorem setFolioState_powerOnly (s : State) (n st : Nat) : PowerOnly (putState s n st) (setFolioState s n st) :=
  folioVote_powerOnly _ n

/-! ### Completions, records and messages: what they leave alone -/

theorem setCq_reportOnly (s : State) (n : Nat) (q : OutRing) : ReportOnly s (setCq s n q) := ⟨_, _, _, _, _, _, _, rfl⟩

theorem writeCq_reportOnly (s : State) (r : Nat) (bs : List Byte) (irq : Bool) : ReportOnly s (writeCq s r bs irq) :=
  (setCq_reportOnly s r _).trans (hostRecord_reportOnly _ _ _ _ _ _)

theorem pushCq_reportOnly (s : State) (r : Nat) (bs : List Byte) (irq reply : Bool) :
    ReportOnly s (pushCq s r bs irq reply) := by
  unfold pushCq
  dsimp only
  split
  · exact writeCq_reportOnly s r bs irq
  · split
    · exact setCq_reportOnly s r _
    · exact (setCq_reportOnly s r _).trans (raiseVector_reportOnly _ 6)

theorem complete_reportOnly (s : State) (h : Hdr) (status data : Nat) : ReportOnly s (complete s h status data) :=
  pushCq_reportOnly s _ _ _ _

theorem takeHeld_reportOnly (s : State) (p : HeldOp → Bool) : ReportOnly s (takeHeld s p).2 := ⟨_, _, _, _, _, _, _, rfl⟩

theorem sendMgmt_wireOnly (s : State) (dst : Nat) (pay : List Byte) : WireOnly s (sendMgmt s dst pay) := by
  unfold sendMgmt
  dsimp only
  split
  · exact sendPacket_wireOnly s 1 _
  · exact (sendPacket_wireOnly s 1 _).trans ⟨_, _, _, rfl⟩

theorem sendSvc_wireOnly (s : State) (dst : Nat) (m : SvcMsg) : WireOnly s (sendSvc s dst m) := sendMgmt_wireOnly s dst _

/-- A fault record raised concerns the fault unit and its report. -/
theorem raiseFault_reportOnly (s : State) (r : FaultRec) :
    ReportOnly { s with flt := (raiseFault s r).flt } (raiseFault s r) := by
  unfold raiseFault
  dsimp only
  split
  · exact .refl _
  · split
    · exact .refl _
    · obtain ⟨_, _, _, _, _, _, _, h⟩ := putFault_reportOnly
        { s with flt.seq := (s.flt.seq + 1) % 2 ^ 32, flt.last := (stamp s r).bytes } (stamp s r) false
      rw [h]
      exact ⟨_, _, _, _, _, _, _, rfl⟩

theorem requestRollback_wireOnly (s : State) (flags code : Nat) :
    WireOnly { s with train.waiting := some (s.train.waiting.getD (currentFrame s)), train.waitCode := code }
      (requestRollback s flags code) := by
  unfold requestRollback
  obtain ⟨_, _, _, h⟩ := sendSvc_wireOnly s (coordinator s) (svc s 1 flags code s.job.step s.train.obeyed (currentFrame s))
  rw [h]
  exact ⟨_, _, _, rfl⟩

/-- The fault state halts the part and leaves memory and flash as they are (R305). -/
theorem enterFault_frame (s : State) (code detail : Nat) :
    (enterFault s code detail).glob.faultState = true ∧ (enterFault s code detail).mem = s.mem ∧
      (enterFault s code detail).flash = s.flash := by
  unfold enterFault
  dsimp only
  have down (t : State) :
      PowerOnly t ((List.range 12).foldl (fun u g => setDom u (112 + g) { dom u (112 + g) with state := 0 }) t) :=
    .foldl _ (fun u g => setDom_powerOnly u (112 + g) _) _ t
  obtain ⟨_, _, hdown⟩ := down _
  rw [hdown]
  split
  · obtain ⟨_, _, _, _, _, _, _, hput⟩ := putFault_reportOnly _ _ false
    rw [hput]
    exact ⟨rfl, rfl, rfl⟩
  · exact ⟨rfl, rfl, rfl⟩

theorem alive_of_faultState (s : State) (h : s.glob.faultState = true) : alive s = false := by simp [alive, h]

/-! ### The ROM's image checks (R307, R309) -/

/-- LOAD_IMAGE of a well-formed header, taken by a ROM that boots from PCIe, with the address and the size that Table 11.5 wants. -/
theorem exec_loadImage (s : State) (h : Hdr) (src bytes : Nat) (ha : alive s = true) (hwf : h.wf = true) (hflags : h.flags < 4)
    (hcq : h.cq < 4) (hdeg : degraded s = false) (hboot : s.glob.jobState = 0) (hphase : s.boot.phase = 1)
    (hpcie : s.pins.bootSrc = 0) (hhost : s.rings.host = 0) (hsrc : src < 2 ^ 64) (hmul : bytes % 64 = 0) (hmax : bytes ≤ 2 ^ 26) :
    exec (.loadImage h src bytes) s = .next (if h.owner = 0 then opLoadImage s h src bytes else complete s h 0x11 8) := by
  have hop : (Instr.loadImage h src bytes).wf = true := by
    have hfit : bytes < 2 ^ 32 := by omega
    simpa [Instr.wf, hwf, fits] using And.intro hsrc hfit
  have hexec : exec (.loadImage h src bytes) s = .next (runLoadImage s h none src bytes) := whenAlive_next _ _ _ hop ha
  have hhead : headBad h = none := by simp [headBad, Nat.not_le.mpr hflags, Nat.not_le.mpr hcq]
  have hsize : ¬ 67108864 < bytes := by omega
  rw [hexec]
  by_cases howner : h.owner = 0 <;>
    simp [runLoadImage, hdeg, hhead, hboot, hphase, hpcie, howner, hostHi, hhost, hmul, hsize, badIf, firstOf]

theorem opLoadImage_held (s : State) (h : Hdr) (src bytes : Nat) (hok : checkImage s (hostPeek s src bytes) bytes true = none) :
    opLoadImage s h src bytes = complete (holdImage s (hostPeek s src bytes)) h 0 0 := by
  simp only [opLoadImage, hok]

theorem opLoadImage_refused (s : State) (h : Hdr) (src bytes id : Nat)
    (hbad : checkImage s (hostPeek s src bytes) bytes true = some id) :
    opLoadImage s h src bytes = complete s h 0x11 (id + 2 ^ 63) := by
  simp only [opLoadImage, hbad, checkData]

/-- R307, R309, R287: the ROM's part of O30. -/
theorem romHoldsCheckedImages : Claim.RomHoldsCheckedImages := by
  unfold Claim.RomHoldsCheckedImages
  intro s h src bytes ha hwf hflags hcq hdeg hboot hphase hpcie hhost hsrc hmul hmax
  have hexec := exec_loadImage s h src bytes ha hwf hflags hcq hdeg hboot hphase hpcie hhost hsrc hmul hmax
  refine ⟨fun howner => ?_, fun howner => ⟨fun hok => ?_, fun id hbad => ?_⟩⟩
  · rw [hexec, if_neg howner]
  · rw [hexec, if_pos howner, opLoadImage_held s h src bytes hok]
    rfl
  · rw [hexec, if_pos howner, opLoadImage_refused s h src bytes id hbad]

/-! ### The cold start (Table 12.5) -/

/-- `t` differs from `s` only in its lanes, their link layers, and the free values used. -/
def LanesOnly (s t : State) : Prop := ∃ lanes links free, t = { s with lanes := lanes, links := links, free := free }

theorem LanesOnly.refl (s : State) : LanesOnly s s := ⟨_, _, _, rfl⟩

theorem LanesOnly.trans {s t u : State} (h : LanesOnly s t) (g : LanesOnly t u) : LanesOnly s u := by
  obtain ⟨_, _, _, rfl⟩ := h
  obtain ⟨_, _, _, rfl⟩ := g
  exact ⟨_, _, _, rfl⟩

/-- A fold of steps each of which only concerns lanes. -/
theorem LanesOnly.foldl {α : Type} (f : State → α → State) (hf : ∀ u x, LanesOnly u (f u x)) (l : List α) (s : State) :
    LanesOnly s (l.foldl f s) :=
  List.foldlRecOn l f (LanesOnly.refl s) (fun t ht x _ => ht.trans (hf t x))

theorem setLane_lanesOnly (s : State) (n : Nat) (x : Lane) : LanesOnly s (setLane s n x) := ⟨_, _, _, rfl⟩

theorem applyLanes_lanesOnly (s : State) (n : Nat) : LanesOnly s (applyLanes s n) := by
  unfold applyLanes
  split
  · exact .refl s
  · refine .foldl _ (fun u i => ?_) _ s
    dsimp only
    split
    · exact .refl u
    · split
      · exact setLane_lanesOnly u _ _
      · split
        · exact setLane_lanesOnly u _ _
        · exact .refl u

theorem restartPages_lanesOnly (s : State) (n : Nat) : LanesOnly s (restartPages s n) :=
  (applyLanes_lanesOnly s n).trans ⟨_, _, _, rfl⟩

/-- Domain `k` switched ON. -/
def domainOn (s : State) (k : Nat) : State := setDom s k { dom s k with state := 2 }

theorem domainOn_state_self (s : State) (k : Nat) : (dom (domainOn s k) k).state = 2 := by rw [domainOn, dom_setDom]

/-- Switching a domain ON leaves the others as they are, so that one that is ON stays so. -/
theorem domainOn_state (s : State) (k n : Nat) (h : (dom s n).state = 2) : (dom (domainOn s k) n).state = 2 := by
  by_cases hkn : n = k
  · rw [hkn, domainOn_state_self]
  · rw [domainOn, dom_setDom_ne s k n _ hkn, h]

/-- Opening the source that BOOT_SRC selects switches one domain ON and concerns lanes beside. -/
theorem openSource_lanesOnly (s : State) :
    ∃ k, LanesOnly (domainOn s k) (openSource s) ∧ (s.pins.bootSrc = 0 → k = 128) := by
  unfold openSource
  split
  next => exact ⟨128, .refl _, fun _ => rfl⟩
  next hsrc =>
    refine ⟨112 + s.boot.bootPort / 8, ?_, fun h => absurd h hsrc⟩
    have on {t : State} (h : LanesOnly s t) (k : Nat) : LanesOnly (domainOn s k) (domainOn t k) := by
      obtain ⟨_, _, _, rfl⟩ := h
      exact ⟨_, _, _, rfl⟩
    have eightLanes (named : Bool) : LanesOnly s (if named then s else setLane s 0 { lane s 0 with lanes := 8 }) := by
      cases named with
      | true => exact .refl s
      | false => exact setLane_lanesOnly s 0 _
    exact ((on (eightLanes _) _).trans (applyLanes_lanesOnly _ _)).trans (.foldl _ restartPages_lanesOnly _ _)

/-- Each of the first `m` Folios written in turn reads as written. -/
theorem folio_foldl_setFolio (f : Nat → Folio) (m n : Nat) (s : State) (h : n < m) :
    folio ((List.range m).foldl (fun t k => setFolio t k (f k)) s) n = f n := by
  induction m with
  | zero => omega
  | succ m ih =>
    rw [List.range_succ, List.foldl_append, List.foldl_cons, List.foldl_nil]
    by_cases hnm : n = m
    · rw [hnm, folio_setFolio]
    · rw [folio_setFolio_ne _ _ _ _ hnm, ih (by omega)]

theorem folio_bootFolios (s : State) (r : RepairRec) (n : Nat) (h : n < 68) :
    folio (bootFolios s r) n = { state := bootState r n } :=
  folio_foldl_setFolio (fun k => { state := bootState r k }) 68 n _ h

theorem bootFolios_frame (s : State) (r : RepairRec) : ∃ folios, bootFolios s r = { s with folios := folios } :=
  List.foldlRecOn (List.range 68) _ (motive := fun t => ∃ folios, t = { s with folios := folios }) ⟨_, rfl⟩
    (fun t ht n _ => by
      obtain ⟨_, rfl⟩ := ht
      exact ⟨_, rfl⟩)

theorem applyBoard_folios (s : State) : (applyBoard s).folios = s.folios := by
  unfold applyBoard
  split <;> rfl

/-- The board's values concern the device id, the boot port, BAR4, the power limits and the MAC addresses. -/
theorem applyBoard_frame (s : State) : ∃ id bootPort bar4 limit eff eth, applyBoard s =
    { s with glob.deviceId := id, boot.bootPort := bootPort, pcie.bar4En := bar4, power.limitBoard := limit,
             power.limitEff := eff, eth := eth } := by
  unfold applyBoard
  split <;> exact ⟨_, _, _, _, _, _, rfl⟩

theorem applyBoard_missing (s : State) (h : boardOf s.flash = none) : (applyBoard s).glob.deviceId = 0xFFFFFF := by
  simp only [applyBoard, h]

theorem applyBoard_given (s : State) (b : List Byte) (h : boardOf s.flash = some b) :
    (applyBoard s).glob.deviceId = rd b 12 3 ∧ (applyBoard s).power.limitBoard = rd b 16 2 := by
  simp only [applyBoard, h]
  exact ⟨rfl, rfl⟩

theorem folio_coldBoot (s : State) (f : Flash) (v n : Nat) (h : n < 68) :
    (folio (coldBoot s f v) n).state = bootState (repairNow f) n := by
  have hphys : (coldBoot s f v).folios.phys = (bootFolios s (repairNow f)).folios.phys :=
    congrArg (·.phys) (applyBoard_folios (mapFolios (bootFolios s (repairNow f))))
  have hfolio : folio (coldBoot s f v) n = folio (bootFolios s (repairNow f)) n := by simp only [folio, hphys]
  rw [hfolio, folio_bootFolios s _ n h]

/-- The parts of the state that the ROM's reading of the flash leaves alone, and the pins and memory as it sets them. -/
theorem coldBoot_frame (s : State) (f : Flash) (v : Nat) :
    (coldBoot s f v).pins = { s.pins with vid := v % 16 } ∧ (coldBoot s f v).glob.faultState = s.glob.faultState ∧
      (coldBoot s f v).glob.jobState = s.glob.jobState ∧ (coldBoot s f v).boot.phase = s.boot.phase ∧
      (coldBoot s f v).flash = s.flash ∧ (coldBoot s f v).rings = s.rings ∧ (coldBoot s f v).power.dom = s.power.dom ∧
      (coldBoot s f v).mem = { s.mem with spared := (repairNow f).rows, laneSpares := (repairNow f).lanes } := by
  obtain ⟨_, hfolios⟩ := bootFolios_frame s (repairNow f)
  obtain ⟨_, _, _, _, _, _, hboard⟩ := applyBoard_frame (mapFolios (bootFolios s (repairNow f)))
  unfold coldBoot
  rw [hboard, hfolios]
  exact ⟨rfl, rfl, rfl, rfl, rfl, rfl, rfl, rfl⟩

/-- The board's values at the cold start, of the flash that it reads. -/
theorem coldBoot_board (s : State) (f : Flash) (v : Nat) :
    (boardOf s.flash = none → (coldBoot s f v).glob.deviceId = 0xFFFFFF) ∧
      (∀ b, boardOf s.flash = some b →
        (coldBoot s f v).glob.deviceId = rd b 12 3 ∧ (coldBoot s f v).power.limitBoard = rd b 16 2) := by
  have hflash : (mapFolios (bootFolios s (repairNow f))).flash = s.flash := by
    obtain ⟨_, hfolios⟩ := bootFolios_frame s (repairNow f)
    rw [hfolios]
    rfl
  unfold coldBoot
  dsimp only
  rw [← hflash]
  exact ⟨applyBoard_missing _, applyBoard_given _⟩

/-- What the OWNER, FLOOR and SCAN records give at the cold start. -/
theorem coldBoot_records (s : State) (f : Flash) (v : Nat) :
    (coldBoot s f v).boot.ownerKey = ((ownerOf f).map (·.key)).getD [] ∧
      (coldBoot s f v).boot.rootAllowed = ((ownerOf f).map (·.rootAllowed)).getD false ∧
      (coldBoot s f v).boot.floors = (floorOf f).getD [0, 0, 0, 0] ∧
      (coldBoot s f v).scan.available = (scanCheck f).isNone := ⟨rfl, rfl, rfl, rfl⟩

/-- COLD_START of a part in reset. -/
theorem exec_coldStart (s : State) (src mode addr : Nat) (pufOk : Bool) (fl : Option Flash) (hreset : s.pins.sysReset = true)
    (hsrc : src < 2) (hmode : mode < 2) (haddr : addr < 4) :
    exec (.coldStart src mode addr pufOk fl) s = .next (opColdStart s src mode addr pufOk fl) := by
  have hexec : exec (.coldStart src mode addr pufOk fl) s =
      .next (if s.pins.sysReset then opColdStart s src mode addr pufOk fl else s) :=
    always_next (.coldStart src mode addr pufOk fl) _ (by simp [Instr.wf, hsrc, hmode, haddr])
  rw [hexec, if_pos hreset]

/-- R18, R21, R193, R262, R357, R393, R394: the cold start of O30. -/
theorem coldStartReadsTheFlash : Claim.ColdStartReadsTheFlash := by
  unfold Claim.ColdStartReadsTheFlash
  intro s src mode addr f hreset hclk hfault hsrc hmode haddr
  have hexec (pufOk : Bool) := exec_coldStart s src mode addr pufOk (some f) hreset hsrc hmode haddr
  have failed (pufOk : Bool) (detail : Nat)
      (h : opColdStart s src mode addr pufOk (some f) = enterFault (strapsSampled s src mode addr f) 0x10 detail) :
      Answers (.coldStart src mode addr pufOk (some f)) s (fun t =>
        t.glob.faultState = true ∧ alive t = false ∧ t.mem = s.mem ∧ t.flash = f) := by
    obtain ⟨hstate, hmem, hflash⟩ := enterFault_frame (strapsSampled s src mode addr f) 0x10 detail
    exact ⟨_, (hexec pufOk).trans (congrArg _ h), hstate, alive_of_faultState _ hstate, hmem, hflash⟩
  refine ⟨fun hdir hpuf => ?_, fun hbad => failed true 1 ?_, failed false 1 rfl⟩
  · split
    next v hbin =>
      have hop : opColdStart s src mode addr true (some f) = openSource (coldBoot (strapsSampled s src mode addr f) f v) := by
        simp [opColdStart, hdir, hpuf, hbin]
      obtain ⟨hpins, hstate, hjob, hphase, hflash, hrings, hdom, hmem⟩ := coldBoot_frame (strapsSampled s src mode addr f) f v
      obtain ⟨hnone, hsome⟩ := coldBoot_board (strapsSampled s src mode addr f) f v
      obtain ⟨hkey, hroot, hfloors, hscan⟩ := coldBoot_records (strapsSampled s src mode addr f) f v
      have hfolio := folio_coldBoot (strapsSampled s src mode addr f) f v
      have hpower : (dom (coldBoot (strapsSampled s src mode addr f) f v) 131).state = 2 := by
        simp only [dom, hdom]
        exact domainOn_state_self _ 131
      generalize coldBoot (strapsSampled s src mode addr f) f v = c at *
      obtain ⟨k, ⟨_, _, _, hopen⟩, hk⟩ := openSource_lanesOnly c
      refine ⟨_, (hexec true).trans (congrArg _ hop), ?_⟩
      rw [hopen]
      refine ⟨congrArg (·.sysReset) hpins, ?_, congrArg (·.bootSrc) hpins, congrArg (·.flashMode) hpins,
        congrArg (·.i3cAddr) hpins, congrArg (·.vid) hpins, hphase, hflash, hnone, hsome, hfolio, fun o ho => ?_, fun ho => ?_,
        hfloors, ?_, domainOn_state _ k 131 hpower, fun h0 => ?_, hmem, hrings, hjob⟩
      · change (!c.pins.sysReset && !c.pins.clocksStopped && !c.glob.faultState) = true
        simp [hpins, hstate, strapsSampled, hclk, hfault]
      · simp [hkey, hroot, ho, domainOn]
      · simp [hkey, hroot, ho, domainOn]
      · simp [hscan, domainOn]
      · obtain rfl := hk ((congrArg (·.bootSrc) hpins).trans h0)
        exact domainOn_state_self c 128
    next hbin => exact failed true 0 (by simp [opColdStart, hdir, hpuf, hbin])
  · rcases hbad with h | h <;> simp [opColdStart, h]

/-- Settles O30: the records of the flash by their reading, and the ROM by its check. -/
theorem coldStartAndRom : Obligations.ColdStartAndRom := ⟨coldStartReadsTheFlash, romHoldsCheckedImages⟩

/-! ### Fields of a fault record (Table 14.1) -/

theorem leNat_leBytes (n v : Nat) : leNat (leBytes n v) = v % 256 ^ n := by
  induction n generalizing v with
  | zero => simp [leBytes, leNat, Nat.mod_one]
  | succ n ih =>
    rw [leBytes, leNat, ih, Nat.pow_succ', Nat.mod_mul, BitVec.toNat_ofNat]

/-- A field that starts a string is the number that it was built from. -/
theorem rd_leBytes (n v : Nat) (bs : List Byte) : rd (leBytes n v ++ bs) 0 n = v % 256 ^ n := by
  rw [rd, List.drop_zero, List.take_append_of_le_length (by simp), List.take_of_length_le (by simp), leNat_leBytes]

/-- A field that lies past the first part of a string. -/
theorem rd_append_right (xs ys : List Byte) (off n : Nat) (h : xs.length ≤ off) :
    rd (xs ++ ys) off n = rd ys (off - xs.length) n := by
  rw [rd, rd, List.drop_append, List.drop_eq_nil_of_le h, List.nil_append]

/-- Bytes 32 to 39 of a record are its detail. -/
theorem rd_bytes_detail (r : FaultRec) : rd r.bytes 32 8 = r.detail % 2 ^ 64 := by
  simp only [FaultRec.bytes, List.append_assoc]
  simp [rd_append_right, rd_leBytes]

/-! ### What Folios, tests, faults and the job keep -/

/-- The Folios, the tests, the fault unit, the memory, the boot and the job are in `t` as in `s`. -/
structure Undisturbed (s t : State) : Prop where
  folios : t.folios = s.folios
  scan : t.scan = s.scan
  flt : t.flt = s.flt
  mem : t.mem = s.mem
  glob : t.glob = s.glob
  boot : t.boot = s.boot
  job : t.job = s.job
  train : t.train = s.train
  frame : t.frame = s.frame

theorem Undisturbed.refl (s : State) : Undisturbed s s := ⟨rfl, rfl, rfl, rfl, rfl, rfl, rfl, rfl, rfl⟩

theorem Undisturbed.trans {s t u : State} (h : Undisturbed s t) (g : Undisturbed t u) : Undisturbed s u :=
  ⟨g.folios.trans h.folios, g.scan.trans h.scan, g.flt.trans h.flt, g.mem.trans h.mem, g.glob.trans h.glob,
    g.boot.trans h.boot, g.job.trans h.job, g.train.trans h.train, g.frame.trans h.frame⟩

theorem PowerOnly.undisturbed {s t : State} (h : PowerOnly s t) : Undisturbed s t := by
  obtain ⟨_, _, rfl⟩ := h
  exact ⟨rfl, rfl, rfl, rfl, rfl, rfl, rfl, rfl, rfl⟩

theorem ReportOnly.undisturbed {s t : State} (h : ReportOnly s t) : Undisturbed s t := by
  obtain ⟨_, _, _, _, _, _, _, rfl⟩ := h
  exact ⟨rfl, rfl, rfl, rfl, rfl, rfl, rfl, rfl, rfl⟩

theorem recordQuarantine_undisturbed (s : State) (n : Nat) : Undisturbed s (recordQuarantine s n) :=
  ⟨rfl, rfl, rfl, rfl, rfl, rfl, rfl, rfl, rfl⟩

theorem raiseFault_undisturbed (s : State) (r : FaultRec) :
    Undisturbed { s with flt := (raiseFault s r).flt } (raiseFault s r) := (raiseFault_reportOnly s r).undisturbed

theorem folio_congr {s t : State} (h : t.folios.phys = s.folios.phys) (n : Nat) : folio t n = folio s n := by
  simp only [folio, h]

theorem physOf_congr {s t : State} (hmap : t.folios.map = s.folios.map) (hunmapped : t.folios.unmapped = s.folios.unmapped)
    (l : Nat) : physOf t l = physOf s l := by
  simp only [physOf, hmap, hunmapped]

theorem spareOf_congr {s t : State} (h : ∀ k, (folio t k).state = 1 ↔ (folio s k).state = 1) (d : Nat) :
    spareOf t d = spareOf s d := by
  simp only [spareOf, h]

theorem jobExists_congr {s t : State} (h : t.glob = s.glob) : jobExists t = jobExists s := by simp only [jobExists, h]

theorem Undisturbed.putState_congr {s t : State} (h : Undisturbed s t) (n st : Nat) :
    Undisturbed (putState s n st) (putState t n st) := by
  have hfolio : folio t n = folio s n := folio_congr (congrArg (·.phys) h.folios) n
  refine ⟨?_, h.scan, h.flt, h.mem, h.glob, h.boot, h.job, h.train, h.frame⟩
  simp only [putState, setFolio, hfolio, h.folios]

/-- A Folio in a new state, where the state before it is known but for what it leaves undisturbed. -/
theorem Undisturbed.setFolioState {s t : State} (h : Undisturbed s t) (n st : Nat) :
    Undisturbed (putState s n st) (setFolioState t n st) :=
  (h.putState_congr n st).trans (setFolioState_powerOnly t n st).undisturbed

theorem Undisturbed.folio_self {s t : State} {n st : Nat} (h : Undisturbed (putState s n st) t) :
    folio t n = { folio s n with state := st } :=
  (folio_congr (congrArg (·.phys) h.folios) n).trans (folio_setFolio s n _)

theorem Undisturbed.folio_ne {s t : State} {n st j : Nat} (h : Undisturbed (putState s n st) t) (hj : j ≠ n) :
    folio t j = folio s j :=
  (folio_congr (congrArg (·.phys) h.folios) j).trans (folio_setFolio_ne s n j _ hj)

/-- Remaps taken away where there are none. -/
theorem Undisturbed.dropRemaps {s t : State} (h : Undisturbed s t) (hremaps : s.folios.remaps = []) (p : Nat × Nat → Bool) :
    Undisturbed s { t with folios.remaps := t.folios.remaps.filter p } := by
  refine ⟨?_, h.scan, h.flt, h.mem, h.glob, h.boot, h.job, h.train, h.frame⟩
  simp only [h.folios, hremaps, List.filter_nil]
  exact congrArg (fun l => { s.folios with remaps := l }) hremaps.symm

/-! ### The takeover of a logical Folio (R22, R23, R235) -/

theorem physOf_remapFolio (s : State) (l k : Nat) : physOf (remapFolio s (l, k)) l = some k := by
  simp [physOf, remapFolio, forgetFolio, forget]

/-- Without a job a spare takes the logical Folio over at once. -/
theorem spareTakes_idle (s : State) (k l : Nat) (hjob : jobExists s = false) :
    spareTakes s k l =
      remapFolio { setFolioState s k 0 with folios.waiting := s.folios.waiting.filter (fun m => decide (m ≠ l)) } (l, k) := by
  have hset := (Undisturbed.refl s).setFolioState k 0
  have hidle : jobExists (setFolioState s k 0) = false := (jobExists_congr hset.glob).trans hjob
  have hon : spareOn s k = setFolioState s k 0 := by simp [spareOn, hidle]
  have hwaiting : (setFolioState s k 0).folios.waiting = s.folios.waiting := congrArg (·.waiting) hset.folios
  simp only [spareTakes, hon, hwaiting]
  refine if_neg (Bool.eq_false_iff.mp ((jobExists_congr ?_).trans hidle))
  rfl

/-- A takeover without a job: the spare is ACTIVE and carries the logical Folio. -/
theorem spareTakes_frame (s : State) (k l : Nat) (hjob : jobExists s = false) :
    (folio (spareTakes s k l) k).state = 0 ∧ (∀ j, j ≠ k → folio (spareTakes s k l) j = folio s j) ∧
      physOf (spareTakes s k l) l = some k ∧
      (spareTakes s k l).folios.waiting = s.folios.waiting.filter (fun m => decide (m ≠ l)) ∧
      (spareTakes s k l).flt = s.flt ∧ (spareTakes s k l).glob = s.glob ∧ (spareTakes s k l).job = s.job ∧
      (spareTakes s k l).train = s.train := by
  have hset := (Undisturbed.refl s).setFolioState k 0
  rw [spareTakes_idle s k l hjob]
  generalize setFolioState s k 0 = t at *
  exact ⟨congrArg (·.state) hset.folio_self, fun j hj => hset.folio_ne hj, physOf_remapFolio _ l k, rfl, hset.flt, hset.glob,
    hset.job, hset.train⟩

/-- The record of a takeover refused, SPARE_EXHAUSTED (R238). -/
def exhaustedRecord (s : State) (reason n : Nat) : FaultRec :=
  { code := 0x15, sev := if 3 ≤ jobPhase s && jobPhase s ≤ 4 then 4 else 0, folio := n, valid := 2
    detail := reason + n * 2 ^ 8, src := 6, key := n }

/-- Without a job a refused takeover is its record. -/
theorem refuseTakeover_idle (s : State) (reason n : Nat) (hjob : jobExists s = false) :
    refuseTakeover s reason n = raiseFault s (exhaustedRecord s reason n) := by
  have hidle : jobExists (raiseFault s (exhaustedRecord s reason n)) = false :=
    (jobExists_congr (raiseFault_undisturbed s _).glob).trans hjob
  unfold exhaustedRecord at *
  simp only [refuseTakeover, hidle, Bool.false_eq_true, if_false]

theorem raiseFault_code (s : State) (r : FaultRec) : rd (raiseFault s r).flt.last 0 1 = r.code % 256 := by
  obtain ⟨_, _, _, hlast⟩ := raiseFault_frame s r
  rw [hlast, rd_bytes_code]
  rfl

theorem raiseFault_detail (s : State) (r : FaultRec) : rd (raiseFault s r).flt.last 32 8 = r.detail % 2 ^ 64 := by
  obtain ⟨_, _, _, hlast⟩ := raiseFault_frame s r
  rw [hlast, rd_bytes_detail]
  rfl

/-! ### Folios and cores that fail (R22, R23, R235, R304) -/

/-- A Folio quarantined with record `r` and out of every remap, as `loseFolio` leaves it while no frame runs. -/
def isolated (s : State) (n : Nat) (r : FaultRec) : State :=
  let t := recordQuarantine (setFolioState (raiseFault s { r with sev := 3 }) n 3) n
  { t with folios.remaps := t.folios.remaps.filter (fun x => decide (x.2 ≠ n)) }

theorem isolated_undisturbed (s : State) (n : Nat) (r : FaultRec) (hremaps : s.folios.remaps = []) :
    Undisturbed (putState { s with flt := (raiseFault s { r with sev := 3 }).flt } n 3) (isolated s n r) :=
  (((raiseFault_undisturbed s { r with sev := 3 }).setFolioState n 3).trans (recordQuarantine_undisturbed _ n)).dropRemaps hremaps _

theorem loseRecord_idle (s : State) (r : FaultRec) (hlive : s.frame.live = false) :
    loseRecord s r = raiseFault s { r with sev := 3 } := by
  simp [loseRecord, hlive]

theorem watch_open (s : State) (core n : Nat) (hact : s.act = none) :
    watchSuspended s core n = false ∧ inValidation s core n = false := by
  simp [watchSuspended, inValidation, actStage, hact]

/-- The facts of an ACTIVE Folio that carries `l`, on a part without a job whose frames stand. -/
structure LostIdle (s : State) (n l : Nat) : Prop where
  live : s.frame.live = false
  remaps : s.folios.remaps = []
  job : jobExists s = false
  active : (folio s n).state = 0
  carries : logicalOf s n = some l

theorem LostIdle.jobExists_unmapped {s : State} {n l : Nat} (h : LostIdle s n l) (r : FaultRec) :
    jobExists (unmapFolio (isolated s n r) l) = false := by
  have hkeep := isolated_undisturbed s n r h.remaps
  generalize isolated s n r = t at *
  exact (jobExists_congr (s := s) (t := unmapFolio t l) hkeep.glob).trans h.job

theorem LostIdle.carriedBy {s : State} {n l : Nat} (h : LostIdle s n l) : carriedBy s n = some l := by
  simp [Machine.carriedBy, h.remaps, h.carries]

/-- The failing Folio was no spare and is none now. -/
theorem LostIdle.spareOf_unmapped {s : State} {n l : Nat} (h : LostIdle s n l) (r : FaultRec) (d : Nat) :
    spareOf (unmapFolio (isolated s n r) l) d = spareOf s d := by
  have hkeep := isolated_undisturbed s n r h.remaps
  generalize isolated s n r = t at *
  refine spareOf_congr (fun k => ?_) d
  change (folio t k).state = 1 ↔ _
  by_cases hk : k = n
  · rw [hk, hkeep.folio_self, h.active]
    simp
  · rw [hkeep.folio_ne hk]
    rfl

theorem LostIdle.loseFolio_spare {s : State} {n l : Nat} (h : LostIdle s n l) (r : FaultRec) (k : Nat)
    (hk : spareOf s (n / 17) = some k) : loseFolio s n r = spareTakes (unmapFolio (isolated s n r) l) k l := by
  have hspare := (h.spareOf_unmapped r (n / 17)).trans hk
  have hidle : jobExists (spareTakes (unmapFolio (isolated s n r) l) k l) = false := by
    obtain ⟨_, _, _, _, _, hglob, _, _⟩ := spareTakes_frame _ k l (h.jobExists_unmapped r)
    exact (jobExists_congr hglob).trans (h.jobExists_unmapped r)
  simp only [isolated] at hspare hidle ⊢
  simp only [loseFolio, loseRecord_idle s r h.live, h.carriedBy, hspare, hidle, Bool.false_eq_true, if_false]

theorem LostIdle.loseFolio_exhausted {s : State} {n l : Nat} (h : LostIdle s n l) (r : FaultRec)
    (hk : spareOf s (n / 17) = none) (hrun : s.scan.running = none) :
    loseFolio s n r = refuseTakeover (unmapFolio (isolated s n r) l) 1 n := by
  have hspare := (h.spareOf_unmapped r (n / 17)).trans hk
  have hnone : (unmapFolio (isolated s n r) l).scan.running = none :=
    (congrArg (·.running) (isolated_undisturbed s n r h.remaps).scan).trans hrun
  simp only [isolated] at hspare hnone ⊢
  simp only [loseFolio, loseRecord_idle s r h.live, h.carriedBy, hspare, hnone]

/-- The commands by which an ACTIVE Folio fails lose it with a record of their own (R22, R304). -/
theorem exec_folioFails (s : State) (n code : Nat) (c : Instr) (ha : alive s = true) (hact : s.act = none)
    (hactive : (folio s n).state = 0) (hc : c = .clusterWatchdog n ∨ c = .folioInternalFault n code) (hwf : c.wf = true) :
    ∃ r, exec c s = .next (loseFolio s n r) := by
  rcases hc with rfl | rfl
  · obtain ⟨hsealed, hvalid⟩ := watch_open s 3 n hact
    have hop : opClusterWatchdog s n = loseFolio s n (watchdogRec 3 n 3 false) := by
      simp [opClusterWatchdog, hactive, hsealed, hvalid]
    exact ⟨_, (whenAlive_next _ _ _ hwf ha).trans (congrArg _ hop)⟩
  · exact ⟨_, (whenAlive_next _ _ _ hwf ha).trans (congrArg _ (if_neg (not_not.mpr hactive)))⟩

/-- An element put into a list is in it. -/
theorem mem_insertNat (n : Nat) (l : List Nat) : n ∈ insertNat n l := by
  induction l with
  | nil => simp [insertNat]
  | cons m r ih =>
    unfold insertNat
    split
    · simp
    · split
      next h => simp [h]
      next => simp [ih]

/-- The failed Folio is quarantined, and the spare carries its logical Folio. -/
theorem LostIdle.spare_frame {s : State} {n l : Nat} (h : LostIdle s n l) (r : FaultRec) (k : Nat)
    (hk : spareOf s (n / 17) = some k) :
    (folio (loseFolio s n r) n).state = 3 ∧ (folio (loseFolio s n r) k).state = 0 ∧ physOf (loseFolio s n r) l = some k ∧
      (loseFolio s n r).flt.seq = (s.flt.seq + 1) % 2 ^ 32 ∧
      (∀ j, j ≠ n → j ≠ k → (folio (loseFolio s n r) j).state = (folio s j).state) ∧
      (loseFolio s n r).job = s.job ∧ (loseFolio s n r).train = s.train := by
  have hkeep := isolated_undisturbed s n r h.remaps
  have hidle := h.jobExists_unmapped r
  obtain ⟨_, _, hseq, _⟩ := raiseFault_frame s { r with sev := 3 }
  have hkn : n ≠ k := by
    rintro rfl
    have hstate : (folio s n).state = 1 := by simpa using List.find?_some hk
    exact absurd (h.active.symm.trans hstate) (by decide)
  rw [h.loseFolio_spare r k hk]
  generalize isolated s n r = t at *
  obtain ⟨hspare, hothers, hphys, _, hflt, _, hjob, htrain⟩ := spareTakes_frame _ k l hidle
  refine ⟨?_, hspare, hphys, ?_, fun j hj hjk => ?_, hjob.trans hkeep.job, htrain.trans hkeep.train⟩
  · rw [hothers n hkn]
    exact congrArg (·.state) hkeep.folio_self
  · rw [hflt]
    exact (congrArg (·.seq) hkeep.flt).trans hseq
  · rw [hothers j hjk]
    exact congrArg (·.state) (hkeep.folio_ne hj)

/-- Without a spare the logical Folio has no physical one, and the last record says so. -/
theorem LostIdle.exhausted_frame {s : State} {n l : Nat} (h : LostIdle s n l) (r : FaultRec)
    (hk : spareOf s (n / 17) = none) (hrun : s.scan.running = none) :
    (folio (loseFolio s n r) n).state = 3 ∧ physOf (loseFolio s n r) l = none ∧ rd (loseFolio s n r).flt.last 0 1 = 0x15 ∧
      (∀ j, j ≠ n → (folio (loseFolio s n r) j).state = (folio s j).state) ∧
      (loseFolio s n r).job = s.job ∧ (loseFolio s n r).train = s.train := by
  have hkeep := isolated_undisturbed s n r h.remaps
  rw [h.loseFolio_exhausted r hk hrun, refuseTakeover_idle _ 1 n (h.jobExists_unmapped r)]
  generalize isolated s n r = t at *
  have hraise := raiseFault_undisturbed (unmapFolio t l) (exhaustedRecord (unmapFolio t l) 1 n)
  have hlast := raiseFault_code (unmapFolio t l) (exhaustedRecord (unmapFolio t l) 1 n)
  generalize raiseFault (unmapFolio t l) (exhaustedRecord (unmapFolio t l) 1 n) = u at *
  have hfolio (j : Nat) : folio u j = folio t j := folio_congr (congrArg (·.phys) hraise.folios) j
  refine ⟨?_, ?_, hlast, fun j hj => ?_, hraise.job.trans hkeep.job, hraise.train.trans hkeep.train⟩
  · rw [hfolio, hkeep.folio_self]
  · rw [physOf_congr (congrArg (·.map) hraise.folios) (congrArg (·.unmapped) hraise.folios)]
    exact if_pos (by simp [unmapFolio, mem_insertNat])
  · rw [hfolio, hkeep.folio_ne hj]
    rfl

/-- SCHEDULER_WATCHDOG outside an activation and while no frame runs: the record, or the fault state at the second expiry. -/
theorem opSchedulerWatchdog_idle (s : State) (within : Bool) (hact : s.act = none) (hlive : s.frame.live = false) :
    opSchedulerWatchdog s within =
      if s.boot.schedExpired && within then enterFault s 0x10 2
      else { raiseFault s (watchdogRec 2 0 0 false) with boot.schedDown := true } := by
  obtain ⟨hsealed, hvalid⟩ := watch_open s 2 0 hact
  simp [opSchedulerWatchdog, hsealed, hvalid, hlive]

/-- SCHEDULER_IMAGE_RESTART of a stopped scheduler: with a job it asks for a rollback. -/
theorem opSchedulerRestart_stopped (s : State) (hdown : s.boot.schedDown = true) :
    (opSchedulerRestart s).boot = { s.boot with schedDown := false, schedExpired := true } ∧
      (opSchedulerRestart s).mem = s.mem ∧ (opSchedulerRestart s).job = s.job ∧
      (jobExists s = false → (opSchedulerRestart s).train = s.train) ∧
      (jobExists s = true → (opSchedulerRestart s).train.waiting.isSome = true ∧ (opSchedulerRestart s).train.waitCode = 0x10) := by
  have hjob (u : Boot) : jobExists { s with boot := u } = jobExists s := rfl
  unfold opSchedulerRestart
  simp only [hdown, Bool.not_true, Bool.false_eq_true, if_false, hjob]
  split
  next h =>
    obtain ⟨_, _, _, hsent⟩ := requestRollback_wireOnly { s with boot.schedDown := false, boot.schedExpired := true } 1 0x10
    rw [hsent]
    exact ⟨rfl, rfl, rfl, fun hno => absurd h (by simp [hno]), fun _ => ⟨rfl, rfl⟩⟩
  next h => exact ⟨rfl, rfl, rfl, fun _ => rfl, fun hyes => absurd hyes h⟩

/-- R22, R23, R235, R304: the failures of O60. -/
theorem foliosAndCoresThatFail : Claim.FoliosAndCoresThatFail := by
  unfold Claim.FoliosAndCoresThatFail
  intro s n l code within c ha _ _ hlive hact hremaps
  have hwatch (w : Bool) : exec (.schedulerWatchdog w) s = .next (opSchedulerWatchdog s w) :=
    whenAlive_next (.schedulerWatchdog w) _ _ rfl ha
  refine ⟨fun hc hwf hjob hactive hcarries hrun => ?_, fun hfirst => ?_, fun hagain => ?_, fun hdown => ?_⟩
  · obtain ⟨r, hexec⟩ := exec_folioFails s n code c ha hact hactive hc hwf
    have hlost : LostIdle s n l := ⟨hlive, hremaps, hjob, hactive, hcarries⟩
    exact ⟨fun k hk => ⟨_, hexec, hlost.spare_frame r k hk⟩, fun hk => ⟨_, hexec, hlost.exhausted_frame r hk hrun⟩⟩
  · have hop := (opSchedulerWatchdog_idle s within hact hlive).trans (if_neg (Bool.eq_false_iff.mp hfirst))
    have hraise := raiseFault_undisturbed s (watchdogRec 2 0 0 false)
    refine ⟨_, (hwatch within).trans (congrArg _ hop), ?_, raiseFault_code s _, hraise.mem, hraise.job, hraise.frame⟩
    exact congrArg (fun b : Boot => { b with schedDown := true }) hraise.boot
  · have hop := (opSchedulerWatchdog_idle s true hact hlive).trans (if_pos (by simp [hagain]))
    obtain ⟨hstate, _, _⟩ := enterFault_frame s 0x10 2
    exact ⟨_, (hwatch true).trans (congrArg _ hop), hstate⟩
  · exact ⟨_, whenAlive_next .schedulerImageRestart _ _ rfl ha, opSchedulerRestart_stopped s hdown⟩

/-! ### In-field test (R357 to R361) -/

/-- Held descriptors completed one after the other only report. -/
theorem completions_reportOnly (status data : Nat) (l : List Held) (s : State) :
    ReportOnly s (l.foldl (fun t x => complete t x.hdr status data) s) :=
  .foldl (fun t (x : Held) => complete t x.hdr status data) (fun u x => complete_reportOnly u x.hdr status data) l s

/-- The end of a test concerns, beside the report of its requests, that none runs. -/
theorem Undisturbed.endTest {s t : State} (h : Undisturbed s t) (n status data : Nat) :
    Undisturbed { s with scan.running := none } (endTest t n status data) := by
  have hended : Undisturbed { s with scan.running := none }
      { (takeHeld t (fun o => o == .test n)).2 with scan.running := none } :=
    ⟨h.folios, congrArg (fun x : Scan => { x with running := none }) h.scan, h.flt, h.mem, h.glob, h.boot, h.job, h.train, h.frame⟩
  exact hended.trans (completions_reportOnly status data _ _).undisturbed

/-- A test without a verdict closes in-field test; the requests that wait are reported. -/
theorem Undisturbed.testsClosed {s t : State} (h : Undisturbed s t) :
    Undisturbed { s with scan.available := false, scan.failId := 5, scan.due := [], scan.asked := none } (testsClosed t) := by
  have hclosed : Undisturbed { s with scan.available := false, scan.failId := 5, scan.due := [], scan.asked := none }
      { t with scan.available := false, scan.failId := 5, scan.due := [], scan.asked := none } :=
    ⟨h.folios, congrArg (fun x : Scan => { x with available := false, failId := 5, due := [], asked := none }) h.scan, h.flt,
      h.mem, h.glob, h.boot, h.job, h.train, h.frame⟩
  unfold Machine.testsClosed
  exact (hclosed.trans (takeHeld_reportOnly _ _).undisturbed).trans (completions_reportOnly 0x11 (2 ^ 63 + 5) _ _).undisturbed

theorem refuseWaiting_none (s : State) (n reason : Nat) (h : s.folios.waiting = []) : refuseWaiting s n reason = s := by
  simp [refuseWaiting, h]

/-- One logical Folio that waits on the die, without a job: its takeover is refused, and it waits no more. -/
theorem refuseWaiting_one (s : State) (n reason l : Nat) (h : s.folios.waiting = [l]) (hdie : l / 16 = n / 17)
    (hjob : jobExists s = false) :
    ∃ r : FaultRec, refuseWaiting s n reason = raiseFault { s with folios.waiting := [] } r ∧ r.code = 0x15 := by
  have hrefuse := refuseTakeover_idle { s with folios.waiting := [] }
    (if tget s.folios.map l (mapStart l) = n then 1 else reason) (tget s.folios.map l (mapStart l)) hjob
  refine ⟨exhaustedRecord _ _ _, Eq.trans ?_ hrefuse, rfl⟩
  simp [refuseWaiting, h, hdie]

theorem readyAfterTest_idle (s : State) (h : s.train.restart = none) : readyAfterTest s = s := by simp [readyAfterTest, h]

/-- A Folio that passes while none waits is a spare. -/
theorem toSpare_free (s : State) (n : Nat) (h : s.folios.waiting = []) : toSpare s n = setFolioState s n 1 := by
  have hwaiting : (setFolioState s n 1).folios.waiting = [] :=
    (congrArg (·.waiting) ((Undisturbed.refl s).setFolioState n 1).folios).trans h
  simp [toSpare, waitingOn, hwaiting]

/-- A logical Folio that waits on the die takes the Folio that passes, without a job. -/
theorem toSpare_taken (s : State) (n l : Nat) (h : s.folios.waiting = [l]) (hdie : l / 16 = n / 17) (hjob : jobExists s = false) :
    toSpare s n = spareTakes (setFolioState s n 1) n l := by
  have hset := (Undisturbed.refl s).setFolioState n 1
  have hwaiting : (setFolioState s n 1).folios.waiting = [l] := (congrArg (·.waiting) hset.folios).trans h
  obtain ⟨_, _, _, hleft, _⟩ := spareTakes_frame (setFolioState s n 1) n l ((jobExists_congr hset.glob).trans hjob)
  have hnone : (spareTakes (setFolioState s n 1) n l).folios.waiting = [] := by rw [hleft, hwaiting]; simp
  have hfirst : waitingOn (setFolioState s n 1) (n / 17) = some l := by simp [waitingOn, hwaiting, hdie]
  simp only [toSpare, hfirst, refuseWaiting_none _ n 1 hnone]

theorem toQuarantine_free (s : State) (n reason : Nat) (h : s.folios.waiting = []) :
    toQuarantine s n reason = setFolioState s n 3 :=
  refuseWaiting_none _ n reason ((congrArg (·.waiting) ((Undisturbed.refl s).setFolioState n 3).folios).trans h)

/-- The record of a test that fails: its first failing pattern, their count and the signature (R358). -/
def failureRecord (n detail : Nat) : FaultRec :=
  { code := 0x16, sev := 3, folio := n, valid := 2, detail := detail, src := 6, key := n }

/-- The record of a test without a verdict. -/
def verdictlessRecord (n : Nat) : FaultRec :=
  { code := 0x0F, sev := 1, folio := n, valid := 2, detail := 1, src := 6, key := n }

/-- A state whose test of Folio `n` has passed and ended, but for what that test makes of the Folio. -/
theorem passed_undisturbed (s : State) (n : Nat) :
    Undisturbed { s with scan.running := none } (endTest (devEvent s 0x50 1) n 0 0) :=
  (devEvent_wireOnly s 0x50 1).report.undisturbed.endTest n 0 0

/-- A test that passes while no logical Folio waits. -/
theorem opTestComplete_pass_free (s : State) (n : Nat) (hrun : s.scan.running = some n) (hwaiting : s.folios.waiting = [])
    (hrestart : s.train.restart = none) :
    Undisturbed (putState { s with scan.running := none } n 1) (opTestComplete s .pass) := by
  have hpassed := passed_undisturbed s n
  have hset := hpassed.setFolioState n 1
  have hfree := toSpare_free _ n ((congrArg (·.waiting) hpassed.folios).trans hwaiting)
  have hidle := readyAfterTest_idle _ ((congrArg (·.restart) hset.train).trans hrestart)
  simp only [opTestComplete, hrun, hfree, hidle]
  exact hset

/-- A test that passes while one logical Folio of the die waits, without a job. -/
theorem opTestComplete_pass_taken (s : State) (n l : Nat) (hrun : s.scan.running = some n) (hwaiting : s.folios.waiting = [l])
    (hdie : l / 16 = n / 17) (hrestart : s.train.restart = none) (hjob : jobExists s = false) :
    (folio (opTestComplete s .pass) n).state = 0 ∧ physOf (opTestComplete s .pass) l = some n ∧
      (opTestComplete s .pass).folios.waiting = [] ∧ (opTestComplete s .pass).flt = s.flt := by
  have hpassed := passed_undisturbed s n
  have hset := hpassed.setFolioState n 1
  have htaken := toSpare_taken _ n l ((congrArg (·.waiting) hpassed.folios).trans hwaiting) hdie
    ((jobExists_congr hpassed.glob).trans hjob)
  obtain ⟨hstate, _, hphys, hleft, hflt, _, _, htrain⟩ := spareTakes_frame _ n l ((jobExists_congr hset.glob).trans hjob)
  have hidle := readyAfterTest_idle _ ((congrArg (·.restart) (htrain.trans hset.train)).trans hrestart)
  simp only [opTestComplete, hrun, htaken, hidle]
  refine ⟨hstate, hphys, ?_, hflt.trans hset.flt⟩
  rw [hleft, (congrArg (·.waiting) hset.folios).trans hwaiting]
  simp

/-- A test that fails while no logical Folio waits. -/
theorem opTestComplete_fail (s : State) (n a b r : Nat) (hrun : s.scan.running = some n) (hwaiting : s.folios.waiting = [])
    (hla : a < 2 ^ 16) (hlb : b < 2 ^ 16) (hlr : r < 2 ^ 32) :
    Undisturbed
      (putState { s with flt := (raiseFault s (failureRecord n (a + b * 2 ^ 16 + r * 2 ^ 32))).flt, scan.running := none } n 3)
      (opTestComplete s (.fail a b r)) := by
  have hended := ((raiseFault_undisturbed s (failureRecord n (a + b * 2 ^ 16 + r * 2 ^ 32))).endTest n 0x16
    (a + b * 2 ^ 16 + r * 2 ^ 32)).trans (recordQuarantine_undisturbed _ n)
  have hfree := toQuarantine_free _ n 2 ((congrArg (·.waiting) hended.folios).trans hwaiting)
  unfold failureRecord at hfree
  simp only [opTestComplete, hrun, Nat.mod_eq_of_lt hla, Nat.mod_eq_of_lt hlb, Nat.mod_eq_of_lt hlr, hfree]
  exact hended.setFolioState n 3

/-- A test without a verdict of a Folio that was quarantined, while one logical Folio of the die waits, without a job. -/
theorem opTestComplete_inconclusive (s : State) (n l : Nat) (hrun : s.scan.running = some n) (hwaiting : s.folios.waiting = [l])
    (hdie : l / 16 = n / 17) (hjob : jobExists s = false) (hbefore : (folio s n).before = 3) :
    (folio (opTestComplete s .inconclusive) n).state = 3 ∧ (opTestComplete s .inconclusive).folios.waiting = [] ∧
      rd (opTestComplete s .inconclusive).flt.last 0 1 = 0x15 ∧ (opTestComplete s .inconclusive).scan.available = false := by
  have hset := (((raiseFault_undisturbed s (verdictlessRecord n)).endTest n 0x0F 1).testsClosed).setFolioState n 3
  obtain ⟨r, hrefuse, hcode⟩ := refuseWaiting_one _ n 1 l ((congrArg (·.waiting) hset.folios).trans hwaiting) hdie
    ((jobExists_congr hset.glob).trans hjob)
  have hop : opTestComplete s .inconclusive = refuseWaiting (setFolioState
      (testsClosed (endTest (raiseFault s (verdictlessRecord n)) n 0x0F 1)) n 3) n 1 := by
    simp only [opTestComplete, hrun, hbefore, if_true, toQuarantine, verdictlessRecord]
  rw [hop, hrefuse]
  generalize setFolioState _ n 3 = t at *
  have hraise := raiseFault_undisturbed { t with folios.waiting := [] } r
  refine ⟨?_, congrArg (·.waiting) hraise.folios, ?_, (congrArg (·.available) hraise.scan).trans (congrArg (·.available) hset.scan)⟩
  · rw [folio_congr (congrArg (·.phys) hraise.folios)]
    exact congrArg (·.state) hset.folio_self
  · rw [raiseFault_code, hcode]

/-- A test of a Folio that carries nothing isolates it (R358). -/
theorem beginTest_frame (s : State) (n : Nat) (h : (folio s n).state ≠ 0) :
    folio (beginTest s n) n = { folio s n with before := (folio s n).state, state := 2 } ∧
      (∀ j, j ≠ n → folio (beginTest s n) j = folio s j) ∧
      (beginTest s n).scan =
        { s.scan with running := some n, asked := none, due := s.scan.due.filter (fun d => decide (d.folio ≠ n)) } ∧
      (beginTest s n).job = s.job ∧ (beginTest s n).frame = s.frame := by
  have hset := (Undisturbed.refl (setFolio s n { folio s n with before := (folio s n).state })).setFolioState n 2
  unfold beginTest
  dsimp only
  rw [if_pos h]
  generalize setFolioState _ n 2 = t at *
  exact ⟨hset.folio_self.trans (by rw [folio_setFolio]), fun j hj => (hset.folio_ne hj).trans (folio_setFolio_ne s n j _ hj),
    congrArg (fun x : Scan => { x with running := some n, asked := none, due := x.due.filter (fun d => decide (d.folio ≠ n)) })
      hset.scan, hset.job, hset.frame⟩

/-- TEST_START of the only due test, of a spare, between frames. -/
theorem opTestStart_only (s : State) (n : Nat) (d : DueTest) (hdue : s.scan.due = [d]) (hd : d.folio = n)
    (hspare : (folio s n).state = 1) (hclaimed : s.glob.jobState = 2) (hopen : testsOpen s = true) (hlive : s.frame.live = false) :
    opTestStart s n = beginTest s n := by
  have hmay : mayStart s d = true := by simp [mayStart, hd, hspare, hclaimed, hlive]
  simp [opTestStart, hopen, hdue, hmay, firstDue, hd, hspare]

/-! ### Retraining (R193, R197, R200) -/

/-- The training of a vault keeps what memory holds; no row of it is left on the repair list. -/
theorem trainVault_frame (s : State) (v : Nat) :
    tget (trainVault s v).mem.vaultTrained v 0 = tget s.mem.vaultTrained v 0 + 1 ∧ (trainVault s v).mem.cells = s.mem.cells ∧
      (trainVault s v).mem.full = s.mem.full ∧ (∀ x ∈ (trainVault s v).mem.repairList, x.1 ≠ v) ∧
      (trainVault s v).frame = s.frame := by
  have hlist (x : Nat × Nat) (hx : x ∈ s.mem.repairList.filter (fun x => decide (x.1 ≠ v))) : x.1 ≠ v := by
    simpa using (List.mem_filter.mp hx).2
  unfold trainVault
  dsimp only
  split <;> exact ⟨tget_tput_self _ _ _ _, rfl, rfl, hlist, rfl⟩

/-- R357 to R361, R193, R197, R200: the tests and the retraining of O60. -/
theorem testsRunAndMemoryRetrains : Claim.TestsRunAndMemoryRetrains := by
  unfold Claim.TestsRunAndMemoryRetrains
  intro s n v c a b r ha hn hv hc hlp
  have hphys : isPhys n = true := by simpa [isPhys] using hn
  have hcomplete (o : ScanOutcome) : exec (.testComplete o) s = .next (opTestComplete s o) :=
    whenAlive_next (.testComplete o) _ _ rfl ha
  refine ⟨fun hperiod havail hdue => ?_, fun d hdue hd => ?_, fun d hdue hd hspare hclaimed hopen hlive => ?_,
    fun hrun _ _ _ hwaiting hrestart hla hlb hlr => ⟨?_, ?_⟩, fun l hrun _ _ hwaiting _ hdie hrestart hjob =>
      ⟨?_, fun hbefore => ?_⟩, fun hjob => ⟨?_, ?_⟩⟩
  · refine (whenAlive_next (.testPeriodDue n) s (opTestPeriod s n) hphys ha).trans ?_
    simp [opTestPeriod, hperiod, havail, addDue, hdue]
  · refine (whenAlive_next (.testDeadlinePassed n) s _ hphys ha).trans ?_
    simp [hdue, hd]
  · have hcarries : (folio s n).state ≠ 0 := by simp [hspare]
    obtain ⟨hself, hothers, hscan, hjob, hframe⟩ := beginTest_frame s n hcarries
    refine ⟨_, (whenAlive_next (.testStart n) s _ hphys ha).trans
      (congrArg _ (opTestStart_only s n d hdue hd hspare hclaimed hopen hlive)), ?_⟩
    exact ⟨congrArg (·.state) hself, (congrArg (·.before) hself).trans hspare, congrArg (·.running) hscan,
      (congrArg (·.due) hscan).trans (by simp [hdue, hd]), hothers, hjob, hframe⟩
  · have hkeep := opTestComplete_pass_free s n hrun hwaiting hrestart
    exact ⟨_, hcomplete .pass, congrArg (·.state) hkeep.folio_self, hkeep.scan, hkeep.flt, hkeep.job, fun j hj => hkeep.folio_ne hj⟩
  · have hkeep := opTestComplete_fail s n a b r hrun hwaiting hla hlb hlr
    refine ⟨_, hcomplete (.fail a b r), congrArg (·.state) hkeep.folio_self, hkeep.scan, ?_, ?_, hkeep.job,
      fun j hj => hkeep.folio_ne hj⟩
    · rw [hkeep.flt]
      exact raiseFault_code s _
    · rw [hkeep.flt]
      refine (raiseFault_detail s _).trans (Nat.mod_eq_of_lt ?_)
      simp only [failureRecord]
      omega
  · exact ⟨_, hcomplete .pass, opTestComplete_pass_taken s n l hrun hwaiting hdie hrestart hjob⟩
  · exact ⟨_, hcomplete .inconclusive, opTestComplete_inconclusive s n l hrun hwaiting hdie hjob hbefore⟩
  · have hop : opVaultRetrain s v = trainVault s v := by simp [opVaultRetrain, hjob]
    have hwf : (Instr.vaultRetrain v).wf = true := by simpa [Instr.wf] using hv
    exact ⟨_, (whenAlive_next (.vaultRetrain v) s _ hwf ha).trans (congrArg _ hop), trainVault_frame s v⟩
  · have hop : opLpRetrain s c = trainChannel s c := by simp [opLpRetrain, hjob, Nat.not_le.mpr hc]
    have hwf : (Instr.lpChannelRetrain c).wf = true := by simpa [Instr.wf] using hc.trans_le hlp
    exact ⟨_, (whenAlive_next (.lpChannelRetrain c) s _ hwf ha).trans (congrArg _ hop), rfl, tget_tput_self _ _ _ _⟩

/-- Settles O60: what fails is isolated and its spare takes over; tests end as their outcome says, and training keeps memory. -/
theorem failuresAndTests : Obligations.FailuresAndTests := ⟨foliosAndCoresThatFail, testsRunAndMemoryRetrains⟩

end Sys2Proof.Machine
end

-- The proofs of the family of chapter 2: frames, the issue loop, overrun and refresh, the seam, and the load of a Ductus.
section
/-! SUPPORT. The frame and its seam: what each command of them does, and what it leaves alone. -/

namespace Sys2Proof.Machine

open Sys2Proof

/-! ### What only counts -/

/-- `t` differs from `s` in its counters only. -/
def CountOnly (s t : State) : Prop := ∃ cnt, t = { s with cnt := cnt }

theorem CountOnly.refl (s : State) : CountOnly s s := ⟨_, rfl⟩

theorem CountOnly.trans {s t u : State} (h : CountOnly s t) (g : CountOnly t u) : CountOnly s u := by
  obtain ⟨_, rfl⟩ := h
  obtain ⟨_, rfl⟩ := g
  exact ⟨_, rfl⟩

/-- A fold of steps each of which only counts. -/
theorem CountOnly.foldl {α : Type} (f : State → α → State) (hf : ∀ u x, CountOnly u (f u x)) (l : List α) (s : State) :
    CountOnly s (l.foldl f s) :=
  List.foldlRecOn l f (CountOnly.refl s) (fun t ht x _ => ht.trans (hf t x))

/-- The same, where each step counts only on a condition. -/
theorem CountOnly.foldl_if {α : Type} (p : State → α → Bool) (f : State → α → State) (hf : ∀ u x, CountOnly u (f u x))
    (l : List α) (s : State) : CountOnly s (l.foldl (fun t x => if p t x then f t x else t) s) := by
  refine .foldl _ (fun u x => ?_) l s
  split
  · exact hf u x
  · exact .refl u

theorem countIn_countOnly (s : State) (lo hi : Nat) (f : Counter → Nat) : CountOnly s (countIn s lo hi f) := ⟨_, rfl⟩

theorem perPart_countOnly (m a e : Nat) (f : State → Nat → Nat → State) (hf : ∀ u lo k, CountOnly u (f u lo k))
    (s : State) : CountOnly s (perPart m a e f s) := .foldl _ (fun u _ => hf u _ _) _ s

theorem countLines_countOnly (s : State) (a n code : Nat) : CountOnly s (countLines s a n code) := by
  unfold countLines
  split
  · exact .refl s
  · split
    · exact perPart_countOnly _ _ _ _ (fun u _ _ => countIn_countOnly u _ _ _) s
    · split
      · exact perPart_countOnly _ _ _ _ (fun u _ _ => countIn_countOnly u _ _ _) s
      · exact .refl s

/-! ### Reads and writes with their line counts (R194, R195) -/

/-- `t` is `s` with some errors of lines corrected and counted, and the counters. -/
def Corrected (s t : State) : Prop :=
  ∃ errs corr corrCount repairList cnt,
    t = { s with mem := { s.mem with errs := errs, corr := corr, corrCount := corrCount, repairList := repairList }, cnt := cnt }

theorem Corrected.trans {s t u : State} (h : Corrected s t) (g : Corrected t u) : Corrected s u := by
  obtain ⟨_, _, _, _, _, rfl⟩ := h
  obtain ⟨_, _, _, _, _, rfl⟩ := g
  exact ⟨_, _, _, _, _, rfl⟩

theorem CountOnly.corrected {s t : State} (h : CountOnly s t) : Corrected s t := by
  obtain ⟨_, rfl⟩ := h
  exact ⟨_, _, _, _, _, rfl⟩

theorem countCorrected_countOnly (s : State) (a : Nat) : CountOnly s (countCorrected s a) := by
  unfold countCorrected
  split
  · exact countIn_countOnly s _ _ _
  · split
    · exact countIn_countOnly s _ _ _
    · exact .refl s

theorem correctLine_corrected (s : State) (l : Nat) : Corrected s (correctLine s l) := by
  have hcount (t : State) (h : Corrected s t) : Corrected s (countCorrected t (64 * l)) :=
    h.trans (countCorrected_countOnly t _).corrected
  unfold correctLine
  dsimp only
  split
  · exact (hcount _ ⟨_, _, _, _, _, rfl⟩).trans ⟨_, _, _, _, _, rfl⟩
  · exact hcount _ ⟨_, _, _, _, _, rfl⟩

/-- A write is `poke` where the lines that it covers in part have been read and corrected. -/
theorem store_eq_poke (s : State) (a : Nat) (bs : List Byte) : ∃ u, Corrected s u ∧ store s a bs = poke u a bs :=
  ⟨_, List.foldlRecOn _ correctLine (countLines_countOnly s a bs.length 0x63).corrected
    (fun t ht l _ => ht.trans (correctLine_corrected t l)), rfl⟩

/-- A write concerns memory and the counters. -/
theorem store_frame (s : State) (a : Nat) (bs : List Byte) : ∃ mem cnt, store s a bs = { s with mem := mem, cnt := cnt } := by
  obtain ⟨u, ⟨_, _, _, _, _, rfl⟩, hstore⟩ := store_eq_poke s a bs
  exact ⟨_, _, hstore⟩

/-- A write leaves every byte outside its range alone. -/
theorem store_outside (s : State) (a : Nat) (bs : List Byte) : SameOutside s (store s a bs) a bs.length := by
  intro x hx
  obtain ⟨u, ⟨_, _, _, _, _, rfl⟩, hstore⟩ := store_eq_poke s a bs
  rw [hstore, poke_outside _ a x bs hx]
  rfl

theorem failLines_of_good (s : State) (a n : Nat) (h : s.mem.bad = []) : failLines s a n = [] := by simp [failLines, h]

/-- A write to memory without uncorrectable lines is read back. -/
theorem peek_store (s : State) (a : Nat) (bs : List Byte) (h : s.mem.bad = []) : peek (store s a bs) a bs.length = bs := by
  obtain ⟨u, ⟨_, _, _, _, _, rfl⟩, hstore⟩ := store_eq_poke s a bs
  rw [hstore]
  exact peek_poke _ a bs (failLines_of_good _ a _ h)

/-! ### LOAD_DUCTUS (R42) -/

@[simp] theorem readBytes_length (c : List Host.Cell) (a n : Nat) : (readBytes c a n).length = n := by
  induction n generalizing a with
  | zero => rfl
  | succ n ih => simp [readBytes, ih]

/-- Device memory and the ring host's memory hold the same bytes. -/
theorem memBytes_eq_readBytes_iff (m : Mem) (c : List Host.Cell) (a b n : Nat) :
    memBytes m a n = readBytes c b n ↔ ∀ i < n, memByte m (a + i) = readByte c (b + i) := by
  induction n generalizing a b with
  | zero => simp [memBytes, readBytes]
  | succ n ih =>
    rw [memBytes, readBytes, List.cons.injEq, ih, Nat.forall_lt_succ_left]
    simp [Nat.add_assoc, Nat.add_comm 1]

/-- What was copied whole was copied in each part. -/
theorem peek_part_of_copy {s t : State} {a b n off k : Nat} (h : peek t a n = hostPeek s b n) (hpart : off + k ≤ n) :
    peek t (a + off) k = hostPeek s (b + off) k := by
  rw [peek, hostPeek, memBytes_eq_readBytes_iff] at h ⊢
  intro i hi
  rw [Nat.add_assoc, Nat.add_assoc]
  exact h (off + i) (by omega)

/-- A descriptor that is admitted in a state that it is for, and has no reserved byte set, runs (R287, R292 to R294). -/
theorem gate_admitted (s : State) (h : Hdr) (restrictedOk : Bool) (states : List Nat) (run : State) (hadm : Admitted s h)
    (hstate : s.glob.jobState ∈ states) : gate s h restrictedOk states none run = run := by
  obtain ⟨_, hflags, hcq, hboot, howner, hfree, hdeg, haway⟩ := hadm
  have hhead : headBad h = none := by simp [headBad, Nat.not_le.mpr hflags, Nat.not_le.mpr hcq]
  have hsession : ¬ (s.job.session ≠ 0 ∧ h.owner ≠ s.job.session) := by tauto
  simp [gate, hdeg, haway, hhead, hboot, hsession, hfree, hstate]

/-- LOAD_DUCTUS of an admitted descriptor whose addresses have no reserved bit set. -/
theorem exec_loadDuctus (s : State) (h : Hdr) (src bytes dst : Nat) (ha : alive s = true) (hadm : Admitted s h)
    (hstate : s.glob.jobState ∈ onward) (hhost : s.rings.host = 0) (hsrc : src < 2 ^ 64) (hbytes : bytes < 2 ^ 32)
    (hdst : dst < 2 ^ 48) : exec (.loadDuctus h src bytes dst) s = .next (opLoadDuctus s h src bytes dst) := by
  have hwf : (Instr.loadDuctus h src bytes dst).wf = true := by
    simp only [Instr.wf, hadm.1, fits, Bool.true_and, Bool.and_eq_true, decide_eq_true_eq]
    omega
  have h48 : fld dst 48 8 = 0 := by simp only [fld]; omega
  have h56 : fld dst 56 8 = 0 := by simp only [fld]; omega
  have hbad : firstOf [none, hostHi s 16 src, hiAt 32 dst] = none := by simp [firstOf, hostHi, hhost, hiAt, h48, h56]
  refine (whenAlive_next _ s (runLoadDuctus s h none src bytes dst) hwf ha).trans (congrArg _ ?_)
  rw [runLoadDuctus, hbad]
  exact gate_admitted s h false onward _ hadm hstate

/-- `s` with a Ductus copied to `dst`, and none of which a byte lay there. -/
def copiedDuctus (s : State) (src bytes dst : Nat) : State :=
  { store s dst (hostPeek s src bytes) with
    ductus := (store s dst (hostPeek s src bytes)).ductus.filter
      (fun e => decide (e.addr + e.bytes ≤ dst) || decide (dst + bytes ≤ e.addr)) }

/-- The entry of the Ductus that lies at `src`. -/
def ductusEntry (s : State) (src bytes dst : Nat) : Loaded :=
  { id := leNat (hostPeek s (src + 4) 2), addr := dst, bytes := bytes }

/-- The number of the first condition of the load check that the copy fails. -/
def copyCheck (s : State) (src bytes dst : Nat) : Nat :=
  loadCheck (copiedDuctus s src bytes dst) (ductusEntry s src bytes dst) (fbInForce s) (wellInForce s)

/-- `t` with an entry in the place of those of its id. -/
def withEntry (t : State) (d : Loaded) : State := { t with ductus := t.ductus.filter (fun x => x.id ≠ d.id) ++ [d] }

theorem copiedDuctus_eq (s : State) (src bytes dst : Nat) :
    copiedDuctus s src bytes dst = { store s dst (hostPeek s src bytes) with
      ductus := s.ductus.filter (fun e => decide (e.addr + e.bytes ≤ dst) || decide (dst + bytes ≤ e.addr)) } := by
  obtain ⟨_, _, hstore⟩ := store_frame s dst (hostPeek s src bytes)
  simp only [copiedDuctus, hstore]

theorem copiedDuctus_frame (s : State) (src bytes dst : Nat) (hgood : s.mem.bad = []) :
    peek (copiedDuctus s src bytes dst) dst bytes = hostPeek s src bytes ∧
      SameOutside s (copiedDuctus s src bytes dst) dst bytes ∧ (copiedDuctus s src bytes dst).frame = s.frame ∧
      (copiedDuctus s src bytes dst).job = s.job ∧ (copiedDuctus s src bytes dst).flt = s.flt := by
  have hlen : (hostPeek s src bytes).length = bytes := readBytes_length _ _ _
  have hread := peek_store s dst (hostPeek s src bytes) hgood
  have hout := store_outside s dst (hostPeek s src bytes)
  rw [hlen] at hread hout
  refine ⟨hread, hout, ?_⟩
  obtain ⟨_, _, hstore⟩ := store_frame s dst (hostPeek s src bytes)
  simp only [copiedDuctus, hstore, and_self]

/-- A load to memory without uncorrectable lines is the copy, then the entry or the rejection that its check gives. -/
theorem opLoadDuctus_checked (s : State) (h : Hdr) (src bytes dst : Nat) (hbytes : 6 ≤ bytes)
    (hinst : installed s dst bytes = true) (hgood : s.mem.bad = [])
    (hfree : (rotation s).any (fun d => d.id == leNat (hostPeek s (src + 4) 2)) = false) :
    opLoadDuctus s h src bytes dst =
      if copyCheck s src bytes dst ≠ 0 then rejectLoad (copiedDuctus s src bytes dst) h (copyCheck s src bytes dst)
      else complete (withEntry (copiedDuctus s src bytes dst) (ductusEntry s src bytes dst)) h 0 0 := by
  obtain ⟨hread, _⟩ := copiedDuctus_frame s src bytes dst hgood
  have hid : peekN (copiedDuctus s src bytes dst) (dst + 4) 2 = leNat (hostPeek s (src + 4) 2) :=
    congrArg leNat (peek_part_of_copy hread hbytes)
  unfold copiedDuctus at hid
  simp only [opLoadDuctus, hfree, Bool.and_false, Bool.false_eq_true, if_false, hinst, Bool.not_true,
    failLines_of_good s dst bytes hgood, hid]
  rfl

/-- A choice is bounded by what bounds both branches. -/
theorem ite_le_of_both {p : Prop} [Decidable p] {a b n : Nat} (ha : a ≤ n) (hb : b ≤ n) : (if p then a else b) ≤ n := by
  split <;> assumption

/-- The load check knows thirteen conditions. -/
theorem loadCheck_le (s : State) (d : Loaded) (fb well : Nat) : loadCheck s d fb well ≤ 13 := by
  unfold loadCheck
  repeat' refine ite_le_of_both ?_ ?_
  all_goals decide

/-- A rejected load adds its record and its completion. -/
theorem rejectLoad_reportOnly (s : State) (h : Hdr) (n : Nat) :
    ReportOnly { s with flt := (raiseFault s { code := 0x11, sev := 1, detail := n, src := 6 }).flt } (rejectLoad s h n) :=
  (raiseFault_reportOnly s _).trans (complete_reportOnly _ h 0x11 n)

/-- Settles O36: the load is its copy, and then what its check gives. -/
theorem ductusIsLoadedAndChecked : Obligations.DuctusIsLoadedAndChecked := by
  unfold Obligations.DuctusIsLoadedAndChecked
  intro s h src bytes dst ha hadm hlo hhi hhost hsrc hmin hmax hdst hinst hgood hfree
  have hstate : s.glob.jobState ∈ onward := by simp only [onward, List.mem_cons, List.not_mem_nil]; omega
  have hexec := exec_loadDuctus s h src bytes dst ha hadm hstate hhost hsrc hmax hdst
  rw [opLoadDuctus_checked s h src bytes dst hmin hinst hgood hfree] at hexec
  obtain ⟨hread, hout, hframe, hjob, hflt⟩ := copiedDuctus_frame s src bytes dst hgood
  rw [← copiedDuctus_eq]
  intro c d n
  change exec _ s = .next (if n ≠ 0 then rejectLoad c h n else complete (withEntry c d) h 0 0) at hexec
  refine ⟨_, hexec, ?_⟩
  by_cases hn : n = 0
  · obtain ⟨_, _, _, _, _, _, _, hdone⟩ := complete_reportOnly (withEntry c d) h 0 0
    rw [if_neg (not_not.mpr hn), hdone]
    refine ⟨hread, hout, hframe, hjob, fun _ => ⟨by simp [withEntry], fun e he hid => ?_, hflt⟩, fun hne => absurd hn hne⟩
    rcases List.mem_append.mp he with hold | hnew
    · exact absurd hid (by simpa using (List.mem_filter.mp hold).2)
    · simpa using hnew
  · obtain ⟨_, _, _, _, _, _, _, hreject⟩ := rejectLoad_reportOnly c h n
    obtain ⟨_, _, hseq, _⟩ := raiseFault_frame c { code := 0x11, sev := 1, detail := n, src := 6 }
    have hsmall : n < 2 ^ 64 := (loadCheck_le c d _ _).trans_lt (by decide)
    rw [if_pos hn, hreject]
    refine ⟨hread, hout, hframe, hjob, fun h0 => absurd h0 hn, fun _ => ⟨rfl, hseq.trans (by rw [hflt]), ?_, ?_⟩⟩
    · exact raiseFault_code c _
    · exact (raiseFault_detail c _).trans (Nat.mod_eq_of_lt hsmall)

/-! ### What reads count, where no line has an error -/

theorem noteRead_countOnly (s : State) (a n : Nat) (hcorr : s.mem.corr = []) : CountOnly s (noteRead s a n) := by
  have hnone : noteRead s a n = countLines s a n 0x62 := by simp [noteRead, hcorr]
  rw [hnone]
  exact countLines_countOnly s a n 0x62

theorem badLine_of_good (s : State) (a n : Nat) (hbad : s.mem.bad = []) : badLine s a n = none := by simp [badLine, hbad]

theorem fwRead_countOnly (s : State) (a n : Nat) (hbad : s.mem.bad = []) (hcorr : s.mem.corr = []) :
    CountOnly s (fwRead s a n) := by
  rw [fwRead, badLine_of_good s a n hbad]
  exact noteRead_countOnly s a n hcorr

theorem readDuctus_countOnly (s : State) (hbad : s.mem.bad = []) (hcorr : s.mem.corr = []) : CountOnly s (readDuctus s) := by
  unfold readDuctus
  split
  · split
    · exact fwRead_countOnly s _ _ hbad hcorr
    · exact .refl s
  · exact .refl s

/-! ### What reports leave of the rings -/

theorem raiseVector_rings (s : State) (v : Nat) : (raiseVector s v).rings = s.rings := by
  have hsend (u : State) (a : Nat) (bs : List Byte) : (hostSend u a bs).rings = u.rings := by
    unfold hostSend
    split
    · refine List.foldlRecOn (motive := fun t : State => t.rings = u.rings) (payloads bs) _ rfl (fun t ht x _ => ?_)
      obtain ⟨_, _, _, h⟩ := sendPacket_wireOnly t 1 (hostPacket u 0 (a + x.1) x.2)
      rw [h]
      exact ht
    · split <;> rfl
  unfold raiseVector
  split
  · exact hsend s _ _
  · split
    · rfl
    · split <;> rfl

/-- `t` has the rings of `s` but for the completion rings and the records on their way. -/
def RingsKept (s t : State) : Prop :=
  ∃ cq writes recNo notices, t.rings = { s.rings with cq := cq, writes := writes, recNo := recNo, notices := notices }

theorem RingsKept.refl (s : State) : RingsKept s s := ⟨_, _, _, _, rfl⟩

theorem RingsKept.trans {s t u : State} (h : RingsKept s t) (g : RingsKept t u) : RingsKept s u := by
  obtain ⟨_, _, _, _, h⟩ := h
  obtain ⟨_, _, _, _, g⟩ := g
  exact ⟨_, _, _, _, by rw [g, h]⟩

theorem RingsKept.of_eq {s t : State} (h : t.rings = s.rings) : RingsKept s t := ⟨_, _, _, _, h⟩

theorem sendRecord_ringsKept (ring no : Nat) (waits : Bool) (s : State) (x : Nat × List Byte) :
    RingsKept s (sendRecord ring no waits s x) := by
  have hsent (pkt : Packet) :
      (if waits = true then ((newTag s).2, true) else sendPacket (newTag s).2 1 pkt).1.rings = s.rings := by
    cases waits with
    | true => rfl
    | false =>
      obtain ⟨_, _, _, h⟩ := sendPacket_wireOnly (newTag s).2 1 pkt
      exact congrArg (·.rings) h
  exact ⟨_, _, _, _, by simp only [sendRecord, hsent]; rfl⟩

theorem hostRecord_ringsKept (s : State) (ring : Nat) (body : List (Nat × List Byte)) (a : Nat) (head : List Byte)
    (vec : Option Nat) : RingsKept s (hostRecord s ring body a head vec) := by
  have hfold (waits : Bool) (l : List (Nat × List Byte)) (t : State) :
      RingsKept t (l.foldl (sendRecord ring s.rings.recNo waits) t) :=
    List.foldlRecOn l _ (RingsKept.refl t) (fun u hu x _ => hu.trans (sendRecord_ringsKept ring _ waits u x))
  unfold hostRecord
  split
  · exact ((hfold false _ s).trans (hfold _ _ _)).trans ⟨_, _, _, _, rfl⟩
  · have hpoke : (hostPoke (body.foldl (fun u b => hostPoke u b.1 b.2) s) a head).rings = s.rings :=
      List.foldlRecOn (motive := fun t : State => t.rings = s.rings) body _ rfl (fun _ ht _ _ => ht)
    cases vec with
    | none => exact .of_eq hpoke
    | some v => exact .of_eq ((raiseVector_rings _ v).trans hpoke)

theorem pushCq_ringsKept (s : State) (r : Nat) (bs : List Byte) (irq reply : Bool) : RingsKept s (pushCq s r bs irq reply) := by
  have hset (q : OutRing) : RingsKept s (setCq s r q) := ⟨_, _, _, _, rfl⟩
  unfold pushCq
  dsimp only
  split
  · exact (hset _).trans (hostRecord_ringsKept _ _ _ _ _ _)
  · split
    · exact hset _
    · exact (hset _).trans (.of_eq (raiseVector_rings _ 6))

/-! ### FRAME_TICK: what a tick does before frames start -/

/-- `t` differs from `s` only in the counters, the link layers and what waits at the ports. -/
def PortsOnly (s t : State) : Prop := ∃ cnt links ports, t = { s with cnt := cnt, links := links, ports := ports }

theorem PortsOnly.trans {s t u : State} (h : PortsOnly s t) (g : PortsOnly t u) : PortsOnly s u := by
  obtain ⟨_, _, _, rfl⟩ := h
  obtain ⟨_, _, _, rfl⟩ := g
  exact ⟨_, _, _, rfl⟩

/-- A fold of steps each of which only concerns ports. -/
theorem PortsOnly.foldl {α : Type} (f : State → α → State) (hf : ∀ u x, PortsOnly u (f u x)) (l : List α) (s : State) :
    PortsOnly s (l.foldl f s) :=
  List.foldlRecOn l f (⟨_, _, _, rfl⟩ : PortsOnly s s) (fun t ht x _ => ht.trans (hf t x))

theorem freeFlit_portsOnly (s : State) (x : Nat × Nat × Bool) : PortsOnly s (freeFlit s x) := by
  unfold freeFlit
  dsimp only
  split <;> exact ⟨_, _, _, rfl⟩

theorem freeHeld_portsOnly (s : State) : PortsOnly s (freeHeld s) := by
  refine .foldl _ (fun u p => ?_) _ s
  have hwaited : PortsOnly u (match (port u p).holdSince with
      | some a => laneSignal u p 0x7A 1 ((u.time.now - a) / unitsPerCycle)
      | none => u) := by
    split <;> exact ⟨_, _, _, rfl⟩
  exact (hwaited.trans (.foldl _ (fun v n => freeFlit_portsOnly v _) _ _)).trans ⟨_, _, _, rfl⟩

theorem timeOfTick_frame (s : State) (n : Nat) : ∃ now, timeOfTick s n = { s with time := { s.time with now := now } } := by
  unfold timeOfTick
  dsimp only
  split
  · exact ⟨_, rfl⟩
  · exact ⟨_, rfl⟩

/-- The tick as frames may start with it. -/
def tickBegun (s : State) : State :=
  devEvent (freeHeld { timeOfTick s (tickNumber s) with
    frame := freshFrame (timeOfTick s (tickNumber s)) (tickNumber s), fab.holdNext := []
    flt.region := (timeOfTick s (tickNumber s)).flt.region ++ (timeOfTick s (tickNumber s)).flt.inSeam, flt.inSeam := [] }) 0x48 1

/-- A tick begins with fresh registers of its frame, and the records of the seam join those of the region. -/
theorem tickBegun_frame (s : State) : ∃ now fab cnt links ports, tickBegun s = { s with
    time := { s.time with now := now }, frame := freshFrame s (tickNumber s), fab := fab
    flt := { s.flt with region := s.flt.region ++ s.flt.inSeam, inSeam := [] }, cnt := cnt, links := links, ports := ports } := by
  obtain ⟨_, htime⟩ := timeOfTick_frame s (tickNumber s)
  unfold tickBegun
  rw [htime]
  obtain ⟨_, _, _, hheld⟩ := freeHeld_portsOnly { s with
    time := { s.time with now := _ }, frame := freshFrame s (tickNumber s), fab.holdNext := []
    flt.region := s.flt.region ++ s.flt.inSeam, flt.inSeam := [] }
  exact ⟨_, _, _, _, _, congrArg (fun t => devEvent t 0x48 1) hheld⟩

/-- The region opens where frames run. -/
def regionOpened (t : State) : State := { t with frame.region := t.frame.live }

/-- A tick between frames, with no packet held, starts what is to start, opens the region, and reads the Ductus. -/
theorem opFrameTick_between (s : State) (hperiod : s.time.period ≠ 0)
    (hbetween : s.frame.live = false ∨ s.frame.seam = true ∧ s.frame.phase = 7) (hheld : s.fab.holdNext = []) :
    opFrameTick s = withBlocked (readDuctus (retryWrites (regionOpened (startFrames (tickBegun s) (tickNumber s))))) := by
  have hrun : (decide (s.time.period = 0) || (s.frame.live && !(s.frame.seam && decide (7 ≤ s.frame.phase)))) = false := by
    rcases hbetween with hlive | ⟨hseam, hphase⟩
    · simp [hperiod, hlive]
    · simp [hperiod, hseam, hphase]
  simp only [opFrameTick, hrun, Bool.false_eq_true, if_false, hheld, List.foldl_nil]
  rfl

theorem retryWrites_none (s : State) (h : s.rings.writes = []) : retryWrites s = s := by
  have hsame : ({ s with rings.writes := [] } : State) = s := by rw [← h]
  unfold retryWrites
  split
  · simp [h, hsame]
  · split
    · simp [h, hsame]
    · rfl

theorem sendWrite_reportOnly (s : State) (x : RecWrite) : ReportOnly s (sendWrite s x) :=
  (sendPacket_wireOnly s 1 _).report.trans ⟨_, _, _, _, _, _, _, rfl⟩

theorem retryWrites_reportOnly (s : State) : ReportOnly s (retryWrites s) := by
  have hdropped (rings : Rings) : ReportOnly s { s with rings := rings } := ⟨_, _, _, _, _, _, _, rfl⟩
  unfold retryWrites
  dsimp only
  split
  · exact (hdropped _).trans (.foldl _ sendWrite_reportOnly _ _)
  · split
    · exact hdropped _
    · exact .refl s

/-- No frame starts while the scheduler core is stopped, nor where the job neither starts nor is paused and no spare waits. -/
theorem startFrames_none (s : State) (n : Nat)
    (h : s.boot.schedDown = true ∨ jobPhase s ≠ 3 ∧ jobPhase s ≠ 5 ∧ s.train.asSpare = none) : startFrames s n = s := by
  unfold startFrames
  rcases h with hdown | ⟨h3, h5, hspare⟩
  · rw [if_pos hdown]
  · simp [h3, h5, spareStarts, hspare]

/-- A tick with which no job starts or resumes: fresh registers of the frame, whose region is open while frames run. -/
theorem opFrameTick_nothingStarts (s : State) (hperiod : s.time.period ≠ 0)
    (hbetween : s.frame.live = false ∨ s.frame.seam = true ∧ s.frame.phase = 7) (hheld : s.fab.holdNext = [])
    (hwrites : s.rings.writes = []) (hbad : s.mem.bad = []) (hcorr : s.mem.corr = [])
    (hnone : s.boot.schedDown = true ∨ jobPhase s ≠ 3 ∧ jobPhase s ≠ 5 ∧ s.train.asSpare = none) :
    ∃ now fab cnt links ports stalls, opFrameTick s = { s with
      time := { s.time with now := now }, fab := fab, cnt := cnt, links := links, ports := ports
      frame := { freshFrame s (tickNumber s) with region := s.frame.live, blocked := s.frame.live && stalls }
      flt := { s.flt with region := s.flt.region ++ s.flt.inSeam, inSeam := [] } } := by
  obtain ⟨now, fab, cnt, links, ports, hbegun⟩ := tickBegun_frame s
  have hstart : startFrames (tickBegun s) (tickNumber s) = tickBegun s := by
    refine startFrames_none _ _ ?_
    rw [hbegun]
    exact hnone
  have hopened : retryWrites (regionOpened (tickBegun s)) = regionOpened (tickBegun s) := by
    refine retryWrites_none _ ?_
    rw [hbegun]
    exact hwrites
  have hread : CountOnly (regionOpened (tickBegun s)) (readDuctus (regionOpened (tickBegun s))) := by
    rw [hbegun]
    exact readDuctus_countOnly _ hbad hcorr
  obtain ⟨_, hread⟩ := hread
  rw [opFrameTick_between s hperiod hbetween hheld, hstart, hopened, hread, hbegun]
  exact ⟨_, _, _, _, _, _, rfl⟩

/-! ### FRAME_TICK: the job starts (R296, R229) -/

theorem chain_congr {s t : State} (hmem : t.mem = s.mem) (hductus : t.ductus = s.ductus) (n id : Nat) :
    chain t n id = chain s n id := by
  induction n generalizing id with
  | zero => rfl
  | succ n ih => simp only [chain, loadedOf, hdrField, peekN, peek, hmem, hductus, ih]

/-- The Ductus of a frame depends on memory, on what is loaded, and on the job. -/
theorem overlayAt_congr {s t : State} (hmem : t.mem = s.mem) (hductus : t.ductus = s.ductus) (hblk : t.job.blk = s.job.blk)
    (hjob : jobExists t = jobExists s) (f f0 : Nat) : overlayAt t f f0 = overlayAt s f f0 := by
  have hchain := chain_congr hmem hductus
  simp only [overlayAt, rotation, overlays, loadedOf, hdrField, peekN, peek, hmem, hductus, hblk, hjob, hchain]

/-- Frames of the job begin: what it sets, with the tags of the first Ductus. -/
theorem goLive_frame (s : State) (n f0 : Nat) : ∃ full seen, goLive s n f0 = { s with
    mem := { s.mem with full := full }, job := { s.job with f0 := f0 }
    train := { s.train with paused := false, pausedRb := false }
    frame := { s.frame with live := true, current := overlayAt s n f0, next := none, aborted := false, seen := seen } } := by
  have htags (id : Option Nat) : ∃ full seen,
      loadTags s id = { s with mem := { s.mem with full := full }, frame := { s.frame with seen := seen } } := by
    unfold loadTags
    split <;> exact ⟨_, _, rfl⟩
  unfold goLive
  dsimp only
  split
  · exact ⟨_, _, rfl⟩
  · obtain ⟨_, _, h⟩ := htags (overlayAt s n f0)
    rw [h]
    exact ⟨_, _, rfl⟩

/-- A first step without a checkpoint or a Colophon digest due is no more than the step. -/
theorem firstStep_plain (s : State) (hheld : s.rings.held = []) (hretake : s.train.retake = none)
    (hckpt : s.job.blk.ckptInterval = 0) (hcolo : s.colo.interval = 0) : firstStep s = s := by
  have hsame : ({ s with train.retake := none, rings.held := [] } : State) = s := by rw [← hheld, ← hretake]
  have hbegin : ckptBegin s s.job.step = s := by simp [ckptBegin, hheld, hretake, hckpt, hsame]
  have hfor : ckptFor s s.job.step = s := by simp [ckptFor, hbegin]
  rw [firstStep, hfor, coloBegin, hcolo]
  simp

/-- A STARTING job runs: the change is reported (R291). -/
theorem setRunning_starting (s : State) (h : s.glob.jobState = 3) :
    ReportOnly { s with glob.jobState := 4 } (setRunning s) ∧ RingsKept s (setRunning s) := by
  have hset : setRunning s = postRecord { s with glob.jobState := 4 } 2 (4 + 256 * s.glob.jobState) true := by
    simp [setRunning, setJobState, h]
  rw [hset]
  have hkept := pushCq_ringsKept { s with glob.jobState := 4 } 0
    (cqBytes { s with glob.jobState := 4 } 2 0 0xFF 0 (4 + 256 * s.glob.jobState)) true false
  exact ⟨pushCq_reportOnly _ _ _ _ _, hkept⟩

/-- A STARTING job whose first frame has come, without a checkpoint, a Colophon digest or a held descriptor. -/
structure StartsPlainly (s : State) (n : Nat) : Prop where
  starting : s.glob.jobState = 3
  due : laterFrame s.job.blk.startFrame n = false
  schedUp : s.boot.schedDown = false
  held : s.rings.held = []
  retake : s.train.retake = none
  ckpt : s.job.blk.ckptInterval = 0
  colo : s.colo.interval = 0

/-- Such a job runs from its first frame. -/
theorem StartsPlainly.startFrames_eq {s : State} {n : Nat} (h : StartsPlainly s n) :
    ∃ hostMem out pcie rings ports fab cnt train full seen, startFrames s n = { s with
      hostMem := hostMem, out := out, pcie := pcie, rings := rings, ports := ports, fab := fab, cnt := cnt, train := train
      glob := { s.glob with jobState := 4 }, mem := { s.mem with full := full }
      job := { s.job with f0 := s.job.blk.startFrame }
      frame := { s.frame with
        live := true, current := overlayAt s n s.job.blk.startFrame, next := none, aborted := false, seen := seen } } := by
  have hphase : jobPhase s = 3 := by simp [jobPhase, h.starting]
  have hjob : jobExists s = true := by simp [jobExists, h.starting]
  have hstart : startFrames s n = firstStep (goLive (setRunning s) n s.job.blk.startFrame) := by
    simp [startFrames, h.schedUp, hphase, hjob, h.due]
  obtain ⟨⟨_, _, _, _, _, _, _, hreport⟩, _, _, _, _, hrings⟩ := setRunning_starting s h.starting
  obtain ⟨_, _, hlive⟩ := goLive_frame (setRunning s) n s.job.blk.startFrame
  have hoverlay : overlayAt (setRunning s) n s.job.blk.startFrame = overlayAt s n s.job.blk.startFrame := by
    refine overlayAt_congr ?_ ?_ ?_ ?_ n _
    · rw [hreport]
    · rw [hreport]
    · rw [hreport]
    · rw [hjob, hreport]
      rfl
  have hstep : firstStep (goLive (setRunning s) n s.job.blk.startFrame) = goLive (setRunning s) n s.job.blk.startFrame := by
    rw [hlive]
    refine firstStep_plain _ ?_ ?_ ?_ ?_
    · exact (congrArg (·.held) hrings).trans h.held
    · change (setRunning s).train.retake = none
      rw [hreport]
      exact h.retake
    · change (setRunning s).job.blk.ckptInterval = 0
      rw [hreport]
      exact h.ckpt
    · change (setRunning s).colo.interval = 0
      rw [hreport]
      exact h.colo
  rw [hstart, hstep, hlive, hoverlay, hreport]
  exact ⟨_, _, _, _, _, _, _, _, _, _, rfl⟩

/-- A tick with which a job plainly starts: it runs, in the region of its first frame. -/
theorem opFrameTick_jobStarts (s : State) (hperiod : s.time.period ≠ 0) (hlive : s.frame.live = false)
    (hheld : s.fab.holdNext = []) (hbad : s.mem.bad = []) (hcorr : s.mem.corr = []) (hplain : StartsPlainly s (tickNumber s)) :
    let t := opFrameTick s
    t.glob.jobState = 4 ∧ t.frame.live = true ∧ t.frame.region = true ∧ t.frame.cycle = 0 ∧ t.frame.clock = 0 ∧
      t.frame.number = tickNumber s ∧ t.frame.current = overlayAt s (tickNumber s) s.job.blk.startFrame ∧
      t.frame.issued = [] ∧ t.job = { s.job with f0 := s.job.blk.startFrame } ∧ t.mem.cells = s.mem.cells := by
  obtain ⟨_, _, _, _, _, hbegun⟩ := tickBegun_frame s
  have hbegunPlain : StartsPlainly (tickBegun s) (tickNumber s) := by
    rw [hbegun]
    exact ⟨hplain.starting, hplain.due, hplain.schedUp, hplain.held, hplain.retake, hplain.ckpt, hplain.colo⟩
  have hoverlay : overlayAt (tickBegun s) (tickNumber s) s.job.blk.startFrame =
      overlayAt s (tickNumber s) s.job.blk.startFrame := by
    rw [hbegun]
    refine overlayAt_congr ?_ ?_ ?_ ?_ _ _ <;> rfl
  obtain ⟨_, _, _, _, _, _, _, _, _, _, hstart⟩ := hbegunPlain.startFrames_eq
  obtain ⟨_, _, _, _, _, _, _, hretry⟩ := retryWrites_reportOnly (regionOpened (startFrames (tickBegun s) (tickNumber s)))
  have hread := readDuctus_countOnly (retryWrites (regionOpened (startFrames (tickBegun s) (tickNumber s))))
    (by rw [hretry, hstart, hbegun]; exact hbad) (by rw [hretry, hstart, hbegun]; exact hcorr)
  obtain ⟨_, hread⟩ := hread
  rw [opFrameTick_between s hperiod (.inl hlive) hheld, hread, hretry, hstart]
  rw [hbegun] at hoverlay ⊢
  exact ⟨rfl, rfl, rfl, rfl, rfl, rfl, hoverlay, rfl, rfl, rfl⟩

/-- Settles O41: before the seam's end a tick does nothing, and after it the frame begins, with the job where that starts. -/
theorem frameTickBeginsTheFrame : Obligations.FrameTickBeginsTheFrame := by
  unfold Obligations.FrameTickBeginsTheFrame
  intro s ha hperiod hheld hwrites hbad hcorr hspare
  have hexec : exec .frameTick s = .next (opFrameTick s) := whenAlive_next .frameTick s _ rfl ha
  refine ⟨fun hlive hseam hphase hrunning => ?_, fun hlive hseam => ?_, fun hidle hstate hdue hup hretake hckpt hcolo hnone => ?_,
    fun hidle hstopped => ?_⟩
  · obtain ⟨_, _, _, _, _, _, htick⟩ := opFrameTick_nothingStarts s hperiod (.inr ⟨hseam, hphase⟩) hheld hwrites hbad hcorr
      (.inr ⟨by simp [hrunning], by simp [hrunning], hspare⟩)
    have hnumber : tickNumber s = s.frame.number := by simp [tickNumber, hseam, hphase]
    refine ⟨_, hexec, ?_⟩
    rw [htick, hnumber, hlive]
    exact ⟨rfl, rfl, rfl, rfl, rfl, rfl, rfl⟩
  · rw [hexec]
    exact congrArg _ (if_pos (by simp [hlive, hseam]))
  · exact ⟨_, hexec, opFrameTick_jobStarts s hperiod hidle hheld hbad hcorr
      ⟨hstate, hdue, hup, hnone, hretake, hckpt, hcolo⟩⟩
  · have hphase : s.boot.schedDown = true ∨ jobPhase s ≠ 3 ∧ jobPhase s ≠ 5 ∧ s.train.asSpare = none := by
      refine hstopped.symm.imp_right (fun hfew => ?_)
      have hsame : jobPhase s = s.glob.jobState := if_neg (by omega)
      exact ⟨by omega, by omega, hspare⟩
    obtain ⟨_, _, _, _, _, _, htick⟩ := opFrameTick_nothingStarts s hperiod (.inl hidle) hheld hwrites hbad hcorr hphase
    refine ⟨_, hexec, ?_⟩
    rw [htick, hidle]
    exact ⟨rfl, rfl, rfl, rfl, rfl⟩

/-! ### The abort of a frame in its stroke region (R45, R233, R351) -/

/-- The fault unit with a record of the region. -/
def fltWithRecord (s : State) (r : FaultRec) : FaultUnit :=
  { s.flt with seq := (s.flt.seq + 1) % 2 ^ 32, last := (stamp s r).bytes, region := s.flt.region ++ [stamp s r] }

theorem raiseFault_inRegion (s : State) (r : FaultRec) (hregion : s.frame.region = true) :
    raiseFault s r = { s with flt := fltWithRecord s r } := by
  simp [raiseFault, hregion, fltWithRecord]

/-- A record that is a cause (R45). -/
def FaultRec.asCause (r : FaultRec) : FaultRec := { r with cause := true, sev := 2 }

/-- A fault of the work of a frame that runs: its record is a cause, the frame stops, and a rollback is asked for. -/
theorem abortWith_inRegion (s : State) (r : FaultRec) (force : Bool) (hlive : s.frame.live = true)
    (hrun : s.frame.aborted = false) (hregion : s.frame.region = true) : ∃ cnt ports fab, abortWith s r force = { s with
      cnt := cnt, ports := ports, fab := fab, flt := fltWithRecord s r.asCause
      frame := { s.frame with aborted := true, abortedAt := some s.frame.cycle, waitSlot := none }
      train := { s.train with waiting := some (s.train.waiting.getD s.frame.number), waitCode := r.code } } := by
  have hcur (flt : FaultUnit) : currentFrame (haltFrame { s with flt := flt }) = s.frame.number := by
    simp [currentFrame, haltFrame, hlive]
  unfold abortWith
  rw [if_pos (by simp [hlive, hrun])]
  change ∃ cnt ports fab, requestRollback (haltFrame (raiseFault s r.asCause))
    (if noStepRestart (haltFrame (raiseFault s r.asCause)) force then 1 else 0) r.code = _
  rw [raiseFault_inRegion s _ hregion]
  obtain ⟨_, _, _, hsent⟩ := requestRollback_wireOnly
    (haltFrame { s with flt := fltWithRecord s r.asCause })
    (if noStepRestart (haltFrame { s with flt := fltWithRecord s r.asCause }) force then 1 else 0) r.code
  rw [hcur] at hsent
  rw [hsent]
  exact ⟨_, _, _, rfl⟩

/-! ### Stalled cycles (R43, R52) -/

theorem stallSignals_frame (s : State) (cs : List Bool) :
    ∃ cnt stalled, stallSignals s cs = { s with cnt := cnt, frame := { s.frame with stalled := stalled } } := by
  have hbusy : CountOnly s (if cs.getD 4 false then
      (busyPorts s).foldl (fun t p => laneSignal t p 0x79 (b2n (!s.frame.stalled.testBit 5)) 1) s else s) := by
    split
    · exact .foldl _ (fun u p => countIn_countOnly u _ _ _) _ s
    · exact .refl s
  obtain ⟨_, hbusy⟩ := hbusy
  unfold stallSignals
  dsimp only
  rw [hbusy]
  obtain ⟨_, hall⟩ := CountOnly.foldl_if (fun _ (x : Bool × Nat) => x.1)
    (fun t x => devSignal t (0x40 + x.2) (b2n (!s.frame.stalled.testBit x.2)) 1) (fun u _ => countIn_countOnly u _ _ _)
    (((cs.any id) :: cs).zipIdx) _
  rw [hall]
  exact ⟨_, _, rfl⟩

/-- A stalled cycle counts in S and in the classes that hold, and ends unless S passes the margin. -/
theorem stallCycle_frame (s : State) (cs : List Bool) (w : Option (Ctx × Hold)) :
    ∃ cnt stalled thrUsed waitSlot,
      let t := { s with cnt := cnt, frame := { s.frame with
        stalled := stalled, stall := s.frame.stall + 1, cls := List.zipWith (fun n c => n + b2n c) s.frame.cls cs
        thrUsed := thrUsed, waitSlot := waitSlot } }
      stallCycle s cs w =
        if margin s < s.frame.stall + 1 then { t with frame.exceeded := true, frame.blocked := true } else nextCycle t := by
  obtain ⟨_, _, hsignals⟩ := stallSignals_frame s cs
  unfold stallCycle
  rw [hsignals]
  exact ⟨_, _, _, _, rfl⟩

/-! ### What a stroke does as it issues -/

theorem readsBad_of_good (s : State) (rs : List (Nat × Nat)) (hbad : s.mem.bad = []) : readsBad s rs = none := by
  simp [readsBad, badLine_of_good s _ _ hbad]

theorem noteReads_countOnly (s : State) (rs : List (Nat × Nat)) (hcorr : s.mem.corr = []) : CountOnly s (noteReads s rs) :=
  List.foldlRecOn rs _ (CountOnly.refl s) (fun t ht r _ => ht.trans (noteRead_countOnly t r.1 r.2 (by
    obtain ⟨_, rfl⟩ := ht
    exact hcorr)))

/-- The entry of a stroke among those in progress. -/
def startedRun (s : State) (x : Ctx) (dec : Decoded) : Running :=
  { x.run with start := s.frame.clock, quills := x.k.quills, nibs := nibsFor s x, dec := dec }

theorem startStroke_frame (s : State) (x : Ctx) (swap : Bool) (dec : Decoded) :
    ∃ cnt swaps optIssued optRan, startStroke s x swap dec = { s with
      cnt := cnt, job := { s.job with optIssued := optIssued, optRan := optRan }
      frame := { s.frame with
        issued := s.frame.issued ++ [(x.l, x.i)], prog := s.frame.prog ++ [startedRun s x dec], swaps := swaps } } := by
  unfold startStroke
  dsimp only
  split <;> exact ⟨_, _, _, _, rfl⟩

/-- A stroke whose records decode starts. -/
theorem issueOne_decoded (s : State) (x : Ctx) (swap : Bool) (dec : Decoded) (hrun : s.frame.aborted = false)
    (hbad : s.mem.bad = []) (hcorr : s.mem.corr = []) (hdec : decodeAt s x = .ok dec) :
    CountOnly (startStroke s x swap dec) (issueOne s x swap) := by
  have hissue : issueOne s x swap = noteReads (startStroke s x swap dec) (if x.k.cls = 2 then [] else recordReads s x) := by
    simp [issueOne, readsBad_of_good s _ hbad, hdec, hrun]
  rw [hissue]
  refine noteReads_countOnly _ _ ?_
  obtain ⟨_, _, _, _, hstart⟩ := startStroke_frame s x swap dec
  rw [hstart]
  exact hcorr

/-- A stroke whose records are rejected fails. -/
theorem issueOne_rejected (s : State) (x : Ctx) (swap : Bool) (b : Bad) (hrun : s.frame.aborted = false)
    (hbad : s.mem.bad = []) (hcorr : s.mem.corr = []) (hdec : decodeAt s x = .error b) :
    ∃ u, CountOnly (startStroke s x swap .none) u ∧ issueOne s x swap = failStroke u x.l x.i b := by
  refine ⟨_, noteReads_countOnly _ (if x.k.cls = 2 then [] else recordReads s x) ?_, ?_⟩
  · obtain ⟨_, _, _, _, hstart⟩ := startStroke_frame s x swap .none
    rw [hstart]
    exact hcorr
  · simp [issueOne, readsBad_of_good s _ hbad, hdec, hrun]

theorem badRecord_code (s : State) (l i : Nat) (b : Bad) : (badRecord s l i b).code = b.code := by
  unfold badRecord
  dsimp only
  split <;> split <;> rfl

/-- What a due stroke brings, where what goes is decoded: at most a stroke more in progress. -/
theorem issuePick_decoded (s : State) (p : Pick) (hrun : s.frame.aborted = false) (hbad : s.mem.bad = [])
    (hcorr : s.mem.corr = []) (hdec : ∀ y sw, p = .go y sw → ∃ r, decodeAt s y = .ok r) :
    ∃ cnt swaps optIssued optRan issued prog, issuePick s p = { s with
      cnt := cnt, job := { s.job with optIssued := optIssued, optRan := optRan }
      frame := { s.frame with issued := issued, prog := prog, swaps := swaps } } := by
  cases p with
  | wait x h => exact ⟨_, _, _, _, _, _, rfl⟩
  | go x sw =>
    obtain ⟨dec, hok⟩ := hdec x sw rfl
    obtain ⟨_, hissue⟩ := issueOne_decoded s x sw dec hrun hbad hcorr hok
    obtain ⟨_, _, _, _, hstart⟩ := startStroke_frame s x sw dec
    rw [hstart] at hissue
    exact ⟨_, _, _, _, _, _, hissue⟩

/-! ### STROKE_ISSUE (R43) -/

/-- The end of a cycle in which `v` has issued. -/
def issueEnd (v : State) : State :=
  nextCycle { v with frame.clock := v.frame.clock + b2n (!v.frame.aborted), frame.waitSlot := none }

/-- A frame in whose stroke region strokes of `d` issue: neither exceeded nor aborted. -/
structure Issues (s : State) (d : Loaded) : Prop where
  live : s.frame.live = true
  region : s.frame.region = true
  within : s.frame.exceeded = false
  runs : s.frame.aborted = false
  cur : curDuctus s = some d

/-- The classes of stall that hold in a cycle. -/
def classesNow (s : State) (d : Loaded) : List Bool := stallClasses s d (firstWait (picks s d)).isSome

theorem Issues.stalled {s : State} {d : Loaded} (h : Issues s d) (hdue : seamDue s = false)
    (hstall : (classesNow s d).any id = true) :
    opStrokeIssue s = stallCycle s (classesNow s d) (firstWait (picks s d)) := by
  unfold classesNow at *
  simp [opStrokeIssue, h.live, h.region, h.within, h.runs, hdue, h.cur, hstall]

theorem Issues.issues {s : State} {d : Loaded} (h : Issues s d) (hdue : seamDue s = false)
    (hstall : (classesNow s d).any id = false) :
    opStrokeIssue s = issueEnd ((picks s d).foldl issuePick (stallSignals s (classesNow s d))) := by
  unfold classesNow at *
  simp only [opStrokeIssue, h.live, h.region, h.within, h.runs, hdue, h.cur, hstall, Bool.not_true, Bool.or_self,
    Bool.false_and, Bool.false_eq_true, if_false]
  rfl

/-- The signals of a cycle change neither what issues nor memory. -/
theorem Issues.signals {s : State} {d : Loaded} (h : Issues s d) (cs : List Bool) :
    Issues (stallSignals s cs) d ∧ (stallSignals s cs).mem = s.mem := by
  obtain ⟨_, _, hsignals⟩ := stallSignals_frame s cs
  rw [hsignals]
  exact ⟨⟨h.live, h.region, h.within, h.runs, h.cur⟩, rfl⟩

/-- A stroke that nothing holds goes. -/
theorem picks_one (s : State) (d : Loaded) (x : Nat × Nat × Stroke) (hdue : dueNow s d = [x])
    (hfree : holdOn s d (ctxFor s x.1 x.2.1 x.2.2) = none) : picks s d = [.go (ctxFor s x.1 x.2.1 x.2.2) false] := by
  simp [picks, hdue, pickOf, hfree]

/-- A stalled cycle: S and the classes advance, and nothing issues. -/
theorem strokeIssue_stalled (s : State) (d : Loaded) (h : Issues s d) (hdue : seamDue s = false)
    (hstall : (classesNow s d).any id = true) :
    let t := opStrokeIssue s
    t.frame.stall = s.frame.stall + 1 ∧ t.frame.cls = List.zipWith (fun n c => n + b2n c) s.frame.cls (classesNow s d) ∧
      t.frame.clock = s.frame.clock ∧ t.frame.issued = s.frame.issued ∧ t.frame.prog = s.frame.prog ∧ t.mem = s.mem ∧
      t.flt = s.flt ∧ t.job = s.job ∧
      (s.frame.stall + 1 ≤ margin s → t.frame.exceeded = false ∧ t.frame.cycle = s.frame.cycle + 1 ∧
        t.frame.seen = s.mem.full ∧ t.time.now = (elapse s unitsPerCycle).time.now) ∧
      (margin s < s.frame.stall + 1 → t.frame.exceeded = true ∧ t.frame.cycle = s.frame.cycle) := by
  obtain ⟨_, _, _, _, hcycle⟩ := stallCycle_frame s (classesNow s d) (firstWait (picks s d))
  rw [h.stalled hdue hstall, hcycle]
  by_cases hover : margin s < s.frame.stall + 1
  · rw [if_pos hover]
    exact ⟨rfl, rfl, rfl, rfl, rfl, rfl, rfl, rfl, fun hle => absurd hover (Nat.not_lt.mpr hle), fun _ => ⟨rfl, rfl⟩⟩
  · rw [if_neg hover]
    exact ⟨rfl, rfl, rfl, rfl, if_neg (by simp [h.runs]), rfl, rfl, rfl, fun _ => ⟨h.within, rfl, rfl, rfl⟩,
      fun hlt => absurd hlt hover⟩

/-- A cycle without a stall in which at most one stroke is due, and what goes is decoded: it issues, and the clock advances. -/
theorem strokeIssue_atMostOne (s : State) (d : Loaded) (h : Issues s d) (hdue : seamDue s = false)
    (hstall : (classesNow s d).any id = false) (hbad : s.mem.bad = []) (hcorr : s.mem.corr = [])
    (hdec : ∀ y sw, Pick.go y sw ∈ picks s d → ∃ r, decodeAt (stallSignals s (classesNow s d)) y = .ok r)
    (hone : (dueNow s d).length ≤ 1) :
    let t := opStrokeIssue s
    t.frame.clock = s.frame.clock + 1 ∧ t.frame.cycle = s.frame.cycle + 1 ∧ t.frame.stall = s.frame.stall ∧
      t.frame.cls = s.frame.cls ∧ t.mem = s.mem ∧ t.flt = s.flt ∧
      (dueNow s d = [] → t.frame.issued = s.frame.issued ∧ t.frame.prog = s.frame.prog) := by
  have hlen : (picks s d).length ≤ 1 := by simpa [picks] using hone
  have hempty : dueNow s d = [] → picks s d = [] := fun hnil => by simp [picks, hnil]
  have hclock : s.frame.clock + b2n (!s.frame.aborted) = s.frame.clock + 1 := by rw [h.runs]; rfl
  obtain ⟨hissues, hmem⟩ := h.signals (classesNow s d)
  obtain ⟨_, _, hsignals⟩ := stallSignals_frame s (classesNow s d)
  rw [h.issues hdue hstall]
  match hpicks : picks s d with
  | [] =>
    rw [List.foldl_nil, hsignals]
    exact ⟨hclock, rfl, rfl, rfl, rfl, rfl, fun _ => ⟨rfl, if_neg (by simp [h.runs])⟩⟩
  | [p] =>
    obtain ⟨_, _, _, _, _, _, hissue⟩ := issuePick_decoded (stallSignals s (classesNow s d)) p hissues.runs
      (by rw [hmem, hbad]) (by rw [hmem, hcorr]) (fun y sw hgo => hdec y sw (by simp [hpicks, hgo]))
    rw [List.foldl_cons, List.foldl_nil, hissue, hsignals]
    exact ⟨hclock, rfl, rfl, rfl, rfl, rfl, fun hnil => absurd ((hempty hnil).symm.trans hpicks) (by simp)⟩
  | _ :: _ :: _ =>
    rw [hpicks] at hlen
    simp at hlen

section oneDue

variable {s : State} {d : Loaded} {x : Nat × Nat × Stroke} (h : Issues s d) (hdue : seamDue s = false)
  (hstall : (classesNow s d).any id = false) (hbad : s.mem.bad = []) (hcorr : s.mem.corr = [])
  (hx : dueNow s d = [x]) (hfree : holdOn s d (ctxFor s x.1 x.2.1 x.2.2) = none)
include h hdue hstall hbad hcorr hx hfree

/-- The only due stroke, which nothing holds and whose records decode, issues at the Ductus clock with what they say. -/
theorem strokeIssue_decoded (dec : Decoded)
    (hdec : decodeAt (stallSignals s (classesNow s d)) (ctxFor s x.1 x.2.1 x.2.2) = .ok dec) :
    (opStrokeIssue s).frame.issued = s.frame.issued ++ [(x.1, x.2.1)] ∧
      ∃ r, (opStrokeIssue s).frame.prog = s.frame.prog ++ [r] ∧ r.folio = x.1 ∧ r.idx = x.2.1 ∧ r.start = s.frame.clock ∧
        r.done = false ∧ r.dec = dec := by
  obtain ⟨hissues, hmem⟩ := h.signals (classesNow s d)
  obtain ⟨_, _, hsignals⟩ := stallSignals_frame s (classesNow s d)
  obtain ⟨_, hissue⟩ := issueOne_decoded _ _ false dec hissues.runs (by rw [hmem, hbad]) (by rw [hmem, hcorr]) hdec
  obtain ⟨_, _, _, _, hstart⟩ := startStroke_frame (stallSignals s (classesNow s d)) (ctxFor s x.1 x.2.1 x.2.2) false dec
  rw [h.issues hdue hstall, picks_one s d x hx hfree, List.foldl_cons, List.foldl_nil, issuePick, hissue, hstart, hsignals]
  exact ⟨rfl, _, if_neg (by simp [h.runs]), rfl, rfl, rfl, rfl, rfl⟩

/-- The only due stroke, which nothing holds and whose records are rejected, aborts the frame. -/
theorem strokeIssue_rejected (b : Bad)
    (hdec : decodeAt (stallSignals s (classesNow s d)) (ctxFor s x.1 x.2.1 x.2.2) = .error b) :
    let t := opStrokeIssue s
    t.frame.aborted = true ∧ t.frame.prog = [] ∧ t.mem = s.mem ∧ t.flt.seq = (s.flt.seq + 1) % 2 ^ 32 ∧
      rd t.flt.last 0 1 = b.code % 256 := by
  obtain ⟨hissues, hmem⟩ := h.signals (classesNow s d)
  obtain ⟨_, _, hsignals⟩ := stallSignals_frame s (classesNow s d)
  obtain ⟨u, ⟨_, hcount⟩, hissue⟩ := issueOne_rejected _ _ false b hissues.runs
    (by rw [hmem, hbad]) (by rw [hmem, hcorr]) hdec
  obtain ⟨_, _, _, _, hstart⟩ := startStroke_frame (stallSignals s (classesNow s d)) (ctxFor s x.1 x.2.1 x.2.2) false .none
  rw [hstart] at hcount
  obtain ⟨_, _, _, habort⟩ := abortWith_inRegion u
    (badRecord u (ctxFor s x.1 x.2.1 x.2.2).l (ctxFor s x.1 x.2.1 x.2.2).i b) false
    (by rw [hcount]; exact hissues.live) (by rw [hcount]; exact hissues.runs) (by rw [hcount]; exact hissues.region)
  have hkeep : u.mem = s.mem ∧ u.flt = s.flt := by
    rw [hcount, hsignals]
    exact ⟨rfl, rfl⟩
  have hcode := badRecord_code u (ctxFor s x.1 x.2.1 x.2.2).l (ctxFor s x.1 x.2.1 x.2.2).i b
  rw [h.issues hdue hstall, picks_one s d x hx hfree, List.foldl_cons, List.foldl_nil, issuePick, hissue, failStroke,
    habort]
  refine ⟨rfl, rfl, hkeep.1, congrArg (fun f : FaultUnit => (f.seq + 1) % 2 ^ 32) hkeep.2, ?_⟩
  exact (rd_bytes_code _).trans (congrArg (· % 256) hcode)

end oneDue

/-- Settles O42: each cycle of the loop either stalls, or issues what is due, or aborts with the stroke that is rejected. -/
theorem strokeIssueRunsOneCycle : Obligations.StrokeIssueRunsOneCycle := by
  unfold Obligations.StrokeIssueRunsOneCycle
  intro s d ha hlive hregion hwithin hrun hcur _
  have h : Issues s d := ⟨hlive, hregion, hwithin, hrun, hcur⟩
  have hexec : exec .strokeIssue s = .next (opStrokeIssue s) := whenAlive_next .strokeIssue s _ rfl ha
  refine ⟨fun hdue => ?_, fun hdue hstall => ⟨_, hexec, strokeIssue_stalled s d h hdue hstall⟩,
    fun hdue hstall hbad hcorr hdec hone => ?_, fun x b hdue hstall hbad hcorr hx hfree hdec =>
      ⟨_, hexec, strokeIssue_rejected h hdue hstall hbad hcorr hx hfree b hdec⟩⟩
  · rw [hexec]
    exact congrArg _ (if_pos (by simp [hdue]))
  · obtain ⟨hclock, hcycle, hstallKept, hcls, hmem, hflt, hnone⟩ :=
      strokeIssue_atMostOne s d h hdue hstall hbad hcorr hdec hone
    refine ⟨_, hexec, hclock, hcycle, hstallKept, hcls, hmem, hflt, hnone, fun x hx hfree => ?_⟩
    have hgo : Pick.go (ctxFor s x.1 x.2.1 x.2.2) false ∈ picks s d := by simp [picks_one s d x hx hfree]
    obtain ⟨dec, hdec⟩ := hdec _ _ hgo
    obtain ⟨hissued, r, hprog, hfolio, hidx, hstart, hdone, hr⟩ :=
      strokeIssue_decoded h hdue hstall hbad hcorr hx hfree dec hdec
    exact ⟨hissued, r, hprog, hfolio, hidx, hstart, hdone, by rw [hr]; exact hdec⟩

/-! ### FRAME_OVERRUN (R44, R45) -/

/-- The record of an overrun names the first stroke that has not issued, and has the stall cycles by class. -/
def overrunRecord (s : State) : FaultRec := overrunRec s (firstStroke (unissued s)) (overrunDetail s)

theorem overrunRecord_fields (s : State) :
    (overrunRecord s).code = 1 ∧ (overrunRecord s).detail = overrunDetail s := by
  unfold overrunRecord
  cases firstStroke (unissued s) <;> exact ⟨rfl, rfl⟩

/-- The record of TAG_TIMEOUT for stroke `i` of Folio `l`, which waits on slot `n`. -/
def timeoutRecord (s : State) (l i n : Nat) : FaultRec :=
  { strokeFault s l i 2 (slotAddr n) 0 with sev := 2, cause := true }

/-- A frame in its stroke region whose stall cycles have passed the margin. -/
structure Overruns (s : State) : Prop where
  live : s.frame.live = true
  region : s.frame.region = true
  runs : s.frame.aborted = false
  exceeded : s.frame.exceeded = true

theorem Overruns.opOverrun_eq {s : State} (h : Overruns s) :
    opOverrun s = abortWith { tagTimeout s with frame.exceeded := false } (overrunRecord s) false := by
  simp [opOverrun, h.live, h.exceeded, overrunRecord]

/-- The overrun of a frame in which no stroke waits on a slot. -/
theorem Overruns.withoutWait {s : State} (h : Overruns s) (hwait : s.frame.waitSlot = none) :
    ∃ cnt ports fab, opOverrun s = { s with
      cnt := cnt, ports := ports, fab := fab
      flt := fltWithRecord { s with frame.exceeded := false } (overrunRecord s).asCause
      frame := { s.frame with aborted := true, abortedAt := some s.frame.cycle, waitSlot := none, exceeded := false }
      train := { s.train with waiting := some (s.train.waiting.getD s.frame.number), waitCode := 1 } } := by
  have htimeout : tagTimeout s = s := by simp [tagTimeout, hwait]
  obtain ⟨hcode, _⟩ := overrunRecord_fields s
  rw [h.opOverrun_eq, htimeout]
  obtain ⟨_, _, _, habort⟩ := abortWith_inRegion { s with frame.exceeded := false } (overrunRecord s) false
    h.live h.runs h.region
  rw [hcode] at habort
  exact ⟨_, _, _, habort⟩

/-- The overrun of a frame in which a stroke waits on a slot has the record of the wait before its own. -/
theorem Overruns.withWait {s : State} (h : Overruns s) (l i n : Nat) (hwait : s.frame.waitSlot = some (l, i, n)) :
    ∃ cnt ports fab, opOverrun s = { s with
      cnt := cnt, ports := ports, fab := fab
      train := { s.train with waiting := some (s.train.waiting.getD s.frame.number), waitCode := 1 }
      flt := fltWithRecord { s with frame.exceeded := false, flt := fltWithRecord s (timeoutRecord s l i n) }
        (overrunRecord s).asCause
      frame := { s.frame with aborted := true, abortedAt := some s.frame.cycle, waitSlot := none, exceeded := false } } := by
  have htimeout : tagTimeout s = { s with flt := fltWithRecord s (timeoutRecord s l i n) } := by
    simp only [tagTimeout, hwait]
    exact raiseFault_inRegion s _ h.region
  obtain ⟨hcode, _⟩ := overrunRecord_fields s
  rw [h.opOverrun_eq, htimeout]
  obtain ⟨_, _, _, habort⟩ := abortWith_inRegion
    { s with frame.exceeded := false, flt := fltWithRecord s (timeoutRecord s l i n) } (overrunRecord s) false
    h.live h.runs h.region
  rw [hcode] at habort
  exact ⟨_, _, _, habort⟩

/-- A frame in its stroke region that has been aborted, and does not wait for its overrun. -/
structure AbortedInRegion (t : State) : Prop where
  live : t.frame.live = true
  region : t.frame.region = true
  aborted : t.frame.aborted = true
  within : t.frame.exceeded = false

/-- A cycle after an overrun only passes. -/
theorem opStrokeIssue_aborted (t : State) (h : AbortedInRegion t) (hdue : seamDue t = false) (hmargin : margin t < t.frame.stall) :
    opStrokeIssue t = nextCycle t := by
  simp [opStrokeIssue, h.live, h.region, h.aborted, h.within, hdue, hmargin]

/-- No stroke completes after an abort. -/
theorem exec_strokeComplete_aborted (t : State) (l i : Nat) (ha : alive t = true) (haborted : t.frame.aborted = true)
    (hl : l < 64) : exec (.strokeComplete l i) t = .next t := by
  have hwf : (Instr.strokeComplete l i).wf = true := by simpa [Instr.wf, isFolio] using hl
  exact (whenAlive_next _ t (opStrokeComplete t l i) hwf ha).trans (congrArg _ (if_pos (by simp [haborted])))

/-- A slot's address lies within the 48 bits of a record. -/
theorem slotAddr_mod (n : Nat) (hn : n < 2 ^ 19) : slotAddr n % 2 ^ 48 = slotAddr n := by
  refine Nat.mod_eq_of_lt ?_
  simp only [slotAddr, apBase]
  omega

/-- R44, R45, R233: the overrun of O44. -/
theorem frameOverrunAborts : Claim.FrameOverrunAborts := by
  unfold Claim.FrameOverrunAborts
  intro s ha hlive hregion hrun
  have hexec : exec .frameOverrun s = .next (opOverrun s) := whenAlive_next .frameOverrun s _ rfl ha
  obtain ⟨hcode, hdetail⟩ := overrunRecord_fields s
  refine ⟨fun hexceeded hwait => ?_, fun l i n hexceeded hwait hn => ?_, fun hwithin => ?_⟩
  · obtain ⟨_, _, _, hop⟩ := Overruns.withoutWait ⟨hlive, hregion, hrun, hexceeded⟩ hwait
    refine ⟨_, hexec, ?_⟩
    rw [hop]
    refine ⟨rfl, rfl, rfl, rfl, rfl, rfl, rfl, ⟨_, rfl, hcode, rfl, rfl, hdetail⟩, rfl, rfl,
      fun l i hl _ => ?_, fun hdue hmargin => ?_⟩
    · exact exec_strokeComplete_aborted _ l i ha rfl hl
    · refine ⟨_, whenAlive_next .strokeIssue _ _ rfl ha, ?_⟩
      rw [opStrokeIssue_aborted]
      · exact ⟨rfl, rfl, rfl⟩
      · exact ⟨hlive, hregion, rfl, rfl⟩
      · exact hdue
      · exact hmargin
  · obtain ⟨_, _, _, hop⟩ := Overruns.withWait ⟨hlive, hregion, hrun, hexceeded⟩ l i n hwait
    refine ⟨_, hexec, ?_⟩
    rw [hop]
    refine ⟨rfl, rfl, rfl, rfl, ?_, rfl, _, _, List.append_assoc _ _ _, rfl, rfl, rfl,
      slotAddr_mod n hn, rfl, hcode, rfl, rfl, hdetail⟩
    change ((s.flt.seq + 1) % 2 ^ 32 + 1) % 2 ^ 32 = _
    omega
  · rw [hexec]
    exact congrArg _ (if_pos (by simp [hwithin]))

/-! ### Forced-refresh slots (R52, R196, R200) -/

/-- The stacks' refresh slot stalls every Ductus. -/
theorem stallsNow_of_stacks (s : State) (hcur : (curDuctus s).isSome = true) (hleft : 0 < s.frame.stkLeft) :
    stallsNow s = true := by
  obtain ⟨d, hd⟩ := Option.isSome_iff_exists.mp hcur
  simp [stallsNow, hd, stallClasses, hleft]

/-- LPDDR6's refresh slot stalls a Ductus that uses it. -/
theorem stallsNow_of_lp (s : State) (d : Loaded) (hcur : curDuctus s = some d) (hused : lpUsed s d = true)
    (hleft : 0 < s.frame.lpLeft) : stallsNow s = true := by
  simp [stallsNow, hcur, stallClasses, hleft, hused]

/-- A stall in the stroke region blocks the cycle. -/
theorem withBlocked_stalls (s : State) (hregion : s.frame.region = true) (hstalls : stallsNow s = true) :
    (withBlocked s).frame.blocked = true := by
  simp [withBlocked, hregion, hstalls]

theorem opStackSlot_due (s : State) (n : Nat) (hregion : s.frame.region = true) (hcycle : s.frame.cycle % 3120 = 0)
    (hn : n ≤ 48) : ∃ cnt, opStackSlot s n [] [] = withBlocked { s with cnt := cnt, frame.stkLeft := n } := by
  obtain ⟨_, hcount⟩ := CountOnly.foldl_if (fun t k => domOn t (72 + k)) (fun t k => stackEvent t k 0x61 1)
    (fun u _ => countIn_countOnly u _ _ _) (List.range 8) s
  have hop : opStackSlot s n [] [] = withBlocked { (List.range 8).foldl
      (fun t k => if domOn t (72 + k) then stackEvent t k 0x61 1 else t) s with frame.stkLeft := n } := by
    simp [opStackSlot, hregion, hcycle, Nat.min_eq_right hn]
  rw [hop, hcount]
  exact ⟨_, rfl⟩

theorem opLpSlot_due (s : State) (m : Nat) (hregion : s.frame.region = true) (hcycle : s.frame.cycle % 6240 = 0)
    (hm : m ≤ 112) : ∃ cnt, opLpSlot s m [] = withBlocked { s with cnt := cnt, frame.lpLeft := m } := by
  obtain ⟨_, hcount⟩ := CountOnly.foldl_if (fun t c => domOn t (124 + c / 8)) (fun t c => lpEvent t c 0x61 1)
    (fun u _ => countIn_countOnly u _ _ _) (List.range s.mem.lpChannels) s
  have hop : opLpSlot s m [] = withBlocked { (List.range s.mem.lpChannels).foldl
      (fun t c => if domOn t (124 + c / 8) then lpEvent t c 0x61 1 else t) s with frame.lpLeft := m } := by
    simp [opLpSlot, hregion, hcycle, Nat.min_eq_right hm]
  rw [hop, hcount]
  exact ⟨_, rfl⟩

/-- R52, R196, R200: the refresh slots of O44. -/
theorem refreshSlotsHoldTheLoop : Claim.RefreshSlotsHoldTheLoop := by
  unfold Claim.RefreshSlotsHoldTheLoop
  intro s n m ha hn hm
  have hstack : exec (.stackRefreshSlot n [] []) s = .next (opStackSlot s n [] []) :=
    whenAlive_next (.stackRefreshSlot n [] []) s _ (by simp [Instr.wf, hn]) ha
  have hlp : exec (.lpRefreshSlot m []) s = .next (opLpSlot s m []) :=
    whenAlive_next (.lpRefreshSlot m []) s _ (by simp [Instr.wf, hm]) ha
  refine ⟨fun hregion hcycle => ?_, fun hregion hcycle => ?_, fun hoff => ?_, fun hoff => ?_⟩
  · obtain ⟨cnt, hop⟩ := opStackSlot_due s n hregion hcycle hn
    refine ⟨_, hstack, ?_⟩
    rw [hop]
    refine ⟨rfl, fun hpos hcur => ?_⟩
    exact withBlocked_stalls _ hregion (stallsNow_of_stacks { s with cnt := cnt, frame.stkLeft := n } hcur hpos)
  · obtain ⟨cnt, hop⟩ := opLpSlot_due s m hregion hcycle hm
    refine ⟨_, hlp, ?_⟩
    rw [hop]
    refine ⟨rfl, fun d hpos hcur hused => ?_⟩
    exact withBlocked_stalls _ hregion (stallsNow_of_lp { s with cnt := cnt, frame.lpLeft := m } d hcur hused hpos)
  · rw [hstack]
    exact congrArg _ (if_pos (by simpa using hoff))
  · rw [hlp]
    exact congrArg _ (if_pos (by simpa using hoff))

/-- Settles O44: the overrun by its abort, the refresh slots by their cycles. -/
theorem overrunAndRefresh : Obligations.OverrunAndRefresh := ⟨frameOverrunAborts, refreshSlotsHoldTheLoop⟩

/-! ### SEAM_START (R39, R46, R49) -/

/-- The frame at the cycle to which the seam moves it. -/
def regionEnded (s : State) : State := { s with frame.cycle := max s.frame.cycle (regionLen s - driftBound s) }

/-- The seam as it begins. -/
def seamEntered (t : State) : State :=
  let full := decide (0 < t.power.stallRatio) && decide (throttleAllow t ≤ t.frame.thrUsed)
  let atCkpt := stepEnds t && t.train.ckptBoundary
  { t with
    train.atCkpt := atCkpt, train.ckptBoundary := t.train.ckptBoundary && !atCkpt, frame.seamAt := t.frame.cycle
    frame.prog := if t.frame.aborted then [] else t.frame.prog, frame.abortedAt := none
    frame.region := false, frame.seam := true, frame.phase := 0, frame.stalled := 0, frame.blocked := false
    power.allowFrames := if t.frame.live then (if full then t.power.allowFrames + 1 else 0) else t.power.allowFrames }

theorem seamEntered_frame (t : State) (hrun : t.frame.aborted = false) : (seamEntered t).frame = { t.frame with
    seamAt := t.frame.cycle, abortedAt := none, region := false, seam := true, phase := 0, stalled := 0, blocked := false } := by
  simp [seamEntered, hrun]

/-- A checkpoint boundary that is due belongs to the seam of a step's end (R360). -/
theorem seamEntered_train (t : State) : (seamEntered t).train = { t.train with
    atCkpt := stepEnds t && t.train.ckptBoundary, ckptBoundary := t.train.ckptBoundary && !stepEnds t } := by
  have hboundary (a b : Bool) : (b && !(a && b)) = (b && !a) := by cases a <;> cases b <;> rfl
  simp only [seamEntered, hboundary]

theorem timeOfSeam_frame (s : State) : ∃ now, timeOfSeam s = { s with time := { s.time with now := now } } := by
  unfold timeOfSeam
  dsimp only
  split <;> exact ⟨_, rfl⟩

/-- A PAUSE that was held too late for the seam before, and whose step has begun (R297). -/
def missedPause (s : State) (x : Held) : Bool := x.late && (match x.op with | .pause n => decide (n ≤ s.job.step) | _ => false)

/-- The held descriptors of which none waits on but those that still can take effect. -/
def heldAwake (s : State) : State :=
  { s with rings.held := (s.rings.held.filter (fun x => !missedPause s x)).map (fun x => { x with late := false }) }

theorem wakeLate_eq (s : State) :
    wakeLate s = (s.rings.held.filter (missedPause s)).foldl (fun t x => complete t x.hdr 0x18 0) (heldAwake s) := rfl

theorem wakeLate_reportOnly (s : State) : ReportOnly s (wakeLate s) :=
  ReportOnly.trans (t := heldAwake s) ⟨_, _, _, _, _, _, _, rfl⟩ (completions_reportOnly 0x18 0 _ _)

/-- Where no descriptor came too late for the seam before, none wakes. -/
theorem wakeLate_none (s : State) (h : ∀ x ∈ s.rings.held, x.late = false) : wakeLate s = s := by
  have hmissed (x : Held) (hx : x ∈ s.rings.held) : missedPause s x = false := by simp [missedPause, h x hx]
  have hnone : s.rings.held.filter (missedPause s) = [] := List.filter_eq_nil_iff.mpr (fun x hx => by simp [hmissed x hx])
  have hall : s.rings.held.filter (fun x => !missedPause s x) = s.rings.held :=
    List.filter_eq_self.mpr (fun x hx => by simp [hmissed x hx])
  have hsame : s.rings.held.map (fun x => { x with late := false }) = s.rings.held :=
    (List.map_congr_left (fun x hx => congrArg (Held.mk x.hdr x.op) (h x hx).symm)).trans (List.map_id _)
  rw [wakeLate_eq, hnone, List.foldl_nil, heldAwake, hall, hsame]

/-- SEAM_START of a job's frame that waits for no overrun, where no change of the time source is asked for. -/
theorem opSeamStart_eq (s : State) (hjob : jobExists s = true) (hseam : s.frame.seam = false) (hwithin : s.frame.exceeded = false)
    (hsource : (wakeLate (rejoinLanes (timeOfSeam (lateStroke (regionEnded s))))).time.pendSource = none) :
    opSeamStart s = seamEntered (wakeLate (rejoinLanes (timeOfSeam (lateStroke (regionEnded s))))) := by
  have hno : opOverrun s = s := if_pos (by simp [hwithin])
  unfold opSeamStart
  rw [if_neg (by simp [hjob, hseam]), hno]
  extract_lets _ _ _ woken sourced
  have hwoken : woken = wakeLate (rejoinLanes (timeOfSeam (lateStroke (regionEnded s)))) := rfl
  have hsourced : sourced = woken := by
    rw [← hwoken] at hsource
    simp only [sourced, hsource]
  change seamEntered sourced = _
  rw [hsourced, hwoken]

/-- A frame with no stroke in progress does not overrun at the seam. -/
theorem lateStroke_none (s : State) (hprog : s.frame.prog = []) : lateStroke s = s := by
  unfold lateStroke
  split
  · rfl
  · split
    · rfl
    · simp [hprog, firstStroke]

theorem foldl_some_isSome {α : Type} (f : Option α → α → Option α) (hf : ∀ b x, (f b x).isSome = true)
    (l : List α) (b : Option α) (h : b.isSome = true ∨ l ≠ []) : (l.foldl f b).isSome = true := by
  induction l generalizing b with
  | nil => simpa using h
  | cons x xs ih => exact ih _ (.inl (hf b x))

theorem firstStroke_isSome (l : List (Nat × Nat × Stroke)) (h : l ≠ []) : (firstStroke l).isSome = true := by
  refine foldl_some_isSome _ (fun b x => ?_) l none (.inr h)
  split
  · split <;> rfl
  · rfl

/-- A stroke in progress at the seam aborts the frame (R46). -/
theorem lateStroke_aborts (s : State) (hlive : s.frame.live = true) (hrun : s.frame.aborted = false)
    (hcur : (curDuctus s).isSome = true) (hprog : s.frame.prog ≠ []) :
    ∃ x, lateStroke s = abortWith s (overrunRec s (some x) (overrunDetail s + 2 ^ 63)) false := by
  obtain ⟨d, hd⟩ := Option.isSome_iff_exists.mp hcur
  obtain ⟨x, hx⟩ := Option.isSome_iff_exists.mp
    (firstStroke_isSome (s.frame.prog.map (fun r => (r.folio, r.idx, strokeAt s d r.folio r.idx))) (by simpa using hprog))
  exact ⟨x, by simp [lateStroke, hlive, hrun, hd, hx]⟩

/-- R39, R46, R49, R360: the start of the seam of O45. -/
theorem seamBegins : Claim.SeamBegins := by
  unfold Claim.SeamBegins
  intro s ha hjob hseam hlive hrun hwithin hsource
  have hexec : exec .seamStart s = .next (opSeamStart s) := whenAlive_next .seamStart s _ rfl ha
  refine ⟨fun hprog hnow => ?_, fun hprog hcur hregion => ?_⟩
  · have hlate : lateStroke (regionEnded s) = regionEnded s := lateStroke_none _ hprog
    obtain ⟨_, htime⟩ := timeOfSeam_frame (regionEnded s)
    have hwake : wakeLate (rejoinLanes (timeOfSeam (lateStroke (regionEnded s)))) =
        rejoinLanes (timeOfSeam (lateStroke (regionEnded s))) := by
      refine wakeLate_none _ ?_
      rw [hlate, htime]
      exact hnow
    have hop := opSeamStart_eq s hjob hseam hwithin (by rw [hwake, hlate, htime]; exact hsource)
    refine ⟨_, hexec, ?_⟩
    rw [hop, hwake, hlate, htime]
    exact ⟨seamEntered_frame _ hrun, rfl, rfl, rfl, rfl, rfl, seamEntered_train _⟩
  · obtain ⟨x, hlate⟩ := lateStroke_aborts (regionEnded s) hlive hrun hcur hprog
    obtain ⟨_, _, _, habort⟩ := abortWith_inRegion (regionEnded s)
      (overrunRec (regionEnded s) (some x) (overrunDetail (regionEnded s) + 2 ^ 63)) false hlive hrun hregion
    obtain ⟨_, htime⟩ := timeOfSeam_frame (lateStroke (regionEnded s))
    obtain ⟨_, _, _, _, _, _, _, hwake⟩ := wakeLate_reportOnly (rejoinLanes (timeOfSeam (lateStroke (regionEnded s))))
    have hop := opSeamStart_eq s hjob hseam hwithin (by rw [hwake, htime, hlate, habort]; exact hsource)
    refine ⟨_, hexec, ?_⟩
    rw [hop, hwake, htime, hlate, habort]
    exact ⟨rfl, rfl, rfl, rfl, rfl, rfl, _, rfl, rfl, rfl, rfl⟩

/-! ### The phases of the seam (Table 2.4) -/

/-- The state in which the work of phase `k` begins, no sooner than cycle `c` of the seam. -/
def phaseBegun (s : State) (k c : Nat) : State :=
  { s with
    time := (seamTo s c).time
    frame := { s.frame with phase := k, cycle := max s.frame.cycle (s.frame.seamAt + c) } }

/-- A phase that follows the one before it does its work. -/
theorem inPhase_due (s : State) (k : Nat) (f : State → State) (hseam : s.frame.seam = true) (hphase : s.frame.phase + 1 = k) :
    inPhase s k f = f (phaseBegun s k (phaseCycle k)) := by
  have hcycle : s.frame.cycle + (s.frame.seamAt + phaseCycle k - s.frame.cycle) =
      max s.frame.cycle (s.frame.seamAt + phaseCycle k) := by omega
  have hstart : { seamTo s (phaseCycle k) with frame.phase := k } = phaseBegun s k (phaseCycle k) := by
    have hto : seamTo s (phaseCycle k) = { elapse s ((s.frame.seamAt + phaseCycle k - s.frame.cycle) * unitsPerCycle) with
        frame.cycle := s.frame.cycle + (s.frame.seamAt + phaseCycle k - s.frame.cycle) } := if_pos hseam
    rw [phaseBegun, ← hcycle, hto]
    rfl
  simp [inPhase, hseam, hphase, hstart]

/-- A phase out of its turn does nothing. -/
theorem inPhase_other (s : State) (k : Nat) (f : State → State) (h : s.frame.seam = false ∨ s.frame.phase + 1 ≠ k) :
    inPhase s k f = s := by
  rcases h with h | h <;> simp [inPhase, h]

/-! ### Fault collection (R351) -/

theorem sortRecs_length (l : List FaultRec) : (sortRecs l).length = l.length := by
  have hinsert (r : FaultRec) (acc : List FaultRec) : (insertRec r acc).length = acc.length + 1 := by
    induction acc with
    | nil => rfl
    | cons x xs ih =>
      unfold insertRec
      split
      · rfl
      · simp [ih]
  have hfold (acc : List FaultRec) : (l.foldl (fun acc r => insertRec r acc) acc).length = l.length + acc.length := by
    induction l generalizing acc with
    | nil => simp
    | cons x xs ih => rw [List.foldl_cons, ih, hinsert, List.length_cons]; omega
  exact hfold []

/-- The fault unit once the records of the region have been collected. -/
def collectedFlt (s : State) : FaultUnit :=
  { s.flt with region := [], suppressed := sat32 (s.flt.suppressed + (s.flt.region.length - 64)) }

/-- The collection only reports beside what it takes from the fault unit. -/
theorem collectFaults_reportOnly (s : State) : ReportOnly { s with flt := collectedFlt s } (collectFaults s) := by
  unfold collectFaults
  dsimp only
  rw [sortRecs_length]
  exact .foldl _ (fun u x => putFault_reportOnly u _ _) _ _

theorem collectFaults_nil (s : State) (h : s.flt.region = []) : collectFaults s = { s with flt := collectedFlt s } := by
  simp [collectFaults, collectedFlt, h, sortRecs]

theorem collectFaults_one (s : State) (x : FaultRec) (h : s.flt.region = [x]) :
    collectFaults s = putFault { s with flt := collectedFlt s } x false := by
  simp [collectFaults, collectedFlt, h, sortRecs, insertRec]

/-- A record that the fault ring takes is written to it. -/
theorem putFault_taken (s : State) (r : FaultRec) (h : canWrite s s.rings.fq = true) :
    putFault s r false = hostRecord { s with rings.fq := s.rings.fq.pushed } 4 [] (s.rings.fq.base + 64 * s.rings.fq.tail)
      (withPhase r.bytes 1 4 s.rings.fq.phase) (some 4) := by
  simp [putFault, h]

theorem putFault_fq (s : State) (r : FaultRec) (h : canWrite s s.rings.fq = true) :
    (putFault s r false).rings.fq = s.rings.fq.pushed := by
  rw [putFault_taken s r h]
  obtain ⟨_, _, _, _, hrings⟩ := hostRecord_ringsKept { s with rings.fq := s.rings.fq.pushed } 4 []
    (s.rings.fq.base + 64 * s.rings.fq.tail) (withPhase r.bytes 1 4 s.rings.fq.phase) (some 4)
  rw [hrings]

@[simp] theorem bytes_length (r : FaultRec) : r.bytes.length = 64 := by simp [FaultRec.bytes]

/-- The first phase of a ring leaves a record as it is. -/
theorem withPhase_zero (bs : List Byte) (i k : Nat) (hi : i < bs.length) : withPhase bs i k 0 = bs := by
  have hbyte : rd bs i 1 = bs[i].toNat := by
    rw [rd, List.drop_eq_getElem_cons hi, List.take_succ_cons, List.take_zero]
    simp [leNat]
  simp [withPhase, hbyte]

/-- A vector raised at a PCIe host writes no memory of it. -/
theorem raiseVector_hostMem (s : State) (v : Nat) (hhost : s.rings.host = 0) : (raiseVector s v).hostMem = s.hostMem := by
  unfold raiseVector
  rw [if_neg (by simp [hhost])]
  split
  · rfl
  · split <;> rfl

/-- A record that the fault ring of a PCIe host takes in its first phase stands there. -/
theorem hostPeek_putFault (s : State) (r : FaultRec) (h : canWrite s s.rings.fq = true) (hhost : s.rings.host = 0)
    (hphase : s.rings.fq.phase = 0) :
    hostPeek (putFault s r false) (s.rings.fq.base + 64 * s.rings.fq.tail) 64 = r.bytes := by
  have hwhole : withPhase r.bytes 1 4 0 = r.bytes := withPhase_zero _ 1 4 (by simp)
  have hread := hostPeek_hostPoke { s with rings.fq := s.rings.fq.pushed } (s.rings.fq.base + 64 * s.rings.fq.tail) r.bytes
  rw [bytes_length] at hread
  rw [putFault_taken s r h, hphase, hwhole, hostRecord, if_neg (by simp [hhost])]
  refine Eq.trans ?_ hread
  exact congrArg (fun c => readBytes c _ 64) (raiseVector_hostMem _ 4 hhost)

/-- R49, R351: the fault collection of O45. -/
theorem faultCollectionWritesTheRegionsRecords : Claim.FaultCollectionWritesTheRegionsRecords := by
  unfold Claim.FaultCollectionWritesTheRegionsRecords
  intro s ha
  have hexec : exec .faultCollection s = .next (inPhase s 2 collectFaults) := whenAlive_next .faultCollection s _ rfl ha
  refine ⟨fun hseam hphase => ?_, fun hturn => ?_⟩
  · have hphase2 : inPhase s 2 collectFaults = collectFaults (phaseBegun s 2 640) := inPhase_due s 2 _ hseam (by rw [hphase])
    obtain ⟨_, _, _, _, _, _, _, hkeep⟩ := collectFaults_reportOnly (phaseBegun s 2 640)
    refine ⟨_, hexec, ?_⟩
    rw [hphase2]
    refine ⟨?_, ?_, ?_, ?_, ?_, ?_, fun hnil => ?_, fun hlen hwrite => ?_, fun x hx hwrite hhost hfirst => ?_⟩
    · rw [hkeep]; rfl
    · rw [hkeep]; rfl
    · rw [hkeep]; rfl
    · rw [hkeep]; rfl
    · rw [hkeep]; rfl
    · rw [hkeep]; rfl
    · rw [collectFaults_nil (phaseBegun s 2 640) hnil]
      rfl
    · obtain ⟨x, hx⟩ := List.length_eq_one_iff.mp hlen
      rw [collectFaults_one (phaseBegun s 2 640) x hx]
      exact putFault_fq _ x hwrite
    · rw [collectFaults_one (phaseBegun s 2 640) x hx]
      exact hostPeek_putFault { phaseBegun s 2 640 with flt := collectedFlt (phaseBegun s 2 640) } x hwrite hhost hfirst
  · rw [hexec, inPhase_other s 2 _ (hturn.imp_right (by omega))]

/-- Settles O45: the seam by its start, the collection by its phase. -/
theorem seamBeginsAndCollects : Obligations.SeamBeginsAndCollects := ⟨seamBegins, faultCollectionWritesTheRegionsRecords⟩

/-! ### DUCTUS_SWITCH with nothing held (R50, R51) -/

/-- A job's live frame whose switch has nothing to do but the switch. -/
structure SwitchesPlainly (s : State) : Prop where
  live : s.frame.live = true
  job : jobExists s = true
  held : s.rings.held = []
  pause : s.job.pauseNow = false
  remaps : s.folios.remaps = []
  route : s.glob.routePending = false
  params : s.job.params = []
  act : s.act = none
  queue : s.actQueue = []
  owners : s.train.ownerFix = []
  restart : s.train.restart = none

theorem applyRemaps_none (s : State) (h : s.folios.remaps = []) : applyRemaps s = s := by
  have hsame : ({ s with folios.remaps := [] } : State) = s := by rw [← h]
  rw [applyRemaps, h, List.foldl_nil, hsame]

theorem applyParams_none (s : State) (step : Nat) (h : s.job.params = []) : applyParams s step = s := by
  have hsame : ({ s with job.params := [] } : State) = s := by rw [← h]
  simp [applyParams, h, hsame]

theorem fixOwners_none (s : State) (h : s.train.ownerFix = []) : fixOwners s = s := by
  have hsame : ({ s with train.ownerFix := [] } : State) = s := by rw [← h]
  rw [fixOwners, h, List.foldl_nil, hsame]

/-- The switch of a live frame without a rollback names the next overlay. -/
theorem SwitchesPlainly.opDuctusSwitch_eq {s : State} (h : SwitchesPlainly s) :
    opDuctusSwitch s = { s with frame.current := overlayAt s (nextFrame s) s.job.f0 } := by
  have hact : nextAct (seamAct s) = s := by simp [seamAct, nextAct, h.act, h.queue]
  have hswitch : switchDuctus s = { s with frame.current := overlayAt s (nextFrame s) s.job.f0 } := by
    simp [switchDuctus, h.job, h.live, h.restart]
  simp only [opDuctusSwitch, h.held, List.foldl_nil, h.pause, Bool.false_and, Bool.false_eq_true, if_false,
    applyRemaps_none s h.remaps, h.route, applyParams_none s _ h.params, ite_self, fixOwners_none s h.owners, hact, hswitch]

/-! ### TAG_PHASE (R184, R426) -/

@[simp] theorem memBytes_length (m : Mem) (a n : Nat) : (memBytes m a n).length = n := by
  induction n generalizing a with
  | zero => rfl
  | succ n ih => simp [memBytes, ih]

/-- A position that a block marks lies within the block. -/
theorem blockMarks_lt (bs : List Byte) (x : Nat) (hx : x ∈ blockMarks bs) : x < 8 * bs.length := by
  obtain ⟨⟨b, i⟩, hb, hmark⟩ := List.mem_flatMap.mp hx
  have hi : i < bs.length := by
    obtain ⟨_, hlt, _⟩ := List.mem_zipIdx hb
    simpa using hlt
  dsimp only at hmark
  split at hmark
  · simp at hmark
  · obtain ⟨k, hk, rfl⟩ := List.mem_map.mp hmark
    have hk8 : k < 8 := List.mem_range.mp (List.mem_filter.mp hk).1
    omega

/-- The image marks slots of logical Folios. -/
theorem imageSlots_folio (s : State) (d : Loaded) (n : Nat) (hn : n ∈ imageSlots s d) : n / 8192 < 64 := by
  obtain ⟨l, hl, hmark⟩ := List.mem_flatMap.mp hn
  obtain ⟨x, hx, rfl⟩ := List.mem_map.mp hmark
  have hl64 : l < 64 := List.mem_range.mp (List.mem_filter.mp hl).1
  have hx6144 := blockMarks_lt _ x hx
  rw [peek, memBytes_length] at hx6144
  omega

/-- Where each logical Folio is carried, the tags are as the image marks them. -/
theorem loadTags_image (s : State) (i : Nat) (d : Loaded) (hd : loadedOf s i = some d)
    (hcarried : ∀ l, l < 64 → physOf s l ≠ none) :
    loadTags s (some i) = { s with mem.full := imageSlots s d, frame.seen := imageSlots s d } := by
  have hall : (imageSlots s d).filter (fun n => (physOf s (n / 8192)).isSome) = imageSlots s d :=
    List.filter_eq_self.mpr (fun n hn => Option.isSome_iff_ne_none.mpr (hcarried _ (imageSlots_folio s d n hn)))
  simp [loadTags, hd, hall]

/-- R50, R51, R184, R426: the Ductus switch and the tag phase of O46. -/
theorem seamSwitchesDuctusAndTags : Claim.SeamSwitchesDuctusAndTags := by
  unfold Claim.SeamSwitchesDuctusAndTags
  intro s ha hseam
  refine ⟨fun hphase hlive hjob hheld hpause hremaps hroute hparams hact hqueue howners hrestart => ?_,
    fun hphase hlive i d hcur hd hcarried => ?_⟩
  · have hexec : exec .ductusSwitch s = .next (inPhase s 4 opDuctusSwitch) := whenAlive_next .ductusSwitch s _ rfl ha
    have hplain : SwitchesPlainly (phaseBegun s 4 1152) :=
      ⟨hlive, hjob, hheld, hpause, hremaps, hroute, hparams, hact, hqueue, howners, hrestart⟩
    have hoverlay : overlayAt (phaseBegun s 4 1152) (nextFrame s) s.job.f0 = overlayAt s (nextFrame s) s.job.f0 :=
      overlayAt_congr (s := s) (t := phaseBegun s 4 1152) rfl rfl rfl rfl _ _
    have hop : inPhase s 4 opDuctusSwitch =
        { phaseBegun s 4 1152 with frame.current := overlayAt (phaseBegun s 4 1152) (nextFrame s) s.job.f0 } :=
      (inPhase_due s 4 _ hseam (by rw [hphase])).trans hplain.opDuctusSwitch_eq
    exact ⟨_, hexec, by rw [hop, hoverlay]; rfl⟩
  · have hexec : exec .tagPhase s = .next (inPhase s 6 (fun t =>
        if t.frame.live then loadTags t t.frame.current else loadTags t t.frame.next)) := whenAlive_next .tagPhase s _ rfl ha
    have hop : inPhase s 6 (fun t => if t.frame.live then loadTags t t.frame.current else loadTags t t.frame.next) =
        loadTags (phaseBegun s 6 1408) (some i) := by
      refine (inPhase_due s 6 _ hseam (by rw [hphase])).trans ((if_pos hlive).trans ?_)
      exact congrArg (loadTags (phaseBegun s 6 1408)) hcur
    have htags := loadTags_image (phaseBegun s 6 1408) i d hd hcarried
    exact ⟨_, hexec, by rw [hop, htags]; rfl⟩

theorem seamTo_timeState (s : State) (c : Nat) : (seamTo s c).time.state = s.time.state := by
  unfold seamTo
  dsimp only
  split <;> rfl

/-- R49: the frame advance of O46. -/
theorem seamAdvancesTheFrame : Claim.SeamAdvancesTheFrame := by
  unfold Claim.SeamAdvancesTheFrame
  intro s ha hseam
  have hexec : exec .frameAdvance s = .next (inPhase s 7 opAdvance) := whenAlive_next .frameAdvance s _ rfl ha
  refine ⟨fun hphase => ?_, fun hphase => ?_⟩
  · have hop : inPhase s 7 opAdvance = opAdvance (phaseBegun s 7 1536) := inPhase_due s 7 _ hseam (by rw [hphase])
    refine ⟨_, hexec, ?_⟩
    rw [hop]
    refine ⟨?_, rfl, rfl, rfl, rfl⟩
    simp only [opAdvance, phaseBegun, seamTo_timeState]
    rfl
  · rw [hexec, inPhase_other s 7 _ (.inr (by omega))]

/-- Settles O46: the switch, the tags and the advance, each in its phase. -/
theorem seamSwitchesAndAdvances : Obligations.SeamSwitchesAndAdvances := ⟨seamSwitchesDuctusAndTags, seamAdvancesTheFrame⟩

end Sys2Proof.Machine
end

-- The proofs of the family of chapter 3: the codes of the element formats and the values that they stand for.
section
/-! SUPPORT. The element formats: a finite code is a significand and the place of its last bit, and rounding to nearest of
that value gives the code back. -/

namespace Sys2Proof.Machine

open Sys2Proof

/-! ### A magnitude code as a significand and a unit (R55) -/

/-- The significand of a magnitude code, with the hidden bit of a normal one. -/
def Fmt.sig (f : Fmt) (mag : Nat) : Nat :=
  if mag / 2 ^ f.mb = 0 then mag % 2 ^ f.mb else 2 ^ f.mb + mag % 2 ^ f.mb

/-- The exponent of the last place of a magnitude code; a subnormal shares that of the least normal one. -/
def Fmt.unit (f : Fmt) (mag : Nat) : Int := (max (mag / 2 ^ f.mb) 1 : Nat) - f.bias - f.mb

/-- A code whose magnitude is at most the largest finite one is its significand in units of its last place. -/
theorem decF_finite (f : Fmt) (c : Nat) (h : c % 2 ^ (f.bits - 1) ≤ f.top) :
    decF f c = .fin (c.testBit (f.bits - 1)) (f.sig (c % 2 ^ (f.bits - 1))) (f.unit (c % 2 ^ (f.bits - 1))) := by
  simp only [decF, if_pos h]
  split
  next hsub => simp [Fmt.sig, Fmt.unit, hsub]
  next hnorm =>
    rw [Fmt.sig, if_neg hnorm, Fmt.unit, max_eq_left (Nat.one_le_iff_ne_zero.mpr hnorm)]

/-- A code of a finite value has a finite magnitude. -/
theorem finite_of_decF (f : Fmt) (c : Nat) (h : (decF f c).nf = false) : c % 2 ^ (f.bits - 1) ≤ f.top := by
  by_contra hgt
  simp only [decF, if_neg hgt] at h
  split at h <;> cases h

theorem Fmt.le_sig_of_normal (f : Fmt) {mag : Nat} (h : mag / 2 ^ f.mb ≠ 0) : 2 ^ f.mb ≤ f.sig mag := by
  rw [Fmt.sig, if_neg h]
  exact Nat.le_add_right _ _

theorem Fmt.sig_lt (f : Fmt) (mag : Nat) : f.sig mag < 2 ^ (f.mb + 1) := by
  have hman : mag % 2 ^ f.mb < 2 ^ f.mb := Nat.mod_lt _ (Nat.two_pow_pos _)
  rw [Fmt.sig, Nat.pow_succ]
  split <;> omega

/-- The codes ascend by one unit at a time: `2 ^ mb` of them to a binade above the least normal one. -/
theorem Fmt.binades_add_sig (f : Fmt) (mag : Nat) : (max (mag / 2 ^ f.mb) 1 - 1) * 2 ^ f.mb + f.sig mag = mag := by
  have hdiv := Nat.div_add_mod' mag (2 ^ f.mb)
  rw [Fmt.sig]
  split
  next hsub => simpa [hsub] using hdiv
  next hnorm =>
    obtain ⟨x, hx⟩ := Nat.exists_eq_succ_of_ne_zero hnorm
    rw [hx, Nat.succ_mul] at hdiv
    rw [hx, max_eq_left (Nat.succ_le_succ x.zero_le), Nat.succ_sub_one]
    omega

/-- Only the code 0 has no significand. -/
theorem Fmt.sig_eq_zero (f : Fmt) {mag : Nat} (h : f.sig mag = 0) : mag = 0 := by
  have hsub : mag / 2 ^ f.mb = 0 := by
    by_contra hnorm
    exact absurd (f.le_sig_of_normal hnorm) (by rw [h]; exact Nat.not_le.mpr (Nat.two_pow_pos _))
  have hmag := f.binades_add_sig mag
  rw [hsub, h] at hmag
  simpa using hmag.symm

/-! ### The value of a code rounds to the code (R57, R66) -/

/-- The last place that rounding keeps at the value of a code is that of the code. -/
theorem ulpExp_sig (f : Fmt) (mag : Nat) (h : f.sig mag ≠ 0) : ulpExp f (f.sig mag) (f.unit mag) = f.unit mag := by
  have hlt : Nat.log2 (f.sig mag) < f.mb + 1 := (Nat.log2_lt h).mpr (f.sig_lt mag)
  rw [ulpExp, expo, Fmt.unit]
  by_cases hsub : mag / 2 ^ f.mb = 0
  · rw [hsub]
    omega
  · have hle : f.mb ≤ Nat.log2 (f.sig mag) := (Nat.le_log2 h).mpr (f.le_sig_of_normal hsub)
    omega

/-- A whole number of units is its own rounding. -/
theorem rneNat_zero (m : Nat) : rneNat m 0 = m := by simp [rneNat]

theorem magOf_sig (f : Fmt) (mag : Nat) : magOf f (f.sig mag) (f.unit mag) = mag := by
  have hplace : f.unit mag + f.mb + f.bias - 1 = (max (mag / 2 ^ f.mb) 1 - 1 : Nat) := by
    rw [Fmt.unit]
    omega
  have hnat : (((max (mag / 2 ^ f.mb) 1 - 1 : Nat) : Int) * 2 ^ f.mb).toNat = (max (mag / 2 ^ f.mb) 1 - 1) * 2 ^ f.mb := by
    exact_mod_cast Int.toNat_natCast _
  rw [magOf, hplace, hnat, f.binades_add_sig]

/-- The greater of two codes is not of less magnitude. -/
theorem magLt_sig_of_le (f : Fmt) {a b : Nat} (h : a ≤ b) : magLt (f.sig b) (f.unit b) (f.sig a) (f.unit a) = false := by
  have hbinade : a / 2 ^ f.mb ≤ b / 2 ^ f.mb := Nat.div_le_div_right h
  rcases Nat.lt_or_ge (max (a / 2 ^ f.mb) 1) (max (b / 2 ^ f.mb) 1) with hlt | hge
  · have hnormal : b / 2 ^ f.mb ≠ 0 := by omega
    have hunits : f.unit a < f.unit b := by
      rw [Fmt.unit, Fmt.unit]
      omega
    have hdouble : 2 ≤ 2 ^ (f.unit b - f.unit a).toNat := Nat.le_self_pow (by omega) 2
    have hsig : f.sig a ≤ f.sig b * 2 ^ (f.unit b - f.unit a).toNat :=
      calc f.sig a ≤ 2 ^ f.mb * 2 := (f.sig_lt a).le
        _ ≤ f.sig b * 2 ^ (f.unit b - f.unit a).toNat := Nat.mul_le_mul (f.le_sig_of_normal hnormal) hdouble
    simp [magLt, hunits.not_ge, hsig]
  · have hsame : max (a / 2 ^ f.mb) 1 = max (b / 2 ^ f.mb) 1 := by omega
    have hunits : f.unit b = f.unit a := by
      rw [Fmt.unit, Fmt.unit]
      omega
    have hsig : f.sig a ≤ f.sig b := by
      have ha := f.binades_add_sig a
      have hb := f.binades_add_sig b
      rw [hsame] at ha
      omega
    simp [magLt, hunits, hsig]

/-- A finite code does not lie beyond the largest one. -/
theorem beyond_sig (f : Fmt) (htop : f.top < 2 ^ (f.bits - 1)) {mag : Nat} (h : mag ≤ f.top) :
    beyond f (f.sig mag) (f.unit mag) = false := by
  have hmod : f.top % 2 ^ (f.bits - 1) = f.top := Nat.mod_eq_of_lt htop
  rw [beyond, decF_finite f f.top hmod.le, hmod]
  exact magLt_sig_of_le f h

theorem encMag_sig (f : Fmt) (htop : f.top < 2 ^ (f.bits - 1)) {mag : Nat} (h : mag ≤ f.top) :
    encMag f (f.sig mag) (f.unit mag) rneNat = (mag, false) := by
  rw [encMag]
  split
  next hzero => rw [f.sig_eq_zero hzero]
  next hsig =>
    simp only [ulpExp_sig f mag hsig, sub_self, rneNat_zero, magOf_sig, beyond_sig f htop h, min_eq_left h]

/-- The sign bit stands above the magnitude. -/
theorem magnitude_add_sign {w c : Nat} (hw : w ≠ 0) (hc : c < 2 ^ w) :
    c % 2 ^ (w - 1) + (if c.testBit (w - 1) then 2 ^ (w - 1) else 0) = c := by
  obtain ⟨k, rfl⟩ := Nat.exists_eq_succ_of_ne_zero hw
  have hsplit := Nat.mod_pow_succ (x := c) (b := 2) (k := k)
  rw [Nat.mod_eq_of_lt hc, ← Nat.toNat_testBit] at hsplit
  rw [Nat.succ_sub_one]
  cases hbit : c.testBit k <;> simpa [hbit] using hsplit.symm

/-- A finite value of a floating-point format, normal, subnormal or a zero of either sign, encodes as the code that it came from. -/
theorem encF_decF (f : Fmt) (hbits : f.bits ≠ 0) (htop : f.top < 2 ^ (f.bits - 1)) {c : Nat} (hc : c < 2 ^ f.bits)
    (hfin : (decF f c).nf = false) : encF f (decF f c) rneNat = (c, false) := by
  have hmag := finite_of_decF f c hfin
  rw [decF_finite f c hmag]
  simp only [encF, encMag_sig f htop hmag, magnitude_add_sign hbits hc]

/-! ### Integers -/

theorem sint_of_lt {w c : Nat} (h : c < 2 ^ (w - 1)) : sint w c = c := by
  have hmod : c % 2 ^ w = c := Nat.mod_eq_of_lt (h.trans_le (Nat.pow_le_pow_right (by decide) (Nat.sub_le _ _)))
  rw [sint, hmod, if_pos h]
  exact_mod_cast hmod

theorem sint_of_le {w c : Nat} (h : 2 ^ (w - 1) ≤ c) (hc : c < 2 ^ w) : sint w c = c - 2 ^ w := by
  have hmod : c % 2 ^ w = c := Nat.mod_eq_of_lt hc
  rw [sint, hmod, if_neg h.not_gt]
  exact_mod_cast congrArg (fun x : Nat => (x : Int) - 2 ^ w) hmod

/-- An integer within the limit of its sign is encoded exactly. -/
theorem encI_within (w : Nat) (n : Bool) (m : Nat) (h : m ≤ if n then 2 ^ (w - 1) else 2 ^ (w - 1) - 1) :
    encI w (.fin n m 0) rneNat = (if n && m ≠ 0 then 2 ^ w - m else m, false) := by
  simp only [encI, rneNat_zero, min_eq_left h]
  simpa [magLt] using h

/-- An integer of two's complement, the least one included, encodes as the field that it came from. -/
theorem encI_sint {w c : Nat} (hw : w ≠ 0) (hc : c < 2 ^ w) : encI w (.ofInt (sint w c)) rneNat = (c, false) := by
  have hhalf : 2 ^ w = 2 ^ (w - 1) * 2 := (Nat.two_pow_pred_mul_two (Nat.pos_of_ne_zero hw)).symm
  rcases Nat.lt_or_ge c (2 ^ (w - 1)) with hpos | hneg
  · have hval : Val.ofInt (sint w c) = .fin false c 0 := by simp [sint_of_lt hpos, Val.ofInt]
    rw [hval, encI_within w false c (Nat.le_sub_one_of_lt hpos)]
    rfl
  · have hval : Val.ofInt (sint w c) = .fin true (2 ^ w - c) 0 := by
      have hint : sint w c = -((2 ^ w - c : Nat) : Int) := by
        rw [sint_of_le hneg hc, Nat.cast_sub hc.le]
        push_cast
        ring
      have hlt : 0 < 2 ^ w - c := Nat.sub_pos_of_lt hc
      simp only [hint, Val.ofInt, Int.natAbs_neg, Int.natAbs_natCast]
      rw [decide_eq_true (by omega)]
    rw [hval, encI_within w true (2 ^ w - c) (show _ ≤ 2 ^ (w - 1) by omega)]
    have hne : 2 ^ w - c ≠ 0 := Nat.sub_ne_zero_of_lt hc
    simp [hne, Nat.sub_sub_self hc.le]

/-! ### The formats of Table 3.1 -/

/-- Each floating-point format of Table 3.1 has the width of its code, and its finite magnitudes fit below the sign bit. -/
theorem fmtOf_wellFormed {code : Nat} {f : Fmt} (h : fmtOf code = some f) :
    f.bits = fmtBits code ∧ f.bits ≠ 0 ∧ f.top < 2 ^ (f.bits - 1) := by
  unfold fmtOf at h
  split at h <;> cases h <;> decide

theorem fmtBits_ne_zero (code : Nat) : fmtBits code ≠ 0 := by
  unfold fmtBits
  split <;> decide

/-! ### Element codes by the kind of their format (R81) -/

theorem decE_of_float {code : Nat} {f : Fmt} (hf : fmtOf code = some f) (c : Nat) : decE code c = decF f c := by
  simp only [decE, hf]

theorem encE_of_float {code : Nat} {f : Fmt} (hf : fmtOf code = some f) (v : Val) (rnd : Nat → Int → Nat) :
    encE code v rnd = encF f v rnd := by
  simp only [encE, hf]

theorem decE_of_integer {code : Nat} (hf : fmtOf code = none) (hscale : code ≠ 14) (c : Nat) :
    decE code c = .ofInt (sint (fmtBits code) c) := by
  simp only [decE, hf, if_neg hscale]

theorem encE_of_integer {code : Nat} (hf : fmtOf code = none) (hscale : code ≠ 14) (v : Val) (rnd : Nat → Int → Nat) :
    encE code v rnd = encI (fmtBits code) v rnd := by
  simp only [encE, hf, if_neg hscale]

/-- Settles O55: a floating-point code is a significand in units of its last place, which rounding keeps, and an integer is its
own rounding. The scale format, code 14, is no format of elements. -/
theorem representableValuesNarrowToThemselves : Obligations.RepresentableValuesNarrowToThemselves := by
  unfold Obligations.RepresentableValuesNarrowToThemselves
  intro code c hcode hc hfin
  cases hf : fmtOf code with
  | some f =>
    obtain ⟨hwidth, hbits, htop⟩ := fmtOf_wellFormed hf
    rw [decE_of_float hf] at hfin ⊢
    rw [encE_of_float hf]
    exact encF_decF f hbits htop (hwidth ▸ hc) hfin
  | none =>
    have hscale : code ≠ 14 := by
      rintro rfl
      exact absurd hcode (by decide)
    rw [decE_of_integer hf hscale, encE_of_integer hf hscale]
    exact encI_sint (fmtBits_ne_zero code) hc

end Sys2Proof.Machine
end

-- The proofs of the family of chapter 5: products, vector code, tile loads and mask strokes.
section
/-! SUPPORT. Strokes of products and masks: what an operation has on this device, what it writes there, and where a product's
output does not get through. -/

namespace Sys2Proof.Machine

open Sys2Proof

/-! ### The stroke that an operation belongs to, and what it has here (R163) -/

/-- No stroke is at work in a frame that has been aborted (R45). -/
theorem ctxOf_aborted {s : State} {l i cls : Nat} {x : Ctx} (h : ctxOf s l i cls = some x) : s.frame.aborted = false := by
  by_contra habort
  simp [ctxOf, habort] at h

/-- A stroke is seen at its own place. -/
theorem ctxOf_place {s : State} {l i cls : Nat} {x : Ctx} (h : ctxOf s l i cls = some x) : x.l = l ∧ x.i = i := by
  unfold ctxOf at h
  split at h
  · cases h
  · split at h
    · cases h
      exact ⟨rfl, rfl⟩
    · cases h

theorem inAbortCycle_running (s : State) (f : State → State) (hrun : s.frame.aborted = false) : inAbortCycle s f = f s := by
  simp [inAbortCycle, hrun]

theorem lt_of_farReads_eq_nil {rs : List (Nat × Nat)} (h : farReads rs = []) {r : Nat × Nat} (hr : r ∈ rs) : r.1 < 2 ^ 48 := by
  by_contra hfar
  have hmem : r ∈ rs.filter (fun r => decide (2 ^ 48 ≤ r.1)) := List.mem_filter.mpr ⟨hr, by simpa using hfar⟩
  obtain ⟨y, ys, hcons⟩ := List.exists_cons_of_ne_nil (List.ne_nil_of_mem hmem)
  rw [farReads, hcons] at h
  simp [List.eraseDups_cons] at h

/-- An operation that reads nothing at other devices, and has asked them for nothing, goes on at once. -/
theorem gather_here (s : State) (x : Transfer) (need : State → List (Nat × Nat)) (hasked : fetching s x = [])
    (hhere : farReads (need s) = []) : gather s x need = (s, some []) := by
  have hmissing : stillFar [] (need s) = [] := by simp [stillFar, hhere]
  have hnone (u : State) : withFar u [] = u := rfl
  simp [gather, hasked, farOf, hnone, hmissing]

/-! ### Writes on this device, where no line has an uncorrectable error -/

/-- `t` is `s` but for bytes of device memory, errors of its lines, and the counters. -/
def Written (s t : State) : Prop :=
  ∃ cells bad errs corr corrCount repairList cnt, t = { s with
    mem := { s.mem with cells := cells, bad := bad, errs := errs, corr := corr, corrCount := corrCount, repairList := repairList }
    cnt := cnt }

/-- Both memories read alike, and have the same uncorrectable lines. -/
structure ReadsAlike (s t : State) : Prop where
  cells : t.mem.cells = s.mem.cells
  undef : t.mem.undef = s.mem.undef
  bad : t.mem.bad = s.mem.bad

theorem Written.refl (s : State) : Written s s := ⟨_, _, _, _, _, _, _, rfl⟩

theorem Written.trans {s t u : State} (h : Written s t) (g : Written t u) : Written s u := by
  obtain ⟨_, _, _, _, _, _, _, rfl⟩ := h
  obtain ⟨_, _, _, _, _, _, _, rfl⟩ := g
  exact ⟨_, _, _, _, _, _, _, rfl⟩

theorem Corrected.written {s t : State} (h : Corrected s t) : Written s t := by
  obtain ⟨_, _, _, _, _, rfl⟩ := h
  exact ⟨_, _, _, _, _, _, _, rfl⟩

theorem Corrected.readsAlike {s t : State} (h : Corrected s t) : ReadsAlike s t := by
  obtain ⟨_, _, _, _, _, rfl⟩ := h
  exact ⟨rfl, rfl, rfl⟩

theorem ReadsAlike.trans {s t u : State} (h : ReadsAlike s t) (g : ReadsAlike t u) : ReadsAlike s u :=
  ⟨g.cells.trans h.cells, g.undef.trans h.undef, g.bad.trans h.bad⟩

theorem ReadsAlike.symm {s t : State} (h : ReadsAlike s t) : ReadsAlike t s := ⟨h.cells.symm, h.undef.symm, h.bad.symm⟩

theorem ReadsAlike.peek_eq {s t : State} (h : ReadsAlike s t) (a n : Nat) : peek t a n = peek s a n := by
  show memBytes t.mem a n = memBytes s.mem a n
  induction n generalizing a with
  | zero => rfl
  | succ n ih => simp only [memBytes, memByte, h.cells, h.undef, ih]

theorem poke_readsAlike {s t : State} (h : ReadsAlike s t) (a : Nat) (bs : List Byte) :
    ReadsAlike (poke s a bs) (poke t a bs) := by
  constructor <;> simp only [poke, failLines, h.cells, h.undef, h.bad]

theorem store_readsAlike {s t : State} (h : ReadsAlike s t) (a : Nat) (bs : List Byte) :
    ReadsAlike (store s a bs) (store t a bs) := by
  obtain ⟨u, hu, hs⟩ := store_eq_poke s a bs
  obtain ⟨v, hv, ht⟩ := store_eq_poke t a bs
  rw [hs, ht]
  exact poke_readsAlike (hu.readsAlike.symm.trans (h.trans hv.readsAlike)) a bs

theorem store_written (s : State) (a : Nat) (bs : List Byte) : Written s (store s a bs) := by
  obtain ⟨u, hu, hs⟩ := store_eq_poke s a bs
  rw [hs]
  exact hu.written.trans ⟨_, _, _, _, _, _, _, rfl⟩

theorem noteReads_corrected (s : State) (rs : List (Nat × Nat)) : Corrected s (noteReads s rs) :=
  List.foldlRecOn rs _ (CountOnly.refl s).corrected (fun t ht r _ => ht.trans
    (List.foldlRecOn _ correctLine (countLines_countOnly t r.1 r.2 0x62).corrected
      (fun u hu l _ => hu.trans (correctLine_corrected u l))))

/-- Writes to good memory of this device are plain stores. -/
theorem commitAll_here (s : State) (x : Transfer) (runs : List (Nat × List Byte)) (hbad : s.mem.bad = [])
    (hhere : ∀ y ∈ runs, y.1 < 2 ^ 48) : commitAll s x runs = runs.foldl (fun t r => store t r.1 r.2) s := by
  have hfar : runs.filter (fun r => decide (2 ^ 48 ≤ r.1)) = [] := by simpa using hhere
  have hall : runs.filter (fun r => decide (r.1 < 2 ^ 48)) = runs := by simpa using hhere
  have hgood : runs.flatMap (fun r => failLines s r.1 r.2.length) = [] := by simp [failLines_of_good s _ _ hbad]
  rw [commitAll, hfar, hall, commit, hgood]
  rfl

theorem storeAll_written (runs : List (Nat × List Byte)) (s : State) :
    Written s (runs.foldl (fun t r => store t r.1 r.2) s) :=
  List.foldlRecOn runs _ (Written.refl s) (fun t ht r _ => ht.trans (store_written t r.1 r.2))

theorem storeAll_readsAlike {s t : State} (h : ReadsAlike s t) (runs : List (Nat × List Byte)) :
    ReadsAlike (runs.foldl (fun t r => store t r.1 r.2) s) (runs.foldl (fun t r => store t r.1 r.2) t) := by
  induction runs generalizing s t with
  | nil => exact h
  | cons r rs ih => exact ih (store_readsAlike h r.1 r.2)

theorem nibEvent_countOnly (s : State) (k code n : Nat) (o : Origin) : CountOnly s (nibEvent s k code n o) := ⟨_, rfl⟩

/-! ### Answers of a check sequence -/

/-- Every value that `m` can answer has the property. -/
def Yields {ε α : Type} (m : Except ε α) (P : α → Prop) : Prop := ∀ a, m = .ok a → P a

theorem Yields.bind {ε α β : Type} {m : Except ε α} {f : α → Except ε β} {P : β → Prop} (h : ∀ a, Yields (f a) P) :
    Yields (m >>= f) P := by
  intro b hb
  cases m with
  | error e => cases hb
  | ok a => exact h a b hb

theorem yields_mapM {ε α β : Type} {f : α → Except ε β} {P : β → Prop} (l : List α) (h : ∀ a ∈ l, Yields (f a) P) :
    Yields (l.mapM f) (fun ys => ∀ y ∈ ys, P y) := by
  induction l with
  | nil => intro ys hys; cases hys; simp
  | cons a l ih =>
    rw [List.mapM_cons]
    intro ys hys
    cases ha : f a with
    | error e => rw [ha] at hys; cases hys
    | ok y =>
      cases hl : l.mapM f with
      | error e => rw [ha, hl] at hys; cases hys
      | ok zs =>
        rw [ha, hl] at hys
        cases hys
        have hzs := ih (fun b hb => h b (List.mem_cons_of_mem a hb)) zs hl
        simpa [h a List.mem_cons_self y ha] using hzs

theorem Yields.pure {ε α : Type} {a : α} {P : α → Prop} (h : P a) : Yields (pure a : Except ε α) P := by
  rintro _ ⟨⟩
  exact h

/-! ### Mask records and their scopes (R128 to R136) -/

/-- A decoded mask record holds the bytes that lie at its address. -/
theorem decodeMask_bytes (s : State) (a : Nat) : Yields (decodeMask s a) (fun r => r.b = peek s a 64) := by
  unfold decodeMask
  repeat' (refine Yields.bind fun _ => ?_)
  dsimp only
  split <;>
  · iterate 7 refine Yields.bind fun _ => ?_
    exact Yields.pure rfl

/-- A decoded mask record has the OPCODE that lies at its address. -/
theorem decodeMask_op {s : State} {a : Nat} {r : MaskRec} (h : decodeMask s a = .ok r) : r.op = peekN s a 1 := by
  rw [MaskRec.op, decodeMask_bytes s a r h]
  rfl

/-- Each tile of a scope lies where its linear index, counted from the first tile, places it. -/
theorem loadScope_places (s : State) (r : MaskRec) (first nib : Nat) : Yields (loadScope s r first nib) (fun xs =>
    ∀ x ∈ xs, ∃ i < r.group, x.l = first + i ∧ x.a = tileOfLinear s r.w (first + i)) := by
  refine yields_mapM _ (fun i hi => ?_)
  have hplace : i < r.group := List.mem_range.mp hi
  dsimp only
  split
  · rintro _ ⟨⟩
  · exact Yields.bind fun _ => Yields.pure ⟨i, hplace, rfl, rfl⟩

/-- A rewritten tile is written where it lay, and its companion entries in their arrays. -/
theorem tileWrites_places {s : State} {r : MaskRec} {x : ScopeTile} {masks : List Nat} {y : Nat × List Byte}
    (h : y ∈ tileWrites s r x masks) : y.1 = x.a ∨ ∃ c < r.comps, y.1 = rd r.b (32 + 8 * c) 8 + 16384 * x.l := by
  unfold tileWrites at h
  dsimp only at h
  split at h
  · exact .inl (congrArg Prod.fst (List.mem_singleton.mp h))
  · rcases List.mem_cons.mp h with h | h
    · exact .inl (congrArg Prod.fst h)
    · obtain ⟨c, hc, rfl⟩ := List.mem_map.mp h
      exact .inr ⟨c, List.mem_range.mp hc, rfl⟩

/-- What a scope's tiles are rewritten to, by the selection of its opcode. -/
def scopeWrites (s : State) (r : MaskRec) (xs : List ScopeTile) (ms : Masks) : List (Nat × List Byte) :=
  (xs.zip ms).flatMap (fun p => tileWrites s r p.1 p.2)

/-- A scope is written where it is read. -/
theorem scopeWrites_read {s : State} {r : MaskRec} {first nib : Nat} {xs : List ScopeTile} {ms : Masks}
    (hload : loadScope s r first nib = .ok xs) {y : Nat × List Byte} (hy : y ∈ scopeWrites s r xs ms) :
    ∃ z ∈ scopeReads s r first, z.1 = y.1 := by
  obtain ⟨p, hp, hw⟩ := List.mem_flatMap.mp hy
  obtain ⟨i, hi, hl, ha⟩ := loadScope_places s r first nib xs hload p.1 (List.of_mem_zip hp).1
  have hscope {z : Nat × Nat} (h : z = (p.1.a, tileSpan s r.w.form r.w.fmt p.1.a) ∨
      ∃ c < r.comps, z = (rd r.b (32 + 8 * c) 8 + 16384 * p.1.l, 16384)) : z ∈ scopeReads s r first := by
    refine List.mem_flatMap.mpr ⟨i, List.mem_range.mpr hi, ?_⟩
    rw [hl, ha] at h
    rcases h with rfl | ⟨c, hc, rfl⟩
    · exact List.mem_append_left _ List.mem_cons_self
    · exact List.mem_append_right _ (List.mem_map.mpr ⟨c, List.mem_range.mpr hc, rfl⟩)
  rcases tileWrites_places hw with h | ⟨c, hc, h⟩
  · exact ⟨_, hscope (.inl rfl), h.symm⟩
  · exact ⟨_, hscope (.inr ⟨c, hc, rfl⟩), h.symm⟩

theorem tileWrites_congr {s t : State} (h : ReadsAlike s t) (hjob : t.job = s.job) (r : MaskRec) (x : ScopeTile)
    (masks : List Nat) : tileWrites t r x masks = tileWrites s r x masks := by
  simp only [tileWrites, tileSpan, companions, h.peek_eq, hjob]

theorem scopeWrites_congr {s t : State} (h : ReadsAlike s t) (hjob : t.job = s.job) (r : MaskRec) (xs : List ScopeTile)
    (ms : Masks) : scopeWrites t r xs ms = scopeWrites s r xs ms := by
  simp only [scopeWrites, tileWrites_congr h hjob]

theorem maskMoved_countOnly (s : State) (r : MaskRec) (w : MaskRun) (nib : Nat) (rs : List (Nat × Nat)) :
    CountOnly s (maskMoved s r w nib rs) := by
  refine .foldl _ (fun u x => ?_) rs s
  split
  · exact .refl u
  · exact nibEvent_countOnly u _ _ _ _

/-- A scope written back: its writes, and what they count. -/
theorem writeScope_counts (s : State) (r : MaskRec) (x : Transfer) (nib : Nat) (xs : List ScopeTile) (ms : Masks) :
    CountOnly (commitAll s x (scopeWrites s r xs ms)) (writeScope s r { xfer := x, far := [] } nib xs ms) :=
  ((maskMoved_countOnly _ _ _ _ _).trans (nibEvent_countOnly _ _ _ _ _)).trans (nibEvent_countOnly _ _ _ _ _)

/-- The state in which a scope that has been read is written back. -/
def scopeRead (s : State) (r : MaskRec) (x : Transfer) (first : Nat) : State :=
  maskMoved (noteReads s (scopeReads s r first)) r { xfer := x, far := [] } (homeOf s r first) (scopeReads s r first)

theorem scopeRead_corrected (s : State) (r : MaskRec) (x : Transfer) (first : Nat) : Corrected s (scopeRead s r x first) :=
  (noteReads_corrected s _).trans (maskMoved_countOnly _ _ _ _ _).corrected

/-- A scope whose tiles pass their checks is selected and written back. -/
theorem runScope_loaded (s : State) (r : MaskRec) (x : Transfer) (first : Nat) (xs : List ScopeTile) (hbad : s.mem.bad = [])
    (hload : loadScope s r first (homeOf s r first) = .ok xs) :
    ∃ t, runScope s r { xfer := x, far := [] } first = (t, none) ∧
      CountOnly (commitAll (scopeRead s r x first) x (scopeWrites (scopeRead s r x first) r xs (selectScope r xs).1.ms)) t := by
  have hreads : readsBad s (scopeReads s r first) = none := readsBad_of_good s _ hbad
  have hcount (u v : State) (h : CountOnly u v) (nib n : Nat) (o : Origin) :
      CountOnly u (if r.w.form = 1 then v else nibEvent v nib 0x19 n o) := by
    split
    · exact h
    · exact h.trans (nibEvent_countOnly v _ _ _ _)
  have hfar : withFar s [] = s := rfl
  unfold runScope
  simp only [hfar, hreads, hload]
  exact ⟨_, rfl, hcount _ _ ((((writeScope_counts _ r x _ xs _).trans (nibEvent_countOnly _ _ _ _ _)).trans
    (nibEvent_countOnly _ _ _ _ _)).trans (nibEvent_countOnly _ _ _ _ _)) _ _ _⟩

/-- A scope that lies on this device: what its writes give, as if nothing had been counted or corrected before them. -/
theorem runScope_here (s : State) (r : MaskRec) (x : Transfer) (first : Nat) (xs : List ScopeTile) (hbad : s.mem.bad = [])
    (hload : loadScope s r first (homeOf s r first) = .ok xs) (hhere : ∀ z ∈ scopeReads s r first, z.1 < 2 ^ 48) :
    ∃ t, runScope s r { xfer := x, far := [] } first = (t, none) ∧ Written s t ∧
      t.mem.cells = (commitAll s x (scopeWrites s r xs (selectScope r xs).1.ms)).mem.cells := by
  obtain ⟨t, hrun, hcount⟩ := runScope_loaded s r x first xs hbad hload
  have hread := scopeRead_corrected s r x first
  have hjob : (scopeRead s r x first).job = s.job := by
    obtain ⟨_, _, _, _, _, h⟩ := hread
    rw [h]
  have hplace : ∀ y ∈ scopeWrites s r xs (selectScope r xs).1.ms, y.1 < 2 ^ 48 := by
    intro y hy
    obtain ⟨z, hz, hzy⟩ := scopeWrites_read hload hy
    exact hzy ▸ hhere z hz
  rw [scopeWrites_congr hread.readsAlike hjob,
    commitAll_here _ x _ (hread.readsAlike.bad.trans hbad) hplace] at hcount
  refine ⟨t, hrun, (hread.written.trans (storeAll_written _ _)).trans hcount.corrected.written, ?_⟩
  rw [commitAll_here s x _ hbad hplace, hcount.corrected.readsAlike.cells]
  exact (storeAll_readsAlike hread.readsAlike _).cells

/-- A selecting operation over one scope. -/
theorem runMask_oneScope (s : State) (r : MaskRec) (w : MaskRun) (hop : r.op ≠ 4) (hone : rd r.b 60 4 = r.group)
    (hgroup : 0 < r.group) (hrun : s.frame.aborted = false) : runMask s r w = runScope s r w (rd r.b 56 4) := by
  have hscopes : rd r.b 60 4 / r.group = 1 := by rw [hone, Nat.div_self hgroup]
  simp [runMask, hop, hscopes, hrun]

theorem MaskRec.reads_oneScope (r : MaskRec) (s : State) (hone : rd r.b 60 4 = r.group) (hgroup : 0 < r.group) :
    r.reads s = scopeReads s r (rd r.b 56 4) := by
  have hscopes : rd r.b 60 4 / r.group = 1 := by rw [hone, Nat.div_self hgroup]
  simp [MaskRec.reads, hscopes]

/-! ### The commands of mask strokes -/

theorem exec_maskStroke {c : Instr} {l i n : Nat} (s : State) (ha : alive s = true) (hl : l < 64)
    (hc : (c = .prune l i ∧ n = 1) ∨ (c = .regrow l i ∧ n = 2) ∨ (c = .swap l i ∧ n = 3) ∨ (c = .maskSet l i ∧ n = 4)) :
    exec c s = .next (opMaskStroke s l i n) := by
  have hfolio : isFolio l = true := decide_eq_true hl
  rcases hc with ⟨rfl, rfl⟩ | ⟨rfl, rfl⟩ | ⟨rfl, rfl⟩ | ⟨rfl, rfl⟩ <;> exact whenAlive_next _ _ _ hfolio ha

/-- What a mask stroke does with the answer of its operation. -/
def maskAnswered (l i : Nat) (v : State × Option (State × Option Bad)) : State :=
  match v.2 with
  | none => v.1
  | some (u, none) => doneRun u l i
  | some (u, some b) => if b.code = 0x0B then lineErrorBy u (some (l, i)) (b.addr / 64) else failStroke u l i b

/-- A mask stroke whose record decodes. -/
theorem opMaskStroke_decoded {s : State} {x : Ctx} {l i : Nat} {r : MaskRec} (hx : ctxOf s l i 8 = some x)
    (haddr : x.k.op < 2 ^ 48) (hdec : decodeMask s x.k.op = .ok r) :
    opMaskStroke s l i r.op = if s.job.skipped.contains s.job.step then doneRun s l i
      else maskAnswered l i (fetchMask s (strokeXfer l i) { r with back := x.back }) := by
  have hmod : x.k.op % 2 ^ 48 = x.k.op := Nat.mod_eq_of_lt haddr
  have hmine : ¬(1 ≤ peekN s x.k.op 1 && peekN s x.k.op 1 ≤ 4 && peekN s x.k.op 1 ≠ r.op) = true := by
    simp [decodeMask_op hdec]
  unfold opMaskStroke
  rw [inAbortCycle_running s _ (ctxOf_aborted hx)]
  simp only [hx, hmod, hmine, if_false, Nat.not_le.mpr haddr, hdec]
  rfl

/-- A selecting mask operation over one scope that lies here: a scope is written where it is read, so it is written here. -/
theorem fetchMask_oneScope {s : State} {x : Transfer} {q : MaskRec} {xs : List ScopeTile}
    (hrun : s.frame.aborted = false) (hbad : s.mem.bad = []) (hasked : fetching s x = []) (hop : q.op ≠ 4)
    (hone : rd q.b 60 4 = q.group) (hgroup : 0 < q.group) (hhere : farReads ((q.atDev s.glob.deviceId).reads s) = [])
    (hload : loadScope s (q.atDev s.glob.deviceId) (rd q.b 56 4) (homeOf s (q.atDev s.glob.deviceId) (rd q.b 56 4)) = .ok xs) :
    ∃ t, fetchMask s x q = (s, some (t, none)) ∧ Written s t ∧
      t.mem.cells = (commitAll s x (scopeWrites s (q.atDev s.glob.deviceId) xs
        (selectScope (q.atDev s.glob.deviceId) xs).1.ms)).mem.cells := by
  have hreads := MaskRec.reads_oneScope (q.atDev s.glob.deviceId) s hone hgroup
  obtain ⟨t, hscope, hwritten⟩ := runScope_here s (q.atDev s.glob.deviceId) x (rd q.b 56 4) xs hbad hload
    (fun z hz => lt_of_farReads_eq_nil hhere (hreads ▸ hz))
  have hmask : runMask s (q.atDev s.glob.deviceId) { xfer := x, far := [] } = (t, none) :=
    (runMask_oneScope s (q.atDev s.glob.deviceId) _ hop hone hgroup hrun).trans hscope
  exact ⟨t, by simp only [fetchMask, gather_here s x _ hasked hhere, Option.map_some, hmask], hwritten⟩

/-- Settles O49: what a mask stroke does follows from what its operation answers. -/
theorem maskStrokesRewriteTheirScopes : Obligations.MaskStrokesRewriteTheirScopes := by
  unfold Obligations.MaskStrokesRewriteTheirScopes
  intro s x l i n c r ha hl hc hx haddr hop hdec
  obtain rfl : r.op = n := (decodeMask_op hdec).trans hop
  have hexec := (exec_maskStroke s ha hl hc).trans (congrArg _ (opMaskStroke_decoded hx haddr hdec))
  refine ⟨fun hskip => by rw [hexec, if_pos hskip], fun hnot => ?_⟩
  rw [if_neg (Bool.eq_false_iff.mp hnot)] at hexec
  refine ⟨fun v hv => by rw [hexec, hv]; rfl, fun v t hv => by rw [hexec, hv]; rfl, ?_⟩
  intro hset hone hgroup hbad hasked hhere xs hload
  obtain ⟨t, hfetch, hwritten, hcells⟩ := fetchMask_oneScope (q := { r with back := x.back }) (ctxOf_aborted hx) hbad
    hasked hset hone hgroup hhere hload
  rw [hfetch] at hexec
  refine ⟨doneRun t l i, hexec, hcells, ?_⟩
  obtain ⟨_, _, _, _, _, _, _, rfl⟩ := hwritten
  exact ⟨rfl, rfl, rfl, fun _ => rfl⟩

/-! ### Vector code and tile loads (R104 to R106, R125) -/

theorem exec_quillVector {s : State} {x : Ctx} {l i : Nat} (ha : alive s = true) (hl : l < 64) (hx : ctxOf s l i 2 = some x) :
    exec (.quillVector l i) s = .next (doneRun s l i) := by
  obtain ⟨rfl, rfl⟩ := ctxOf_place hx
  have hvector : opQuillVector s x.l x.i = doneRun s x.l x.i := by simp [opQuillVector, hx]
  rw [← hvector]
  exact whenAlive_next _ _ _ (decide_eq_true hl) ha

/-- A fault of the work of a frame that runs aborts it, and leaves memory as it was (R45). -/
theorem abortWith_running (s : State) (r : FaultRec) (force : Bool) (hlive : s.frame.live = true)
    (hrun : s.frame.aborted = false) : (abortWith s r force).frame.aborted = true ∧ (abortWith s r force).mem = s.mem ∧
      rd (abortWith s r force).flt.last 0 1 = r.code % 256 := by
  have hsplit : ∃ flags, abortWith s r force = requestRollback (haltFrame (raiseFault s r.asCause)) flags r.code := by
    unfold abortWith
    rw [if_pos (by simp [hlive, hrun])]
    exact ⟨_, rfl⟩
  obtain ⟨flags, hsplit⟩ := hsplit
  obtain ⟨_, _, _, hsent⟩ := requestRollback_wireOnly (haltFrame (raiseFault s r.asCause)) flags r.code
  obtain ⟨_, hmem, _, hlast⟩ := raiseFault_frame s r.asCause
  rw [hsplit, hsent]
  exact ⟨rfl, hmem, (congrArg (fun b => rd b 0 1) hlast).trans (rd_bytes_code _)⟩

/-- A failing check of a tile is a fault of the tile's form or of its budget (R106). -/
theorem tileBad_code {s : State} {form fmt a : Nat} {budget quill nib : Option Nat} {col : Bool} {b : Bad}
    (h : tileBad s form fmt a budget col quill nib = some b) : b.code = 3 ∨ b.code = 4 := by
  obtain ⟨f, _, rfl⟩ := Option.map_eq_some_iff.mp h
  show tileCode f.1 = 3 ∨ tileCode f.1 = 4
  unfold tileCode
  split
  · exact .inr rfl
  · exact .inl rfl

/-- What a load of a tile meets: the tile is read, and its first failing check fails the stroke. -/
theorem opTileLoad_read {s : State} {u : TileLoad} (hlive : s.frame.live = true) (hrun : s.frame.aborted = false)
    (hblocked : s.frame.blocked = false) (hprog : s.frame.prog.any (fun r => r.folio == u.folio && r.idx == u.idx) = true)
    (hform : u.form = 1 ∨ u.form = 2) (hlow : 1 ≤ u.fmt) (hhigh : u.fmt ≤ 9)
    (hmem : installed s u.addr (if u.form = 1 then t24Bytes u.fmt else hatchReserved u.fmt) = true)
    (hbad : s.mem.bad = []) (hcorr : s.mem.corr = []) : ∃ t, CountOnly s t ∧
      let bad := tileBad s u.form u.fmt u.addr (if u.nib.isSome then none else u.budget) u.colMajor
        (if u.nib.isSome then none else some u.quill) u.nib
      (bad = none → opTileLoad s u = t) ∧ (∀ b, bad = some b → opTileLoad s u = failStroke t u.folio u.idx b) := by
  obtain ⟨cnt, hread⟩ := noteRead_countOnly s u.addr (tileSpan s u.form u.fmt u.addr) hcorr
  have hkind : ¬(u.form ≠ 1 ∧ u.form ≠ 2) := by omega
  have hload (o : Option Bad) (h : tileBad { s with cnt := cnt } u.form u.fmt u.addr (if u.nib.isSome then none else u.budget)
      u.colMajor (if u.nib.isSome then none else some u.quill) u.nib = o) :
      opTileLoad s u = o.elim { s with cnt := cnt } (failStroke { s with cnt := cnt } u.folio u.idx) := by
    unfold opTileLoad
    rw [inAbortCycle_running s _ hrun]
    simp only [hlive, hblocked, hprog, hmem, hlow, hhigh, hread, badLine_of_good s _ _ hbad, h]
    rw [if_neg (by simpa using hkind)]
    cases o with
    | none => rfl
    | some b => rfl
  exact ⟨_, ⟨cnt, rfl⟩, fun h => hload none h, fun b h => hload (some b) h⟩

/-- Vector code and tile loads keep their claim, the second of O48. -/
theorem vectorCodeAndTileLoadsWriteNothing : Claim.VectorCodeAndTileLoadsWriteNothing := by
  intro s x l i u ha hl hu
  refine ⟨exec_quillVector ha hl, ?_⟩
  intro hlive hrun hblocked hprog hform hlow hhigh hmem hbad hcorr
  obtain ⟨t, ⟨cnt, ht⟩, hpasses, hfails⟩ := opTileLoad_read hlive hrun hblocked hprog hform hlow hhigh hmem hbad hcorr
  have hexec : exec (.sparseTileLoad u) s = .next (opTileLoad s u) := whenAlive_next _ _ _ hu ha
  refine ⟨fun hpass => ⟨t, hexec.trans (congrArg _ (hpasses hpass)), by rw [ht]⟩, fun b hfail =>
    ⟨failStroke t u.folio u.idx b, hexec.trans (congrArg _ (hfails b hfail)), ?_⟩⟩
  subst ht
  obtain ⟨haborted, hkept, hlast⟩ := abortWith_running { s with cnt := cnt } (badRecord { s with cnt := cnt } u.folio u.idx b)
    false hlive hrun
  have hcode := tileBad_code hfail
  rw [badRecord_code, Nat.mod_eq_of_lt (show b.code < 256 by omega)] at hlast
  exact ⟨haborted, hkept, hlast, hcode⟩

/-! ### A product whose output no route leads to (R163, R259) -/

/-- A tensor of one element of BF16. -/
def oneElement (at_ base : Nat) : Desc :=
  { at_ := at_, magic := 0x4454, rank := 2, fmt := 8, form := 0, flags := 0, mxDim := 0, base := base, ext := [1, 1, 0, 0, 0, 0],
    str := [1, 1, 0, 0, 0, 0], blk := [1, 1, 0, 0, 0, 0], scale := 0, spare := 0 }

/-- A PRODUCT of 1 × 1 by 1 × 1 of BF16, in one part of exact order, so that no free order enters its sum. It lies here but for the
one block of C, which device 7 holds. -/
def productForAnother : Machine.Prod :=
  { at_ := 0x200
    b := leBytes 6 1 ++ leBytes 2 1 ++ leBytes 4 1 ++ leBytes 4 1 ++ leBytes 4 1 ++ leBytes 4 64 ++
      leBytes 8 0x280 ++ leBytes 8 0x300 ++ leBytes 16 0x380 ++ leBytes 16 0x400 ++ leBytes 8 0x500
    a := oneElement 0x280 0x600, bb := oneElement 0x300 0x640
    c := { oneElement 0x380 0x480 with flags := 1, own := [{ loc := 0x680, device := 7, window := 0, ok := true }] }
    p := { oneElement 0x380 0x480 with flags := 1, own := [{ loc := 0x680, device := 7, window := 0, ok := true }] }
    lig := leBytes 29 0 ++ leBytes 35 8, blot := [], kind := .float, m := 1, n := 1, k := 1 }

/-- Stroke 0 of Folio 0, with that product. -/
def productRunning : Running :=
  { folio := 0, idx := 0, start := 5, budget := 100, cls := 1, at_ := 0x200, quills := 1, dec := .product productForAnother }

/-- Device 5 in the stroke region of a frame of a job of devices 5 and 7, with that stroke in progress on Quill 0 under EXACT_ORDER,
and no route to device 7. -/
def noRouteToOutput : State :=
  { State.reset with
    pins.sysReset := false, glob.deviceId := 5, glob.jobState := 4, job.blk.devices := [5, 7], time.period := 1000
    ductus := [{ id := 7, addr := 0x1000, bytes := 0x900 }]
    mem.cells := [(0x1028, 0x80), (0x1029, 0x10), (0x1081, 0x16), (0x1608, 1), (0x1609, 8), (0x160A, 1)]
    frame.live := true, frame.region := true, frame.current := some 7, frame.issued := [(0, 0)], frame.prog := [productRunning] }

/-- That stroke, as its data work sees it. -/
def productCtx : Ctx :=
  { l := 0, i := 0, p := 0, k := strokeAt noRouteToOutput { id := 7, addr := 0x1000, bytes := 0x900 } 0 0, run := productRunning }

theorem exec_product {c : Instr} {l i n : Nat} (s : State) (ha : alive s = true) (hl : l < 64)
    (hc : (c = .product l i ∧ n = 1) ∨ (c = .productT l i ∧ n = 2) ∨ (c = .maskedOuter l i ∧ n = 3) ∨ (c = .probe l i ∧ n = 4)) :
    exec c s = .next (opProduct s l i n) := by
  have hfolio : isFolio l = true := decide_eq_true hl
  rcases hc with ⟨rfl, rfl⟩ | ⟨rfl, rfl⟩ | ⟨rfl, rfl⟩ | ⟨rfl, rfl⟩ <;> exact whenAlive_next _ _ _ hfolio ha

/-- The write of the output ends with LINK_DOWN and aborts the frame (R259), and the product ends there. -/
theorem product_noRoute : Answers (.product 0 0) noRouteToOutput (fun t =>
    t.frame.aborted = true ∧ rd t.flt.last 0 1 = 0x0C ∧ t.free = 0) := by
  refine ⟨opProduct noRouteToOutput 0 0 1, exec_product noRouteToOutput rfl (by decide) (.inl ⟨rfl, rfl⟩), ?_⟩
  decide +kernel

/-- The claim of products fails: this one meets its hypotheses, for nothing of them says where the output tile lies. -/
theorem not_productWritesItsTile : ¬ Claim.ProductWritesItsTile := by
  intro h
  obtain ⟨_, hruns⟩ := h noRouteToOutput productCtx 0 0 1 (.product 0 0) productForAnother rfl (by decide) (.inl ⟨rfl, rfl⟩)
    rfl rfl rfl rfl
  obtain ⟨_, hwrites⟩ := hruns (by decide) (by decide) (by decide) rfl (by decide +kernel)
  obtain ⟨t, hexec, _, _, _, _, _, _, _, hfree⟩ := hwrites (by decide +kernel) (by decide +kernel) (by decide)
    (by decide +kernel) (by decide +kernel) (by decide) (by decide +kernel) (by decide +kernel)
    (fun _ => by decide +kernel) (by decide +kernel) (by decide +kernel)
  obtain ⟨_, hends, _, _, hnone⟩ := product_noRoute
  cases hexec.symm.trans hends
  exact absurd (hnone.symm.trans hfree) (Nat.succ_ne_zero _).symm

/-- Refutes O48: where another device holds the output tile and no route leads there, the frame aborts with LINK_DOWN, and the product
ends without the free values of its sums, which the claim says it takes. -/
theorem not_productsAndQuills : ¬ Obligations.ProductsAndQuills := by
  rintro ⟨hproduct, _⟩
  exact not_productWritesItsTile hproduct

end Sys2Proof.Machine
end

-- The proofs of the family of chapter 6: routing and its count cells.
section
/-! SUPPORT. Routing over a link group in DRAIN: a count cell that no port takes. -/

namespace Sys2Proof.Machine

open Sys2Proof

/-! ### A count cell over a link group in DRAIN (R145, R335) -/

/-- A DISPATCH of one token to one expert, whose one row device 7 holds. -/
def routingToDevice7 : Routing :=
  { at_ := 0x200
    b := leBytes 2 1 ++ leBytes 1 1 ++ leBytes 1 1 ++ leBytes 4 1 ++ leBytes 4 1 ++ leBytes 4 64 ++ leBytes 8 0x280 ++
      leBytes 8 0x300 ++ leBytes 8 0x700 ++ leBytes 8 0x800 ++ leBytes 16 0x900
    score := oneElement 0x280 0x600, token := { oneElement 0x300 0x640 with ext := [32, 1, 0, 0, 0, 0] }
    reps := 1, tokens := 1, shares := [{ loc := 0x5000, dev := 7, win := 0, share := 1, ret := 0 }] }

/-- Stroke 0 of Folio 0, with that DISPATCH, whose data effect is made. -/
def dispatchRunning : Running :=
  { folio := 0, idx := 0, start := 5, budget := 100, cls := 6, at_ := 0x200, done := true, dec := .routing routingToDevice7 }

/-- Device 5 in the stroke region of a frame of a job of devices 5 and 7: its token is admitted, and the row is acknowledged. The share
table at 0x700 has been overwritten since the stroke issued, so that link group 0, whose port 0 leads to device 7, is no longer held,
and holds no vote. -/
def rowsAcknowledged : State :=
  { State.reset with
    pins.sysReset := false, glob.deviceId := 5, glob.jobState := 4, job.blk.devices := [5, 7], job.blk.firstDuctus := 7
    time.period := 1000, ductus := [{ id := 7, addr := 0x1000, bytes := 0x900 }]
    mem.cells := writeBytes [(0x1004, 7), (0x1018, 1), (0x1022, 1), (0x1024, 7), (0x1028, 0x80), (0x1029, 0x10), (0x1081, 0x16),
      (0x1088, 1), (0x1608, 6), (0x1611, 2)] 0x200 routingToDevice7.b
    power.dom := [(112, { state := 2, refusedNow := true, counted := true })], lanes := [(0, { state := 3, rate := 1 })]
    fab.routes := [{ value := 7, mask := 0xFFFFFF, port := 0, alt := 0xFF, flags := 1 }]
    experts.run := [(0, { token := 1, tokens := 1, shares := [(0, 1)], record := some routingToDevice7 })]
    frame.live := true, frame.region := true, frame.current := some 7, frame.issued := [(0, 0)], frame.prog := [dispatchRunning] }

/-- The same with link group 0 in DRAIN. -/
def groupDraining : State :=
  setDom rowsAcknowledged 112 { dom rowsAcknowledged 112 with state := 3, refusedNow := false }

/-- The model comes there by itself: the last hold condition of the group has cleared (R334). -/
theorem holdRelease_rowsAcknowledged : exec (.holdRelease 112) rowsAcknowledged = .next groupDraining := by
  have hdrains : opHoldRelease rowsAcknowledged 112 = groupDraining := by decide +kernel
  rw [← hdrains]
  exact whenAlive_next (.holdRelease 112) rowsAcknowledged _ rfl rfl

/-- Port 0 is UP, so that a route to device 7 exists, and takes no new work (R335). -/
theorem groupDraining_takesNothing : (routeOf groupDraining 7).isSome = true ∧
    routeVia (portTakes groupDraining) groupDraining 7 = none := by decide +kernel

/-- The count cell finds no way: its transfer keeps no packet. -/
theorem countCellSend_groupDraining : Answers (.countCellSend 0 0 0) groupDraining (fun t =>
    ∀ y ∈ t.fab.xfers, y.pkts = [] ∧ y.stopped = true) := by
  refine ⟨opCountCell groupDraining 0 0 0, whenAlive_next (.countCellSend 0 0 0) groupDraining _ rfl rfl, ?_⟩
  decide +kernel

/-- Refutes O50: a route to the expert's device is there as long as its port is UP, but the port of a link group in DRAIN takes no new
work, so that the count cell does not leave. -/
theorem not_tokensAreDispatchedAndCombined : ¬ Obligations.TokensAreDispatchedAndCombined := by
  unfold Obligations.TokensAreDispatchedAndCombined
  intro h
  obtain ⟨hroute, _⟩ := groupDraining_takesNothing
  obtain ⟨_, _, hcount⟩ := h groupDraining
    { l := 0, i := 0, p := 0, k := strokeAt groupDraining { id := 7, addr := 0x1000, bytes := 0x900 } 0 0, run := dispatchRunning }
    0 0 0 routingToDevice7 rfl (by decide)
  obtain ⟨t, hexec, _, _, _, _, y, hsent, _, _, hcell⟩ := hcount 0 rfl rfl (by decide) (by decide +kernel) (by decide +kernel)
    (by decide +kernel) rfl (by decide +kernel) (by decide +kernel) (by decide +kernel) (by decide +kernel) (by decide +kernel)
    hroute
  obtain ⟨u, hends, hnone⟩ := countCellSend_groupDraining
  cases hexec.symm.trans hends
  obtain ⟨hpkts, _⟩ := hnone y (hsent ▸ List.mem_append_right _ List.mem_cons_self)
  rw [hpkts] at hcell
  cases hcell

end Sys2Proof.Machine
end

-- The proofs of the family of chapter 7: moves on this device, and the landing cell of a move.
section
/-! SUPPORT. Moves that read and write on this device alone, and a landing cell over a link group in DRAIN. -/

namespace Sys2Proof.Machine

open Sys2Proof

/-! ### Writes to good memory -/

/-- Writes to good memory are plain stores, whoever makes them. -/
theorem commit_of_good (s : State) (who : Option (Nat × Nat)) (runs : List (Nat × List Byte)) (hbad : s.mem.bad = []) :
    commit s who runs = runs.foldl (fun t r => store t r.1 r.2) s := by
  have hgood : runs.flatMap (fun r => failLines s r.1 r.2.length) = [] := by simp [failLines_of_good s _ _ hbad]
  rw [commit, hgood]
  rfl

theorem commit_written (s : State) (who : Option (Nat × Nat)) (runs : List (Nat × List Byte)) (hbad : s.mem.bad = []) :
    Written s (commit s who runs) := by
  rw [commit_of_good s who runs hbad]
  exact storeAll_written runs s

/-- What writes leave in memory does not depend on corrected errors or on counters. -/
theorem commit_cells_congr {s t : State} (h : ReadsAlike s t) (who : Option (Nat × Nat)) (runs : List (Nat × List Byte))
    (hbad : s.mem.bad = []) : (commit t who runs).mem.cells = (commit s who runs).mem.cells := by
  rw [commit_of_good s who runs hbad, commit_of_good t who runs (h.bad.trans hbad)]
  exact (storeAll_readsAlike h runs).cells

/-! ### What a move counts, and what it sends -/

theorem folioEvent_countOnly (s : State) (p code n : Nat) (o : Origin) : CountOnly s (folioEvent s p code n o) := ⟨_, rfl⟩

theorem Mover.event_countOnly (v : Mover) (s : State) (code n a : Nat) : CountOnly s (v.event s code n a) := by
  unfold Mover.event
  split
  · exact .refl s
  · exact folioEvent_countOnly s _ _ _ _

theorem fetching_nil {s : State} (x : Transfer) (h : s.fab.xfers = []) : fetching s x = [] := by simp [fetching, h]

/-- Writes that all lie on this device name no other device. -/
theorem putDevs_local {ps : List Put} (h : ∀ p ∈ ps, p.dev = none) : ps.filterMap (fun p => p.dev) = [] :=
  List.filterMap_eq_nil_iff.mpr h

/-! ### A move on this device alone (R165, R175) -/

/-- The bytes that a move which asks other devices for nothing writes here. -/
def Move.localRuns (m : Move) (s : State) : List (Nat × List Byte) :=
  runsOf (bufFor s none (m.puts s [] (m.resolved (m.pairs s)).1).1)

/-- A move that breaks no edge or owner rule, and reads and writes on this device alone. -/
structure Move.RunsHere (m : Move) (s : State) (strict : Bool) (cls : Option Nat) : Prop where
  good : s.mem.bad = []
  idle : s.fab.xfers = []
  lands : m.flag 1 = false
  edges : strictBad m strict (m.pairs s) = none
  owners : blockBad s m cls (m.resolved (m.pairs s)).1 = none
  reads : m.needs s (m.resolved (m.pairs s)).1 = []
  writes : ∀ p ∈ (m.puts s [] (m.resolved (m.pairs s)).1).1, p.dev = none

/-- What is counted once such a move has written its bytes, as it saw memory before (R172, R169, R174). -/
def Move.countHere (m : Move) (s : State) (v : Mover) (u : State) : State :=
  let r := m.resolved (m.pairs s)
  let a := ((placeOf s m.src ((r.1.headD ([], [])).1)).bit / 8).toNat
  v.event (v.event (v.event u v.moved (m.bytes s [] r.1) a) 0x14 r.2 a) 0x15 (m.puts s [] r.1).2 a

theorem Move.countHere_countOnly (m : Move) (s : State) (v : Mover) (u : State) : CountOnly u (m.countHere s v u) :=
  ((v.event_countOnly u _ _ _).trans (v.event_countOnly _ _ _ _)).trans (v.event_countOnly _ _ _ _)

/-- Such a move ends at once: it reads, writes and counts. -/
theorem Move.RunsHere.runMove_eq {m : Move} {s : State} {v : Mover} (h : m.RunsHere s v.strict v.cls) :
    runMove s v m = (m.countHere s v (commit (noteReads s (m.reads s (m.resolved (m.pairs s)).1))
      (v.xfer.folio.map (fun l => (l, v.xfer.idx))) (m.localRuns s)), none, true) := by
  have hkept : s.fab.xfers.filter (fun y => !([] : List Transfer).contains y) = s.fab.xfers := by simp
  have hfetched : fetchedOf [] = [] := rfl
  unfold runMove
  simp only [h.edges, h.owners, h.reads, fetching_nil v.xfer h.idle, readsBad_of_good s _ h.good, h.lands, hkept, hfetched,
    putDevs_local h.writes]
  rfl

theorem Move.RunsHere.runMove_written {m : Move} {s : State} {v : Mover} (h : m.RunsHere s v.strict v.cls) :
    ∃ t, runMove s v m = (t, none, true) ∧ Written s t ∧
      t.mem.cells = (commit s (v.xfer.folio.map (fun l => (l, v.xfer.idx))) (m.localRuns s)).mem.cells := by
  have hread := noteReads_corrected s (m.reads s (m.resolved (m.pairs s)).1)
  have hcount := (m.countHere_countOnly s v (commit (noteReads s (m.reads s (m.resolved (m.pairs s)).1))
    (v.xfer.folio.map (fun l => (l, v.xfer.idx))) (m.localRuns s))).corrected
  refine ⟨_, h.runMove_eq, (hread.written.trans (commit_written _ _ _ (hread.readsAlike.bad.trans h.good))).trans hcount.written, ?_⟩
  exact hcount.readsAlike.cells.trans (commit_cells_congr hread.readsAlike _ _ h.good)

/-! ### The commands of moves -/

theorem exec_move {f : MoveSrc → Instr} {n : Nat} (src : MoveSrc) (s : State) (ha : alive s = true) (hsrc : src.wf = true)
    (hf : (f = Instr.copy ∧ n = 1) ∨ (f = Instr.gather ∧ n = 2) ∨ (f = Instr.scatter ∧ n = 3)) :
    exec (f src) s = .next (opMove s src n) := by
  rcases hf with ⟨rfl, rfl⟩ | ⟨rfl, rfl⟩ | ⟨rfl, rfl⟩ <;> exact whenAlive_next _ _ _ hsrc ha

theorem moveCtx_aborted {s : State} {l i : Nat} {x : Ctx} (h : moveCtx s l i = some x) : s.frame.aborted = false := by
  unfold moveCtx at h
  split at h
  · next hx => exact ctxOf_aborted hx
  · exact ctxOf_aborted h

/-- A stroke's move as the unit that carries it out sees it (R366). -/
def strokeMover (s : State) (x : Ctx) (l i : Nat) : Mover :=
  { xfer := strokeXfer l i, cls := some x.k.cls, strict := curFlag s 2
    folio := x.p, moved := 3 + b2n x.back, origin := x.from 1 none }

/-- A stroke's move that ends makes the stroke's data effect. -/
theorem opMoveStroke_done {s t : State} {x : Ctx} {l i : Nat} {m : Move} (hx : moveCtx s l i = some x)
    (hdec : x.run.dec = .move m) (hstream : onStream s l i m = true) (hrun : runMove s (strokeMover s x l i) m = (t, none, true)) :
    opMoveStroke s l i m.op = doneRun t l i := by
  unfold strokeMover at hrun
  unfold opMoveStroke
  rw [inAbortCycle_running s _ (moveCtx_aborted hx)]
  simp [hx, hdec, hstream, hrun]

/-- A core's move as the unit that carries it out sees it (log 35). -/
def firmwareMover (a : Nat) : Mover :=
  { xfer := { tag := 0, dst := 0, idx := a }, cls := none, strict := false
    folio := Config.firmwareFolio a % 68, moved := 3, origin := { priv := 1, master := 1 } }

/-- A core's move reads its records, and is then carried out. -/
theorem opMoveFirmware_done {s t : State} {a : Nat} {m : Move} (hgood : s.mem.bad = [])
    (hdec : decodeMove (noteReads s (moveRecReads s a)) a none = .ok m)
    (hrun : runMove (noteReads s (moveRecReads s a)) (firmwareMover a) m = (t, none, true)) :
    opMoveFirmware s a (rd (peek s a 128) 0 1) = t := by
  unfold firmwareMover at hrun
  unfold opMoveFirmware
  simp [readsBad_of_good s _ hgood, hdec, hrun]

/-- Settles O51: a move on this device alone ends at once, with its own writes. -/
theorem movesWriteTheirDestination : Obligations.MovesWriteTheirDestination := by
  unfold Obligations.MovesWriteTheirDestination
  intro s x l i a n m f ha hl haddr hf hgood hidle _ hland
  refine ⟨fun hx hdec hop hstream hedges howners ⟨hneeds, hputs⟩ => ?_, fun hop hdec hedges howners ⟨hneeds, hputs⟩ => ?_⟩
  · have hhere : m.RunsHere s (strokeMover s x l i).strict (strokeMover s x l i).cls :=
      ⟨hgood, hidle, hland, hedges, howners, hneeds, hputs⟩
    obtain ⟨t, hrun, hwritten, hcells⟩ := hhere.runMove_written
    refine ⟨doneRun t l i, ?_, hcells, ?_⟩
    · rw [exec_move (.stroke l i) s ha (decide_eq_true hl) hf, ← hop]
      exact congrArg _ (opMoveStroke_done hx hdec hstream hrun)
    · obtain ⟨_, _, _, _, _, _, _, rfl⟩ := hwritten
      exact ⟨rfl, rfl, rfl, rfl, rfl⟩
  · have hread := noteReads_corrected s (moveRecReads s a)
    have hfab : (noteReads s (moveRecReads s a)).fab = s.fab := by
      obtain ⟨_, _, _, _, _, h⟩ := hread
      rw [h]
    have hhere : m.RunsHere (noteReads s (moveRecReads s a)) (firmwareMover a).strict (firmwareMover a).cls :=
      ⟨hread.readsAlike.bad.trans hgood, by rw [hfab, hidle], hland, hedges, howners, hneeds, hputs⟩
    obtain ⟨t, hrun, hwritten, hcells⟩ := hhere.runMove_written
    refine ⟨t, ?_, hcells, ?_⟩
    · rw [exec_move (.firmware a) s ha (decide_eq_true haddr) hf, ← hop]
      exact congrArg _ (opMoveFirmware_done hgood hdec hrun)
    · obtain ⟨_, _, _, _, _, _, _, rfl⟩ := hread.written.trans hwritten
      exact ⟨rfl, rfl, rfl, rfl, rfl⟩

/-! ### A landing cell over a link group in DRAIN (R168, R335) -/

/-- The shape cell of one row of 64 bytes that lands. -/
def landingCell : List Byte := leBytes 8 0x01024353 ++ leBytes 4 32 ++ leBytes 20 1 ++ leBytes 4 1 ++ leBytes 28 64

/-- A COPY of a row of 32 elements of BF16 to 0x4FC0 of device 7, of TRAFFIC 1, with that cell behind it. -/
def landingMove : Move :=
  { at_ := 0x200
    b := leBytes 3 0x1201 ++ leBytes 1 1 ++ leBytes 4 8 ++ leBytes 8 0x280 ++ leBytes 8 0x300 ++ leBytes 40 0 ++ leBytes 4 32 ++
      leBytes 44 1 ++ leBytes 8 0x380 ++ leBytes 8 7
    src := { oneElement 0x280 0x600 with ext := [32, 1, 0, 0, 0, 0] }
    dst := { oneElement 0x300 0x4FC0 with ext := [32, 1, 0, 0, 0, 0] }
    remote := some (7, 0), traffic := 1, ext := [32, 1], cell := landingCell }

/-- Stroke 0 of Folio 0, with that move, whose data effect is made. -/
def landingRunning : Running :=
  { folio := 0, idx := 0, start := 5, budget := 100, cls := 5, at_ := 0x200, done := true, dec := .move landingMove }

/-- Its transfer, which device 7 has acknowledged. -/
def landingTransfer : Transfer :=
  { tag := 0, dst := 7, folio := some 0, acked := true, land := some (0x5000, landingCell), cls := 1 }

/-- Device 5 in the stroke region of a frame of a job of devices 5 and 7, with that transfer. Link group 0, whose port 0 leads to
device 7, has the vote of the supervisor alone; a move of TRAFFIC 1 does not hold it. -/
def cellDue : State :=
  { State.reset with
    pins.sysReset := false, glob.deviceId := 5, glob.jobState := 4, job.blk.devices := [5, 7], job.blk.firstDuctus := 7
    time.period := 1000, ductus := [{ id := 7, addr := 0x1000, bytes := 0x900 }]
    mem.cells := writeBytes [(0x1004, 7), (0x1018, 1), (0x1022, 1), (0x1024, 7), (0x1028, 0x80), (0x1029, 0x10), (0x1081, 0x16),
      (0x1088, 1), (0x1608, 5), (0x1611, 2)] 0x200 landingMove.b
    power.dom := [(112, { state := 2, votes := 4 })], lanes := [(0, { state := 3, rate := 1 })]
    fab.routes := [{ value := 7, mask := 0xFFFFFF, port := 0, alt := 0xFF, flags := 1 }], fab.xfers := [landingTransfer]
    frame.live := true, frame.region := true, frame.current := some 7, frame.issued := [(0, 0)], frame.prog := [landingRunning] }

/-- The same with link group 0 in DRAIN. -/
def cellGroupDraining : State := setDom cellDue 112 { state := 3 }

/-- The model comes there by itself: the supervisor withdraws its vote on domain 112, which is bit 48 of register 1 (R331, R332). -/
theorem supvVoteClr_cellDue : exec (.supvVoteClr 1 (2 ^ 48)) cellDue = .next cellGroupDraining := by
  have hdrains : maskVote cellDue (64 * 1) 64 (2 ^ 48) 2 false = cellGroupDraining := by decide +kernel
  rw [← hdrains]
  exact whenAlive_next (.supvVoteClr 1 (2 ^ 48)) cellDue _ rfl rfl

/-- The landing cell finds no way, though a route to device 7 exists: its transfer keeps no packet. -/
theorem landCellSend_cellGroupDraining : Answers (.landCellSend 0) cellGroupDraining (fun t =>
    ∀ y ∈ t.fab.xfers, y.pkts = []) := by
  refine ⟨opLandCell cellGroupDraining 0, whenAlive_next (.landCellSend 0) cellGroupDraining _ rfl rfl, ?_⟩
  decide +kernel

/-- Refutes O52: a route to the receiver is there as long as its port is UP, but the port of a link group in DRAIN takes no new
work, so that the landing cell of an acknowledged move does not leave. -/
theorem not_streamsHoldTheirMoves : ¬ Obligations.StreamsHoldTheirMoves := by
  unfold Obligations.StreamsHoldTheirMoves
  intro h
  obtain ⟨_, _, hland⟩ := h cellGroupDraining
    { l := 0, i := 0, p := 0, k := strokeAt cellGroupDraining { id := 7, addr := 0x1000, bytes := 0x900 } 0 0, run := landingRunning }
    0 0 0 landingMove rfl (by decide) (by decide)
  have hroute : (routeOf cellGroupDraining landingTransfer.dst).isSome = true := by decide +kernel
  obtain ⟨t, hexec, _, _, _, _, u, v, hsent, _, _, _, hcell⟩ := hland landingTransfer 0x5000 landingCell rfl rfl rfl rfl rfl rfl
    hroute (by decide)
  obtain ⟨_, hends, hnone⟩ := landCellSend_cellGroupDraining
  cases hexec.symm.trans hends
  have hempty : v.pkts = [] := hnone v (by simp [hsent])
  rw [hempty] at hcell
  cases hcell

end Sys2Proof.Machine
end

-- The proofs of the family of chapter 8: every function of the model keeps both memories in canonical form.
section
/-! SUPPORT. The canonical form of device memory and of the ring host's memory under each function of the model. -/

namespace Sys2Proof.Machine

open Sys2Proof

/-! ### The canonical form of both memories (log 1, log 2)

A function that leaves both memories alone has its lemma as an `↔`; one that writes them takes the canonical form of the state that
it is given. A lemma of a function follows from those of the functions that it calls, branch by branch, so the lemmas stand in the
order of the model's definitions. -/

/-- Both memories are in canonical form: `MemoryOk`, as a predicate that is not unfolded. -/
def Canonical (s : State) : Prop := MemoryOk s

/-- Whatever else of the state is replaced, the memories are those of `u`. -/
theorem canonical_update {u : State}
    {pending free out pins flash glob loss colo time rings mb power i3c flt cnt folios lanes links ports fab pcie eth scan boot serve
      act actQueue actHdr job ductus frame streams experts train digests} :
    Canonical ⟨pending, free, out, u.hostMem, pins, flash, u.mem, glob, loss, colo, time, rings, mb, power, i3c, flt, cnt, folios,
      lanes, links, ports, fab, pcie, eth, scan, boot, serve, act, actQueue, actHdr, job, ductus, frame, streams, experts, train,
      digests⟩ ↔ Canonical u := Iff.rfl

/-- Nor do the error lines, the tags and the training of device memory matter. -/
theorem canonical_updateMem {u : State}
    {pending free out pins flash glob loss colo time rings mb power i3c flt cnt folios lanes links ports fab pcie eth scan boot serve
      act actQueue actHdr job ductus frame streams experts train digests}
    {bad corr errs corrCount repairList spared laneSpares full lpChannels lpRanks lpGib lpRate lpMismatch vaultTrained
      channelTrained} :
    Canonical ⟨pending, free, out, u.hostMem, pins, flash, ⟨u.mem.cells, u.mem.undef, bad, corr, errs, corrCount, repairList, spared,
      laneSpares, full, lpChannels, lpRanks, lpGib, lpRate, lpMismatch, vaultTrained, channelTrained⟩, glob, loss, colo, time, rings,
      mb, power, i3c, flt, cnt, folios, lanes, links, ports, fab, pcie, eth, scan, boot, serve, act, actQueue, actHdr, job, ductus,
      frame, streams, experts, train, digests⟩ ↔ Canonical u := Iff.rfl

@[simp] theorem canonical_ite {p : Prop} [Decidable p] {s t : State} :
    Canonical (if p then s else t) ↔ if p then Canonical s else Canonical t := by split <;> rfl

@[simp] theorem canonical_ite_fst {α : Type} {p : Prop} [Decidable p] {s t : State × α} :
    Canonical (if p then s else t).1 ↔ if p then Canonical s.1 else Canonical t.1 := by split <;> rfl

/-- A fold of steps each of which keeps the canonical form of the state that the accumulator holds. -/
theorem canonical_foldl {α β : Type} (st : β → State) (f : β → α → β) (l : List α) (b : β)
    (hf : ∀ u x, Canonical (st u) → Canonical (st (f u x))) (h : Canonical (st b)) : Canonical (st (l.foldl f b)) := by
  induction l generalizing b with
  | nil => exact h
  | cons x l ih => exact ih _ (hf b x h)

@[simp] theorem foldl_canonical {α : Type} (f : State → α → State) (l : List α) {s : State}
    (hf : ∀ u x, Canonical u → Canonical (f u x)) (h : Canonical s) : Canonical (l.foldl f s) :=
  canonical_foldl (fun u => u) f l s hf h

@[simp] theorem foldl_canonical_fst {α γ : Type} (f : State × γ → α → State × γ) (l : List α) {s : State × γ}
    (hf : ∀ u x, Canonical u.1 → Canonical (f u x).1) (h : Canonical s.1) : Canonical (l.foldl f s).1 :=
  canonical_foldl (fun u => u.1) f l s hf h

@[simp] theorem foldl_canonical_iff {α : Type} (f : State → α → State) (l : List α) {s : State}
    (hf : ∀ u x, Canonical (f u x) ↔ Canonical u) : Canonical (l.foldl f s) ↔ Canonical s := by
  induction l generalizing s with
  | nil => rfl
  | cons x l ih => exact ih.trans (hf s x)

/-! What only counts, sends, votes or trains leaves both memories alone. -/

theorem WireOnly.canonical {s t : State} (h : WireOnly s t) : Canonical t ↔ Canonical s := by obtain ⟨_, _, _, rfl⟩ := h; rfl

theorem PowerOnly.canonical {s t : State} (h : PowerOnly s t) : Canonical t ↔ Canonical s := by obtain ⟨_, _, rfl⟩ := h; rfl

theorem LanesOnly.canonical {s t : State} (h : LanesOnly s t) : Canonical t ↔ Canonical s := by obtain ⟨_, _, _, rfl⟩ := h; rfl

theorem CountOnly.canonical {s t : State} (h : CountOnly s t) : Canonical t ↔ Canonical s := by obtain ⟨_, rfl⟩ := h; rfl

theorem PortsOnly.canonical {s t : State} (h : PortsOnly s t) : Canonical t ↔ Canonical s := by obtain ⟨_, _, _, rfl⟩ := h; rfl

theorem Corrected.canonical {s t : State} (h : Corrected s t) : Canonical t ↔ Canonical s := by
  obtain ⟨_, _, _, _, _, rfl⟩ := h; rfl

/-! #### The reset state -/

@[simp] theorem reset_canonical : Canonical State.reset := ⟨rfl, rfl⟩

/-! #### The named operations -/

@[simp] theorem setDom_canonical {s : State} (n d) : Canonical (setDom s n d) ↔ Canonical s := (setDom_powerOnly _ _ _).canonical
@[simp] theorem setFolio_canonical {s : State} (n f) : Canonical (setFolio s n f) ↔ Canonical s := Iff.rfl
@[simp] theorem poke_canonical {s : State} (a bs) (h : Canonical s) : Canonical (poke s a bs) := ⟨poke_wf s a bs h.1, h.2⟩
@[simp] theorem forget_canonical {s : State} (lo hi group) (h : Canonical s) : Canonical (forget s lo hi group) :=
  ⟨forget_wf s lo hi group h.1, h.2⟩
@[simp] theorem forgetFolio_canonical {s : State} (l) (h : Canonical s) : Canonical (forgetFolio s l) := by simp [forgetFolio, h]
@[simp] theorem setFull_canonical {s : State} (slot) : Canonical (setFull s slot) ↔ Canonical s := Iff.rfl
@[simp] theorem setEmpty_canonical {s : State} (slot) : Canonical (setEmpty s slot) ↔ Canonical s := Iff.rfl
@[simp] theorem hostPoke_canonical {s : State} (a bs) (h : Canonical s) : Canonical (hostPoke s a bs) := ⟨h.1, hostPoke_wf s a bs h.2⟩
@[simp] theorem setLane_canonical {s : State} (n l) : Canonical (setLane s n l) ↔ Canonical s := (setLane_lanesOnly _ _ _).canonical
@[simp] theorem setLink_canonical {s : State} (n l) : Canonical (setLink s n l) ↔ Canonical s := Iff.rfl
@[simp] theorem setPort_canonical {s : State} (n p) : Canonical (setPort s n p) ↔ Canonical s := Iff.rfl
@[simp] theorem setSq_canonical {s : State} (n r) : Canonical (setSq s n r) ↔ Canonical s := Iff.rfl
@[simp] theorem setCq_canonical {s : State} (n r) : Canonical (setCq s n r) ↔ Canonical s := Iff.rfl
@[simp] theorem setWindow_canonical {s : State} (n w) : Canonical (setWindow s n w) ↔ Canonical s := Iff.rfl
@[simp] theorem setEth_canonical {s : State} (n e) : Canonical (setEth s n e) ↔ Canonical s := Iff.rfl
@[simp] theorem setCtr_canonical {s : State} (k c) : Canonical (setCtr s k c) ↔ Canonical s := Iff.rfl
@[simp] theorem setStream_canonical {s : State} (l t x) : Canonical (setStream s l t x) ↔ Canonical s := Iff.rfl
@[simp] theorem setExpert_canonical {s : State} (e x) : Canonical (setExpert s e x) ↔ Canonical s := Iff.rfl
@[simp] theorem advance_canonical {s : State} (u) : Canonical (advance s u) ↔ Canonical s := Iff.rfl
@[simp] theorem elapse_canonical {s : State} (u) : Canonical (elapse s u) ↔ Canonical s := Iff.rfl
@[simp] theorem seamTo_canonical {s : State} (c) : Canonical (seamTo s c) ↔ Canonical s := by simp [↓canonical_update, seamTo]
@[simp] theorem freshNat_canonical {s : State} : Canonical (freshNat s).2 ↔ Canonical s := Iff.rfl

@[simp] theorem freshBytes_canonical (n) {s : State} : Canonical (freshBytes n s).2 ↔ Canonical s := by
  induction n generalizing s with
  | zero => rfl
  | succ n ih => exact ih

/-! #### Ports and packets -/

@[simp] theorem enqueue_canonical {s : State} (p req pkt) : Canonical (enqueue s p req pkt) ↔ Canonical s :=
  (enqueue_wireOnly _ _ _ _).canonical
@[simp] theorem sendPacket_canonical {s : State} (req pkt) : Canonical (sendPacket s req pkt).1 ↔ Canonical s :=
  (sendPacket_wireOnly _ _ _).canonical
@[simp] theorem sendNeighbour_canonical {s : State} (p pkt) : Canonical (sendNeighbour s p pkt) ↔ Canonical s := by simp [sendNeighbour]
@[simp] theorem sendMgmt_canonical {s : State} (dst payload) : Canonical (sendMgmt s dst payload) ↔ Canonical s :=
  (sendMgmt_wireOnly _ _ _).canonical

/-! #### Counters, tags, the ring host and fault records -/

@[simp] theorem countIn_canonical {s : State} (lo hi f) : Canonical (countIn s lo hi f) ↔ Canonical s :=
  (countIn_countOnly _ _ _ _).canonical
@[simp] theorem devSignal_canonical {s : State} (code occ cyc) : Canonical (devSignal s code occ cyc) ↔ Canonical s := Iff.rfl
@[simp] theorem devEvent_canonical {s : State} (code n) :
    Canonical (devEvent s code n) ↔ Canonical s := (devEvent_wireOnly _ _ _).canonical
@[simp] theorem laneSignal_canonical {s : State} (n code occ cyc) : Canonical (laneSignal s n code occ cyc) ↔ Canonical s := Iff.rfl
@[simp] theorem stackEvent_canonical {s : State} (k code n) : Canonical (stackEvent s k code n) ↔ Canonical s := Iff.rfl
@[simp] theorem lpEvent_canonical {s : State} (k code n) : Canonical (lpEvent s k code n) ↔ Canonical s := Iff.rfl
@[simp] theorem respond_canonical {s : State} (p pkt status data) : Canonical (respond s p pkt status data) ↔ Canonical s :=
  (respond_wireOnly _ _ _ _ _).canonical
@[simp] theorem flushDown_canonical {s : State} (p) : Canonical (flushDown s p) ↔ Canonical s := by simp [flushDown]
@[simp] theorem filtered_canonical {s : State} (b lo hi code n o) : Canonical (filtered s b lo hi code n o) ↔ Canonical s := Iff.rfl
@[simp] theorem quillEvent_canonical {s : State} (p q code n o) : Canonical (quillEvent s p q code n o) ↔ Canonical s := Iff.rfl
@[simp] theorem folioEvent_canonical {s : State} (p code n o) : Canonical (folioEvent s p code n o) ↔ Canonical s :=
  (folioEvent_countOnly _ _ _ _ _).canonical
@[simp] theorem nibEvent_canonical {s : State} (k code n o) : Canonical (nibEvent s k code n o) ↔ Canonical s :=
  (nibEvent_countOnly _ _ _ _ _).canonical

@[simp] theorem tagCollide_canonical {s : State} (slot o) : Canonical (tagCollide s slot o) ↔ Canonical s := by
  unfold tagCollide
  split <;> simp

@[simp] theorem setTag_canonical (o) {s : State} (slot) : Canonical (setTag o s slot) ↔ Canonical s := by
  simp [↓canonical_update, -setFull_hostMem, setTag]
@[simp] theorem clearTag_canonical (o) {s : State} (slot) : Canonical (clearTag o s slot) ↔ Canonical s := by
  simp [↓canonical_update, clearTag]
@[simp] theorem stallNow_canonical {s : State} (on) : Canonical (stallNow s on) ↔ Canonical s := Iff.rfl
@[simp] theorem newTag_canonical {s : State} : Canonical (newTag s).2 ↔ Canonical s := Iff.rfl
@[simp] theorem hostSend_canonical {s : State} (a bs) (h : Canonical s) : Canonical (hostSend s a bs) := by simp [hostSend, h]
@[simp] theorem raiseVector_canonical {s : State} (v) (h : Canonical s) : Canonical (raiseVector s v) := by
  simp [↓canonical_update, raiseVector, h]
@[simp] theorem sendRecord_canonical (ring no waits) {s : State} (x) : Canonical (sendRecord ring no waits s x) ↔ Canonical s := by
  simp [↓canonical_update, sendRecord]

@[simp] theorem hostRecord_canonical {s : State} (ring body a head vec) (h : Canonical s) :
    Canonical (hostRecord s ring body a head vec) := by
  have body := foldl_canonical (fun u b => hostPoke u b.1 b.2) body (fun u b => hostPoke_canonical b.1 b.2) h
  unfold hostRecord
  split
  · simp [↓canonical_update, h]
  · cases vec <;> simp [body]

@[simp] theorem sendWrite_canonical {s : State} (x) : Canonical (sendWrite s x) ↔ Canonical s := by simp [↓canonical_update, sendWrite]
@[simp] theorem settleRecord_canonical {s : State} (no) (h : Canonical s) : Canonical (settleRecord s no) := by
  simp +contextual [↓canonical_update, settleRecord, h]

@[simp] theorem answerWrite_canonical {s : State} (pkt) (h : Canonical s) : Canonical (answerWrite s pkt) := by
  unfold answerWrite
  (repeat' split) <;> simp [↓canonical_update, -hostPoke_mem, h]

@[simp] theorem retryWrites_canonical {s : State} : Canonical (retryWrites s) ↔ Canonical s := by simp [↓canonical_update, retryWrites]
@[simp] theorem writeCq_canonical {s : State} (r bs irq) (h : Canonical s) : Canonical (writeCq s r bs irq) := by simp [writeCq, h]
@[simp] theorem pushCq_canonical {s : State} (r bs irq reply) (h : Canonical s) :
    Canonical (pushCq s r bs irq reply) := by simp [pushCq, h]
@[simp] theorem complete_canonical {s : State} (h status data) (hs : Canonical s) : Canonical (complete s h status data) := by
  simp [complete, hs]
@[simp] theorem postRecord_canonical {s : State} (typ data irq) (h : Canonical s) : Canonical (postRecord s typ data irq) := by
  simp [postRecord, h]
@[simp] theorem setJobState_canonical {s : State} (new) (h : Canonical s) : Canonical (setJobState s new) := by
  simp [↓canonical_update, setJobState, h]
@[simp] theorem putFault_canonical {s : State} (r more) (h : Canonical s) : Canonical (putFault s r more) := by
  simp [↓canonical_update, putFault, h]
@[simp] theorem raiseFault_canonical {s : State} (r) (h : Canonical s) : Canonical (raiseFault s r) := by
  simp [↓canonical_update, raiseFault, h]
@[simp] theorem collectFaults_canonical {s : State} (h : Canonical s) : Canonical (collectFaults s) := by
  simp +contextual [↓canonical_update, collectFaults, h]
@[simp] theorem flushFaults_canonical {s : State} (h : Canonical s) : Canonical (flushFaults s) := by
  simp +contextual (disch := simp +contextual [↓canonical_update, h]) [flushFaults]
@[simp] theorem countCorrected_canonical {s : State} (a) : Canonical (countCorrected s a) ↔ Canonical s :=
  (countCorrected_countOnly _ _).canonical
@[simp] theorem correctLine_canonical {s : State} (l) : Canonical (correctLine s l) ↔ Canonical s := (correctLine_corrected _ _).canonical

@[simp] theorem perPart_canonical (m a e) {f} {s : State} (hf : ∀ u lo k, Canonical u → Canonical (f u lo k)) (h : Canonical s) :
    Canonical (perPart m a e f s) := by
  simp +contextual [perPart, hf, h]

@[simp] theorem countLines_canonical {s : State} (a n code) : Canonical (countLines s a n code) ↔ Canonical s :=
  (countLines_countOnly _ _ _ _).canonical
@[simp] theorem noteRead_canonical {s : State} (a n) : Canonical (noteRead s a n) ↔ Canonical s := by simp [noteRead]
@[simp] theorem store_canonical {s : State} (a bs) (h : Canonical s) : Canonical (store s a bs) := by simp [store, h]
@[simp] theorem applySel_canonical {s : State} (k v) : Canonical (applySel s k v) ↔ Canonical s := by simp [applySel]
@[simp] theorem clearAll_canonical {s : State} : Canonical (clearAll s) ↔ Canonical s := Iff.rfl
@[simp] theorem applyPending_canonical {s : State} : Canonical (applyPending s) ↔ Canonical s := by simp [↓canonical_update, applyPending]

/-! #### Flash records and training -/

@[simp] theorem writeRepair_canonical {s : State} (r) : Canonical (writeRepair s r) ↔ Canonical s := Iff.rfl
@[simp] theorem recordQuarantine_canonical {s : State} (n) : Canonical (recordQuarantine s n) ↔ Canonical s := Iff.rfl
@[simp] theorem trainVault_canonical {s : State} (v) : Canonical (trainVault s v) ↔ Canonical s := by
  simp [↓canonical_updateMem, trainVault]
@[simp] theorem trainChannel_canonical {s : State} (c) : Canonical (trainChannel s c) ↔ Canonical s := Iff.rfl

/-! #### Stopping -/

@[simp] theorem sendSvc_canonical {s : State} (dst m) : Canonical (sendSvc s dst m) ↔ Canonical s := (sendSvc_wireOnly _ _ _).canonical
@[simp] theorem sendAll_canonical {s : State} (m) : Canonical (sendAll s m) ↔ Canonical s := by simp [sendAll]
@[simp] theorem requestRollback_canonical {s : State} (flags code) : Canonical (requestRollback s flags code) ↔ Canonical s :=
  (requestRollback_wireOnly _ _ _).canonical
@[simp] theorem haltFrame_canonical {s : State} : Canonical (haltFrame s) ↔ Canonical s := Iff.rfl
@[simp] theorem abortWith_canonical {s : State} (r force) (h : Canonical s) : Canonical (abortWith s r force) := by simp [abortWith, h]
@[simp] theorem lineErrorBy_canonical {s : State} (who l) (h : Canonical s) : Canonical (lineErrorBy s who l) := by simp [lineErrorBy, h]
@[simp] theorem lineError_canonical {s : State} (l) (h : Canonical s) : Canonical (lineError s l) := by simp [lineError, h]

@[simp] theorem fwRead_canonical {s : State} (a n) (h : Canonical s) : Canonical (fwRead s a n) := by
  unfold fwRead
  split <;> simp [h]

@[simp] theorem takeHeld_canonical {s : State} (p) : Canonical (takeHeld s p).2 ↔ Canonical s := Iff.rfl
@[simp] theorem completeAll_canonical {s : State} (l status) (h : Canonical s) : Canonical (completeAll s l status) := by
  simp +contextual [completeAll, h]
@[simp] theorem stopFrames_canonical {s : State} (h : Canonical s) :
    Canonical (stopFrames s) := by simp [↓canonical_update, stopFrames, h]
@[simp] theorem pauseJob_canonical {s : State} (h : Canonical s) : Canonical (pauseJob s) := by simp [↓canonical_update, pauseJob, h]

/-! #### Writes of strokes -/

@[simp] theorem commit_canonical {s : State} (who runs) (h : Canonical s) : Canonical (commit s who runs) := by
  simp +contextual (disch := simp +contextual [h]) [commit]
@[simp] theorem noteReads_canonical {s : State} (rs) : Canonical (noteReads s rs) ↔ Canonical s := by simp [noteReads]
@[simp] theorem doneRun_canonical {s : State} (l i) : Canonical (doneRun s l i) ↔ Canonical s := Iff.rfl
@[simp] theorem failStroke_canonical {s : State} (l i b) (h : Canonical s) : Canonical (failStroke s l i b) := by simp [failStroke, h]

@[simp] theorem inAbortCycle_canonical {s : State} {f : State → State} (h : Canonical s) (hf : ∀ u, Canonical u → Canonical (f u)) :
    Canonical (inAbortCycle s f) := by
  simp [↓canonical_update, inAbortCycle, h, hf]

/-! #### Power domains and power -/

@[simp] theorem raiseIbi_canonical {s : State} (b) : Canonical (raiseIbi s b) ↔ Canonical s := (raiseIbi_powerOnly _ _).canonical
@[simp] theorem takeIbi_canonical {s : State} : Canonical (takeIbi s) ↔ Canonical s := Iff.rfl
@[simp] theorem zeroCounters_canonical {s : State} (n) : Canonical (zeroCounters s n) ↔ Canonical s := by
  simp [↓canonical_update, zeroCounters]
@[simp] theorem requestEntry_canonical {s : State} (n) : Canonical (requestEntry s n) ↔ Canonical s :=
  (requestEntry_powerOnly _ _).canonical
@[simp] theorem abortEntry_canonical {s : State} (n refuser) : Canonical (abortEntry s n refuser) ↔ Canonical s :=
  (abortEntry_powerOnly _ _ _).canonical
@[simp] theorem gainVote_canonical {s : State} (n bit info) : Canonical (gainVote s n bit info) ↔ Canonical s :=
  (gainVote_powerOnly _ _ _ _).canonical
@[simp] theorem loseVote_canonical {s : State} (n bit) :
    Canonical (loseVote s n bit) ↔ Canonical s := (loseVote_powerOnly _ _ _).canonical
@[simp] theorem refreshOne_canonical {s : State} (p) : Canonical (refreshOne s p) ↔ Canonical s := (refreshOne_powerOnly _ _).canonical
@[simp] theorem refreshDeps_canonical {s : State} : Canonical (refreshDeps s) ↔ Canonical s := (refreshDeps_powerOnly _).canonical
@[simp] theorem vote_canonical {s : State} (n bit on info) : Canonical (vote s n bit on info) ↔ Canonical s :=
  (vote_powerOnly _ _ _ _ _).canonical
@[simp] theorem dropPartner_canonical {s : State} (g) : Canonical (dropPartner s g) ↔ Canonical s := by
  simp [↓canonical_update, dropPartner]

@[simp] theorem recheckDrains_canonical {s : State} : Canonical (recheckDrains s) ↔ Canonical s := by
  unfold recheckDrains
  refine foldl_canonical_iff _ _ fun t n => ?_
  split
  · split <;> simp
  · rfl

@[simp] theorem opWakeSlot_canonical {s : State} : Canonical (opWakeSlot s) ↔ Canonical s := by
  unfold opWakeSlot
  split <;> simp

@[simp] theorem applyLanes_canonical {s : State} (n) : Canonical (applyLanes s n) ↔ Canonical s := (applyLanes_lanesOnly _ _).canonical
@[simp] theorem restartPages_canonical {s : State} (n) : Canonical (restartPages s n) ↔ Canonical s :=
  (restartPages_lanesOnly _ _).canonical
@[simp] theorem laneOff_canonical {s : State} (n) : Canonical (laneOff s n) ↔ Canonical s := Iff.rfl

@[simp] theorem onArrival_canonical {s : State} (n fromSr) (h : Canonical s) : Canonical (onArrival s n fromSr) := by
  unfold onArrival
  (repeat' split) <;> simp [h]

@[simp] theorem opWakeComplete_canonical {s : State} (n) (h : Canonical s) : Canonical (opWakeComplete s n) := by simp [opWakeComplete, h]
@[simp] theorem opHoldRelease_canonical {s : State} (n) : Canonical (opHoldRelease s n) ↔ Canonical s := by simp [opHoldRelease]

@[simp] theorem opDrainComplete_canonical {s : State} (n) : Canonical (opDrainComplete s n) ↔ Canonical s := by
  unfold opDrainComplete
  split <;> simp

@[simp] theorem opDrainTimeout_canonical {s : State} (n unit) : Canonical (opDrainTimeout s n unit) ↔ Canonical s := by
  simp [opDrainTimeout]
@[simp] theorem opEntryRetry_canonical {s : State} (n) : Canonical (opEntryRetry s n) ↔ Canonical s := by simp [opEntryRetry]
@[simp] theorem pcieDrop_canonical {s : State} : Canonical (pcieDrop s) ↔ Canonical s := Iff.rfl

@[simp] theorem onGone_canonical {s : State} (n sr) (h : Canonical s) : Canonical (onGone s n sr) := by
  unfold onGone
  (repeat' split) <;> simp [↓canonical_update, h]

@[simp] theorem opShutdownComplete_canonical {s : State} (n) (h : Canonical s) : Canonical (opShutdownComplete s n) := by
  simp [opShutdownComplete, h]

@[simp] theorem maskVote_canonical {s : State} (first width bits client on) :
    Canonical (maskVote s first width bits client on) ↔ Canonical s := by
  simp [maskVote]

@[simp] theorem clearDomains_canonical {s : State} (v) : Canonical (clearDomains s v) ↔ Canonical s := by simp [clearDomains]
@[simp] theorem folioVote_canonical {s : State} (n) : Canonical (folioVote s n) ↔ Canonical s := (folioVote_powerOnly _ _).canonical
@[simp] theorem setFolioState_canonical {s : State} (n st) : Canonical (setFolioState s n st) ↔ Canonical s :=
  (setFolioState_powerOnly _ _ _).canonical
@[simp] theorem opPowerVote_canonical {s : State} (p pkt) : Canonical (opPowerVote s p pkt) ↔ Canonical s := by
  simp [↓canonical_update, opPowerVote]
@[simp] theorem withTemps_canonical {s : State} (temps) : Canonical (withTemps s temps) ↔ Canonical s := Iff.rfl
@[simp] theorem settleLevel_canonical {s : State} : Canonical (settleLevel s) ↔ Canonical s := by simp [↓canonical_update, settleLevel]

@[simp] theorem deferAct_canonical {s : State} : Canonical (deferAct s) ↔ Canonical s := by
  unfold deferAct
  split <;> simp [↓canonical_update]

@[simp] theorem enterLevel2_canonical {s : State} (cause die) (h : Canonical s) : Canonical (enterLevel2 s cause die) := by
  simp [↓canonical_update, enterLevel2, h]

@[simp] theorem applyLevels_canonical {s : State} (h : Canonical s) : Canonical (applyLevels s) := by
  unfold applyLevels
  dsimp only
  split <;> simp [↓canonical_update, h]

@[simp] theorem trip_canonical {s : State} : Canonical (trip s) ↔ Canonical s := by simp [↓canonical_update, trip]
@[simp] theorem checkTrip_canonical {s : State} : Canonical (checkTrip s) ↔ Canonical s := by simp [checkTrip]
@[simp] theorem opPowerFixed_canonical {s : State} (temps) (h : Canonical s) :
    Canonical (opPowerFixed s temps) := by simp [opPowerFixed, h]
@[simp] theorem opPowerUpdate_canonical {s : State} (est temps) (h : Canonical s) : Canonical (opPowerUpdate s est temps) := by
  simp [↓canonical_update, opPowerUpdate, h]
@[simp] theorem opPowerCalibrate_canonical {s : State} : Canonical (opPowerCalibrate s) ↔ Canonical s := by
  simp [↓canonical_update, opPowerCalibrate]
@[simp] theorem opLevelClear_canonical {s : State} (l) : Canonical (opLevelClear s l) ↔ Canonical s := by
  simp [↓canonical_update, opLevelClear]
@[simp] theorem serveVotes_canonical {s : State} : Canonical (serveVotes s) ↔ Canonical s := by simp [↓canonical_update, serveVotes]
@[simp] theorem opPowerReload_canonical {s : State} : Canonical (opPowerReload s) ↔ Canonical s := by
  simp [↓canonical_update, opPowerReload]

/-! #### Time -/

@[simp] theorem locked_canonical {s : State} : Canonical (locked s) ↔ Canonical s := Iff.rfl
@[simp] theorem setTimeState_canonical {s : State} (st) : Canonical (setTimeState s st) ↔ Canonical s := by
  simp [↓canonical_update, setTimeState]
@[simp] theorem servoTrim_canonical {s : State} : Canonical (servoTrim s) ↔ Canonical s := Iff.rfl
@[simp] theorem exchangeDone_canonical {s : State} (offset figure) : Canonical (exchangeDone s offset figure) ↔ Canonical s := by
  simp [↓canonical_update, exchangeDone]
@[simp] theorem exchangeMissed_canonical {s : State} : Canonical (exchangeMissed s) ↔ Canonical s := by
  simp [↓canonical_update, exchangeMissed]
@[simp] theorem changeSource_canonical {s : State} (v inJob) : Canonical (changeSource s v inJob) ↔ Canonical s := by
  simp [↓canonical_update, changeSource]
@[simp] theorem opTimeCapture_canonical {s : State} : Canonical (opTimeCapture s) ↔ Canonical s := Iff.rfl
@[simp] theorem opTimeSeconds_canonical {s : State} (v) : Canonical (opTimeSeconds s v) ↔ Canonical s := by
  simp [↓canonical_update, opTimeSeconds]
@[simp] theorem opTimeStep_canonical {s : State} (ns) :
    Canonical (opTimeStep s ns) ↔ Canonical s := by simp [↓canonical_update, opTimeStep]
@[simp] theorem opTimeTrim_canonical {s : State} (v) : Canonical (opTimeTrim s v) ↔ Canonical s := by simp [↓canonical_update, opTimeTrim]
@[simp] theorem opTimeSource_canonical {s : State} (v) : Canonical (opTimeSource s v) ↔ Canonical s := by
  simp [↓canonical_update, opTimeSource]
@[simp] theorem sendTime_canonical {s : State} (p pay) : Canonical (sendTime s p pay) ↔ Canonical s := by simp [sendTime]
@[simp] theorem opSyncReceive_canonical {s : State} (n pay t2 t3) : Canonical (opSyncReceive s n pay t2 t3) ↔ Canonical s := by
  simp [↓canonical_update, opSyncReceive]

@[simp] theorem opDelayResp_canonical {s : State} (n pay) : Canonical (opDelayResp s n pay) ↔ Canonical s := by
  unfold opDelayResp
  split <;> simp [↓canonical_update]

@[simp] theorem ptpDone_canonical {s : State} (n offset) : Canonical (ptpDone s n offset) ↔ Canonical s := by simp [ptpDone]
@[simp] theorem ptpSynced_canonical {s : State} (n e x) : Canonical (ptpSynced s n e x) ↔ Canonical s := Iff.rfl

@[simp] theorem peerMeasured_canonical {s : State} (n e d) : Canonical (peerMeasured s n e d) ↔ Canonical s := by
  unfold peerMeasured
  split <;> simp

@[simp] theorem ptpPeerResp_canonical {s : State} (n e m rx) : Canonical (ptpPeerResp s n e m rx) ↔ Canonical s := by
  unfold ptpPeerResp
  split <;> simp

@[simp] theorem ptpPeerFollow_canonical {s : State} (n e m) : Canonical (ptpPeerFollow s n e m) ↔ Canonical s := by
  unfold ptpPeerFollow
  split <;> simp

@[simp] theorem opPtpMessage_canonical {s : State} (n m ts) : Canonical (opPtpMessage s n m ts) ↔ Canonical s := by
  unfold opPtpMessage
  dsimp only
  rcases (ethPort s n).exch with _ | x <;> rcases (ethPort s n).delay with _ | y <;> simp

@[simp] theorem opPtpDelayReq_canonical {s : State} (n ts) : Canonical (opPtpDelayReq s n ts) ↔ Canonical s := by
  unfold opPtpDelayReq
  dsimp only
  (repeat' split) <;> simp

@[simp] theorem opEthMode_canonical {s : State} (n v) : Canonical (opEthMode s n v) ↔ Canonical s := by simp [opEthMode]

/-! #### The board -/

@[simp] theorem coldReset_canonical {s : State} (h : Canonical s) : Canonical (coldReset s) := ⟨rfl, h.2⟩
@[simp] theorem enterFault_canonical {s : State} (code detail) (h : Canonical s) : Canonical (enterFault s code detail) := by
  simp [↓canonical_update, enterFault, h]

@[simp] theorem dropSession_canonical {s : State} (h : Canonical s) : Canonical (dropSession s) := by
  have done := completeAll_canonical (takeHeld s fun _ => true).1 0x19 ((takeHeld_canonical fun _ => true).2 h)
  exact (foldl_canonical _ _ (fun _ x hu => complete_canonical x 0x19 0 hu) done :)

@[simp] theorem loseSession_canonical {s : State} (h : Canonical s) : Canonical (loseSession s) := by
  simp [↓canonical_update, loseSession, h]
@[simp] theorem pcieDown_canonical {s : State} (h : Canonical s) : Canonical (pcieDown s) := by simp [pcieDown, h]

@[simp] theorem i3cByte_canonical {s : State} (off) : Canonical (i3cByte s off).2 ↔ Canonical s := by
  unfold i3cByte
  dsimp only
  (repeat' split) <;> simp [↓canonical_update]

@[simp] theorem i3cBytes_canonical (n off) {s : State} : Canonical (i3cBytes n off s).2 ↔ Canonical s := by
  induction n generalizing off s with
  | zero => rfl
  | succ n ih => exact (ih _).trans (i3cByte_canonical _)

@[simp] theorem railWrite_canonical {s : State} (k v) : Canonical (railWrite s k v) ↔ Canonical s := Iff.rfl
@[simp] theorem i3cPut_canonical {s : State} (off b) : Canonical (i3cPut s off b) ↔ Canonical s := by simp [↓canonical_update, i3cPut]

@[simp] theorem i3cWrite_canonical {s : State} (off bs) : Canonical (i3cWrite s off bs) ↔ Canonical s := by
  induction bs generalizing s off with
  | nil => rfl
  | cons b bs ih => exact (ih _).trans (i3cPut_canonical _ _)

@[simp] theorem opI3cWrite_canonical {s : State} (bs) (h : Canonical s) : Canonical (opI3cWrite s bs) := by
  simp [↓canonical_update, opI3cWrite, h]

/-! #### Rings and BAR4 -/

@[simp] theorem doorbellBad_canonical {s : State} (h : Canonical s) : Canonical (doorbellBad s) := by simp [doorbellBad, h]
@[simp] theorem hostWrites_canonical {s : State} (l) (h : Canonical s) : Canonical (hostWrites s l) := by simp +contextual [hostWrites, h]
@[simp] theorem opSqTail_canonical {s : State} (n v) (h : Canonical s) : Canonical (opSqTail s n v) := by simp [opSqTail, h]
@[simp] theorem opCqHead_canonical {s : State} (n v) (h : Canonical s) : Canonical (opCqHead s n v) := by simp [opCqHead, h]
@[simp] theorem opFqHead_canonical {s : State} (v) (h : Canonical s) :
    Canonical (opFqHead s v) := by simp [↓canonical_update, opFqHead, h]
@[simp] theorem opCtrHead_canonical {s : State} (v) (h : Canonical s) : Canonical (opCtrHead s v) := by
  simp [↓canonical_update, opCtrHead, h]

@[simp] theorem opRingEnable_canonical {s : State} (r) : Canonical (opRingEnable s r) ↔ Canonical s := by
  unfold opRingEnable
  split <;> simp [↓canonical_update]

@[simp] theorem opRingDisable_canonical {s : State} (r) : Canonical (opRingDisable s r) ↔ Canonical s := by
  unfold opRingDisable
  split <;> simp [↓canonical_update]

@[simp] theorem flushQueue_canonical (k) {s : State} (r) (h : Canonical s) : Canonical (flushQueue k s r) := by
  induction k generalizing s with
  | zero => exact h
  | succ k ih =>
    unfold flushQueue
    dsimp only
    split
    · exact h
    · split
      · exact ih (by simp [h])
      · exact h

@[simp] theorem opBar4Write_canonical {s : State} (off data) (h : Canonical s) : Canonical (opBar4Write s off data) := by
  simp +contextual [opBar4Write, h]

@[simp] theorem opBar4Read_canonical {s : State} (off n) (h : Canonical s) : Canonical (opBar4Read s off n) := by
  unfold opBar4Read
  dsimp only
  (repeat' split) <;> simp [↓canonical_update, h]

/-! #### Counter selections and snapshots -/

@[simp] theorem writeSel_canonical {s : State} (k v) : Canonical (writeSel s k v) ↔ Canonical s := by simp [writeSel]
@[simp] theorem writeRange_canonical {s : State} (i hi v) : Canonical (writeRange s i hi v) ↔ Canonical s := Iff.rfl

@[simp] theorem opSelectWrite_canonical {s : State} (off v) : Canonical (opSelectWrite s off v) ↔ Canonical s := by
  unfold opSelectWrite
  (repeat' split) <;> simp

@[simp] theorem opCounterClear_canonical {s : State} : Canonical (opCounterClear s) ↔ Canonical s := by
  simp [↓canonical_update, opCounterClear]
@[simp] theorem capture_canonical {s : State} (periodic requested) (h : Canonical s) : Canonical (capture s periodic requested) := by
  simp [↓canonical_update, capture, h]
@[simp] theorem completeSnaps_canonical {s : State} (h : Canonical s) : Canonical (completeSnaps s) := by
  simp +contextual [↓canonical_update, completeSnaps, h]
@[simp] theorem opCapture_canonical {s : State} (h : Canonical s) : Canonical (opCapture s) := by simp [↓canonical_update, opCapture, h]
@[simp] theorem settleSnaps_canonical {s : State} (h : Canonical s) : Canonical (settleSnaps s) := by simp [settleSnaps, h]

/-! #### Routing, windows and answers -/

@[simp] theorem routeCopy_canonical {s : State} (h : Canonical s) : Canonical (routeCopy s) := by
  unfold routeCopy
  dsimp only
  (repeat' split) <;> simp [↓canonical_update, h]

@[simp] theorem opRouteLoad_canonical {s : State} (h : Canonical s) : Canonical (opRouteLoad s) := by
  simp [↓canonical_update, opRouteLoad, h]
@[simp] theorem closeAt_canonical {s : State} (w) : Canonical (closeAt s w) ↔ Canonical s := by simp [closeAt]
@[simp] theorem applyClose_canonical {s : State} (h w) (hs : Canonical s) : Canonical (applyClose s h w) := by
  simp [↓canonical_update, applyClose, hs]
@[simp] theorem applyOpen_canonical {s : State} (h w b) (hs : Canonical s) : Canonical (applyOpen s h w b) := by
  simp [↓canonical_update, applyOpen, hs]
@[simp] theorem opCloseDone_canonical {s : State} (w) (h : Canonical s) : Canonical (opCloseDone s w) := by
  simp +contextual [↓canonical_update, opCloseDone, h]
@[simp] theorem takeIn_canonical {s : State} (p pkt) : Canonical (takeIn s p pkt) ↔ Canonical s := (takeIn_wireOnly _ _ _).canonical
@[simp] theorem lateData_canonical {s : State} (p pkt ahead quiet) (h : Canonical s) : Canonical (lateData s p pkt ahead quiet) := by
  simp [↓canonical_update, lateData, h]
@[simp] theorem refusePacket_canonical {s : State} (p pkt code) (h : Canonical s) : Canonical (refusePacket s p pkt code) := by
  simp [refusePacket, h]
@[simp] theorem acknowledge_canonical {s : State} (p pkt) : Canonical (acknowledge s p pkt) ↔ Canonical s :=
  (acknowledge_wireOnly _ _ _).canonical
@[simp] theorem holdPacket_canonical {s : State} (p pkt) : Canonical (holdPacket s p pkt) ↔ Canonical s := Iff.rfl

@[simp] theorem inbound_canonical {s : State} (p pkt typ) {land : State → State} (h : Canonical s)
    (hland : ∀ u, Canonical u → Canonical (land u)) : Canonical (inbound s p pkt typ land) := by
  unfold inbound
  dsimp only
  (repeat' split) <;> simp [h, hland]

@[simp] theorem landBytes_canonical {s : State} (pkt) (h : Canonical s) : Canonical (landBytes s pkt) := by
  simp +contextual (disch := simp +contextual [h]) [landBytes]

@[simp] theorem landRead_canonical (p pkt) {s : State} (h : Canonical s) : Canonical (landRead p pkt s) := by
  unfold landRead
  split <;> simp [h]

@[simp] theorem updXfer_canonical {s : State} (pkt f) : Canonical (updXfer s pkt f) ↔ Canonical s := Iff.rfl

@[simp] theorem onResponse_canonical {s : State} (p pkt) {f : State → State} (h : Canonical s) (hf : ∀ u, Canonical u → Canonical (f u)) :
    Canonical (onResponse s p pkt f) := by
  simp [onResponse, h, hf]

@[simp] theorem opBusyResend_canonical {s : State} (tag addr) : Canonical (opBusyResend s tag addr) ↔ Canonical s := by
  unfold opBusyResend
  (repeat' split) <;> simp [↓canonical_update]

@[simp] theorem failOperation_canonical {s : State} (r) (h : Canonical s) : Canonical (failOperation s r) := by simp [failOperation, h]
@[simp] theorem endMaskOp_canonical {s : State} (x code) (h : Canonical s) : Canonical (endMaskOp s x code) := by
  simp [↓canonical_update, endMaskOp, h]

@[simp] theorem endTransfer_canonical {s : State} (x p code pkt) (h : Canonical s) : Canonical (endTransfer s x p code pkt) := by
  unfold endTransfer
  split <;> simp [h]

@[simp] theorem opRefusal_canonical {s : State} (p pkt) (h : Canonical s) : Canonical (opRefusal s p pkt) := by
  unfold opRefusal
  dsimp only
  split <;> simp [↓canonical_update, h]

@[simp] theorem opReadResponse_canonical {s : State} (pkt) : Canonical (opReadResponse s pkt) ↔ Canonical s := Iff.rfl

@[simp] theorem opSlotFill_canonical {s : State} (tag) : Canonical (opSlotFill s tag) ↔ Canonical s := by
  unfold opSlotFill
  split <;> simp [↓canonical_update]

@[simp] theorem opForward_canonical {s : State} (p pkt) : Canonical (opForward s p pkt) ↔ Canonical s := by
  unfold opForward
  (repeat' split) <;> simp

@[simp] theorem opBroadcast_canonical {s : State} (p pkt) : Canonical (opBroadcast s p pkt) ↔ Canonical s := by
  unfold opBroadcast
  (repeat' split) <;> simp [↓canonical_update]

@[simp] theorem opWindowQuery_canonical {s : State} (p pkt) : Canonical (opWindowQuery s p pkt) ↔ Canonical s := by
  unfold opWindowQuery
  (repeat' split) <;> simp

@[simp] theorem opMsgRefuse_canonical {s : State} (p pkt) : Canonical (opMsgRefuse s p pkt) ↔ Canonical s := by simp [opMsgRefuse]

/-! #### Lanes and flits -/

@[simp] theorem freeFlit_canonical {s : State} (x) : Canonical (freeFlit s x) ↔ Canonical s := (freeFlit_portsOnly _ _).canonical
@[simp] theorem dropFromPort_canonical {s : State} (p n) : Canonical (dropFromPort s p n) ↔ Canonical s := by simp [dropFromPort]
@[simp] theorem freshRates_canonical {s : State} (p) : Canonical (freshRates s p) ↔ Canonical s := by simp [freshRates]
@[simp] theorem peerHostLost_canonical {s : State} (h : Canonical s) : Canonical (peerHostLost s) := by simp [peerHostLost, h]
@[simp] theorem afterDown_canonical {s : State} (p) (h : Canonical s) : Canonical (afterDown s p) := by simp [afterDown, h]
@[simp] theorem laneDown_canonical {s : State} (n) (h : Canonical s) : Canonical (laneDown s n) := by simp [laneDown, h]
@[simp] theorem opSilence_canonical {s : State} (n) (h : Canonical s) : Canonical (opSilence s n) := by simp [opSilence, h]
@[simp] theorem portWaits_canonical {s : State} (p) (h : Canonical s) : Canonical (portWaits s p) := by simp [portWaits, h]
@[simp] theorem opPage_canonical {s : State} (n page) (h : Canonical s) : Canonical (opPage s n page) := by simp [opPage, h]
@[simp] theorem opTrained_canonical {s : State} (n inv) : Canonical (opTrained s n inv) ↔ Canonical s := by simp [opTrained]
@[simp] theorem rateFails_canonical {s : State} (n) (h : Canonical s) : Canonical (rateFails s n) := by simp [rateFails, h]
@[simp] theorem opQuality_canonical {s : State} (n errs syms) (h : Canonical s) : Canonical (opQuality s n errs syms) := by
  simp [opQuality, h]
@[simp] theorem opLinkCtrl_canonical {s : State} (n v) (h : Canonical s) : Canonical (opLinkCtrl s n v) := by simp [opLinkCtrl, h]
@[simp] theorem sendFlit_canonical {s : State} (n l typ seq body) : Canonical (sendFlit s n l typ seq body) ↔ Canonical s := Iff.rfl
@[simp] theorem countWaits_canonical {s : State} (p n q cyc cs) : Canonical (countWaits s p n q cyc cs) ↔ Canonical s := by
  simp [countWaits]

@[simp] theorem opFlitSlot_canonical {s : State} (n) : Canonical (opFlitSlot s n) ↔ Canonical s := by
  unfold opFlitSlot
  dsimp only
  (repeat' split) <;> simp

@[simp] theorem onNak_canonical {s : State} (n ack) : Canonical (onNak s n ack) ↔ Canonical s := Iff.rfl
@[simp] theorem settleFlit_canonical (p held) {s : State} (x) : Canonical (settleFlit p held s x) ↔ Canonical s := by simp [settleFlit]
@[simp] theorem deliver_canonical {s : State} (p n body) : Canonical (deliver s p n body) ↔ Canonical s := by simp [deliver]

@[simp] theorem deliverAll_canonical (k) {s : State} (p) : Canonical (deliverAll k s p) ↔ Canonical s := by
  induction k generalizing s with
  | zero => rfl
  | succ k ih =>
    unfold deliverAll
    dsimp only
    split
    · rfl
    · split
      · rfl
      · exact ih.trans (deliver_canonical _ _ _)

@[simp] theorem rxFail_canonical {s : State} (n again) : Canonical (rxFail s n again) ↔ Canonical s := by simp [rxFail]
@[simp] theorem onReport_canonical {s : State} (n f) : Canonical (onReport s n f) ↔ Canonical s := by simp [onReport]
@[simp] theorem laneSwap_canonical {s : State} (n) (h : Canonical s) : Canonical (laneSwap s n) := by simp [laneSwap, h]
@[simp] theorem opFlit_canonical {s : State} (n f lost) (h : Canonical s) : Canonical (opFlit s n f lost) := by simp [opFlit, h]
@[simp] theorem takeWords_canonical {s : State} (n place words weak) (h : Canonical s) : Canonical (takeWords s n place words weak) := by
  simp [takeWords, h]

@[simp] theorem opFlitReceive_canonical {s : State} (n place words weak) (h : Canonical s) :
    Canonical (opFlitReceive s n place words weak) := by
  simp [opFlitReceive, h]

@[simp] theorem freeHeld_canonical {s : State} : Canonical (freeHeld s) ↔ Canonical s := (freeHeld_portsOnly _).canonical
@[simp] theorem rejoinLanes_canonical {s : State} : Canonical (rejoinLanes s) ↔ Canonical s := Iff.rfl

/-! #### Boot -/

@[simp] theorem formAgreement_canonical {s : State} : Canonical (formAgreement s) ↔ Canonical s := Iff.rfl
@[simp] theorem bootFolios_canonical {s : State} (r) : Canonical (bootFolios s r) ↔ Canonical s := by simp [↓canonical_update, bootFolios]
@[simp] theorem mapFolios_canonical {s : State} : Canonical (mapFolios s) ↔ Canonical s := Iff.rfl

@[simp] theorem applyBoard_canonical {s : State} : Canonical (applyBoard s) ↔ Canonical s := by
  unfold applyBoard
  split <;> simp [↓canonical_update]

@[simp] theorem openBootPort_canonical {s : State} : Canonical (openBootPort s) ↔ Canonical s := by simp [openBootPort]
@[simp] theorem strapsSampled_canonical {s : State} (src mode addr f) :
    Canonical (strapsSampled s src mode addr f) ↔ Canonical s := Iff.rfl
@[simp] theorem coldBoot_canonical {s : State} (f v) :
    Canonical (coldBoot s f v) ↔ Canonical s := by simp [↓canonical_updateMem, coldBoot]
@[simp] theorem openSource_canonical {s : State} : Canonical (openSource s) ↔ Canonical s := by simp [openSource]

@[simp] theorem opColdStart_canonical {s : State} (src mode addr pufOk fl) (h : Canonical s) :
    Canonical (opColdStart s src mode addr pufOk fl) := by
  unfold opColdStart
  dsimp only
  (repeat' split) <;> simp [h]

@[simp] theorem holdImage_canonical {s : State} (i) : Canonical (holdImage s i) ↔ Canonical s := Iff.rfl
@[simp] theorem policyVotes_canonical {s : State} : Canonical (policyVotes s) ↔ Canonical s := by simp [policyVotes]

@[simp] theorem schedulerUp_canonical {s : State} (lpTrained) : Canonical (schedulerUp s lpTrained) ↔ Canonical s := by
  unfold schedulerUp
  split <;> simp [↓canonical_updateMem]

@[simp] theorem opCoreReady_canonical {s : State} (c lpTrained) : Canonical (opCoreReady s c lpTrained) ↔ Canonical s := by
  simp [↓canonical_update, opCoreReady]

@[simp] theorem opClusterTimeout_canonical {s : State} (n) : Canonical (opClusterTimeout s n) ↔ Canonical s := by
  unfold opClusterTimeout
  dsimp only
  (repeat' split) <;> simp

@[simp] theorem opBootComplete_canonical {s : State} (h : Canonical s) : Canonical (opBootComplete s) := by
  simp [↓canonical_update, opBootComplete, h]
@[simp] theorem sendBoot_canonical {s : State} (p pay) : Canonical (sendBoot s p pay) ↔ Canonical s := by simp [sendBoot]

@[simp] theorem serveMore_canonical (k) {s : State} (p) : Canonical (serveMore k s p) ↔ Canonical s := by
  induction k generalizing s with
  | zero => rfl
  | succ k ih =>
    unfold serveMore
    dsimp only
    split
    · rfl
    · exact ih.trans (sendBoot_canonical _ _)

@[simp] theorem opHello_canonical {s : State} (p pay) (h : Canonical s) : Canonical (opHello s p pay) := by
  simp [↓canonical_update, opHello, h]
@[simp] theorem opBootAck_canonical {s : State} (p pay) (h : Canonical s) : Canonical (opBootAck s p pay) := by
  simp [↓canonical_update, opBootAck, h]

@[simp] theorem bootAck_canonical {s : State} (p core flags status off) :
    Canonical (bootAck s p core flags status off) ↔ Canonical s := by
  simp [bootAck]

@[simp] theorem bootLast_canonical {s : State} (p src core img) : Canonical (bootLast s p src core img) ↔ Canonical s := by
  unfold bootLast
  split <;> simp [↓canonical_update]

@[simp] theorem opBootData_opData_canonical (p src pay) {s : State} (core off len) :
    Canonical (opBootData.opData p src pay s core off len) ↔ Canonical s := by
  simp [↓canonical_update, opBootData.opData]

@[simp] theorem opBootData_canonical {s : State} (p src pay) : Canonical (opBootData s p src pay) ↔ Canonical s := by
  unfold opBootData
  dsimp only
  split
  · rfl
  · split <;> simp [↓canonical_update]

@[simp] theorem opLoadImage_canonical {s : State} (h src bytes) (hs : Canonical s) : Canonical (opLoadImage s h src bytes) := by
  unfold opLoadImage
  dsimp only
  split <;> simp [hs]

/-! #### Tile loads -/

@[simp] theorem opTileLoad_canonical {s : State} (u) (h : Canonical s) : Canonical (opTileLoad s u) := by
  refine inAbortCycle_canonical h fun v hv => ?_
  dsimp only
  (repeat' split) <;> simp [hv]

/-! #### Moves -/

@[simp] theorem noWay_canonical {s : State} (x pkt) (h : Canonical s) : Canonical (noWay s x pkt) := by simp [↓canonical_update, noWay, h]
@[simp] theorem sendTransfer_canonical {s : State} (x dev cut fill) (h : Canonical s) : Canonical (sendTransfer s x dev cut fill) := by
  simp +contextual [↓canonical_update, sendTransfer, h]
@[simp] theorem sendBuf_canonical {s : State} (x dev b land fill) (h : Canonical s) : Canonical (sendBuf s x dev b land fill) := by
  simp +contextual [sendBuf, h]
@[simp] theorem sendReads_canonical {s : State} (x dev b) (h : Canonical s) : Canonical (sendReads s x dev b) := by
  simp +contextual [↓canonical_update, sendReads, h]
@[simp] theorem gather_canonical {s : State} (x need) (h : Canonical s) : Canonical (gather s x need).1 := by
  simp +contextual [↓canonical_update, gather, h]
@[simp] theorem commitAll_canonical {s : State} (x runs) (h : Canonical s) : Canonical (commitAll s x runs) := by
  simp +contextual [commitAll, h]
@[simp] theorem Mover_event_canonical (v) {s : State} (code n addr) : Canonical (Mover.event v s code n addr) ↔ Canonical s := by
  simp [Mover.event]

@[simp] theorem runMove_canonical {s : State} (v m) (h : Canonical s) : Canonical (runMove s v m).1 := by
  unfold runMove
  dsimp only
  split
  · exact h
  · split
    · exact h
    · split
      · exact foldl_canonical _ _ (fun u n hu => sendReads_canonical _ _ _ hu) h
      · split
        · exact h
        · split
          · exact h
          · simp only [Mover_event_canonical]
            refine foldl_canonical _ _ (fun t d ht => sendBuf_canonical _ _ _ _ _ ht) ?_
            simp [↓canonical_update, h]

@[simp] theorem opMoveStroke_canonical {s : State} (l i opcode) (h : Canonical s) : Canonical (opMoveStroke s l i opcode) := by
  refine inAbortCycle_canonical h fun t ht => ?_
  dsimp only
  (repeat' split) <;> simp [ht]

@[simp] theorem failFirmware_canonical {s : State} (e) (h : Canonical s) : Canonical (failFirmware s e) := by simp [failFirmware, h]

@[simp] theorem opMoveFirmware_canonical {s : State} (a opcode) (h : Canonical s) : Canonical (opMoveFirmware s a opcode) := by
  unfold opMoveFirmware
  dsimp only
  (repeat' split) <;> simp [h]

@[simp] theorem opMove_canonical {s : State} (src opcode) (h : Canonical s) : Canonical (opMove s src opcode) := by
  unfold opMove
  split <;> simp [h]

@[simp] theorem opStreamArm_canonical {s : State} (l i) (h : Canonical s) : Canonical (opStreamArm s l i) := by
  unfold opStreamArm
  dsimp only
  (repeat' split) <;> simp [h]

@[simp] theorem opMoveComplete_canonical {s : State} (l t) : Canonical (opMoveComplete s l t) ↔ Canonical s := by
  unfold opMoveComplete
  dsimp only
  split <;> simp

@[simp] theorem opLandCell_canonical {s : State} (tag) (h : Canonical s) : Canonical (opLandCell s tag) := by
  unfold opLandCell
  (repeat' split) <;> simp [↓canonical_update, h]

/-! #### The loss monitor and values that are not finite -/

@[simp] theorem markSkip_canonical {s : State} (n) : Canonical (markSkip s n) ↔ Canonical s := by simp [↓canonical_update, markSkip]
@[simp] theorem sendSkip_canonical {s : State} (code) : Canonical (sendSkip s code) ↔ Canonical s := by simp [↓canonical_update, sendSkip]
@[simp] theorem lossFlag_canonical {s : State} (x spike) (h : Canonical s) : Canonical (lossFlag s x spike) := by
  simp [↓canonical_update, lossFlag, h]
@[simp] theorem lossSample_canonical {s : State} (x) (h : Canonical s) : Canonical (lossSample s x) := by
  simp [↓canonical_update, lossSample, h]
@[simp] theorem noteNonfinite_canonical {s : State} (n) : Canonical (noteNonfinite s n) ↔ Canonical s := by
  simp [↓canonical_update, noteNonfinite]

/-! #### Products -/

@[simp] theorem epilogue_canonical {s : State} (x d addr o seen) (h : Canonical s) : Canonical (epilogue s x d addr o seen) := by
  unfold epilogue
  dsimp only
  split <;> simp [h]

@[simp] theorem putTile_canonical {s : State} (x d o idx) (h : Canonical s) : Canonical (putTile s x d o idx) := by simp [putTile, h]
@[simp] theorem moved_canonical {s : State} (x q rs) : Canonical (moved s x q rs) ↔ Canonical s := by simp [moved]

@[simp] theorem tileEvents_canonical {s : State} (x q addr o) : Canonical (tileEvents s x q addr o) ↔ Canonical s := by
  unfold tileEvents
  (repeat' split) <;> simp

@[simp] theorem stepTile_canonical (d x ta tb) {v : State} (nfIn) {r} (t n) (hr : Canonical r.1) :
    Canonical (stepTile d x ta tb v nfIn r t n).1 := by
  unfold stepTile
  dsimp only
  (repeat' split) <;> simp +contextual (disch := simp [hr]) [hr]

@[simp] theorem loadPart_canonical {s : State} (x parts bad) (h : Canonical s) : Canonical (loadPart s x parts bad) := by
  unfold loadPart
  dsimp only
  split <;> simp +contextual [h]

@[simp] theorem slotEvents_canonical {s : State} (x code f) : Canonical (slotEvents s x code f) ↔ Canonical s := by simp [slotEvents]
@[simp] theorem stepPass_canonical (d x ta tb) {v : State} {r} (t) (hr : Canonical r.1) : Canonical (stepPass d x ta tb v r t).1 := by
  simp +contextual [stepPass, hr]
@[simp] theorem stepOuter_canonical (d x) {v : State} {r} (i) (hr : Canonical r.1) : Canonical (stepOuter d x v r i).1 := by
  simp [stepOuter, hr]
@[simp] theorem putOutside_canonical {s : State} (x d) (h : Canonical s) : Canonical (putOutside s x d) := by simp [putOutside, h]

@[simp] theorem fillBuffers_canonical {s v : State} (x d) (h : Canonical s) : Canonical (fillBuffers s v x d) := by
  have forgotten := foldl_canonical (fun t n => forget t (apBase + 4096 * n) (apBase + 4096 * n + 4096) none) (loaderSlots s x d)
    (fun _ n => forget_canonical _ _ none) h
  unfold fillBuffers
  dsimp only
  split
  · exact forgotten
  · refine foldl_canonical _ _ (fun t q ht => foldl_canonical _ _ (fun t o ht => foldl_canonical _ _ (fun t a ht => ?_) ht) ht) forgotten
    simp [ht]

@[simp] theorem runOn_canonical {s v : State} (x d) (h : Canonical s) : Canonical (runOn s v x d) := by
  unfold runOn
  (repeat' split) <;> simp +contextual (disch := simp +contextual [h]) [↓canonical_update]

@[simp] theorem runProduct_canonical {s : State} (x d) (h : Canonical s) : Canonical (runProduct s x d) := by
  unfold runProduct
  dsimp only
  split <;> simp [h]

@[simp] theorem opProduct_canonical {s : State} (l i opcode) (h : Canonical s) : Canonical (opProduct s l i opcode) := by
  refine inAbortCycle_canonical h fun t ht => ?_
  (repeat' split) <;> simp [ht]

@[simp] theorem opQuillVector_canonical {s : State} (l i) : Canonical (opQuillVector s l i) ↔ Canonical s := by
  unfold opQuillVector
  split <;> simp

/-! #### Expert routing and landing packets -/

@[simp] theorem setRun_canonical {s : State} (l i x) : Canonical (setRun s l i x) ↔ Canonical s := Iff.rfl
@[simp] theorem bumpExpert_canonical {s : State} (e f) : Canonical (bumpExpert s e f) ↔ Canonical s := Iff.rfl
@[simp] theorem routerMoved_canonical {s : State} (x rs) : Canonical (routerMoved s x rs) ↔ Canonical s := by simp [routerMoved]
@[simp] theorem sendRow_canonical {s : State} (x r row a) (h : Canonical s) : Canonical (sendRow s x r row a) := by simp [sendRow, h]

@[simp] theorem unusedEntries_canonical (n) {s : State} : Canonical (unusedEntries n s).2 ↔ Canonical s := by
  induction n generalizing s with
  | zero => rfl
  | succ n ih => exact ih.trans (freshBytes_canonical 6)

@[simp] theorem admitFrom_canonical {s v : State} (x r t reads) (h : Canonical s) : Canonical (admitFrom s v x r t reads) := by
  unfold admitFrom
  dsimp only
  (repeat' split) <;> simp +contextual (disch := simp +contextual [h])

@[simp] theorem admitToken_canonical {s : State} (x r t) (h : Canonical s) : Canonical (admitToken s x r t) := by
  unfold admitToken
  dsimp only
  (repeat' split) <;> simp [h]

@[simp] theorem admitUpTo_canonical (x r n) {s : State} (h : Canonical s) : Canonical (admitUpTo x r n s) := by
  induction n with
  | zero => exact h
  | succ n ih =>
    unfold admitUpTo
    dsimp only
    split
    · exact ih
    · simp [ih]

@[simp] theorem withRouting_canonical {s : State} (l i opcode) {f : State → Ctx → Routing → State} (h : Canonical s)
    (hf : ∀ u x r, Canonical u → Canonical (f u x r)) : Canonical (withRouting s l i opcode f) := by
  refine inAbortCycle_canonical h fun t ht => ?_
  (repeat' split) <;> simp [hf, ht]

@[simp] theorem opDispatch_canonical {s : State} (l i rows) (h : Canonical s) : Canonical (opDispatch s l i rows) := by
  simp +contextual [opDispatch, h]
@[simp] theorem opTokenAdmit_canonical {s : State} (l i token) (h : Canonical s) : Canonical (opTokenAdmit s l i token) := by
  simp +contextual [opTokenAdmit, h]

@[simp] theorem opCountCell_canonical {s : State} (l i e) (h : Canonical s) : Canonical (opCountCell s l i e) := by
  unfold opCountCell
  dsimp only
  (repeat' split) <;> simp +contextual [h]

@[simp] theorem runCombine_canonical {s : State} (x r) (h : Canonical s) : Canonical (runCombine s x r) := by
  unfold runCombine
  dsimp only
  split <;> simp [h]

@[simp] theorem fillSlots_canonical {s : State} (slots) : Canonical (fillSlots s slots) ↔ Canonical s := by simp [fillSlots]
@[simp] theorem landCell_canonical {s : State} (p a b) (h : Canonical s) : Canonical (landCell s p a b) := by simp [landCell, h]
@[simp] theorem landWrite_canonical (p pkt) {s : State} (h : Canonical s) : Canonical (landWrite p pkt s) := by simp [landWrite, h]
@[simp] theorem landReduce_canonical (p pkt) {s : State} (h : Canonical s) : Canonical (landReduce p pkt s) := by
  simp +contextual [landReduce, h]

/-! #### Live update and the mailbox -/

@[simp] theorem opStage_canonical {s : State} (h src bytes) (hs : Canonical s) : Canonical (opStage s h src bytes) := by
  unfold opStage
  dsimp only
  split <;> simp [↓canonical_update, hs]

@[simp] theorem giveImage_canonical (i) {s : State} (n) : Canonical (giveImage i s n) ↔ Canonical s := by
  simp [↓canonical_update, giveImage]
@[simp] theorem rejudge_canonical {s : State} : Canonical (rejudge s) ↔ Canonical s := by simp [↓canonical_update, rejudge]
@[simp] theorem reform_canonical {s : State} : Canonical (reform s) ↔ Canonical s := by simp [reform]

@[simp] theorem endAct_canonical {s : State} (status data) (h : Canonical s) : Canonical (endAct s status data) := by
  unfold endAct
  split <;> simp [↓canonical_update, h]

@[simp] theorem unstage_canonical {s : State} (c) : Canonical (unstage s c) ↔ Canonical s := Iff.rfl

@[simp] theorem rollOn_canonical {s : State} (a n) (h : Canonical s) : Canonical (rollOn s a n) := by
  unfold rollOn
  split <;> simp [↓canonical_update, h]

@[simp] theorem finishAct_canonical {s : State} (a) (h : Canonical s) : Canonical (finishAct s a) := by
  simp [↓canonical_update, finishAct, h]
@[simp] theorem passIdle_canonical {s : State} (a) (h : Canonical s) : Canonical (passIdle s a) := by simp [passIdle, h]
@[simp] theorem armAct_canonical {s : State} (a) (h : Canonical s) : Canonical (armAct s a) := by simp [↓canonical_update, armAct, h]

@[simp] theorem seamAct_canonical {s : State} (h : Canonical s) : Canonical (seamAct s) := by
  unfold seamAct
  split <;> simp [↓canonical_update, h]

@[simp] theorem beginRolling_canonical {s : State} (a) (h : Canonical s) : Canonical (beginRolling s a) := by
  unfold beginRolling
  split <;> simp [↓canonical_update, h]

@[simp] theorem nextAct_canonical {s : State} (h : Canonical s) : Canonical (nextAct s) := by
  unfold nextAct
  split <;> simp [↓canonical_update, h]

@[simp] theorem settleAct_canonical {s : State} (h : Canonical s) : Canonical (settleAct s) := by
  simp +contextual (disch := simp +contextual [h]) [settleAct]

@[simp] theorem opActivate_canonical {s : State} (h c f) (hs : Canonical s) : Canonical (opActivate s h c f) := by
  unfold opActivate
  split <;> simp [↓canonical_update, hs]

@[simp] theorem opSeal_canonical {s : State} (payload) (h : Canonical s) : Canonical (opSeal s payload) := by
  unfold opSeal
  split <;> simp [↓canonical_update, h]

@[simp] theorem serveHeld_canonical {s : State} (x) (h : Canonical s) : Canonical (serveHeld s x) := by
  unfold serveHeld
  split <;> simp [h]

@[simp] theorem servedBy_canonical {s : State} (a) (h : Canonical s) : Canonical (servedBy s a) := by simp +contextual [servedBy, h]
@[simp] theorem rejectAct_canonical {s : State} (a reason) (h : Canonical s) : Canonical (rejectAct s a reason) := by
  simp +contextual (disch := simp [h]) [rejectAct]

@[simp] theorem opAccept_canonical {s : State} (h : Canonical s) : Canonical (opAccept s) := by
  unfold opAccept
  (repeat' split) <;> simp [↓canonical_update, h]

@[simp] theorem opReject_canonical {s : State} (reason) (h : Canonical s) : Canonical (opReject s reason) := by
  unfold opReject
  split <;> simp [h]

@[simp] theorem opTimeout_canonical {s : State} (wd n) (h : Canonical s) : Canonical (opTimeout s wd n) := by
  unfold opTimeout
  split <;> simp [h]

@[simp] theorem mbDone_canonical {s : State} (code) : Canonical (mbDone s code) ↔ Canonical s := Iff.rfl

@[simp] theorem mbStart_canonical {s : State} (code) {bad : State} (h : Canonical s) (hbad : Canonical bad) :
    Canonical (mbStart s code bad) := by
  simp [↓canonical_update, mbStart, h, hbad]

@[simp] theorem mbRun_canonical {s : State} (code req) {f : State → List Byte → State} (h : Canonical s)
    (hf : ∀ u b, Canonical u → Canonical (f u b)) : Canonical (mbRun s code req f) := by
  simp [↓canonical_update, mbRun, h, hf]

@[simp] theorem mbResult_canonical {s : State} (b) (h : Canonical s) : Canonical (mbResult s b) := by simp [mbResult, h]

@[simp] theorem mbOwned_canonical {s : State} (req) {run : State} (h : Canonical s) (hrun : Canonical run) :
    Canonical (mbOwned s req run) := by
  simp [mbOwned, h, hrun]

@[simp] theorem opAttest_canonical {s : State} (req) (h : Canonical s) : Canonical (opAttest s req) := by simp [opAttest, h]
@[simp] theorem opChallenge_canonical {s : State} (req) (h : Canonical s) : Canonical (opChallenge s req) := by
  simp [↓canonical_update, opChallenge, h]
@[simp] theorem opRaiseFloor_canonical {s : State} (req) (h : Canonical s) : Canonical (opRaiseFloor s req) := by
  simp [↓canonical_update, opRaiseFloor, h]
@[simp] theorem setOwner_canonical {s : State} (key root) : Canonical (setOwner s key root) ↔ Canonical s := Iff.rfl
@[simp] theorem opEnroll_canonical {s : State} (req) (h : Canonical s) : Canonical (opEnroll s req) := by simp [opEnroll, h]

@[simp] theorem opReplace_canonical {s : State} (req) (h : Canonical s) : Canonical (opReplace s req) := by
  unfold opReplace
  split <;> simp [h]

/-! #### Loading a Ductus -/

@[simp] theorem gate_canonical {s : State} (h restrictedOk states bad) {run : State} (hs : Canonical s) (hrun : Canonical run) :
    Canonical (gate s h restrictedOk states bad run) := by
  unfold gate
  (repeat' split) <;> simp [hs, hrun]

@[simp] theorem hold_canonical {s : State} (h op) (hs : Canonical s) : Canonical (hold s h op) := by simp [↓canonical_update, hold, hs]
@[simp] theorem rejectLoad_canonical {s : State} (h n) (hs : Canonical s) : Canonical (rejectLoad s h n) := by simp [rejectLoad, hs]

@[simp] theorem opLoadDuctus_canonical {s : State} (h src bytes dst) (hs : Canonical s) : Canonical (opLoadDuctus s h src bytes dst) := by
  unfold opLoadDuctus
  dsimp only
  (repeat' split) <;> simp +contextual (disch := simp [↓canonical_update, hs])

@[simp] theorem runLoadDuctus_canonical {s : State} (h rsv src bytes dst) (hs : Canonical s) :
    Canonical (runLoadDuctus s h rsv src bytes dst) := by
  simp [runLoadDuctus, hs]

/-! #### Mask strokes -/

@[simp] theorem maskMoved_canonical {s : State} (r w nib rs) : Canonical (maskMoved s r w nib rs) ↔ Canonical s :=
  (maskMoved_countOnly _ _ _ _ _).canonical
@[simp] theorem writeScope_canonical {s : State} (r w nib xs ms) (h : Canonical s) : Canonical (writeScope s r w nib xs ms) := by
  simp [writeScope, h]

@[simp] theorem runScope_canonical {s : State} (r w first) (h : Canonical s) : Canonical (runScope s r w first).1 := by
  unfold runScope
  dsimp only
  (repeat' split) <;> simp [h]

@[simp] theorem runMaskSet_canonical {s : State} (r w) (h : Canonical s) : Canonical (runMaskSet s r w).1 := by
  unfold runMaskSet
  dsimp only
  (repeat' split) <;> simp +contextual [h]

@[simp] theorem runMask_canonical {s : State} (r w) (h : Canonical s) : Canonical (runMask s r w).1 := by simp +contextual [runMask, h]

@[simp] theorem fetchMask_canonical {s : State} (x r) (h : Canonical s) : Canonical (fetchMask s x r).1 := by simp [fetchMask, h]

/-- What a mask record leaves once it has run. -/
theorem fetchMask_ran_canonical {s u : State} {x : Transfer} {r : MaskRec} {e : Option Bad} (h : Canonical s)
    (ran : (fetchMask s x r).2 = some (u, e)) : Canonical u := by
  obtain ⟨f, _, hu⟩ := Option.map_eq_some_iff.mp ran
  have left := runMask_canonical (r.atDev s.glob.deviceId) { xfer := x, far := f }
    (gather_canonical x (r.atDev s.glob.deviceId).reads h)
  rwa [hu] at left

@[simp] theorem opMaskStroke_canonical {s : State} (l i opcode) (h : Canonical s) : Canonical (opMaskStroke s l i opcode) := by
  refine inAbortCycle_canonical h fun t ht => ?_
  dsimp only
  split
  · exact ht
  · split
    · exact ht
    · split
      · simp [ht]
      · split
        · simp [ht]
        · split
          · simp [ht]
          · split
            · simp [ht]
            · exact (doneRun_canonical _ _).2 (fetchMask_ran_canonical ht ‹_›)
            · have ran := fetchMask_ran_canonical ht ‹_›
              split <;> simp [ran]

/-! #### Nib records -/

@[simp] theorem nibWrote_canonical {s : State} (x nib master a sats nf) :
    Canonical (nibWrote s x nib master a sats nf) ↔ Canonical s := by
  simp [nibWrote]

@[simp] theorem nibMoved_canonical {s : State} (x nib master rs) : Canonical (nibMoved s x nib master rs) ↔ Canonical s := by
  simp [nibMoved]

@[simp] theorem runStencil_canonical {s : State} (x d) (h : Canonical s) : Canonical (runStencil s x d) := by
  unfold runStencil
  dsimp only
  split <;> simp [h]

@[simp] theorem runDigest_canonical {s : State} (x d) (h : Canonical s) : Canonical (runDigest s x d).1 := by
  unfold runDigest
  split
  · split
    · simp [h]
    · exact h
  · dsimp only
    refine foldl_canonical _ _ (fun u k hu => by split <;> simp [hu]) (foldl_canonical _ _ (fun u p hu => by simp [hu]) ?_)
    split
    · refine commit_canonical _ _ (foldl_canonical _ _ (fun u k hu => ?_) (by simp [h]))
      split
      · simp [↓canonical_update, hu]
      · exact hu
    · refine (foldl_canonical _ _ (fun u k hu => ?_) (by simp [h]))
      split
      · simp [↓canonical_update, hu]
      · exact hu

@[simp] theorem reduceBucket_canonical {s : State} (f x d i) (h : Canonical s) : Canonical (reduceBucket s f x d i) := by
  unfold reduceBucket
  dsimp only
  (repeat' split) <;> simp [h]

@[simp] theorem opReduce_canonical {s : State} (l i) (h : Canonical s) : Canonical (opReduce s l i) := by
  refine inAbortCycle_canonical h fun t ht => ?_
  dsimp only
  (repeat' split) <;> simp +contextual [ht]

@[simp] theorem noteStale_canonical {s : State} (g) : Canonical (noteStale s g) ↔ Canonical s := by simp [↓canonical_update, noteStale]

@[simp] theorem updateWeights_canonical {s : State} (f x d) (h : Canonical s) : Canonical (updateWeights s f x d).1 := by
  unfold updateWeights
  dsimp only
  (repeat' split) <;> simp [↓canonical_update, h]

@[simp] theorem runOptimiser_canonical {s : State} (x d) (h : Canonical s) : Canonical (runOptimiser s x d).1 := by
  unfold runOptimiser
  dsimp only
  (repeat' split) <;> simp [h]

@[simp] theorem NibRec_run_canonical (r) {s : State} (x) (h : Canonical s) : Canonical (NibRec.run r s x).1 := by
  unfold NibRec.run
  split <;> simp [h]

@[simp] theorem markRec_canonical {s : State} (l i k) : Canonical (markRec s l i k) ↔ Canonical s := Iff.rfl

@[simp] theorem opNibRecord_canonical {s : State} (l i k opcode) (h : Canonical s) : Canonical (opNibRecord s l i k opcode) := by
  refine inAbortCycle_canonical h fun t ht => ?_
  dsimp only
  (repeat' split) <;> simp [ht]

/-! #### Descriptors and the job -/

@[simp] theorem runLoadImage_canonical {s : State} (h rsv src bytes) (hs : Canonical s) : Canonical (runLoadImage s h rsv src bytes) := by
  unfold runLoadImage
  (repeat' split) <;> simp [hs]

@[simp] theorem fwStore_canonical {s : State} (a bs) (h : Canonical s) : Canonical (fwStore s a bs) := by simp +contextual [fwStore, h]
@[simp] theorem forgetBanks_canonical {s : State} (fb well) (h : Canonical s) : Canonical (forgetBanks s fb well) := by
  simp +contextual (disch := simp +contextual [h]) [forgetBanks]
@[simp] theorem setBanks_canonical {s : State} (fb well) (h : Canonical s) : Canonical (setBanks s fb well) := by simp [setBanks, h]
@[simp] theorem allBanksOn_canonical {s : State} : Canonical (allBanksOn s) ↔ Canonical s := by simp [allBanksOn]
@[simp] theorem fillDie_canonical {s : State} (d) : Canonical (fillDie s d) ↔ Canonical s := by simp [fillDie]
@[simp] theorem mapForJob_canonical {s : State} (h : Canonical s) : Canonical (mapForJob s) := by
  simp +contextual [↓canonical_update, mapForJob, h]
@[simp] theorem openMirror_canonical {s : State} (b ckpt) : Canonical (openMirror s b ckpt) ↔ Canonical s := Iff.rfl
@[simp] theorem remapFolio_canonical {s : State} (x) (h : Canonical s) : Canonical (remapFolio s x) := by
  simp [↓canonical_update, remapFolio, h]
@[simp] theorem applyRemaps_canonical {s : State} (h : Canonical s) : Canonical (applyRemaps s) := by
  simp +contextual [↓canonical_update, applyRemaps, h]

@[simp] theorem endJob_canonical {s : State} (h : Canonical s) : Canonical (endJob s) := by
  have stopped : Canonical (stopFrames (applyRemaps s)) := by simp [h]
  unfold endJob
  refine settleAct_canonical (setJobState_canonical _ (canonical_update.2 (completeAll_canonical _ _ (completeAll_canonical _ _ ?_))))
  simp only [takeHeld_canonical, allBanksOn_canonical]
  refine foldl_canonical _ _ (fun u x hu => (closeAt_canonical x).2 hu) ?_
  split <;> simp [stopped]

@[simp] theorem openSession_canonical {s : State} (h major new) (hs : Canonical s) : Canonical (openSession s h major new) := by
  simp [↓canonical_update, openSession, hs]

@[simp] theorem runClaim_canonical {s : State} (h rsv major flags) (hs : Canonical s) : Canonical (runClaim s h rsv major flags) := by
  unfold runClaim
  (repeat' split) <;> simp +contextual (disch := simp [hs]) [hs]

@[simp] theorem releaseNow_canonical {s : State} (h) (hs : Canonical s) : Canonical (releaseNow s h) := by
  simp +contextual (disch := simp [↓canonical_update, hs]) [releaseNow]
@[simp] theorem runRelease_canonical {s : State} (h rsv flags) (hs : Canonical s) : Canonical (runRelease s h rsv flags) := by
  simp +contextual (disch := simp [hs]) [runRelease]
@[simp] theorem withEpoch_canonical {s : State} (a) : Canonical (withEpoch s a) ↔ Canonical s := Iff.rfl

@[simp] theorem acceptJob_canonical {s : State} (h a) (hs : Canonical s) : Canonical (acceptJob s h a) := by
  unfold acceptJob
  dsimp only
  refine setJobState_canonical _ (canonical_update.2 (complete_canonical _ _ _ (canonical_update.2
    (setBanks_canonical _ _ (mapForJob_canonical ?_)))))
  simp [↓canonical_updateMem, ↓canonical_update, hs]

@[simp] theorem runJobStart_canonical {s : State} (h rsv block bytes) (hs : Canonical s) :
    Canonical (runJobStart s h rsv block bytes) := by
  unfold runJobStart
  dsimp only
  (repeat' split) <;> simp +contextual (disch := simp [hs])

@[simp] theorem runStepBegin_canonical {s : State} (h rsv step steps) (hs : Canonical s) :
    Canonical (runStepBegin s h rsv step steps) := by
  simp [↓canonical_update, runStepBegin, hs]

@[simp] theorem applyParam_canonical {s : State} (w) (h : Canonical s) : Canonical (applyParam s w) := by
  have put : ∀ (t : State) k a v, Canonical t → Canonical (if w.fields.testBit k then fwStore t a (leBytes 4 v) else t) := by
    intro t k a v ht
    split <;> simp [ht]
  exact put _ _ _ _ (put _ _ _ _ (put _ _ _ _ (put _ _ _ _ (put _ _ _ _ (put _ _ _ _ h)))))

@[simp] theorem applyParamDesc_canonical {s : State} (x) (h : Canonical s) : Canonical (applyParamDesc s x) := by
  unfold applyParamDesc
  split <;> simp [h]

@[simp] theorem opParamWrite_canonical {s : State} (h w) (hs : Canonical s) : Canonical (opParamWrite s h w) := by
  simp [↓canonical_update, opParamWrite, hs]
@[simp] theorem runParamWrite_canonical {s : State} (h rsv w) (hs : Canonical s) : Canonical (runParamWrite s h rsv w) := by
  simp [runParamWrite, hs]
@[simp] theorem runShapeCell_canonical {s : State} (h rsv dst src) (hs : Canonical s) : Canonical (runShapeCell s h rsv dst src) := by
  simp +contextual (disch := simp [hs]) [runShapeCell]
@[simp] theorem failMaskOp_canonical {s : State} (h e) (hs : Canonical s) : Canonical (failMaskOp s h e) := by simp [failMaskOp, hs]

@[simp] theorem carryMask_canonical {s : State} (x rec r) (h : Canonical s) : Canonical (carryMask s x rec r) := by
  unfold carryMask
  dsimp only
  split
  · simp [h]
  · have ran := fetchMask_ran_canonical h ‹_›
    split <;> simp [↓canonical_update, ran]

@[simp] theorem opMaskDesc_canonical {s : State} (h rec) (hs : Canonical s) : Canonical (opMaskDesc s h rec) := by
  unfold opMaskDesc
  dsimp only
  (repeat' split) <;> simp [↓canonical_update, hs]

@[simp] theorem resumeMasks_canonical {s : State} (h : Canonical s) : Canonical (resumeMasks s) := by
  refine foldl_canonical _ _ (fun t x ht => ?_) h
  split
  · split <;> simp [↓canonical_update, ht]
  · exact ht

@[simp] theorem runMaskOp_canonical {s : State} (h rsv rec) (hs : Canonical s) : Canonical (runMaskOp s h rsv rec) := by
  simp [runMaskOp, hs]
@[simp] theorem runCheckpointOnce_canonical {s : State} (h rsv) (hs : Canonical s) : Canonical (runCheckpointOnce s h rsv) := by
  simp [runCheckpointOnce, hs]

@[simp] theorem runCheckpointInterval_canonical {s : State} (h rsv n) (hs : Canonical s) :
    Canonical (runCheckpointInterval s h rsv n) := by
  simp [↓canonical_update, runCheckpointInterval, hs]

@[simp] theorem runOpenWindow_canonical {s : State} (h rsv w entry) (hs : Canonical s) : Canonical (runOpenWindow s h rsv w entry) := by
  simp [runOpenWindow, hs]
@[simp] theorem runCloseWindow_canonical {s : State} (h rsv w) (hs : Canonical s) : Canonical (runCloseWindow s h rsv w) := by
  simp [runCloseWindow, hs]
@[simp] theorem runCounterSnapshot_canonical {s : State} (h rsv) (hs : Canonical s) : Canonical (runCounterSnapshot s h rsv) := by
  simp +contextual (disch := simp [hs]) [runCounterSnapshot]

@[simp] theorem runTestRequest_canonical {s : State} (h rsv fol deadline) (hs : Canonical s) :
    Canonical (runTestRequest s h rsv fol deadline) := by
  simp [↓canonical_update, runTestRequest, hs]

@[simp] theorem runUpdateStage_canonical {s : State} (h rsv src bytes) (hs : Canonical s) :
    Canonical (runUpdateStage s h rsv src bytes) := by
  simp [runUpdateStage, hs]

@[simp] theorem runUpdateActivate_canonical {s : State} (h rsv c f) (hs : Canonical s) : Canonical (runUpdateActivate s h rsv c f) := by
  simp [runUpdateActivate, hs]
@[simp] theorem runJobPause_canonical {s : State} (h rsv atStep) (hs : Canonical s) : Canonical (runJobPause s h rsv atStep) := by
  simp [runJobPause, hs]
@[simp] theorem runJobResume_canonical {s : State} (h rsv frame) (hs : Canonical s) : Canonical (runJobResume s h rsv frame) := by
  simp +contextual (disch := simp [hs]) [runJobResume]
@[simp] theorem runJobEnd_canonical {s : State} (h rsv) (hs : Canonical s) : Canonical (runJobEnd s h rsv) := by
  simp +contextual (disch := simp [hs]) [runJobEnd]

@[simp] theorem runDescriptor_canonical {s : State} (n b) (h : Canonical s) : Canonical (runDescriptor s n b) := by
  unfold runDescriptor
  (repeat' split) <;> simp [h]

@[simp] theorem fetchPacket_canonical {s : State} (n) : Canonical (fetchPacket s n) ↔ Canonical s := by simp [fetchPacket]

@[simp] theorem opFetch_canonical {s : State} (ok) (h : Canonical s) : Canonical (opFetch s ok) := by
  unfold opFetch
  split <;> simp [↓canonical_update, h]

/-! #### In-field test -/

@[simp] theorem spareOn_canonical {s : State} (k) : Canonical (spareOn s k) ↔ Canonical s := by simp [spareOn]
@[simp] theorem spareTakes_canonical {s : State} (k l) (h : Canonical s) : Canonical (spareTakes s k l) := by
  simp [↓canonical_update, spareTakes, h]
@[simp] theorem unmapFolio_canonical {s : State} (l) : Canonical (unmapFolio s l) ↔ Canonical s := Iff.rfl

@[simp] theorem beginTest_canonical {s : State} (n) (h : Canonical s) : Canonical (beginTest s n) := by
  unfold beginTest
  (repeat' split) <;> simp [↓canonical_update, h]

/-! #### Training services -/

@[simp] theorem takeMsg_canonical {s : State} (src pay) : Canonical (takeMsg s src pay) ↔ Canonical s := by
  unfold takeMsg
  dsimp only
  (repeat' split) <;> simp [↓canonical_update]

@[simp] theorem onMsg_canonical {s : State} (src m typ) {f : State → State} (h : Canonical s) (hf : ∀ u, Canonical u → Canonical (f u)) :
    Canonical (onMsg s src m typ f) := by
  simp [onMsg, h, hf]

@[simp] theorem setSlotState_canonical {s : State} (k st) (h : Canonical s) : Canonical (setSlotState s k st) := by simp [setSlotState, h]
@[simp] theorem restoreImage_canonical {s : State} (img) (h : Canonical s) : Canonical (restoreImage s img) := by
  simp +contextual [↓canonical_update, restoreImage, h]
@[simp] theorem dropCkpt_canonical {s : State} (k) : Canonical (dropCkpt s k) ↔ Canonical s := Iff.rfl

@[simp] theorem copySlot_canonical {s : State} (kind k dst a) (h : Canonical s) : Canonical (copySlot s kind k dst a) := by
  unfold copySlot
  dsimp only
  split <;> simp [↓canonical_update, h]

@[simp] theorem endOnce_canonical {s : State} (n status data) (h : Canonical s) : Canonical (endOnce s n status data) := by
  simp +contextual [endOnce, h]
@[simp] theorem ckptBegin_canonical {s : State} (n) (h : Canonical s) : Canonical (ckptBegin s n) := by
  simp [↓canonical_update, ckptBegin, h]
@[simp] theorem ckptFor_canonical {s : State} (n) (h : Canonical s) : Canonical (ckptFor s n) := by simp [ckptFor, h]

@[simp] theorem ckptSeal_canonical {s : State} (h : Canonical s) : Canonical (ckptSeal s) := by
  unfold ckptSeal
  split
  · exact h
  · split
    · exact h
    · dsimp only
      refine copySlot_canonical _ _ _ _ ((dropCkpt_canonical _).2 (canonical_update.2
        (fwStore_canonical _ _ (setSlotState_canonical _ _ ?_))))
      simp [h]

@[simp] theorem sendDone_canonical {s : State} (n failed) : Canonical (sendDone s n failed) ↔ Canonical s := by simp [sendDone]

@[simp] theorem dropWriting_canonical {s : State} (h : Canonical s) : Canonical (dropWriting s) := by
  unfold dropWriting
  split <;> simp [↓canonical_update, h]

@[simp] theorem opCkptDoneSend_canonical {s : State} (failed) : Canonical (opCkptDoneSend s failed) ↔ Canonical s := by
  unfold opCkptDoneSend
  split <;> simp [↓canonical_update]

@[simp] theorem opCkptDone_canonical (src m) {s : State} : Canonical (opCkptDone src m s) ↔ Canonical s := by
  simp [↓canonical_update, opCkptDone]

@[simp] theorem opCommit_canonical (m) {s : State} (h : Canonical s) : Canonical (opCommit m s) := by
  unfold opCommit
  dsimp only
  generalize (if m.flags.testBit 4 then 0 else 3) = st
  refine endOnce_canonical _ _ _ (canonical_update.2 (postRecord_canonical _ _ _ ?_))
  have mirrored := foldl_canonical (fun t k => setSlotState t k st) (mirrorsOf s m.step) (fun _ k => setSlotState_canonical k st) h
  (repeat' split) <;> simp [↓canonical_update, mirrored]

@[simp] theorem pauseAll_canonical {s : State} (code) : Canonical (pauseAll s code) ↔ Canonical s := by simp [↓canonical_update, pauseAll]

@[simp] theorem sendRollback_canonical {s : State} (step toCkpt code extra) :
    Canonical (sendRollback s step toCkpt code extra) ↔ Canonical s := by
  unfold sendRollback
  (repeat' split) <;> simp [↓canonical_update]

@[simp] theorem opRollbackReq_canonical (m) {s : State} (h : Canonical s) : Canonical (opRollbackReq m s) := by
  simp [↓canonical_update, opRollbackReq, h]
@[simp] theorem opReady_canonical (src m) {s : State} : Canonical (opReady src m s) ↔ Canonical s := by simp [↓canonical_update, opReady]

@[simp] theorem declareLost_canonical {s : State} (d) (h : Canonical s) : Canonical (declareLost s d) := by
  unfold declareLost
  dsimp only
  split <;> simp [↓canonical_update, h]

@[simp] theorem opDeviceLost_canonical (m) {s : State} (h : Canonical s) : Canonical (opDeviceLost m s) := by simp [opDeviceLost, h]
@[simp] theorem sendLost_canonical {s : State} (d) : Canonical (sendLost s d) ↔ Canonical s := by simp [sendLost]
@[simp] theorem reportLost_canonical {s t : State} (ht : Canonical t) : Canonical (reportLost s t) := by
  simp [reportLost, ht]
@[simp] theorem opLaneSilence_canonical {s : State} (n) (h : Canonical s) : Canonical (opLaneSilence s n) := by simp [opLaneSilence, h]
@[simp] theorem opTrainingTimeout_canonical {s : State} (n) (h : Canonical s) : Canonical (opTrainingTimeout s n) := by
  simp [opTrainingTimeout, h]
@[simp] theorem writeLinkCtrl_canonical {s : State} (n v) (h : Canonical s) :
    Canonical (writeLinkCtrl s n v) := by simp [writeLinkCtrl, h]
@[simp] theorem abortForRollback_canonical {s : State} : Canonical (abortForRollback s) ↔ Canonical s := by simp [abortForRollback]
@[simp] theorem beginRollback_canonical {s : State} (src m) (h : Canonical s) : Canonical (beginRollback s src m) := by
  simp [↓canonical_update, beginRollback, h]
@[simp] theorem sendReady_canonical {s : State} : Canonical (sendReady s) ↔ Canonical s := by simp [↓canonical_update, sendReady]
@[simp] theorem readyNow_canonical {s : State} : Canonical (readyNow s) ↔ Canonical s := by simp [readyNow]
@[simp] theorem sendNotReady_canonical {s : State} (code) : Canonical (sendNotReady s code) ↔ Canonical s := by
  simp [↓canonical_update, sendNotReady]

@[simp] theorem opRollback_canonical (src m) {s : State} (h : Canonical s) : Canonical (opRollback src m s) := by
  unfold opRollback
  dsimp only
  (repeat' split) <;> simp [↓canonical_update, h]

@[simp] theorem opRollbackPause_canonical (src m) {s : State} (h : Canonical s) : Canonical (opRollbackPause src m s) := by
  simp +contextual (disch := simp [↓canonical_update, h]) [↓canonical_update, opRollbackPause, h]
@[simp] theorem askMirror_canonical {s : State} (h : Canonical s) : Canonical (askMirror s) := by simp [↓canonical_update, askMirror, h]
@[simp] theorem restoreFails_canonical {s : State} (h : Canonical s) : Canonical (restoreFails s) := by
  simp [↓canonical_update, restoreFails, h]

@[simp] theorem readSlot_canonical {s : State} (h : Canonical s) : Canonical (readSlot s) := by
  unfold readSlot
  split <;> simp [h]

@[simp] theorem takeImages_canonical {s : State} (rs) :
    Canonical (takeImages s rs) ↔ Canonical s := by simp [↓canonical_update, takeImages]

@[simp] theorem opRestore_canonical {s : State} (r) (h : Canonical s) : Canonical (opRestore s r) := by
  unfold opRestore
  dsimp only
  (repeat' split) <;> simp [↓canonical_update, h]

@[simp] theorem remirror_canonical {s : State} (h : Canonical s) : Canonical (remirror s) := by
  unfold remirror
  split <;> simp [h]

@[simp] theorem coloBegin_canonical {s : State} (n) (h : Canonical s) : Canonical (coloBegin s n) := by simp [coloBegin, h]

@[simp] theorem opRestart_canonical {s : State} (h : Canonical s) : Canonical (opRestart s) := by
  unfold opRestart
  split <;> simp +contextual (disch := simp [↓canonical_update, h]) [↓canonical_update, h]

@[simp] theorem spareLate_canonical {s : State} : Canonical (spareLate s) ↔ Canonical s := by
  unfold spareLate
  split <;> simp [↓canonical_update]

@[simp] theorem opRollbackTimeout_canonical {s : State} (h : Canonical s) : Canonical (opRollbackTimeout s) := by
  unfold opRollbackTimeout
  split <;> simp +contextual (disch := simp [↓canonical_update, h]) [h]

@[simp] theorem opSkip_canonical (m) {s : State} (h : Canonical s) : Canonical (opSkip m s) := by simp [opSkip, h]

@[simp] theorem buddySends_canonical {s : State} (d sp) (h : Canonical s) : Canonical (buddySends s d sp) := by
  unfold buddySends
  split <;> simp [h]

@[simp] theorem adoptJob_canonical {s : State} (m) : Canonical (adoptJob s m) ↔ Canonical s := by simp [↓canonical_update, adoptJob]
@[simp] theorem opTakeover_canonical (src m) {s : State} (h : Canonical s) : Canonical (opTakeover src m s) := by
  simp [↓canonical_update, opTakeover, h]

@[simp] theorem coloCompare_canonical {s : State} (step) (h : Canonical s) : Canonical (coloCompare s step) := by
  unfold coloCompare
  split <;> simp [↓canonical_update, h]

@[simp] theorem opColophon_canonical {s : State} (src pay) (h : Canonical s) : Canonical (opColophon s src pay) := by
  simp [↓canonical_update, opColophon, h]
@[simp] theorem coloEnd_canonical {s : State} (n) (h : Canonical s) : Canonical (coloEnd s n) := by simp [↓canonical_update, coloEnd, h]

/-! #### The stroke region -/

@[simp] theorem stallSignals_canonical {s : State} (cs) : Canonical (stallSignals s cs) ↔ Canonical s := by
  simp [↓canonical_update, stallSignals]
@[simp] theorem withBlocked_canonical {s : State} : Canonical (withBlocked s) ↔ Canonical s := Iff.rfl
@[simp] theorem nextCycle_canonical {s : State} : Canonical (nextCycle s) ↔ Canonical s := Iff.rfl
@[simp] theorem stallCycle_canonical {s : State} (cs w) : Canonical (stallCycle s cs w) ↔ Canonical s := by
  simp [↓canonical_update, stallCycle]
@[simp] theorem startStroke_canonical {s : State} (x swap dec) : Canonical (startStroke s x swap dec) ↔ Canonical s := by
  simp [↓canonical_update, startStroke]

@[simp] theorem issueOne_canonical {s : State} (x swap) (h : Canonical s) : Canonical (issueOne s x swap) := by
  unfold issueOne
  dsimp only
  (repeat' split) <;> simp [h]

@[simp] theorem issuePick_canonical {s : State} (p) (h : Canonical s) : Canonical (issuePick s p) := by
  unfold issuePick
  split <;> simp [h]

@[simp] theorem opStrokeIssue_canonical {s : State} (h : Canonical s) : Canonical (opStrokeIssue s) := by
  unfold opStrokeIssue
  (repeat' split) <;> simp +contextual [↓canonical_update, h]

@[simp] theorem completeTags_canonical {s : State} (d k) : Canonical (completeTags s d k) ↔ Canonical s := by simp [completeTags]

@[simp] theorem opStrokeComplete_canonical {s : State} (l i) : Canonical (opStrokeComplete s l i) ↔ Canonical s := by
  unfold opStrokeComplete
  (repeat' split) <;> simp [↓canonical_update]

@[simp] theorem tagTimeout_canonical {s : State} (h : Canonical s) : Canonical (tagTimeout s) := by
  unfold tagTimeout
  split <;> simp [h]

@[simp] theorem opOverrun_canonical {s : State} (h : Canonical s) : Canonical (opOverrun s) := by simp [↓canonical_update, opOverrun, h]

@[simp] theorem upsetLine_canonical {s : State} (x) (h : Canonical s) : Canonical (upsetLine s x) := by
  unfold upsetLine
  dsimp only
  (repeat' split) <;> simp [↓canonical_updateMem, h]

@[simp] theorem scrubLine_canonical {s : State} (l) (h : Canonical s) : Canonical (scrubLine s l) := by simp [scrubLine, h]
@[simp] theorem opStackSlot_canonical {s : State} (len scrub upset) (h : Canonical s) : Canonical (opStackSlot s len scrub upset) := by
  simp +contextual (disch := simp +contextual [↓canonical_update, h]) [opStackSlot, h]
@[simp] theorem opLpSlot_canonical {s : State} (len upset) (h : Canonical s) : Canonical (opLpSlot s len upset) := by
  simp +contextual [↓canonical_update, opLpSlot, h]
@[simp] theorem timeOfTick_canonical {s : State} (n) : Canonical (timeOfTick s n) ↔ Canonical s := by simp [timeOfTick]

@[simp] theorem loadTags_canonical {s : State} (id) : Canonical (loadTags s id) ↔ Canonical s := by
  unfold loadTags
  split <;> simp [↓canonical_updateMem]

@[simp] theorem goLive_canonical {s : State} (n f0) : Canonical (goLive s n f0) ↔ Canonical s := by simp [↓canonical_update, goLive]
@[simp] theorem setRunning_canonical {s : State} (h : Canonical s) :
    Canonical (setRunning s) := by simp [↓canonical_update, setRunning, h]
@[simp] theorem firstStep_canonical {s : State} (h : Canonical s) : Canonical (firstStep s) := by simp [firstStep, h]
@[simp] theorem releasePacket_canonical {s : State} (x) (h : Canonical s) : Canonical (releasePacket s x) := by
  simp +contextual [releasePacket, h]

@[simp] theorem fixOwners_canonical {s : State} (h : Canonical s) : Canonical (fixOwners s) := by
  refine foldl_canonical _ _ (fun t x ht => foldl_canonical _ _ (fun t e ht => foldl_canonical _ _ (fun t i ht => ?_) ht) ht) h
  simp [ht]

@[simp] theorem takePlace_canonical {s : State} (d rf) (h : Canonical s) : Canonical (takePlace s d rf) := by
  unfold takePlace
  refine (recheckDrains_canonical).2 (fixOwners_canonical (setBanks_canonical _ _ (mapForJob_canonical ?_)))
  simp [↓canonical_update, h]

/-- A spare that begins the job with this frame, or the state as it was. -/
@[simp] theorem spareStarts_canonical {s : State} (n : Nat) (h : Canonical s) : Canonical ((spareStarts s n).getD s) := by
  unfold spareStarts
  split
  · split
    · simp only [Option.getD_some]
      exact firstStep_canonical ((goLive_canonical _ _).2 (setRunning_canonical (takePlace_canonical _ _ h)))
    · exact h
  · exact h

@[simp] theorem startFrames_canonical {s : State} (n) (h : Canonical s) : Canonical (startFrames s n) := by
  unfold startFrames
  (repeat' split) <;> simp [h]

@[simp] theorem readDuctus_canonical {s : State} (h : Canonical s) : Canonical (readDuctus s) := by
  unfold readDuctus
  split <;> simp [h]

@[simp] theorem opFrameTick_canonical {s : State} (h : Canonical s) : Canonical (opFrameTick s) := by
  simp +contextual (disch := simp +contextual [↓canonical_update, h]) [opFrameTick, h]

/-! #### The seam -/

@[simp] theorem inPhase_canonical {s : State} (k) {f : State → State} (h : Canonical s) (hf : ∀ u, Canonical u → Canonical (f u)) :
    Canonical (inPhase s k f) := by
  simp [↓canonical_update, inPhase, h, hf]

@[simp] theorem timeOfSeam_canonical {s : State} : Canonical (timeOfSeam s) ↔ Canonical s := by simp [timeOfSeam]

@[simp] theorem lateStroke_canonical {s : State} (h : Canonical s) : Canonical (lateStroke s) := by
  unfold lateStroke
  (repeat' split) <;> simp [h]

@[simp] theorem wakeLate_canonical {s : State} (h : Canonical s) : Canonical (wakeLate s) := by simp [↓canonical_update, wakeLate, h]

@[simp] theorem opSeamStart_canonical {s : State} (h : Canonical s) : Canonical (opSeamStart s) := by
  unfold opSeamStart
  dsimp only
  (repeat' split) <;> simp +contextual (disch := simp [↓canonical_update, h]) [↓canonical_update, h]

@[simp] theorem withoutHeld_canonical {s : State} (x) : Canonical (withoutHeld s x) ↔ Canonical s := Iff.rfl

@[simp] theorem applyHeldClose_canonical {s : State} (x) (h : Canonical s) : Canonical (applyHeldClose s x) := by
  unfold applyHeldClose
  split <;> simp [h]

@[simp] theorem applyHeldWindow_canonical {s : State} (x) (h : Canonical s) : Canonical (applyHeldWindow s x) := by
  unfold applyHeldWindow
  (repeat' split) <;> simp +contextual (disch := simp +contextual [h])

@[simp] theorem opWindowPhase_canonical {s : State} (h : Canonical s) : Canonical (opWindowPhase s) := by
  simp +contextual [↓canonical_update, opWindowPhase, h]
@[simp] theorem postCounts_canonical {s : State} (h : Canonical s) :
    Canonical (postCounts s) := by simp [↓canonical_update, postCounts, h]
@[simp] theorem bumpT_canonical {s : State} (g) (h : Canonical s) : Canonical (bumpT s g) := by simp [bumpT, h]

@[simp] theorem closeStep_canonical {s : State} (h : Canonical s) : Canonical (closeStep s) := by
  have counted := postCounts_canonical h
  have bumped := foldl_canonical bumpT (postCounts s).job.optGroups (fun _ => bumpT_canonical) counted
  unfold closeStep
  refine coloEnd_canonical _ (ckptSeal_canonical ?_)
  simp [counted, bumped]

@[simp] theorem setStep_canonical {s : State} (n) : Canonical (setStep s n) ↔ Canonical s := Iff.rfl

@[simp] theorem stepOver_canonical {s : State} (hs) {opening : State → State} (h : Canonical s)
    (hopening : ∀ u, Canonical u → Canonical (opening u)) : Canonical (stepOver s hs opening) := by
  have boundary : ∀ (p : Prop) [Decidable p] u b, Canonical u →
      Canonical (completeAll (if p then settleAct (pauseJob u) else u) b 0) :=
    fun p _ u b hu => completeAll_canonical _ _ (by simp [hu])
  unfold stepOver
  dsimp only
  refine boundary _ _ _ (hopening _ ?_)
  simp [↓canonical_update, closeStep_canonical h]

@[simp] theorem beforeEnd_canonical {s : State} (x) (h : Canonical s) : Canonical (beforeEnd s x) := by simp [beforeEnd, h]

@[simp] theorem applyHeldSwitch_canonical {s : State} (x) (h : Canonical s) : Canonical (applyHeldSwitch s x) := by
  unfold applyHeldSwitch
  (repeat' split) <;> simp +contextual (disch := simp [h]) [h]

@[simp] theorem applyParams_canonical {s : State} (step) (h : Canonical s) : Canonical (applyParams s step) := by
  simp +contextual [↓canonical_update, applyParams, h]

@[simp] theorem switchDuctus_canonical {s : State} : Canonical (switchDuctus s) ↔ Canonical s := by
  unfold switchDuctus
  (repeat' split) <;> simp [↓canonical_update]

@[simp] theorem opDuctusSwitch_canonical {s : State} (h : Canonical s) : Canonical (opDuctusSwitch s) := by
  have held := foldl_canonical applyHeldSwitch s.rings.held (fun _ _ => applyHeldSwitch_canonical _) h
  have paused : ∀ t, Canonical t → Canonical (if t.job.pauseNow && jobExists t && jobPhase t ≠ 5 then pauseJob t else t) :=
    fun t ht => by simp [ht]
  have routed : ∀ t, Canonical t → Canonical (if t.glob.routePending then routeCopy t else t) := fun t ht => by simp [ht]
  have params : ∀ t, Canonical t →
      Canonical (if jobExists t then applyParams t (if stepEnds t then nextStep t else t.job.step) else t) := fun t ht => by simp [ht]
  exact switchDuctus_canonical.2 (nextAct_canonical (seamAct_canonical (fixOwners_canonical
    (params _ (routed _ (applyRemaps_canonical (paused _ held)))))))

@[simp] theorem copyWeights_canonical {s : State} (key h q) (hs : Canonical s) : Canonical (copyWeights s key h q) := by
  simp [copyWeights, hs]

@[simp] theorem sendWeights_canonical {s : State} (x) (h : Canonical s) : Canonical (sendWeights s x) := by
  unfold sendWeights
  (repeat' split) <;> simp +contextual [h]

@[simp] theorem np1Revise_canonical {s : State} (h : Canonical s) : Canonical (np1Revise s) := by
  simp +contextual [↓canonical_update, np1Revise, h]
@[simp] theorem np1Apply_canonical {s : State} (h : Canonical s) : Canonical (np1Apply s) := by
  simp +contextual (disch := simp +contextual [↓canonical_update, h]) [np1Apply]
@[simp] theorem np1Settle_canonical {s : State} (h : Canonical s) : Canonical (np1Settle s) := by simp [↓canonical_update, np1Settle, h]
@[simp] theorem np1Boundary_canonical {s : State} (h : Canonical s) : Canonical (np1Boundary s) := by
  simp [↓canonical_update, np1Boundary, h]
@[simp] theorem remirrorBoundary_canonical {s : State} : Canonical (remirrorBoundary s) ↔ Canonical s := by
  simp [↓canonical_update, remirrorBoundary]

@[simp] theorem askTest_canonical {s : State} : Canonical (askTest s) ↔ Canonical s := by
  unfold askTest
  split <;> simp [↓canonical_update]

@[simp] theorem openStep_canonical {s : State} (h : Canonical s) : Canonical (openStep s) := by
  simp +contextual (disch := simp [h]) [openStep]
@[simp] theorem endStep_canonical {s : State} (h : Canonical s) : Canonical (endStep s) := by simp +contextual [endStep, h]
@[simp] theorem opAdvance_canonical {s : State} : Canonical (opAdvance s) ↔ Canonical s := Iff.rfl

/-! #### Watchdogs and failures -/

@[simp] theorem refuseTakeover_canonical {s : State} (reason n) (h : Canonical s) : Canonical (refuseTakeover s reason n) := by
  simp [refuseTakeover, h]
@[simp] theorem loseRecord_canonical {s : State} (r) (h : Canonical s) : Canonical (loseRecord s r) := by simp [loseRecord, h]

@[simp] theorem loseFolio_canonical {s : State} (n r) (h : Canonical s) : Canonical (loseFolio s n r) := by
  unfold loseFolio
  dsimp only
  (repeat' split) <;> simp [↓canonical_update, h]

@[simp] theorem opClusterWatchdog_canonical {s : State} (n) (h : Canonical s) : Canonical (opClusterWatchdog s n) := by
  simp [opClusterWatchdog, h]
@[simp] theorem opSchedulerWatchdog_canonical {s : State} (within) (h : Canonical s) : Canonical (opSchedulerWatchdog s within) := by
  simp [↓canonical_update, opSchedulerWatchdog, h]
@[simp] theorem opSchedulerRestart_canonical {s : State} : Canonical (opSchedulerRestart s) ↔ Canonical s := by
  simp [↓canonical_update, opSchedulerRestart]
@[simp] theorem opPowerWatchdog_canonical {s : State} (within) (h : Canonical s) : Canonical (opPowerWatchdog s within) := by
  simp [↓canonical_update, opPowerWatchdog, h]
@[simp] theorem opTestPeriod_canonical {s : State} (n) : Canonical (opTestPeriod s n) ↔ Canonical s := by
  simp [↓canonical_update, opTestPeriod]

@[simp] theorem opTestStart_canonical {s : State} (n) (h : Canonical s) : Canonical (opTestStart s n) := by
  unfold opTestStart
  (repeat' split) <;> simp [h]

@[simp] theorem endTest_canonical {s : State} (n status data) (h : Canonical s) : Canonical (endTest s n status data) := by
  simp +contextual [↓canonical_update, endTest, h]
@[simp] theorem refuseWaiting_canonical {s : State} (n reason) (h : Canonical s) : Canonical (refuseWaiting s n reason) := by
  simp +contextual [↓canonical_update, refuseWaiting, h]

@[simp] theorem toSpare_canonical {s : State} (n) (h : Canonical s) : Canonical (toSpare s n) := by
  unfold toSpare
  dsimp only
  (repeat' split) <;> simp [h]

@[simp] theorem toQuarantine_canonical {s : State} (n reason) (h : Canonical s) : Canonical (toQuarantine s n reason) := by
  simp [toQuarantine, h]
@[simp] theorem readyAfterTest_canonical {s : State} : Canonical (readyAfterTest s) ↔ Canonical s := by simp [readyAfterTest]
@[simp] theorem testsClosed_canonical {s : State} (h : Canonical s) : Canonical (testsClosed s) := by
  simp +contextual [↓canonical_update, testsClosed, h]

@[simp] theorem opTestComplete_canonical {s : State} (o) (h : Canonical s) : Canonical (opTestComplete s o) := by
  unfold opTestComplete
  split
  · exact h
  · rename_i n _
    have closed := fun r => testsClosed_canonical (endTest_canonical n 0x0F 1 (raiseFault_canonical r h))
    dsimp only
    split
    · simp [h]
    · refine toQuarantine_canonical _ _ ?_
      simp [h]
    · split <;> simp [closed]

@[simp] theorem opVaultRetrain_canonical {s : State} (v) : Canonical (opVaultRetrain s v) ↔ Canonical s := by simp [opVaultRetrain]
@[simp] theorem opLpRetrain_canonical {s : State} (c) : Canonical (opLpRetrain s c) ↔ Canonical s := by simp [opLpRetrain]

/-! #### Registers -/

@[simp] theorem setOutRing_canonical {s : State} (k r) : Canonical (setOutRing s k r) ↔ Canonical s := by
  simp [↓canonical_update, setOutRing]
@[simp] theorem regLatch_canonical {s : State} (a) : Canonical (regLatch s a) ↔ Canonical s := by simp [↓canonical_update, regLatch]
@[simp] theorem regClear_canonical {s : State} (a) : Canonical (regClear s a) ↔ Canonical s := by simp [↓canonical_update, regClear]

@[simp] theorem regRead_canonical {s : State} (off size) : Canonical (regRead s off size).2 ↔ Canonical s := by
  unfold regRead
  split <;> simp

@[simp] theorem setLoss_canonical {s : State} (f) : Canonical (setLoss s f) ↔ Canonical s := by simp [↓canonical_update, setLoss]

@[simp] theorem globalWrite_canonical {s : State} (o v) (h : Canonical s) : Canonical (globalWrite s o v) := by
  unfold globalWrite
  split <;> simp [↓canonical_update, h]

@[simp] theorem timingWrite_canonical {s t : State} (h : Canonical s) (ht : Canonical t) : Canonical (timingWrite s t) := by
  simp [timingWrite, h, ht]

@[simp] theorem timeWrite_canonical {s : State} (o v) (h : Canonical s) : Canonical (timeWrite s o v) := by
  unfold timeWrite
  split <;> simp [↓canonical_update, h]

@[simp] theorem ringCtrl_canonical {s : State} (r v) : Canonical (ringCtrl s r v) ↔ Canonical s := by simp [ringCtrl]

@[simp] theorem sqWrite_canonical {s : State} (n i v) : Canonical (sqWrite s n i v) ↔ Canonical s := by
  unfold sqWrite
  split <;> simp

@[simp] theorem outRingWrite_canonical {s : State} (k i v) : Canonical (outRingWrite s k i v) ↔ Canonical s := by
  unfold outRingWrite
  (repeat' split) <;> simp

@[simp] theorem ringsWrite_canonical {s : State} (o v) : Canonical (ringsWrite s o v) ↔ Canonical s := by
  unfold ringsWrite
  (repeat' split) <;> simp [↓canonical_update]

@[simp] theorem powerWrite_canonical {s : State} (o v) : Canonical (powerWrite s o v) ↔ Canonical s := by
  simp [↓canonical_update, powerWrite]
@[simp] theorem counterWrite_canonical {s : State} (o v) : Canonical (counterWrite s o v) ↔ Canonical s := by
  simp [↓canonical_update, counterWrite]

@[simp] theorem linkWrite_canonical {s : State} (n o v) (h : Canonical s) : Canonical (linkWrite s n o v) := by
  unfold linkWrite
  split <;> simp [h]

@[simp] theorem ethWrite_canonical {s : State} (n o v) : Canonical (ethWrite s n o v) ↔ Canonical s := by
  unfold ethWrite
  split <;> simp

@[simp] theorem regStore_canonical {s : State} (a v) (h : Canonical s) : Canonical (regStore s a v) := by
  simp [↓canonical_update, regStore, h]
@[simp] theorem msixUnmask_canonical {s : State} (v) : Canonical (msixUnmask s v) ↔ Canonical s := by simp [↓canonical_update, msixUnmask]
@[simp] theorem msixField_canonical {s : State} (off w) : Canonical (msixField s off w) ↔ Canonical s := by
  simp [↓canonical_update, msixField]
@[simp] theorem msixWrite_canonical {s : State} (off size v) : Canonical (msixWrite s off size v) ↔ Canonical s := by simp [msixWrite]
@[simp] theorem mirrorDoorbell_canonical {s : State} (off size v) (h : Canonical s) : Canonical (mirrorDoorbell s off size v) := by
  simp [mirrorDoorbell, h]
@[simp] theorem halfWrite_canonical {s : State} (k off size v) (h : Canonical s) : Canonical (halfWrite s k off size v) := by
  simp [↓canonical_update, halfWrite, h]

@[simp] theorem regWrite_canonical {s : State} (path off size v) (h : Canonical s) : Canonical (regWrite s path off size v) := by
  unfold regWrite
  dsimp only
  (repeat' split) <;> simp [h]

@[simp] theorem barRead_canonical {s : State} (off size) : Canonical (barRead s off size) ↔ Canonical s := by
  simp [↓canonical_update, barRead]
@[simp] theorem mirrorPass_canonical {s : State} (p pkt) (h : Canonical s) : Canonical (mirrorPass s p pkt) := by simp [mirrorPass, h]

@[simp] theorem opMirror_canonical {s : State} (p pkt) (h : Canonical s) : Canonical (opMirror s p pkt) := by
  unfold opMirror
  dsimp only
  (repeat' split) <;> simp [h]

/-! #### The idle step -/

@[simp] theorem opTick_canonical {s : State} : Canonical (opTick s) ↔ Canonical s := Iff.rfl
@[simp] theorem idle_canonical {s : State} : Canonical (idle s) ↔ Canonical s := by simp [idle]

/-! #### The commands -/

/-- Every next state that an outcome answers has both memories in canonical form. -/
def LeadsToCanonical (o : Host.Outcome State Fault Refusal) : Prop := ∀ t, o = .next t → Canonical t

theorem always_leadsToCanonical {t : State} (i : Instr) (ht : Canonical t) : LeadsToCanonical (always i t) := by
  intro u hu
  unfold always at hu
  split at hu
  · cases hu; exact ht
  · cases hu

theorem whenAlive_leadsToCanonical {s t : State} (i : Instr) (h : Canonical s) (ht : Canonical t) :
    LeadsToCanonical (whenAlive i s t) := by
  intro u hu
  unfold whenAlive at hu
  split at hu
  · cases hu; simp [h, ht]
  · cases hu

/-- The commands that a dead part obeys too give their own next state; every other one gives it only on a part that is alive. -/
theorem exec_leadsToCanonical {s : State} (c : Instr) (h : Canonical s) : LeadsToCanonical (exec c s) := by
  cases c
  all_goals unfold exec
  case sysResetNAssert | vddAuxUndervoltage | thermtrip | coldStart | perstNAssert | perstNDeassert | refclkPcieLoss | jtagInstruction |
      i3cPrivateRead | i3cPrivateWrite | i3cRailWrite | i3cDynamicAddress | rcRegisterRead | faultLastRead =>
    exact always_leadsToCanonical _ (by simp +contextual [↓canonical_update, h])
  case responseOk p pkt =>
    refine whenAlive_leadsToCanonical _ h (onResponse_canonical p pkt h fun t ht => ?_)
    split
    · exact settleSnaps_canonical (answerWrite_canonical _ ((updXfer_canonical _ _).2 ht))
    · exact ht
  case responseRefusal p pkt =>
    refine whenAlive_leadsToCanonical _ h (onResponse_canonical p pkt h fun t ht => ?_)
    split
    · exact answerWrite_canonical _ (opRefusal_canonical _ _ ht)
    · exact ht
  case activationExpire =>
    refine whenAlive_leadsToCanonical _ h ?_
    split
    · simp [h]
    · exact h
  all_goals exact whenAlive_leadsToCanonical _ h (by simp +contextual [↓canonical_update, h])

/-- A step keeps both memories in canonical form. -/
theorem step_leadsToCanonical {s : State} (h : Canonical s) : LeadsToCanonical (step s) := by
  unfold step
  split
  · intro t ht
    cases ht
    exact (idle_canonical).2 h
  · exact exec_leadsToCanonical _ h

/-- Settles O5: `Canonical` is kept by each function of the model that answers a state, and so by every command and the idle step. -/
theorem everyStepKeepsMemoryCanonical : Obligations.EveryStepKeepsMemoryCanonical := by
  unfold Obligations.EveryStepKeepsMemoryCanonical
  exact fun s t h ht => step_leadsToCanonical h t ht

end Sys2Proof.Machine
end

-- The proofs of the family of chapter 8: the tags of one cycle.
section
/-! SUPPORT. What a stroke that completes does to the tags, and what it leaves alone. -/

namespace Sys2Proof.Machine

open Sys2Proof

/-! ### Tags in one cycle (R184, R187) -/

theorem mem_insertNat_iff (m n : Nat) (l : List Nat) : m ∈ insertNat n l ↔ m = n ∨ m ∈ l := by
  induction l with
  | nil => simp [insertNat]
  | cons k r ih =>
    unfold insertNat
    split
    · simp
    · split
      next h => simp [h]
      next => simp [ih, or_left_comm]

theorem mem_eraseNat_iff (m n : Nat) (l : List Nat) : m ∈ eraseNat n l ↔ m ∈ l ∧ m ≠ n := by simp [eraseNat]

/-- `t` differs from `s` only in its tags, in which of them have been set and cleared in this cycle, and in its counters. -/
def TagsOnly (s t : State) : Prop :=
  ∃ full setNow clearedNow cnt, t = { s with
    mem := { s.mem with full := full }, cnt := cnt, frame := { s.frame with setNow := setNow, clearedNow := clearedNow } }

theorem TagsOnly.refl (s : State) : TagsOnly s s := ⟨_, _, _, _, rfl⟩

theorem TagsOnly.trans {s t u : State} (h : TagsOnly s t) (g : TagsOnly t u) : TagsOnly s u := by
  obtain ⟨_, _, _, _, rfl⟩ := h
  obtain ⟨_, _, _, _, rfl⟩ := g
  exact ⟨_, _, _, _, rfl⟩

theorem CountOnly.tagsOnly {s t : State} (h : CountOnly s t) : TagsOnly s t := by
  obtain ⟨_, rfl⟩ := h
  exact ⟨_, _, _, _, rfl⟩

theorem TagsOnly.foldl {α : Type} (f : State → α → State) (hf : ∀ u x, TagsOnly u (f u x)) (l : List α) (s : State) :
    TagsOnly s (l.foldl f s) :=
  List.foldlRecOn l f (TagsOnly.refl s) (fun t ht x _ => ht.trans (hf t x))

theorem TagsOnly.region {s t : State} (h : TagsOnly s t) : t.frame.region = s.frame.region := by
  obtain ⟨_, _, _, _, rfl⟩ := h
  rfl

theorem tagCollide_countOnly (s : State) (slot : Nat) (o : Origin) : CountOnly s (tagCollide s slot o) := by
  unfold tagCollide
  split
  · exact folioEvent_countOnly s _ _ _ _
  · exact .refl s

theorem CountOnly.tags {s t : State} (h : CountOnly s t) : t.mem.full = s.mem.full ∧ t.frame.setNow = s.frame.setNow := by
  obtain ⟨_, rfl⟩ := h
  exact ⟨rfl, rfl⟩

theorem setTag_tagsOnly (o : Origin) (s : State) (slot : Nat) : TagsOnly s (setTag o s slot) := by
  have hset : TagsOnly s { setFull s slot with frame.setNow := insertNat slot s.frame.setNow } := ⟨_, _, _, _, rfl⟩
  unfold setTag
  split
  · exact ⟨_, _, _, _, rfl⟩
  · dsimp only
    split
    · exact hset.trans (tagCollide_countOnly _ _ _).tagsOnly
    · exact hset

/-- A slot set FULL is FULL, whatever has been cleared in the cycle. -/
theorem setTag_full (o : Origin) (s : State) (slot : Nat) : (setTag o s slot).mem.full = insertNat slot s.mem.full := by
  unfold setTag
  split
  · rfl
  · dsimp only
    split
    · exact (tagCollide_countOnly _ _ _).tags.1
    · rfl

theorem clearTag_tagsOnly (o : Origin) (s : State) (slot : Nat) : TagsOnly s (clearTag o s slot) := by
  unfold clearTag
  split
  · exact ⟨_, _, _, _, rfl⟩
  · dsimp only
    split
    · exact ⟨_, _, _, _, rfl⟩
    · split
      · exact ⟨_, _, _, _, rfl⟩
      · exact TagsOnly.trans ⟨_, _, _, _, rfl⟩ (tagCollide_countOnly _ _ _).tagsOnly

theorem clearTag_setNow (o : Origin) (s : State) (slot : Nat) : (clearTag o s slot).frame.setNow = s.frame.setNow := by
  unfold clearTag
  split
  · rfl
  · dsimp only
    split
    · rfl
    · split
      · rfl
      · exact (tagCollide_countOnly _ _ _).tags.2

/-- A slot set EMPTY is EMPTY, unless it has been set in the same cycle. -/
theorem clearTag_full (o : Origin) (s : State) (slot : Nat) :
    (clearTag o s slot).mem.full =
      if s.frame.region = true ∧ slot ∈ s.frame.setNow then s.mem.full else eraseNat slot s.mem.full := by
  by_cases hregion : s.frame.region = true <;> by_cases hnow : slot ∈ s.frame.setNow
  · have hkept : (clearTag o s slot).mem.full = s.mem.full := by
      simp only [clearTag, hregion, hnow, List.contains_iff_mem.mpr, Bool.not_true, Bool.false_eq_true, if_false]
      split
      · rfl
      · exact (tagCollide_countOnly _ _ _).tags.1
    rw [hkept, if_pos ⟨hregion, hnow⟩]
  all_goals simp [clearTag, setEmpty, hregion, hnow]

theorem mem_full_setTags (o : Origin) (n : Nat) (outs : List Nat) (s : State) :
    n ∈ (outs.foldl (setTag o) s).mem.full ↔ n ∈ outs ∨ n ∈ s.mem.full := by
  induction outs generalizing s with
  | nil => simp
  | cons m r ih => rw [List.foldl_cons, ih, setTag_full, mem_insertNat_iff, List.mem_cons, or_left_comm, or_assoc]

theorem mem_full_clearTags (o : Origin) (n : Nat) (gone : List Nat) (s : State) :
    n ∈ (gone.foldl (clearTag o) s).mem.full ↔
      n ∈ s.mem.full ∧ (n ∈ gone → s.frame.region = true ∧ n ∈ s.frame.setNow) := by
  induction gone generalizing s with
  | nil => simp
  | cons m r ih =>
    rw [List.foldl_cons, ih, clearTag_setNow, (clearTag_tagsOnly o s m).region, clearTag_full]
    split
    next hset => by_cases hm : n = m <;> simp [hm, hset]
    next hset => by_cases hm : n = m <;> simp_all [mem_eraseNat_iff]

/-! ### STROKE_COMPLETE -/

/-- The slots that a stroke empties: its inputs, but for those that it keeps or also outputs. -/
def emptied (s : State) (d : Loaded) (k : Stroke) : List Nat :=
  ((inSlots s d k).filter (fun e => !slotKeep e && !(outSlots s d k).contains (slotNo e))).map slotNo

theorem mem_emptied (s : State) (d : Loaded) (k : Stroke) (n : Nat) :
    n ∈ emptied s d k ↔ ∃ e ∈ inSlots s d k, slotKeep e = false ∧ slotNo e ∉ outSlots s d k ∧ slotNo e = n := by
  simp [emptied, and_assoc]

theorem completeTags_tagsOnly (s : State) (d : Loaded) (k : Stroke) : TagsOnly s (completeTags s d k) :=
  (TagsOnly.foldl _ (clearTag_tagsOnly _) _ s).trans (TagsOnly.foldl _ (setTag_tagsOnly _) _ _)

/-- Which slots are FULL after a completed stroke. -/
theorem mem_full_completeTags (s : State) (d : Loaded) (k : Stroke) (n : Nat) :
    n ∈ (completeTags s d k).mem.full ↔ n ∈ outSlots s d k ∨
      n ∈ s.mem.full ∧ (n ∈ emptied s d k → s.frame.region = true ∧ n ∈ s.frame.setNow) := by
  unfold completeTags
  rw [mem_full_setTags, mem_full_clearTags]
  rfl

/-- The state without the stroke among those in progress. -/
def withoutStroke (s : State) (l i : Nat) : State :=
  { s with frame.prog := s.frame.prog.filter (fun r => !(r.folio == l && r.idx == i)) }

theorem exec_strokeComplete {s : State} {l i : Nat} (ha : alive s = true) (hl : l < 64) :
    exec (.strokeComplete l i) s = .next (opStrokeComplete s l i) :=
  whenAlive_next _ _ _ (by simpa [Instr.wf, isFolio] using hl) ha

theorem opStrokeComplete_held (s : State) (l i : Nat) (h : s.frame.blocked = true ∨ s.frame.aborted = true) :
    opStrokeComplete s l i = s := if_pos (by simpa using h)

theorem opStrokeComplete_done {s : State} {d : Loaded} {r : Running} (hd : curDuctus s = some d) (hr : r ∈ s.frame.prog)
    (hdone : r.done = true) (hblocked : s.frame.blocked = false) (haborted : s.frame.aborted = false) :
    opStrokeComplete s r.folio r.idx = completeTags (withoutStroke s r.folio r.idx) d (strokeAt s d r.folio r.idx) := by
  have hfound : (s.frame.prog.find? (fun y => y.folio == r.folio && y.idx == r.idx && y.done)).isSome = true :=
    List.find?_isSome.mpr ⟨r, hr, by simp [hdone]⟩
  obtain ⟨y, hy⟩ := Option.isSome_iff_exists.mp hfound
  simp [opStrokeComplete, withoutStroke, hblocked, haborted, hd, hy]

/-- Settles O43: the inputs are cleared before the outputs are set, and a slot set in the cycle stays FULL. -/
theorem completedStrokeSetsItsTags : Obligations.CompletedStrokeSetsItsTags := by
  unfold Obligations.CompletedStrokeSetsItsTags
  rintro s d l i r ha hd hr rfl rfl hdone hl -
  refine ⟨fun hheld => (exec_strokeComplete ha hl).trans (congrArg _ (opStrokeComplete_held s _ _ hheld)), fun hblocked haborted => ?_⟩
  refine ⟨_, (exec_strokeComplete ha hl).trans (congrArg _ (opStrokeComplete_done hd hr hdone hblocked haborted)), ?_⟩
  generalize strokeAt s d r.folio r.idx = k
  have hfull := mem_full_completeTags (withoutStroke s r.folio r.idx) d k
  have hemptied := mem_emptied (withoutStroke s r.folio r.idx) d k
  have honly : TagsOnly (withoutStroke s r.folio r.idx) _ := completeTags_tagsOnly _ d k
  refine ⟨?_, ?_, fun n hn => (hfull n).mpr (.inl hn), fun e he hkeep hout => ⟨fun hnow hin => ?_, fun hregion hnow hin => ?_⟩,
    fun n hout hkept => ?_⟩
  · obtain ⟨_, _, _, _, ht⟩ := honly
    rw [ht]
    rfl
  · obtain ⟨_, _, _, _, ht⟩ := honly
    rw [ht]
    rfl
  · obtain ⟨-, hset⟩ := ((hfull _).mp hin).resolve_left hout
    obtain ⟨hregion, hmem⟩ := hset ((hemptied _).mpr ⟨e, he, hkeep, hout, rfl⟩)
    exact hnow.elim (fun h => Bool.false_ne_true (h.symm.trans hregion)) (fun h => h hmem)
  · exact (hfull _).mpr (.inr ⟨hin, fun _ => ⟨hregion, hnow⟩⟩)
  · refine (hfull n).trans ⟨fun h => (h.resolve_left hout).1, fun h => .inr ⟨h, fun hgone => ?_⟩⟩
    obtain ⟨e, he, hkeep, -, hn⟩ := (hemptied n).mp hgone
    exact absurd hn (hkept e he hkeep)

end Sys2Proof.Machine
end

-- The proofs of the family of chapter 8: packets that come in.
section
/-! SUPPORT. What stands in memory after a buffer has been written; what an inbound packet that every check passes writes and answers, and
what it leaves alone. -/

namespace Sys2Proof.Machine

open Sys2Proof

/-! ### Bytes gathered in a buffer and written in runs (R195) -/

/-- What a buffer read over two tables holds after more bytes depends on what both read as before. -/
theorem tget_putBytes_congr {b c : Buf} {x : Nat} {v w : Byte} (h : tget b x v = tget c x w) (a : Nat) (bs : List Byte) :
    tget (putBytes b a bs) x v = tget (putBytes c a bs) x w := by
  induction bs generalizing b c a with
  | nil => exact h
  | cons y ys ih =>
    refine ih ?_ (a + 1)
    by_cases hx : x = a
    · rw [hx, tget_tput_self, tget_tput_self]
    · rw [tget_tput_ne _ _ _ _ _ hx, tget_tput_ne _ _ _ _ _ hx, h]

theorem tget_putBytes_outside (b : Buf) (a x : Nat) (v : Byte) (bs : List Byte) (h : x < a ∨ a + bs.length ≤ x) :
    tget (putBytes b a bs) x v = tget b x v := by
  induction bs generalizing b a with
  | nil => rfl
  | cons y ys ih =>
    rw [List.length_cons] at h
    rw [putBytes, ih _ (a + 1) (by omega), tget_tput_ne _ _ _ _ _ (by omega)]

theorem rising_putBytes {b : Buf} (h : risingFrom 0 b = true) (a : Nat) (bs : List Byte) :
    risingFrom 0 (putBytes b a bs) = true := by
  induction bs generalizing b a with
  | nil => exact h
  | cons y ys ih => exact ih (risingFrom_tput b 0 a y (Nat.zero_le a) h) (a + 1)

theorem tget_of_rising {b : Buf} {k x : Nat} (h : risingFrom k b = true) (hx : x < k) (v : Byte) : tget b x v = v := by
  induction b generalizing k with
  | nil => rfl
  | cons c r ih =>
    obtain ⟨j, w⟩ := c
    simp only [risingFrom, Bool.and_eq_true, decide_eq_true_eq] at h
    obtain ⟨hj, hr⟩ := h
    rw [tget, if_neg (by omega), ih hr (by omega)]

/-- The byte at `x` after some runs have been written one after another, where it was `v`. -/
def runsByte (runs : List (Nat × List Byte)) (x : Nat) (v : Byte) : Byte :=
  runs.foldl (fun w r => tget (putBytes [] r.1 r.2) x w) v

theorem runsByte_cons (a : Nat) (bs : List Byte) (rs : List (Nat × List Byte)) (x : Nat) (v : Byte) :
    runsByte ((a, bs) :: rs) x v = runsByte rs x (tget (putBytes [] a bs) x v) := rfl

/-- A run that begins with one more byte. -/
theorem runsByte_cons_cons (a : Nat) (y : Byte) (bs : List Byte) (rs : List (Nat × List Byte)) (x : Nat) (v : Byte) :
    runsByte ((a, y :: bs) :: rs) x v = runsByte ((a + 1, bs) :: rs) x (tget [(a, y)] x v) :=
  congrArg (runsByte rs x) (tget_putBytes_congr (by rfl) (a + 1) bs)

/-- The runs of a buffer hold its bytes, and no others. -/
theorem runsByte_runsOf {b : Buf} {k : Nat} (h : risingFrom k b = true) (x : Nat) (v : Byte) :
    runsByte (runsOf b) x v = tget b x v := by
  induction b generalizing k v with
  | nil => rfl
  | cons c r ih =>
    obtain ⟨a, y⟩ := c
    simp only [risingFrom, Bool.and_eq_true] at h
    obtain ⟨-, hr⟩ := h
    have hfirst : tget r x (tget [(a, y)] x v) = tget ((a, y) :: r) x v := by
      by_cases hx : a = x
      · simp [tget, hx, tget_of_rising hr (show x < a + 1 by omega)]
      · simp [tget, hx]
    rw [← hfirst, ← ih hr, runsOf]
    rcases runsOf r with _ | ⟨⟨d, ys⟩, rs⟩
    · rfl
    · dsimp only
      split
      next hnext => rw [hnext, runsByte_cons_cons]
      next => rfl

theorem store_bad (s : State) (a : Nat) (bs : List Byte) (h : s.mem.bad = []) : (store s a bs).mem.bad = [] := by
  obtain ⟨u, ⟨_, _, _, _, _, rfl⟩, hstore⟩ := store_eq_poke s a bs
  simp [hstore, poke, h]

theorem unlisted_of_defined {u : List Undef} {a : Nat} (h : isUndef u a = false) : unlisted u a = 0 := by
  have hnone : u.find? (fun x => x.has a) = none := by simpa [isUndef] using h
  simp [unlisted, hnone]

theorem tget_writeBytesBut (u : List Undef) (bs : List Byte) (p : Nat → Bool) (hp : ∀ a, p a = false) (c : List Host.Cell)
    (a x : Nat) : tget (writeBytesBut p (isUndef u) c a bs) x (unlisted u x) = tget (putBytes c a bs) x (unlisted u x) := by
  induction bs generalizing c a with
  | nil => rfl
  | cons y ys ih =>
    rw [writeBytesBut, ih, putBytes, hp a, if_neg Bool.false_ne_true]
    refine tget_putBytes_congr ?_ (a + 1) ys
    split
    · rfl
    next hdefined =>
      by_cases hx : x = a
      · rw [hx, unlisted_of_defined (by simpa using hdefined), tget_tput_self, writeByte, tget_tset_self]
      · rw [tget_tput_ne _ _ _ _ _ hx, writeByte, tget_tset_ne _ _ _ _ _ _ hx]

theorem memByte_store (s : State) (a x : Nat) (bs : List Byte) (h : s.mem.bad = []) :
    memByte (store s a bs).mem x = tget (putBytes [] a bs) x (memByte s.mem x) := by
  obtain ⟨u, ⟨_, _, _, _, _, rfl⟩, hstore⟩ := store_eq_poke s a bs
  rw [hstore]
  exact (tget_writeBytesBut s.mem.undef bs _ (fun y => by simp [failLines, h]) s.mem.cells a x).trans
    (tget_putBytes_congr (b := s.mem.cells) (c := []) rfl a bs)

theorem memByte_storeAll (runs : List (Nat × List Byte)) (s : State) (x : Nat) (h : s.mem.bad = []) :
    memByte (runs.foldl (fun t r => store t r.1 r.2) s).mem x = runsByte runs x (memByte s.mem x) := by
  induction runs generalizing s with
  | nil => rfl
  | cons r rs ih => rw [List.foldl_cons, ih _ (store_bad s r.1 r.2 h), memByte_store s r.1 x r.2 h, runsByte_cons]

/-- A buffer written to good memory: its bytes stand in memory, and every other byte is as it was. -/
theorem memByte_commit (s : State) (who : Option (Nat × Nat)) {b : Buf} (hb : risingFrom 0 b = true) (x : Nat)
    (h : s.mem.bad = []) : memByte (commit s who (runsOf b)).mem x = tget b x (memByte s.mem x) := by
  rw [commit_of_good s who _ h, memByte_storeAll _ s x h, runsByte_runsOf hb]

/-- Bytes of device memory as they are with a buffer written over them. -/
def bufPeek (s : State) (b : Buf) (a n : Nat) : List Byte := (List.range n).map (fun i => tget b (a + i) (memByte s.mem (a + i)))

theorem bufPeek_nil (s : State) (a n : Nat) : bufPeek s [] a n = peek s a n := by
  show _ = memBytes s.mem a n
  induction n generalizing a with
  | zero => rfl
  | succ n ih =>
    rw [memBytes, ← ih (a + 1), bufPeek, List.range_succ_eq_map, List.map_cons, List.map_map]
    refine congrArg₂ _ rfl (List.map_congr_left fun i _ => ?_)
    simp only [Function.comp, Nat.add_right_comm a 1 i, Nat.add_assoc a i 1, Nat.succ_eq_add_one]

/-- Bytes put into a buffer are what is read over it. -/
theorem bufPeek_putBytes_self (s : State) (b : Buf) (a : Nat) (bs : List Byte) :
    bufPeek s (putBytes b a bs) a bs.length = bs := by
  induction bs generalizing b a with
  | nil => rfl
  | cons y ys ih =>
    have hhead : tget (putBytes (tput b a y) (a + 1) ys) a (memByte s.mem a) = y := by
      rw [tget_putBytes_outside _ _ _ _ _ (.inl (Nat.lt_succ_self a)), tget_tput_self]
    rw [List.length_cons, bufPeek, List.range_succ_eq_map, List.map_cons, List.map_map]
    refine congrArg₂ _ hhead ((List.map_congr_left fun i _ => ?_).trans (ih (tput b a y) (a + 1)))
    simp only [Function.comp, putBytes, Nat.succ_eq_add_one, Nat.add_assoc, Nat.add_comm 1]

theorem bufPeek_putBytes_outside (s : State) (b : Buf) (a c n : Nat) (bs : List Byte) (h : c + n ≤ a ∨ a + bs.length ≤ c) :
    bufPeek s (putBytes b a bs) c n = bufPeek s b c n :=
  List.map_congr_left fun i hi => tget_putBytes_outside b a (c + i) _ bs (by have := List.mem_range.mp hi; omega)

/-- Memory after a buffer has been written, read. -/
theorem peek_commit (s : State) (who : Option (Nat × Nat)) {b : Buf} (hb : risingFrom 0 b = true) (a n : Nat)
    (h : s.mem.bad = []) : peek (commit s who (runsOf b)) a n = bufPeek s b a n := by
  rw [← bufPeek_nil]
  exact List.map_congr_left fun i _ => memByte_commit s who hb (a + i) h

/-! ### Packets that every check passes (R258, R266) -/

/-- `t` differs from `s` only in its port queues, in the packets that wait here for this device, and in its counters. -/
def QueuesOnly (s t : State) : Prop :=
  ∃ ports box cnt, t = { s with ports := ports, fab := { s.fab with selfBox := box }, cnt := cnt }

theorem QueuesOnly.refl (s : State) : QueuesOnly s s := ⟨_, _, _, rfl⟩

theorem QueuesOnly.trans {s t u : State} (h : QueuesOnly s t) (g : QueuesOnly t u) : QueuesOnly s u := by
  obtain ⟨_, _, _, rfl⟩ := h
  obtain ⟨_, _, _, rfl⟩ := g
  exact ⟨_, _, _, rfl⟩

theorem takeIn_queuesOnly (s : State) (p : Nat) (pkt : Packet) : QueuesOnly s (takeIn s p pkt) := by
  unfold takeIn
  split
  · exact ⟨_, _, _, rfl⟩
  · exact ⟨_, _, _, rfl⟩

theorem devEvent_queuesOnly (s : State) (code n : Nat) : QueuesOnly s (devEvent s code n) := ⟨_, _, _, rfl⟩

theorem enqueue_queuesOnly (s : State) (p req : Nat) (pkt : Packet) : QueuesOnly s (enqueue s p req pkt) := ⟨_, _, _, rfl⟩

theorem sendPacket_queuesOnly (s : State) (req : Nat) (pkt : Packet) : QueuesOnly s (sendPacket s req pkt).1 := by
  unfold sendPacket
  split
  · exact .refl s
  · split
    · exact List.foldlRecOn (bcastPorts s) _ (QueuesOnly.refl s) (fun t ht p _ => ht.trans (enqueue_queuesOnly t p req pkt))
    · split
      · exact .refl s
      · exact ⟨_, _, _, rfl⟩
      · exact enqueue_queuesOnly s _ req pkt

theorem respond_queuesOnly (s : State) (p : Nat) (pkt : Packet) (status : Nat) (data : List Byte) :
    QueuesOnly s (respond s p pkt status data) := by
  have sent := sendPacket_queuesOnly s 1 (response s pkt status data)
  unfold respond
  split
  · exact devEvent_queuesOnly s _ _
  · dsimp only
    split
    · split
      · exact enqueue_queuesOnly s p 1 _
      · exact devEvent_queuesOnly s _ _
    · split
      · exact sent
      · exact sent.trans (devEvent_queuesOnly _ _ _)

theorem acknowledge_queuesOnly (s : State) (p : Nat) (pkt : Packet) : QueuesOnly s (acknowledge s p pkt) := by
  unfold acknowledge
  split
  · exact respond_queuesOnly s p pkt 0 []
  · exact .refl s

/-- What the checks of an inbound packet answer does not depend on port queues. -/
theorem QueuesOnly.checks {s t : State} (h : QueuesOnly s t) (pkt : Packet) :
    preRefusal t pkt = preRefusal s pkt ∧ verdict t pkt = verdict s pkt := by
  obtain ⟨_, _, _, rfl⟩ := h
  exact ⟨rfl, rfl⟩

/-- A packet that every check passes is taken from where it waited, and lands. -/
theorem inbound_passed {s : State} {pkt : Packet} (p : Nat) {typ : Nat} (land : State → State) (htyp : pkt.typ = typ)
    (hresp : pkt.resp = false) (hto : toMirror s pkt = false) (hpre : preRefusal s pkt = none) (hpass : verdict s pkt = .pass) :
    inbound s p pkt typ land = land (takeIn s p pkt) := by
  obtain ⟨hpre', hpass'⟩ := (takeIn_queuesOnly s p pkt).checks pkt
  simp [inbound, htyp, hresp, hto, hpre'.trans hpre, hpass'.trans hpass]

/-- Outside a RING window a packet goes to one range (R268). -/
theorem pieces_noRing {s : State} {pkt : Packet} (h : (window s pkt.window).flags.testBit 3 = false) :
    pieces s pkt = [(pkt.addr, pkt.length)] := by simp [pieces, h]

/-! ### INBOUND_WRITE -/

theorem landBytes_noRing {s : State} {pkt : Packet} (hring : (window s pkt.window).flags.testBit 3 = false)
    (hlen : pkt.payload.length = pkt.length) (hbad : s.mem.bad = []) : landBytes s pkt = store s pkt.addr pkt.payload := by
  have hwhole : pkt.payload.take pkt.length = pkt.payload := List.take_of_length_le hlen.le
  simp [landBytes, pieces_noRing hring, hwhole, failLines_of_good s _ _ hbad]

/-- `t` is `s` with more slots FULL. -/
def FilledOnly (s t : State) : Prop :=
  ∃ full setNow cnt, t = { s with
    mem := { s.mem with full := full }, cnt := cnt, frame := { s.frame with setNow := setNow } }

theorem setTag_filledOnly (o : Origin) (s : State) (slot : Nat) : FilledOnly s (setTag o s slot) := by
  unfold setTag
  split
  · exact ⟨_, _, _, rfl⟩
  · dsimp only
    split
    · obtain ⟨_, h⟩ := tagCollide_countOnly { setFull s slot with frame.setNow := insertNat slot s.frame.setNow } slot o
      rw [h]
      exact ⟨_, _, _, rfl⟩
    · exact ⟨_, _, _, rfl⟩

theorem FilledOnly.refl (s : State) : FilledOnly s s := ⟨_, _, _, rfl⟩

theorem FilledOnly.trans {s t u : State} (h : FilledOnly s t) (g : FilledOnly t u) : FilledOnly s u := by
  obtain ⟨_, _, _, rfl⟩ := h
  obtain ⟨_, _, _, rfl⟩ := g
  exact ⟨_, _, _, rfl⟩

theorem fillSlots_filledOnly (s : State) (slots : List Nat) : FilledOnly s (fillSlots s slots) := by
  unfold fillSlots
  split
  · exact .refl s
  · exact List.foldlRecOn slots _ (FilledOnly.refl s) (fun t ht n _ => ht.trans (setTag_filledOnly _ t n))

theorem fillSlots_aborted {s : State} (h : (s.frame.live && s.frame.aborted) = true) (slots : List Nat) :
    fillSlots s slots = s := if_pos h

theorem isFull_fillSlots {s : State} (h : (s.frame.live && s.frame.aborted) = false) {slots : List Nat} {n : Nat} (hn : n ∈ slots) :
    isFull (fillSlots s slots) n = true := by
  rw [fillSlots, if_neg (Bool.eq_false_iff.mp h), isFull, List.contains_iff_mem]
  exact (mem_full_setTags _ n slots s).mpr (.inl hn)

/-- A WRITE that lands outside RING windows, and not as a shape cell: its bytes and, with SLOT_FILL, its slots. -/
def writeLanded (s : State) (pkt : Packet) : State :=
  if pkt.slotFill then fillSlots (store s pkt.addr pkt.payload) (slotsOf pkt.addr pkt.length) else store s pkt.addr pkt.payload

theorem landWrite_noRing {s : State} {pkt : Packet} (p : Nat) (hring : (window s pkt.window).flags.testBit 3 = false)
    (hlen : pkt.payload.length = pkt.length) (hbad : s.mem.bad = []) (hcell : landsCell pkt = false) :
    landWrite p pkt s = acknowledge (writeLanded s pkt) p pkt := by
  simp [landWrite, landBytes_noRing hring hlen hbad, pieces_noRing hring, hcell, writeLanded]

theorem writeLanded_stored (s : State) (pkt : Packet) : FilledOnly (store s pkt.addr pkt.payload) (writeLanded s pkt) := by
  unfold writeLanded
  split
  · exact fillSlots_filledOnly _ _
  · exact .refl _

/-- A write changes no tag. -/
theorem store_full (s : State) (a : Nat) (bs : List Byte) : (store s a bs).mem.full = s.mem.full := by
  obtain ⟨_, _, _, _, _, _, _, h⟩ := store_written s a bs
  rw [h]

theorem store_frameState (s : State) (a : Nat) (bs : List Byte) : (store s a bs).frame = s.frame := by
  obtain ⟨_, _, h⟩ := store_frame s a bs
  rw [h]

theorem FilledOnly.peek_eq {s t : State} (h : FilledOnly s t) (a n : Nat) : peek t a n = peek s a n := by
  have alike : ReadsAlike s t := by
    obtain ⟨_, _, _, rfl⟩ := h
    exact ⟨rfl, rfl, rfl⟩
  exact alike.peek_eq a n

/-- What lands of a WRITE: its bytes and the slots that it fills, and nothing else. -/
theorem writeLanded_effect (s : State) (pkt : Packet) (hlen : pkt.payload.length = pkt.length) (hbad : s.mem.bad = []) :
    peek (writeLanded s pkt) pkt.addr pkt.length = pkt.payload ∧ SameOutside s (writeLanded s pkt) pkt.addr pkt.length := by
  obtain ⟨_, _, _, hfilled⟩ := writeLanded_stored s pkt
  refine ⟨?_, fun a ha => ?_⟩
  · rw [(writeLanded_stored s pkt).peek_eq, ← hlen]
    exact peek_store s pkt.addr pkt.payload hbad
  · rw [hfilled]
    exact store_outside s pkt.addr pkt.payload a (hlen ▸ ha)

/-- The tags after a WRITE that lands. -/
theorem writeLanded_tags (s : State) (pkt : Packet) :
    (pkt.slotFill = true → (s.frame.live && s.frame.aborted) = false →
      ∀ n ∈ slotsOf pkt.addr pkt.length, isFull (writeLanded s pkt) n = true) ∧
    (pkt.slotFill = false ∨ (s.frame.live && s.frame.aborted) = true → (writeLanded s pkt).mem.full = s.mem.full) := by
  have hframe := store_frameState s pkt.addr pkt.payload
  refine ⟨fun hfill hrun n hn => ?_, fun hnone => ?_⟩
  · rw [writeLanded, if_pos hfill]
    exact isFull_fillSlots (by rw [hframe]; exact hrun) hn
  · rw [← store_full s pkt.addr pkt.payload]
    rcases hnone with hfill | habort
    · rw [writeLanded, if_neg (Bool.eq_false_iff.mp hfill)]
    · unfold writeLanded
      split
      · rw [fillSlots_aborted (by rw [hframe]; exact habort)]
      · rfl

/-- Everything else after a WRITE that lands. -/
theorem writeLanded_elsewhere (s : State) (pkt : Packet) :
    ∃ mem cnt frame, writeLanded s pkt = { s with mem := mem, cnt := cnt, frame := frame } ∧
      frame = { s.frame with setNow := frame.setNow } ∧ (pkt.slotFill = false → frame = s.frame) := by
  obtain ⟨mem, cnt, hstore⟩ := store_frame s pkt.addr pkt.payload
  by_cases hfill : pkt.slotFill = true
  · obtain ⟨_, _, _, hfilled⟩ := writeLanded_stored s pkt
    rw [hfilled, hstore]
    exact ⟨_, _, _, rfl, rfl, fun h => absurd hfill (Bool.eq_false_iff.mp h)⟩
  · rw [writeLanded, if_neg hfill, hstore]
    exact ⟨_, _, _, rfl, rfl, fun _ => rfl⟩

/-- R184, R258, R266: the WRITE of O22. -/
theorem inboundWriteStoresItsPayload : Claim.InboundWriteStoresItsPayload := by
  unfold Claim.InboundWriteStoresItsPayload
  intro s p pkt ha hp hwf htyp hresp hto hpre hpass hlen hbad hcell hring
  have htaken := takeIn_queuesOnly s p pkt
  obtain ⟨_, _, _, htake⟩ := id htaken
  have hland : landWrite p pkt (takeIn s p pkt) = acknowledge (writeLanded (takeIn s p pkt) pkt) p pkt :=
    landWrite_noRing p (by rw [htake]; exact hring) hlen (by rw [htake]; exact hbad) hcell
  have hexec : exec (.inboundWrite p pkt) s = .next (acknowledge (writeLanded (takeIn s p pkt) pkt) p pkt) := by
    rw [← hland, ← inbound_passed p (landWrite p pkt) htyp hresp hto hpre hpass]
    exact whenAlive_next (.inboundWrite p pkt) _ _ (by simp [Instr.wf, isLane, hp, hwf]) ha
  obtain ⟨hbytes, houtside⟩ := writeLanded_effect (takeIn s p pkt) pkt hlen (by rw [htake]; exact hbad)
  obtain ⟨hfill, hkept⟩ := writeLanded_tags (takeIn s p pkt) pkt
  obtain ⟨mem, cnt, frame, helse, hframe, hsame⟩ := writeLanded_elsewhere (takeIn s p pkt) pkt
  obtain ⟨_, _, _, hack⟩ := acknowledge_queuesOnly (writeLanded (takeIn s p pkt) pkt) p pkt
  refine ⟨_, hexec, ?_⟩
  rw [hack, helse]
  rw [helse] at hbytes houtside hfill hkept
  rw [htake] at houtside hfill hkept hframe hsame ⊢
  exact ⟨hbytes, houtside, hfill, hkept, rfl, rfl, rfl, hframe, hsame, rfl⟩

/-! ### INBOUND_READ -/

/-- A response that another device has asked for goes into the queue of its route's port (R258, R263). -/
theorem respond_routed {s : State} {pkt : Packet} (p q status : Nat) (data : List Byte) (hresp : pkt.resp = false)
    (hnear : pkt.neighbour = false) (hid : s.glob.deviceId ≠ 0xFFFFFF) (hsrc : pkt.src ≠ 0xFFFFFF)
    (hroute : routeOf s pkt.src = some (some q)) :
    respond s p pkt status data = enqueue s q 1 (response s pkt status data) := by
  have hbit : (response s pkt status data).resp = true := by simp [response, Packet.resp]
  have hfor : routeFor s (response s pkt status data) = some (some q) := by
    rw [routeFor, if_pos hbit]
    exact hroute
  have hdst : (response s pkt status data).dst ≠ 0xFFFFFF := hsrc
  simp [respond, hresp, hnear, hid, sendPacket, hdst, hfor]

theorem port_enqueue_self (s : State) (q req : Nat) (pkt : Packet) :
    (port (enqueue s q req pkt) q).queue = (port s q).queue ++ [⟨req, pkt.cls, pkt.bytes⟩] := by
  rw [enqueue, port, setPort, tget_tset_self]

/-- A packet taken from where it waited leaves what waits to go out. -/
theorem port_takeIn_queue (s : State) (p q : Nat) (pkt : Packet) : (port (takeIn s p pkt) q).queue = (port s q).queue := by
  unfold takeIn
  split
  · by_cases hq : q = p
    · rw [hq, port, setPort, tget_tset_self]
    · rw [port, setPort, tget_tset_ne _ _ _ _ _ _ hq]
      rfl
  · rfl

/-- Outside a RING window, and where no line has an error, a READ answers its bytes (R258). -/
theorem landRead_noRing {s : State} {pkt : Packet} (p : Nat) (hring : (window s pkt.window).flags.testBit 3 = false)
    (hbad : s.mem.bad = []) :
    landRead p pkt s = respond (noteRead s pkt.addr pkt.length) p pkt 0 (peek s pkt.addr pkt.length) := by
  simp [landRead, pieces_noRing hring, badLine_of_good s _ _ hbad]

/-- A packet that is not refused before the checks comes over a route, to a device that has an id. -/
theorem routed_of_preRefusal {s : State} {pkt : Packet} (h : preRefusal s pkt = none) (htyp : pkt.typ ≤ 3) :
    pkt.neighbour = false ∧ s.glob.deviceId ≠ 0xFFFFFF := by
  have hform : pkt.malformed = false := by
    by_contra hbad
    rw [preRefusal, if_pos (by simpa using hbad)] at h
    cases h
  have hnear : pkt.neighbour = false := by
    by_contra hnear
    simp [Packet.malformed, hnear, htyp] at hform
  refine ⟨hnear, fun hid => ?_⟩
  simp [preRefusal, hform, hid, hnear] at h

/-- R258, R263: the READ of O22. -/
theorem inboundReadIsAnswered : Claim.InboundReadIsAnswered := by
  unfold Claim.InboundReadIsAnswered
  intro s p q pkt ha hp hwf htyp hresp hto hpre hpass hbad hcorr hring hsrc hroute
  obtain ⟨hnear, hid⟩ := routed_of_preRefusal hpre (by omega)
  obtain ⟨_, _, _, htake⟩ := takeIn_queuesOnly s p pkt
  obtain ⟨_, hnote⟩ := noteRead_countOnly (takeIn s p pkt) pkt.addr pkt.length (by rw [htake]; exact hcorr)
  have hbytes : peek (takeIn s p pkt) pkt.addr pkt.length = peek s pkt.addr pkt.length := by rw [htake]; rfl
  have hsent : landRead p pkt (takeIn s p pkt) = enqueue (noteRead (takeIn s p pkt) pkt.addr pkt.length) q 1
      (response s pkt 0 (peek s pkt.addr pkt.length)) := by
    rw [landRead_noRing p (by rw [htake]; exact hring) (by rw [htake]; exact hbad), hbytes,
      respond_routed p q 0 _ hresp hnear (by rw [hnote, htake]; exact hid) hsrc (by rw [hnote, htake]; exact hroute), hnote, htake]
    rfl
  have hexec : exec (.inboundRead p pkt) s = .next (landRead p pkt (takeIn s p pkt)) := by
    rw [← inbound_passed p (landRead p pkt) htyp hresp hto hpre hpass]
    exact whenAlive_next (.inboundRead p pkt) _ _ (by simp [Instr.wf, isLane, hp, hwf]) ha
  refine ⟨_, hexec.trans (congrArg _ hsent), ?_, response s pkt 0 (peek s pkt.addr pkt.length), ?_, rfl, ?_, rfl, rfl, rfl, rfl, htyp, rfl⟩
  · rw [hnote, htake]
    rfl
  · rw [port_enqueue_self, ← port_takeIn_queue s p q pkt, hnote]
    rfl
  · simp [response, Packet.resp]

/-! ### INBOUND_REDUCE_WRITE (R260) -/

/-- An element added to the FP32 element at its place, as it stands with a buffer written over memory. -/
def addInto (s : State) (b : Buf) (e : Nat × Val) : Buf :=
  putBytes b e.1 (leBytes 4 (add32 (of32 (leNat (bufPeek s b e.1 4))) e.2).1.bits32)

/-- `n` elements added side by side, from the address `a`. -/
def sumBuf (s : State) (a n : Nat) (e : Nat → Val) : Buf :=
  ((List.range n).map (fun i => (a + 4 * i, e i))).foldl (addInto s) []

theorem sumBuf_succ (s : State) (a n : Nat) (e : Nat → Val) :
    sumBuf s a (n + 1) e = addInto s (sumBuf s a n e) (a + 4 * n, e n) := by
  rw [sumBuf, List.range_succ, List.map_append, List.foldl_append]
  rfl

theorem rising_sumBuf (s : State) (a n : Nat) (e : Nat → Val) : risingFrom 0 (sumBuf s a n e) = true := by
  induction n with
  | zero => rfl
  | succ n ih => rw [sumBuf_succ]; exact rising_putBytes ih _ _

theorem tget_sumBuf_outside (s : State) (a n x : Nat) (e : Nat → Val) (v : Byte) (h : x < a ∨ a + 4 * n ≤ x) :
    tget (sumBuf s a n e) x v = v := by
  induction n with
  | zero => rfl
  | succ n ih =>
    rw [sumBuf_succ, addInto, tget_putBytes_outside _ _ _ _ _ (by rw [leBytes_length]; omega), ih (by omega)]

/-- What has not been added to yet is read as memory holds it. -/
theorem bufPeek_sumBuf_next (s : State) (a n : Nat) (e : Nat → Val) : bufPeek s (sumBuf s a n e) (a + 4 * n) 4 = peek s (a + 4 * n) 4 := by
  rw [← bufPeek_nil]
  exact List.map_congr_left fun i _ => tget_sumBuf_outside s a n _ e _ (.inr (Nat.le_add_right _ _))

/-- Each element of the sum. -/
theorem bufPeek_sumBuf (s : State) (a n : Nat) (e : Nat → Val) {i : Nat} (hi : i < n) :
    bufPeek s (sumBuf s a n e) (a + 4 * i) 4 = leBytes 4 (add32 (of32 (peekN s (a + 4 * i) 4)) (e i)).1.bits32 := by
  induction n with
  | zero => exact absurd hi (Nat.not_lt_zero i)
  | succ n ih =>
    rw [sumBuf_succ, addInto]
    rcases Nat.lt_succ_iff_lt_or_eq.mp hi with hlt | rfl
    · rw [bufPeek_putBytes_outside _ _ _ _ _ _ (by dsimp only; omega), ih hlt]
    · dsimp only
      rw [bufPeek_sumBuf_next]
      have hself := bufPeek_putBytes_self s (sumBuf s a i e) (a + 4 * i)
        (leBytes 4 (add32 (of32 (leNat (peek s (a + 4 * i) 4))) (e i)).1.bits32)
      rwa [leBytes_length] at hself

/-- The bytes that an element of a REDUCE_WRITE takes in the packet. -/
def reduceWidth (pkt : Packet) : Nat := fmtBits pkt.elemFmt / 8

/-- Element `i` of a REDUCE_WRITE. -/
def reduceElem (pkt : Packet) (i : Nat) : Val := decE pkt.elemFmt (rd pkt.payload (reduceWidth pkt * i) (reduceWidth pkt))

/-- The buffer that a REDUCE_WRITE leaves. -/
def reduceBuf (s : State) (pkt : Packet) : Buf := sumBuf s pkt.addr (pkt.payload.length / reduceWidth pkt) (reduceElem pkt)

/-- A REDUCE_WRITE that lands outside RING windows. -/
def reduceLanded (s : State) (pkt : Packet) : State :=
  let runs := runsOf (reduceBuf s pkt)
  commit (noteReads s (runs.map (fun r => (r.1, r.2.length)))) none runs

theorem landReduce_noRing {s : State} {pkt : Packet} (p : Nat) (hring : (window s pkt.window).flags.testBit 3 = false)
    (hfmt : pkt.elemFmt = 8 ∨ pkt.elemFmt = 10) (haddr : pkt.addr % 4 = 0) (hbad : s.mem.bad = []) :
    landReduce p pkt s = acknowledge (reduceLanded s pkt) p pkt := by
  have hform : ¬(!(pkt.elemFmt == 8 || pkt.elemFmt == 10) || pkt.addr % 4 ≠ 0) = true := by
    rcases hfmt with h | h <;> simp [h, haddr]
  have hplace (i : Nat) : reduceAt s pkt i = pkt.addr + 4 * i := by simp [reduceAt, hring]
  unfold landReduce
  simp only [hform, hplace, badLine_of_good s _ _ hbad, Option.isNone_none, List.filter_true, List.filterMap_none,
    List.eraseDups_nil, List.foldl_nil]
  rfl

/-- What a REDUCE_WRITE changes is its elements. -/
theorem reduceLanded_effect (s : State) (pkt : Packet) (hbad : s.mem.bad = []) (hcorr : s.mem.corr = []) :
    (∀ i, i < pkt.payload.length / reduceWidth pkt → peek (reduceLanded s pkt) (pkt.addr + 4 * i) 4 =
      leBytes 4 (add32 (of32 (peekN s (pkt.addr + 4 * i) 4)) (reduceElem pkt i)).1.bits32) ∧
    SameOutside s (reduceLanded s pkt) pkt.addr (4 * (pkt.payload.length / reduceWidth pkt)) ∧ Written s (reduceLanded s pkt) := by
  have hrising := rising_sumBuf s pkt.addr (pkt.payload.length / reduceWidth pkt) (reduceElem pkt)
  obtain ⟨cnt, hnote⟩ := noteReads_countOnly s ((runsOf (reduceBuf s pkt)).map (fun r => (r.1, r.2.length))) hcorr
  have hlanded : reduceLanded s pkt = commit { s with cnt := cnt } none (runsOf (reduceBuf s pkt)) := by
    rw [reduceLanded, hnote]
  have hwritten : Written s { s with cnt := cnt } := ⟨_, _, _, _, _, _, _, rfl⟩
  rw [hlanded]
  refine ⟨fun i hi => ?_, fun x hx => ?_, hwritten.trans (commit_written _ _ _ hbad)⟩
  · exact (peek_commit { s with cnt := cnt } none hrising _ 4 hbad).trans (bufPeek_sumBuf s pkt.addr _ _ hi)
  · exact (memByte_commit { s with cnt := cnt } none hrising x hbad).trans (tget_sumBuf_outside s _ _ _ _ _ hx)

/-- R260: the REDUCE_WRITE of O22. -/
theorem inboundReduceWriteAddsItsElements : Claim.InboundReduceWriteAddsItsElements := by
  unfold Claim.InboundReduceWriteAddsItsElements
  intro s p pkt ha hp hwf htyp hresp hpre hpass hbad hcorr hfmt haddr hring
  have hto : toMirror s pkt = false := by simp [toMirror, htyp]
  obtain ⟨_, _, _, htake⟩ := takeIn_queuesOnly s p pkt
  have hland : landReduce p pkt (takeIn s p pkt) = acknowledge (reduceLanded (takeIn s p pkt) pkt) p pkt :=
    landReduce_noRing p (by rw [htake]; exact hring) hfmt haddr (by rw [htake]; exact hbad)
  have hexec : exec (.inboundReduceWrite p pkt) s = .next (acknowledge (reduceLanded (takeIn s p pkt) pkt) p pkt) := by
    rw [← hland, ← inbound_passed p (landReduce p pkt) htyp hresp hto hpre hpass]
    exact whenAlive_next (.inboundReduceWrite p pkt) _ _ (by simp [Instr.wf, isLane, hp, hwf]) ha
  obtain ⟨hsums, houtside, hwritten⟩ :=
    reduceLanded_effect (takeIn s p pkt) pkt (by rw [htake]; exact hbad) (by rw [htake]; exact hcorr)
  obtain ⟨_, _, _, _, _, _, _, helse⟩ := hwritten
  obtain ⟨_, _, _, hack⟩ := acknowledge_queuesOnly (reduceLanded (takeIn s p pkt) pkt) p pkt
  refine ⟨_, hexec, ?_⟩
  rw [hack, helse]
  rw [helse] at hsums houtside
  rw [htake] at hsums houtside ⊢
  exact ⟨hsums, houtside, rfl, rfl, rfl, rfl, rfl⟩

/-- Settles O22: a packet that every check passes lands as its type has it, and only its answer goes out. -/
theorem inboundWrites : Obligations.InboundWrites :=
  ⟨inboundWriteStoresItsPayload, inboundReduceWriteAddsItsElements, inboundReadIsAnswered⟩

end Sys2Proof.Machine
end

-- The proofs of the family of chapter 8: Nib records.
section
/-! SUPPORT. The records of a chain: when each runs, what it writes, and what it leaves alone. -/

namespace Sys2Proof.Machine

open Sys2Proof

/-! ### The records of a chain as commands (R202) -/

theorem exec_nibRecord {c : Instr} {l i k n : Nat} (s : State) (ha : alive s = true) (hl : l < 64)
    (hc : (c = .stencil l i k ∧ n = 1) ∨ (c = .digest l i k ∧ n = 2) ∨ (c = .optimiser l i k ∧ n = 3)) :
    exec c s = .next (opNibRecord s l i k n) := by
  have hfolio : isFolio l = true := decide_eq_true hl
  rcases hc with ⟨rfl, rfl⟩ | ⟨rfl, rfl⟩ | ⟨rfl, rfl⟩ <;> exact whenAlive_next _ _ _ hfolio ha

/-- A record that has run: it is marked, and with the last one of its chain the stroke's effect is made. -/
def recordMade (s : State) (x : Ctx) (rs : List NibRec) (l i k : Nat) : State :=
  if (List.range rs.length).all (fun j => j == k || x.run.recs.contains j) then doneRun (markRec s l i k) l i else markRec s l i k

/-- What a chain does with the answer of a record. -/
def recordAnswered (x : Ctx) (rs : List NibRec) (l i k : Nat) (v : State × Option (Option Bad)) : State :=
  match v.2 with
  | none => v.1
  | some (some b) => failStroke v.1 l i b
  | some none => if v.1.frame.aborted then v.1 else recordMade v.1 x rs l i k

section chain
variable {s : State} {x : Ctx} {l i k : Nat} {rs : List NibRec} {r : NibRec}

/-- A record runs once. -/
theorem opNibRecord_again (hx : ctxOf s l i 4 = some x) (hdec : x.run.dec = .chain rs) (hr : rs[k]? = some r)
    (hran : x.run.recs.contains k = true) : opNibRecord s l i k r.op = s := by
  unfold opNibRecord
  rw [inAbortCycle_running s _ (ctxOf_aborted hx)]
  simp only [hx, hdec, hr, hran, Bool.or_true, Bool.true_or, if_true]

/-- A record whose predecessors have all run waits for none. -/
theorem opNibRecord_runs (hx : ctxOf s l i 4 = some x) (hdec : x.run.dec = .chain rs) (hr : rs[k]? = some r)
    (hnew : x.run.recs.contains k = false) (hprev : ∀ j, j < k → x.run.recs.contains j = true) :
    opNibRecord s l i k r.op = recordAnswered x rs l i k (r.run s x) := by
  unfold opNibRecord
  rw [inAbortCycle_running s _ (ctxOf_aborted hx)]
  simp only [hx, hdec, hr, hnew, ne_eq, not_true, decide_false, Bool.or_false, Bool.false_or]
  refine (if_neg fun hwaits => ?_).trans rfl
  obtain ⟨j, hj, hwait⟩ := List.any_eq_true.mp hwaits
  rw [hprev j (List.mem_range.mp hj)] at hwait
  exact Bool.false_ne_true hwait

end chain

/-- A record that has run concerns the strokes in progress. -/
theorem recordMade_frame (s : State) (x : Ctx) (rs : List NibRec) (l i k : Nat) :
    ∃ prog, recordMade s x rs l i k = { s with frame.prog := prog } := by
  unfold recordMade
  split
  · exact ⟨_, rfl⟩
  · exact ⟨_, rfl⟩

theorem recordAnswered_made {s : State} (hrun : s.frame.aborted = false) (x : Ctx) (rs : List NibRec) (l i k : Nat) :
    recordAnswered x rs l i k (s, some none) = recordMade s x rs l i k := if_neg (Bool.eq_false_iff.mp hrun)

/-! ### Values that are not finite (R240) -/

/-- `t` differs from `s` only in the step that is skipped, in the messages that say so, and in the counters. -/
def SkipOnly (s t : State) : Prop :=
  ∃ ports fab cnt nonfinite skipSent skipped, t = { s with
    ports := ports, fab := fab, cnt := cnt
    job := { s.job with nonfinite := nonfinite, skipSent := skipSent, skipped := skipped } }

theorem SkipOnly.refl (s : State) : SkipOnly s s := ⟨_, _, _, _, _, _, rfl⟩

theorem SkipOnly.trans {s t u : State} (h : SkipOnly s t) (g : SkipOnly t u) : SkipOnly s u := by
  obtain ⟨_, _, _, _, _, _, rfl⟩ := h
  obtain ⟨_, _, _, _, _, _, rfl⟩ := g
  exact ⟨_, _, _, _, _, _, rfl⟩

theorem WireOnly.skipOnly {s t : State} (h : WireOnly s t) : SkipOnly s t := by
  obtain ⟨_, _, _, rfl⟩ := h
  exact ⟨_, _, _, _, _, _, rfl⟩

theorem CountOnly.skipOnly {s t : State} (h : CountOnly s t) : SkipOnly s t := by
  obtain ⟨_, rfl⟩ := h
  exact ⟨_, _, _, _, _, _, rfl⟩

theorem sendAll_wireOnly (s : State) (m : SvcMsg) : WireOnly s (sendAll s m) :=
  List.foldlRecOn _ _ (WireOnly.refl s) (fun t ht d _ => ht.trans (sendSvc_wireOnly t d m))

theorem markSkip_skipOnly (s : State) (n : Nat) : SkipOnly s (markSkip s n) := by
  unfold markSkip
  split
  · exact .refl s
  · exact ⟨_, _, _, _, _, _, rfl⟩

theorem sendSkip_skipOnly (s : State) (code : Nat) : SkipOnly s (sendSkip s code) := by
  unfold sendSkip
  split
  · exact .refl s
  · exact (SkipOnly.trans ⟨_, _, _, _, _, _, rfl⟩ (sendAll_wireOnly _ _).skipOnly).trans (markSkip_skipOnly _ _)

theorem noteNonfinite_skipOnly (s : State) (n : Nat) : SkipOnly s (noteNonfinite s n) := by
  have hnoted : SkipOnly s { s with job.nonfinite := true } := ⟨_, _, _, _, _, _, rfl⟩
  unfold noteNonfinite
  split
  · exact .refl s
  · dsimp only
    split
    · exact hnoted.trans (sendSkip_skipOnly _ _)
    · exact hnoted

theorem nibMoved_countOnly (s : State) (x : Ctx) (nib master : Nat) (rs : List (Nat × Nat)) :
    CountOnly s (nibMoved s x nib master rs) := .foldl _ (fun u r => by
  split
  · exact .refl u
  · exact nibEvent_countOnly u _ _ _ _) _ s

theorem nibWrote_skipOnly (s : State) (x : Ctx) (nib master a sats nf : Nat) :
    SkipOnly s (nibWrote s x nib master a sats nf) :=
  ((nibEvent_countOnly s _ _ _ _).trans (nibEvent_countOnly _ _ _ _ _)).skipOnly.trans (noteNonfinite_skipOnly _ _)

/-! ### STENCIL (R206) -/

/-- The bytes that a stencil writes: at each point of its output, what its taps give. -/
def Sten.outBuf (d : Sten) (s : State) : Buf :=
  (coordsOf ((List.range 3).map d.out.e)).foldl (fun b p =>
    putBytes b ((placeOf s d.out p).bit / 8).toNat
      (leBytes (fmtBytes d.fmt) (encE d.fmt (d.point s (if d.fmt = 11 then fp64 else fp32) p).1 rneNat).1)) []

/-- A stencil in good memory writes its buffer; the rest is counted, and noted when it is not finite. -/
theorem runStencil_writes (s : State) (x : Ctx) (d : Sten) (hbad : s.mem.bad = []) :
    SkipOnly (commit (noteReads s (d.reads s)) (some (x.l, x.i)) (runsOf (d.outBuf s))) (runStencil s x d) := by
  unfold runStencil
  simp only [readsBad_of_good s _ hbad, List.foldl_map]
  exact (nibMoved_countOnly _ _ _ _ _).skipOnly.trans (nibWrote_skipOnly _ _ _ _ _ _ _)

/-- What a stencil writes, and what it leaves alone. -/
theorem runStencil_effect (s : State) (x : Ctx) (d : Sten) (hbad : s.mem.bad = []) :
    (runStencil s x d).mem.cells = (commit s (some (x.l, x.i)) (runsOf (d.outBuf s))).mem.cells ∧
      (runStencil s x d).mem.full = s.mem.full ∧ (runStencil s x d).frame = s.frame ∧ (runStencil s x d).rings = s.rings := by
  have hread := noteReads_corrected s (d.reads s)
  have hcells := commit_cells_congr hread.readsAlike (some (x.l, x.i)) (runsOf (d.outBuf s)) hbad
  have hwritten := hread.written.trans (commit_written _ (some (x.l, x.i)) (runsOf (d.outBuf s)) (hread.readsAlike.bad.trans hbad))
  obtain ⟨_, _, _, _, _, _, hrun⟩ := runStencil_writes s x d hbad
  rw [hrun]
  refine ⟨hcells, ?_⟩
  obtain ⟨_, _, _, _, _, _, _, hcommit⟩ := hwritten
  rw [hcommit]
  exact ⟨rfl, rfl, rfl⟩

/-! ### DIGEST (R210, R211) -/

theorem sm3Blocks_add (m n : Nat) (v : List Nat) (b : List Byte) :
    sm3Blocks (m + n) v b = sm3Blocks n (sm3Blocks m v b) (b.drop (64 * m)) := by
  induction m generalizing v b with
  | zero => simp [sm3Blocks]
  | succ m ih =>
    rw [Nat.add_right_comm, sm3Blocks, ih, sm3Blocks, List.drop_drop, Nat.mul_succ, Nat.add_comm 64]

/-- Blocks that lie whole in what was absorbed do not depend on what follows it. -/
theorem sm3Blocks_append (n : Nat) (v : List Nat) (b more : List Byte) (h : 64 * n ≤ b.length) :
    sm3Blocks n v (b ++ more) = sm3Blocks n v b := by
  induction n generalizing v b with
  | zero => rfl
  | succ n ih =>
    rw [sm3Blocks, sm3Blocks, List.take_append_of_le_length (by omega), List.drop_append_of_le_length (by omega),
      ih _ _ (by rw [List.length_drop]; omega)]

/-- A digest that absorbed a message at once ends as the SM3 digest of the message. -/
theorem finish_absorb_start (m : List Byte) : (NibDigest.start.absorb m).finish = sm3 m := by
  have hwhole : 64 * (m.length / 64) ≤ m.length := Nat.mul_div_le _ _
  have hcount : (m ++ sm3Pad m.length).length / 64 =
      m.length / 64 + (m.drop (64 * (m.length / 64)) ++ sm3Pad m.length).length / 64 := by
    simp only [List.length_append, List.length_drop]
    omega
  rw [sm3, sm3Finish, hcount, sm3Blocks_add, sm3Blocks_append _ _ _ _ hwhole, List.drop_append_of_le_length hwhole]
  simp [NibDigest.finish, NibDigest.absorb, NibDigest.start, sm3Finish]

theorem len_absorb_start (m : List Byte) : (NibDigest.start.absorb m).len = m.length := by
  simp [NibDigest.absorb, NibDigest.start]

/-- `t` differs from `s` only in bytes of device memory and errors of its lines, free values, the digests of Nibs, and counters. -/
def Digested (s t : State) : Prop :=
  ∃ cells bad errs corr corrCount repairList cnt free digests, t = { s with
    mem := { s.mem with cells := cells, bad := bad, errs := errs, corr := corr, corrCount := corrCount, repairList := repairList }
    cnt := cnt, free := free, digests := digests }

theorem Digested.trans {s t u : State} (h : Digested s t) (g : Digested t u) : Digested s u := by
  obtain ⟨_, _, _, _, _, _, _, _, _, rfl⟩ := h
  obtain ⟨_, _, _, _, _, _, _, _, _, rfl⟩ := g
  exact ⟨_, _, _, _, _, _, _, _, _, rfl⟩

theorem Written.digested {s t : State} (h : Written s t) : Digested s t := by
  obtain ⟨_, _, _, _, _, _, _, rfl⟩ := h
  exact ⟨_, _, _, _, _, _, _, _, _, rfl⟩

theorem freshBytes_free (n : Nat) (s : State) : ∃ free, (freshBytes n s).2 = { s with free := free } := by
  induction n generalizing s with
  | zero => exact ⟨_, rfl⟩
  | succ n ih =>
    obtain ⟨_, h⟩ := ih { s with free := s.free + 1 }
    exact ⟨_, h⟩

theorem commit_bad (s : State) (who : Option (Nat × Nat)) (runs : List (Nat × List Byte)) (h : s.mem.bad = []) :
    (commit s who runs).mem.bad = [] := by
  rw [commit_of_good s who runs h]
  exact List.foldlRecOn (motive := fun t => t.mem.bad = []) runs _ h (fun t ht r _ => store_bad t r.1 r.2 ht)

/-- A digest in good memory: what a step of it may do, and that memory stays good. -/
def DigestedGood (s t : State) : Prop := Digested s t ∧ t.mem.bad = []

theorem Corrected.digestedGood {s t : State} (h : Corrected s t) (hbad : s.mem.bad = []) : DigestedGood s t :=
  ⟨h.written.digested, h.readsAlike.bad.trans hbad⟩

theorem DigestedGood.commit {s u : State} (h : DigestedGood s u) (who : Option (Nat × Nat)) (runs : List (Nat × List Byte)) :
    DigestedGood s (commit u who runs) := by
  obtain ⟨hdone, hgood⟩ := h
  exact ⟨hdone.trans (commit_written u who runs hgood).digested, commit_bad u who runs hgood⟩

theorem DigestedGood.withDigests {s u : State} (h : DigestedGood s u) (free : Nat) (digests : Tbl NibDigest) :
    DigestedGood s { u with free := free, digests := digests } := by
  obtain ⟨hdone, hgood⟩ := h
  exact ⟨hdone.trans ⟨_, _, _, _, _, _, _, _, _, rfl⟩, hgood⟩

/-- The data of Nib `k` in a digest record. -/
def Dig.dataOf (d : Dig) (s : State) (k : Nat) : List Byte :=
  (((d.pieces s).filter (fun p => p.1 == k)).map (fun p => p.2.2)).flatten

/-- The digest that a record which begins one leaves for Nib `k`. -/
def Dig.fresh (d : Dig) (s : State) (k : Nat) : NibDigest := NibDigest.start.absorb (d.dataOf s k)

/-- What a record that begins and ends a digest writes: the SM3 digest of the digests of the Nibs that have data. -/
def Dig.total (d : Dig) (s : State) : List Byte :=
  sm3 (((List.range 256).filter (fun k => (d.fresh s k).len ≠ 0)).flatMap (fun k => (d.fresh s k).finish))

/-- A record over a byte range that begins and ends a digest, and keeps no digests of Nibs. -/
structure Dig.Alone (d : Dig) : Prop where
  dense : d.desc = none
  first : d.first = true
  last : d.last = true
  noTable : rd d.b 56 8 = 0

/-- The digests that a record which begins one leaves, as a table. -/
def Dig.table (d : Dig) (s : State) (k : Nat) : NibDigest := ((List.range 256).map (d.fresh s)).getD k NibDigest.start

theorem Dig.table_eq (d : Dig) (s : State) {k : Nat} (hk : k < 256) : d.table s k = d.fresh s k := by
  rw [Dig.table, List.getD_eq_getElem?_getD, List.getElem?_map, List.getElem?_range hk]
  rfl

/-- The stored form of a Nib's digest, free bytes, is written to the entry of the Nib. -/
def Dig.save (d : Dig) (s : State) (x : Ctx) (u : State) (k : Nat) : State :=
  let f := freshBytes 128 u
  commit { f.2 with digests := tput f.2.digests (d.entry k) (d.table s k) } (some (x.l, x.i)) [(d.entry k, f.1)]

theorem Dig.save_digestedGood {s u : State} (d : Dig) (x : Ctx) (k : Nat) (h : DigestedGood s u) :
    DigestedGood s (d.save s x u k) := by
  obtain ⟨_, hfree⟩ := freshBytes_free 128 u
  rw [Dig.save, hfree]
  exact (h.withDigests _ _).commit _ _

/-- The digests of all Nibs saved. -/
def Dig.saved (d : Dig) (s : State) (x : Ctx) : State := (List.range 256).foldl (d.save s x) (noteReads s (d.reads s))

theorem Dig.saved_digestedGood (d : Dig) {s : State} (x : Ctx) (hbad : s.mem.bad = []) : DigestedGood s (d.saved s x) :=
  List.foldlRecOn _ _ ((noteReads_corrected s _).digestedGood hbad) (fun _ hu k _ => d.save_digestedGood x k hu)

/-- The digest of what has data; what stands in the table of a Nib without data does not matter. -/
theorem Dig.total_of_table (d : Dig) (s : State) :
    sm3 (((List.range 256).filter (fun k => (d.table s k).len ≠ 0)).flatMap (fun k =>
      if (d.table s k).len = 0 then List.replicate 32 (0 : Byte) else (d.table s k).finish)) = d.total s := by
  have hfilter : (List.range 256).filter (fun k => (d.table s k).len ≠ 0) = (List.range 256).filter (fun k => (d.fresh s k).len ≠ 0) :=
    List.filter_congr fun k hk => by rw [d.table_eq s (List.mem_range.mp hk)]
  rw [hfilter, Dig.total]
  refine congrArg sm3 (List.flatMap_congr fun k hk => ?_)
  obtain ⟨hrange, hlen⟩ := List.mem_filter.mp hk
  rw [d.table_eq s (List.mem_range.mp hrange), if_neg (by simpa using hlen)]

/-- A digest that a record begins and ends, in good memory: the last write leaves the digest, and only counters follow it. -/
theorem runDigest_alone {s : State} (x : Ctx) {d : Dig} (h : d.Alone) (hbad : s.mem.bad = []) :
    ∃ t, runDigest s x d = (t, none) ∧ CountOnly (commit (d.saved s x) (some (x.l, x.i)) [(rd d.b 48 8, d.total s)]) t := by
  obtain ⟨hdense, hfirst, hlast, htable⟩ := h
  have hnone : d.bad s = none := by simp [Dig.bad, hdense, readsBad_of_good s _ hbad]
  rw [← d.total_of_table s]
  unfold runDigest
  simp only [hnone, hfirst, hlast, htable, Bool.true_or, if_true]
  refine ⟨_, rfl, (CountOnly.foldl _ (fun u p => nibMoved_countOnly u x _ _ _) _ _).trans (.foldl _ (fun u k => ?_) _ _)⟩
  split
  · exact .refl u
  · exact nibEvent_countOnly u _ _ _ _

/-- A range within one granule is its own granule. -/
theorem granules_one {a n : Nat} (hn : 0 < n) (h : a / 32768 = (a + n - 1) / 32768) : granules a n = [(a, n)] := by
  have hlow : 32768 * (a / 32768) ≤ a := Nat.mul_div_le _ _
  have htop : a + n ≤ 32768 * (a / 32768 + 1) := by omega
  have hcut : min (a + n) (32768 * (a / 32768 + 1)) - a = n := by omega
  simp [granules, hn.ne', ← h, hlow, hcut]

/-- Data that one Nib hashes is digested there. -/
theorem Dig.total_oneNib {d : Dig} {s : State} {n a : Nat} {m : List Byte} (hn : n < 256) (hm : m ≠ [])
    (hpieces : d.pieces s = [(n, a, m)]) : d.total s = sm3 (sm3 m) := by
  have hdata (k : Nat) : d.dataOf s k = if k = n then m else [] := by
    by_cases hk : k = n
    · simp [Dig.dataOf, hpieces, hk]
    · simp [Dig.dataOf, hpieces, hk, Ne.symm hk]
  have hlen (k : Nat) : decide ((d.fresh s k).len ≠ 0) = (k == n) := by
    by_cases hk : k = n
    · simp [Dig.fresh, len_absorb_start, hdata, hk, hm]
    · simp [Dig.fresh, len_absorb_start, hdata, hk]
  have honly : (List.range 256).filter (fun k => (d.fresh s k).len ≠ 0) = [n] := by
    simp only [hlen]
    rw [List.filter_beq, List.count_eq_one_of_mem List.nodup_range (List.mem_range.mpr hn)]
    rfl
  rw [Dig.total, honly, List.flatMap_singleton, Dig.fresh, hdata, if_pos rfl, finish_absorb_start]

/-- A record over one granule that begins and ends a digest leaves the digest of the granule's digest. -/
theorem runDigest_effect {s : State} (x : Ctx) {d : Dig} (h : d.Alone) (hbad : s.mem.bad = []) (hlen : 0 < rd d.b 32 8)
    (hone : rd d.b 24 8 / 32768 = (rd d.b 24 8 + rd d.b 32 8 - 1) / 32768) :
    ∃ t, runDigest s x d = (t, none) ∧ peek t (rd d.b 48 8) 32 = sm3 (sm3 (peek s (rd d.b 24 8) (rd d.b 32 8))) ∧
      Digested s t := by
  obtain ⟨t, hrun, hcount⟩ := runDigest_alone x h hbad
  have hsaved := d.saved_digestedGood x hbad
  have hpieces : d.pieces s =
      [(homeNib (rd d.b 24 8) % 256, rd d.b 24 8, peek s (rd d.b 24 8) (rd d.b 32 8))] := by
    simp [Dig.pieces, h.dense, granules_one hlen hone]
  have hdata : peek s (rd d.b 24 8) (rd d.b 32 8) ≠ [] := List.ne_nil_of_length_pos (by rw [peek, memBytes_length]; exact hlen)
  have htotal := Dig.total_oneNib (Nat.mod_lt _ (by decide)) hdata hpieces
  refine ⟨t, hrun, ?_, (hsaved.commit _ _).1.trans hcount.corrected.written.digested⟩
  rw [hcount.corrected.readsAlike.peek_eq, commit_of_good _ _ _ hsaved.2, List.foldl_cons, List.foldl_nil, htotal]
  have hback := peek_store (d.saved s x) (rd d.b 48 8) (sm3 (sm3 (peek s (rd d.b 24 8) (rd d.b 32 8)))) hsaved.2
  rwa [sm3_length] at hback

/-! ### OPTIMISER (R223, R224) -/

/-- A stale group is noted, and counted. -/
theorem noteStale_frame (s : State) (g : Nat) :
    ∃ stale cnt, noteStale s g = { s with job := { s.job with stale := stale }, cnt := cnt } := by
  unfold noteStale
  split
  · exact ⟨_, _, rfl⟩
  · exact ⟨_, _, rfl⟩

/-- A record of a skipped step is done with nothing but that. -/
theorem runOptimiser_skipped {s : State} (x : Ctx) (d : Opt) (hskip : s.job.skipped.contains s.job.step = true) :
    runOptimiser s x d = (noteStale s d.group, some none) := by
  obtain ⟨_, _, hstale⟩ := noteStale_frame s d.group
  unfold runOptimiser
  rw [hstale]
  exact if_pos hskip

/-- The runs that a record of a dense weight writes. -/
def Opt.runs (d : Opt) (s : State) : List (Nat × List Byte) := runsOf (d.writes s (d.results s (d.params s)))

theorem Opt.params_dense {d : Opt} (h : d.desc = none) (s : State) :
    d.params s = (List.range (rd d.b 64 8)).map (fun i =>
      { off := 4 * i, g := i, w := 8 * (rd d.b 24 8 + fmtBytes d.fmt * i) }) := by simp only [Opt.params, h]

section congruence
variable {s t : State} (hmem : t.mem = s.mem) (hglob : t.glob = s.glob)
include hmem

theorem peekN_congr (a n : Nat) : peekN t a n = peekN s a n := by rw [peekN, peek, hmem]; rfl

theorem putBits_congr (b : Buf) (bit : Int) (w v : Nat) : putBits t b bit w v = putBits s b bit w v := by
  simp only [putBits, hmem]

theorem Opt.grad_congr (d : Opt) (e : Nat) : d.grad t e = d.grad s e := by simp only [Opt.grad, peekN_congr hmem]

include hglob

theorem readGroup_congr (g : Nat) : readGroup t g = readGroup s g := by
  simp only [readGroup, groupAt, hglob, peekN_congr hmem]

/-- What a record of a dense weight writes follows from memory and the address of the parameter table. -/
theorem Opt.runs_congr {d : Opt} (h : d.desc = none) : d.runs t = d.runs s := by
  simp only [Opt.runs, Opt.params_dense h, Opt.writes, Opt.results, readGroup_congr hmem hglob, peekN_congr hmem,
    Opt.grad_congr hmem, putBits_congr hmem]

end congruence

/-- A record of a dense weight in good memory: its writes, its group entered, and what is counted and noted. -/
theorem updateWeights_dense {s : State} (x : Ctx) {d : Opt} (h : d.desc = none) (hbad : s.mem.bad = []) :
    ∃ t, updateWeights s [] x d = (t, none) ∧
      SkipOnly
        (let u := commitAll (noteReads s (d.reads s (d.params s))) (strokeXfer x.l x.i) (d.runs s)
        { u with job := { u.job with optGroups := insertNat d.group u.job.optGroups } }) t := by
  have hfar : withFar s [] = s := rfl
  have hnone (nib : Nat) : d.bad s nib = none := by simp [Opt.bad, h]
  unfold updateWeights
  simp only [hfar, hnone, readsBad_of_good s _ hbad]
  exact ⟨_, rfl, (nibMoved_countOnly _ _ _ _ _).skipOnly.trans (nibWrote_skipOnly _ _ _ _ _ _ _)⟩

/-- A record of a dense weight, with nothing to fetch, runs at once. -/
theorem runOptimiser_dense {s : State} {x : Ctx} {d : Opt} (h : d.desc = none) (hskip : s.job.skipped.contains s.job.step = false)
    (hasked : fetching s (strokeXfer x.l x.i) = []) :
    runOptimiser s x d = ((updateWeights (noteStale s d.group) [] x d).1, some (updateWeights (noteStale s d.group) [] x d).2) := by
  obtain ⟨_, _, hstale⟩ := noteStale_frame s d.group
  have hself : ({ d with desc := d.desc.map (fun t => t.virt (noteStale s d.group).glob.deviceId) } : Opt) = d := by
    rw [h, Option.map_none, ← h]
  have hreads (v : State) : farReads (d.tileReads v) = [] := by simp [Opt.tileReads, h, farReads]
  have hgather : gather (noteStale s d.group) (strokeXfer x.l x.i) d.tileReads = (noteStale s d.group, some []) :=
    gather_here _ _ _ (by rw [hstale]; exact hasked) (hreads _)
  have hstep : ¬(noteStale s d.group).job.skipped.contains (noteStale s d.group).job.step = true := by
    rw [hstale]
    exact Bool.eq_false_iff.mp hskip
  unfold runOptimiser
  simp only [if_neg hstep, hself, hgather]

/-- What a record of a dense weight does: memory reads as after its plain writes, and its group is entered. -/
theorem runOptimiser_effect {s : State} {x : Ctx} {d : Opt} (h : d.desc = none) (hskip : s.job.skipped.contains s.job.step = false)
    (hasked : fetching s (strokeXfer x.l x.i) = []) (hbad : s.mem.bad = []) (hhere : ∀ y ∈ d.runs s, y.1 < 2 ^ 48) :
    ∃ t, runOptimiser s x d = (t, some none) ∧ ReadsAlike (commit s (some (x.l, x.i)) (d.runs s)) t ∧
      d.group ∈ t.job.optGroups ∧ t.mem.full = s.mem.full ∧ t.frame = s.frame ∧ t.rings = s.rings := by
  obtain ⟨stale, cnt, hstale⟩ := noteStale_frame s d.group
  have hrun := runOptimiser_dense h hskip hasked
  rw [hstale] at hrun
  generalize hu : ({ s with job := { s.job with stale := stale }, cnt := cnt } : State) = u at hrun
  have hruns : d.runs u = d.runs s := Opt.runs_congr (by rw [← hu]) (by rw [← hu]) h
  have hgood : u.mem.bad = [] := by rw [← hu]; exact hbad
  have halike : ReadsAlike s u := by rw [← hu]; exact ⟨rfl, rfl, rfl⟩
  obtain ⟨t, hupdate, hskips⟩ := updateWeights_dense x h hgood
  have hread := noteReads_corrected u (d.reads u (d.params u))
  rw [hruns, commitAll_here _ _ _ (hread.readsAlike.bad.trans hgood) hhere] at hskips
  have hstored := storeAll_readsAlike (halike.trans hread.readsAlike) (d.runs s)
  obtain ⟨_, _, _, _, _, _, _, hwritten⟩ := hread.written.trans (storeAll_written (d.runs s) _)
  refine ⟨t, by rw [hrun, hupdate], ?_, ?_⟩
  · rw [commit_of_good s _ _ hbad]
    refine hstored.trans ?_
    obtain ⟨_, _, _, _, _, _, ht⟩ := hskips
    rw [ht]
    exact ⟨rfl, rfl, rfl⟩
  · dsimp only at hskips
    rw [hwritten] at hskips
    obtain ⟨_, _, _, _, _, _, ht⟩ := hskips
    rw [ht, ← hu]
    exact ⟨(mem_insertNat_iff _ _ _).mpr (.inl rfl), rfl, rfl, rfl⟩

/-! ### One parameter (R224) -/

/-- The bits of an FP32 value fit 32 bits. -/
theorem bits32_lt (v : Val) : v.bits32 < 2 ^ 32 := by
  have hsign (n : Bool) : (if n then 2 ^ (fp32.bits - 1) else 0) ≤ 2 ^ 31 := by cases n <;> decide
  cases v with
  | nan => decide
  | inf n => cases n <;> decide
  | fin n m e =>
    have hmag : (encMag fp32 m e rneNat).1 ≤ fp32.top := by
      unfold encMag
      split
      · exact Nat.zero_le _
      · exact Nat.min_le_right _ _
    exact (Nat.add_le_add hmag (hsign n)).trans_lt (by decide)

theorem leNat_bits32 (v : Val) : leNat (leBytes 4 v.bits32) = v.bits32 := by
  rw [leNat_leBytes]
  exact Nat.mod_eq_of_lt (bits32_lt v)

/-- FP32 values put into a buffer are read over it. -/
theorem bufPeek_bits32 (s : State) (b : Buf) (a : Nat) (v : Val) :
    leNat (bufPeek s (putBytes b a (leBytes 4 v.bits32)) a 4) = v.bits32 := by
  have hself := bufPeek_putBytes_self s b a (leBytes 4 v.bits32)
  rw [leBytes_length] at hself
  rw [hself, leNat_bits32]

/-- Another FP32 value put elsewhere leaves what is read. -/
theorem bufPeek_bits32_outside (s : State) (b : Buf) (a c : Nat) (v : Val) (h : c + 4 ≤ a) :
    bufPeek s (putBytes b a (leBytes 4 v.bits32)) c 4 = bufPeek s b c 4 := bufPeek_putBytes_outside s b a c 4 _ (.inl h)

/-- What the only parameter of a record becomes. -/
def Opt.one (d : Opt) (s : State) : Val × Val × Val × Nat × Nat :=
  updateParam (readGroup s d.group) (of32 (rd d.b 20 4)) d.fmt d.writeW (lit (of32 (peekN s (d.base 4) 4)))
    (of32 (peekN s (d.base 2) 4)) (of32 (peekN s (d.base 3) 4)) (of32 (peekN s (d.base 1) 4))

/-- The buffer of one parameter with an FP32 gradient, whose weight is not written. -/
theorem Opt.writes_one {d : Opt} {s : State} (h : d.desc = none) (hone : rd d.b 64 8 = 1) (hgrad : rd d.b 18 1 = 1)
    (hweight : d.writeW = false) : d.writes s (d.results s (d.params s)) =
      putBytes (putBytes (putBytes [] (d.base 1) (leBytes 4 (d.one s).2.2.1.bits32)) (d.base 2) (leBytes 4 (d.one s).1.bits32))
        (d.base 3) (leBytes 4 (d.one s).2.1.bits32) := by
  have hg : d.grad s 0 = lit (of32 (peekN s (d.base 4) 4)) := by simp [Opt.grad, hgrad, Opt.base]
  simp [Opt.params_dense h, hone, Opt.results, Opt.writes, hweight, hg, Opt.one]

/-- Memory after one parameter: its moments and its master copy. -/
theorem peekN_writes_one {d : Opt} {s t : State} {who : Option (Nat × Nat)} (h : d.desc = none) (hone : rd d.b 64 8 = 1)
    (hgrad : rd d.b 18 1 = 1) (hweight : d.writeW = false) (h12 : d.base 1 + 4 ≤ d.base 2) (h23 : d.base 2 + 4 ≤ d.base 3)
    (hbad : s.mem.bad = []) (halike : ReadsAlike (commit s who (d.runs s)) t) :
    peekN t (d.base 2) 4 = (d.one s).1.bits32 ∧ peekN t (d.base 3) 4 = (d.one s).2.1.bits32 ∧
      peekN t (d.base 1) 4 = (d.one s).2.2.1.bits32 := by
  have hrising : risingFrom 0 (d.writes s (d.results s (d.params s))) = true := by
    rw [Opt.writes_one h hone hgrad hweight]
    exact rising_putBytes (rising_putBytes (rising_putBytes rfl _ _) _ _) _ _
  have hread (a : Nat) : peekN t a 4 = leNat (bufPeek s (d.writes s (d.results s (d.params s))) a 4) := by
    rw [peekN, halike.peek_eq, Opt.runs, peek_commit s who hrising a 4 hbad]
  refine ⟨?_, ?_, ?_⟩ <;> rw [hread, Opt.writes_one h hone hgrad hweight]
  · rw [bufPeek_bits32_outside _ _ _ _ _ h23, bufPeek_bits32]
  · rw [bufPeek_bits32]
  · rw [bufPeek_bits32_outside _ _ _ _ _ (by omega), bufPeek_bits32_outside _ _ _ _ _ h12, bufPeek_bits32]

/-- Settles O53: what a record of a chain does follows from what its operation answers. -/
theorem nibRecordsRunInTheirChain : Obligations.NibRecordsRunInTheirChain := by
  unfold Obligations.NibRecordsRunInTheirChain
  intro s x l i k n c rs r ha hl hc hx hdec hr hop
  subst hop
  have hexec := exec_nibRecord s ha hl hc
  obtain ⟨hxl, hxi⟩ := ctxOf_place hx
  have hrun := ctxOf_aborted hx
  refine ⟨fun hran => hexec.trans (congrArg _ (opNibRecord_again hx hdec hr hran)), fun hnew hprev => ?_⟩
  rw [opNibRecord_runs hx hdec hr hnew hprev] at hexec
  have hmade (t : State) (ht : r.run s x = (t, some none)) (hgo : t.frame.aborted = false) :
      exec c s = .next (recordMade t x rs l i k) := by rw [hexec, ht, recordAnswered_made hgo]
  refine ⟨fun t ht => by rw [hexec, ht]; rfl, fun t b ht => by rw [hexec, ht]; rfl, ?_, hmade, ?_, ?_, ?_⟩
  · rintro d rfl hbad
    obtain ⟨hcells, hfull, hframe, hrings⟩ := runStencil_effect s x d hbad
    obtain ⟨_, hmark⟩ := recordMade_frame (runStencil s x d) x rs l i k
    refine ⟨_, hmade _ rfl ((congrArg (·.aborted) hframe).trans hrun), ?_⟩
    rw [hmark, List.foldl_map]
    rw [hxl, hxi] at hcells
    exact ⟨hcells, hfull, congrArg (·.aborted) hframe, congrArg (·.sq) hrings⟩
  · rintro d rfl hskip
    obtain ⟨_, _, hstale⟩ := noteStale_frame s d.group
    obtain ⟨_, hmark⟩ := recordMade_frame (noteStale s d.group) x rs l i k
    refine ⟨_, hmade _ (runOptimiser_skipped x d hskip) (by rw [hstale]; exact hrun), ?_⟩
    rw [hmark, hstale]
    exact ⟨rfl, rfl, rfl⟩
  · rintro d rfl hskip hbad hdense hasked runs hhere
    obtain ⟨t, hopt, halike, hgroup, hfull, hframe, hrings⟩ :=
      runOptimiser_effect (x := x) hdense hskip (by rw [hxl, hxi]; exact hasked) hbad hhere
    obtain ⟨prog, hmark⟩ := recordMade_frame t x rs l i k
    rw [hxl, hxi] at halike
    refine ⟨_, hmade t hopt ((congrArg (·.aborted) hframe).trans hrun), ?_⟩
    rw [hmark]
    refine ⟨halike.cells, hgroup, hfull, congrArg (·.aborted) hframe, congrArg (·.sq) hrings, fun hone hgrad hweight h12 h23 => ?_⟩
    have hmarked := halike.trans (u := { t with frame.prog := prog }) ⟨rfl, rfl, rfl⟩
    have hparam := peekN_writes_one hdense hone hgrad hweight h12 h23 hbad hmarked
    simpa only [Opt.one, updateParam] using hparam
  · rintro d rfl hdense hfirst hlast htable hbad a len hlen hgranule -
    obtain ⟨t, hdigest, hbytes, hdone⟩ := runDigest_effect x ⟨hdense, hfirst, hlast, htable⟩ hbad hlen hgranule
    obtain ⟨_, _, _, _, _, _, _, _, _, helse⟩ := hdone
    obtain ⟨_, hmark⟩ := recordMade_frame t x rs l i k
    refine ⟨_, hmade t (by rw [NibRec.run, hdigest]) (by rw [helse]; exact hrun), ?_⟩
    rw [hmark]
    exact ⟨hbytes, by rw [helse], by rw [helse]⟩

end Sys2Proof.Machine
end

-- The proofs of the family of the training services: lanes that go down, the step boundary, reductions, rollbacks, spares.
section
/-! SUPPORT. Lanes that go down: what each step of it changes, and what it leaves alone. -/

namespace Sys2Proof.Machine

open Sys2Proof

/-! ### Records where PCIe hosts the rings -/

/-- `t` differs from `s` only in the ring host's memory, in what is raised there, and in the fault ring. -/
def HostOnly (s t : State) : Prop :=
  ∃ hostMem out pcie fq, t = { s with hostMem := hostMem, out := out, pcie := pcie, rings := { s.rings with fq := fq } }

theorem raiseVector_hostOnly (s : State) (v : Nat) (hhost : s.rings.host = 0) : HostOnly s (raiseVector s v) := by
  unfold raiseVector
  rw [if_neg (by omega)]
  split
  · exact ⟨_, _, _, _, rfl⟩
  · split
    · exact ⟨_, _, _, _, rfl⟩
    · exact ⟨_, _, _, _, rfl⟩

theorem putFault_hostOnly (s : State) (r : FaultRec) (more : Bool) (hhost : s.rings.host = 0) :
    HostOnly s (putFault s r more) := by
  have raised (u : State) (v : Nat) (hu : HostOnly s u) (h : u.rings.host = 0) : HostOnly s (raiseVector u v) := by
    obtain ⟨_, _, _, _, rfl⟩ := hu
    obtain ⟨_, _, _, _, hv⟩ := raiseVector_hostOnly _ v h
    rw [hv]
    exact ⟨_, _, _, _, rfl⟩
  unfold putFault
  dsimp only
  split
  · unfold hostRecord
    rw [if_neg (by simp [hhost])]
    exact raised _ _ ⟨_, _, _, _, rfl⟩ hhost
  · exact raised _ _ ⟨_, _, _, _, rfl⟩ hhost

/-- A fault record raised, where PCIe hosts the rings, concerns the fault unit and the host only. -/
theorem raiseFault_hostOnly (s : State) (r : FaultRec) (hhost : s.rings.host = 0) :
    HostOnly { s with flt := (raiseFault s r).flt } (raiseFault s r) := by
  unfold raiseFault
  dsimp only
  split
  · exact ⟨_, _, _, _, rfl⟩
  · split
    · exact ⟨_, _, _, _, rfl⟩
    · obtain ⟨_, _, _, _, h⟩ := putFault_hostOnly
        { s with flt.seq := (s.flt.seq + 1) % 2 ^ 32, flt.last := (stamp s r).bytes } (stamp s r) false hhost
      rw [h]
      exact ⟨_, _, _, _, rfl⟩

/-! ### A lane that restarts or goes OFF -/

/-- The lanes of a port are taken anew: each keeps all but the port that it belongs to (R420). -/
theorem lane_applyLanes (s : State) (n k : Nat) : ∃ b, lane (applyLanes s n) k = { lane s k with base := b } := by
  have based (u : State) (j : Nat) (b : Option Nat) (h : ∃ c, lane u k = { lane s k with base := c }) :
      ∃ c, lane (setLane u j { lane u j with base := b }) k = { lane s k with base := c } := by
    obtain ⟨c, hc⟩ := h
    by_cases hj : k = j
    · subst hj
      exact ⟨b, by rw [lane_setLane, hc]⟩
    · exact ⟨c, by rw [lane_setLane_ne _ _ _ _ hj, hc]⟩
  unfold applyLanes
  split
  · exact ⟨_, rfl⟩
  · refine List.foldlRecOn (motive := fun u : State => ∃ c, lane u k = { lane s k with base := c }) _ _ ⟨_, rfl⟩
      (fun u hu i _ => ?_)
    dsimp only
    split
    · exact hu
    · split
      · exact based u _ _ hu
      · split
        · exact based u _ _ hu
        · exact hu

theorem links_applyLanes (s : State) (n : Nat) : (applyLanes s n).links = s.links := by
  unfold applyLanes
  split
  · rfl
  · refine List.foldlRecOn (motive := fun u : State => u.links = s.links) _ _ rfl (fun u hu i _ => ?_)
    dsimp only
    split
    · exact hu
    · split
      · exact hu
      · split <;> exact hu

/-- Lane `n` carries nothing: its state is `st`, its DISABLE is `dis`, and its link layer is empty. -/
def Quiet (s : State) (n st : Nat) (dis : Bool) : Prop :=
  (lane s n).state = st ∧ (lane s n).rate = 0 ∧ (lane s n).disable = dis ∧ link s n = {}

theorem Quiet.congr {s t : State} {n st : Nat} {dis : Bool} (h : Quiet s n st dis) (hlanes : t.lanes = s.lanes)
    (hlinks : t.links = s.links) : Quiet t n st dis := by
  unfold Quiet lane link at h ⊢
  rwa [hlanes, hlinks]

/-- A lane that restarts is at PAGES, or OFF with DISABLE or with its link group OFF (R247, R255). -/
theorem restartPages_quiet (s : State) (n : Nat) :
    Quiet (restartPages s n) n (if (lane s n).disable || !domOn s (112 + n / 8) then 0 else 1) (lane s n).disable := by
  obtain ⟨b, hb⟩ := lane_applyLanes s n n
  have hlane : lane (freshNat (applyLanes s n)).2 n = { lane s n with base := b } := hb
  refine ⟨?_, ?_, ?_, ?_⟩
  · simp only [restartPages, lane_setLane, hlane]
  · simp only [restartPages, lane_setLane]
  · simp only [restartPages, lane_setLane, hlane]
  · exact link_setLink (freshNat (applyLanes s n)).2 n {}

/-- The restart of another lane leaves a quiet lane quiet. -/
theorem Quiet.restartPages_ne {s : State} {n st : Nat} {dis : Bool} (h : Quiet s n st dis) {k : Nat} (hk : n ≠ k) :
    Quiet (restartPages s k) n st dis := by
  obtain ⟨hstate, hrate, hdis, hlink⟩ := h
  obtain ⟨b, hb⟩ := lane_applyLanes s k n
  have hlane : lane (restartPages s k) n = { lane s n with base := b } := by
    simp only [restartPages]
    rw [lane_setLane_ne _ _ _ _ hk]
    exact hb
  have hkept : link (restartPages s k) n = link s n := by
    show link (setLink (applyLanes s k) k {}) n = _
    rw [link_setLink_ne _ _ _ _ hk]
    exact congrArg (tget · n {}) (links_applyLanes s k)
  exact ⟨by rw [hlane, hstate], by rw [hlane, hrate], by rw [hlane, hdis], by rw [hkept, hlink]⟩

theorem domOn_of_lanesOnly {s t : State} (h : LanesOnly s t) (k : Nat) : domOn t k = domOn s k := by
  obtain ⟨_, _, _, rfl⟩ := h
  rfl

/-- Rates tried again restart lanes at PAGES only (R248): a lane that is OFF stays so, and one at PAGES is there again. -/
theorem Quiet.freshRates {s : State} {n st : Nat} {dis : Bool} (h : Quiet s n st dis)
    (hpages : st = 1 → dis = false ∧ domOn s (112 + n / 8) = true) (p : Nat) : Quiet (freshRates s p) n st dis := by
  unfold Machine.freshRates
  split
  · exact h
  · refine (List.foldlRecOn (motive := fun u : State => Quiet u n st dis ∧ domOn u (112 + n / 8) = domOn s (112 + n / 8))
      _ _ (by exact ⟨h.congr rfl rfl, rfl⟩) (fun u hu k _ => ?_)).1
    obtain ⟨hquiet, hdom⟩ := hu
    split
    case isTrue hk =>
      refine ⟨?_, (domOn_of_lanesOnly (restartPages_lanesOnly u k) _).trans hdom⟩
      by_cases hnk : n = k
      · subst hnk
        obtain ⟨hstate, _, hdis, _⟩ := hquiet
        obtain ⟨rfl, hon⟩ := hpages (hstate.symm.trans hk)
        have hat := restartPages_quiet u n
        rw [hdis, hdom, hon] at hat
        rwa [← hstate, hk]
      · exact hquiet.restartPages_ne hnk
    case isFalse => exact ⟨hquiet, hdom⟩

/-! ### What follows where lanes have gone down (R254) -/

/-- `t` differs from `s` only in the power core and what waits at the I3C target, in lanes and their link layers, in what waits at the
ports and for this device, in the counters and in the free values used. -/
def DownOnly (s t : State) : Prop :=
  ∃ power i3c lanes links free ports box cnt, t = { s with
    power := power, i3c := i3c, lanes := lanes, links := links, free := free, ports := ports
    fab := { s.fab with selfBox := box }, cnt := cnt }

theorem DownOnly.trans {s t u : State} (h : DownOnly s t) (g : DownOnly t u) : DownOnly s u := by
  obtain ⟨_, _, _, _, _, _, _, _, rfl⟩ := h
  obtain ⟨_, _, _, _, _, _, _, _, rfl⟩ := g
  exact ⟨_, _, _, _, _, _, _, _, rfl⟩

theorem LanesOnly.downOnly {s t : State} (h : LanesOnly s t) : DownOnly s t := by
  obtain ⟨_, _, _, rfl⟩ := h
  exact ⟨_, _, _, _, _, _, _, _, rfl⟩

theorem QueuesOnly.downOnly {s t : State} (h : QueuesOnly s t) : DownOnly s t := by
  obtain ⟨_, _, _, rfl⟩ := h
  exact ⟨_, _, _, _, _, _, _, _, rfl⟩

theorem PortsOnly.downOnly {s t : State} (h : PortsOnly s t) : DownOnly s t := by
  obtain ⟨_, _, _, rfl⟩ := h
  exact ⟨_, _, _, _, _, _, _, _, rfl⟩

theorem PowerOnly.downOnly {s t : State} (h : PowerOnly s t) : DownOnly s t := by
  obtain ⟨_, _, rfl⟩ := h
  exact ⟨_, _, _, _, _, _, _, _, rfl⟩

theorem dropFromPort_portsOnly (s : State) (p n : Nat) : PortsOnly s (dropFromPort s p n) := by
  unfold dropFromPort
  split
  · exact ⟨_, _, _, rfl⟩
  · exact PortsOnly.trans ⟨_, _, _, rfl⟩ (.foldl _ freeFlit_portsOnly _ _)

theorem freshRates_downOnly (s : State) (p : Nat) : DownOnly s (freshRates s p) := by
  unfold freshRates
  split
  · exact (LanesOnly.refl s).downOnly
  · refine DownOnly.trans ⟨_, _, _, _, _, _, _, _, rfl⟩ (LanesOnly.downOnly (.foldl _ (fun u k => ?_) _ _))
    split
    · exact restartPages_lanesOnly u k
    · exact .refl u

theorem flushDown_queuesOnly (s : State) (p : Nat) : QueuesOnly s (flushDown s p) := by
  unfold flushDown
  split
  · exact .refl s
  · refine List.foldlRecOn (motive := QueuesOnly s) _ _ ⟨_, _, _, rfl⟩ (fun u hu x _ => ?_)
    exact hu.trans (respond_queuesOnly u p x.1 0x0C [])

theorem dropPartner_powerOnly (s : State) (g : Nat) : PowerOnly s (dropPartner s g) := by
  unfold dropPartner
  dsimp only
  split
  · exact .refl s
  · split
    · exact PowerOnly.trans ⟨_, _, rfl⟩ (vote_powerOnly _ _ _ _ _)
    · exact ⟨_, _, rfl⟩

theorem DownOnly.host {s t : State} (h : DownOnly s t) : t.rings = s.rings := by
  obtain ⟨_, _, _, _, _, _, _, _, rfl⟩ := h
  rfl

/-- While PCIe hosts the rings, no loss of a port takes the ring host away. -/
theorem peerHostLost_pcie (s : State) (h : s.rings.host = 0) : peerHostLost s = s := by
  unfold peerHostLost
  rw [if_neg (by simp [h])]

/-- What follows where lanes have gone down, while PCIe hosts the rings. -/
theorem afterDown_downOnly (s : State) (p : Nat) (hhost : s.rings.host = 0) : DownOnly s (afterDown s p) := by
  have hflushed := (freshRates_downOnly s p).trans (flushDown_queuesOnly _ p).downOnly
  rw [afterDown, peerHostLost_pcie _ (by rw [hflushed.host, hhost])]
  exact hflushed.trans (dropPartner_powerOnly _ _).downOnly

theorem Quiet.afterDown {s : State} {n st : Nat} {dis : Bool} (h : Quiet s n st dis)
    (hpages : st = 1 → dis = false ∧ domOn s (112 + n / 8) = true) (p : Nat) (hhost : s.rings.host = 0) :
    Quiet (afterDown s p) n st dis := by
  have hflushed := (freshRates_downOnly s p).trans (flushDown_queuesOnly _ p).downOnly
  rw [Machine.afterDown, peerHostLost_pcie _ (by rw [hflushed.host, hhost])]
  obtain ⟨_, _, hpower⟩ := dropPartner_powerOnly (flushDown (Machine.freshRates s p) p) (p / 8)
  obtain ⟨_, _, _, hqueues⟩ := flushDown_queuesOnly (Machine.freshRates s p) p
  rw [hpower, hqueues]
  exact (h.freshRates hpages p).congr rfl rfl

/-- A lane declared down starts at PAGES again, with its link layer empty (R254). -/
theorem laneDown_frame (s : State) (n : Nat) (hdis : (lane s n).disable = false) (hon : domOn s (112 + n / 8) = true)
    (hhost : s.rings.host = 0) : DownOnly s (laneDown s n) ∧ Quiet (laneDown s n) n 1 false := by
  have hdrop := dropFromPort_portsOnly s (portOf s n) n
  have hrestart := hdrop.downOnly.trans (restartPages_lanesOnly _ n).downOnly
  have hdom := domOn_of_lanesOnly (restartPages_lanesOnly (dropFromPort s (portOf s n) n) n) (112 + n / 8)
  have hquiet := restartPages_quiet (dropFromPort s (portOf s n) n) n
  obtain ⟨_, _, _, hdropped⟩ := hdrop
  have hlane : lane (dropFromPort s (portOf s n) n) n = lane s n := by rw [hdropped]; rfl
  have hdomDropped : domOn (dropFromPort s (portOf s n) n) (112 + n / 8) = true := by rw [hdropped]; exact hon
  rw [hlane, hdis, hdomDropped] at hquiet
  have hhosted : (restartPages (dropFromPort s (portOf s n) n) n).rings.host = 0 := by rw [hrestart.host, hhost]
  exact ⟨hrestart.trans (afterDown_downOnly _ _ hhosted),
    hquiet.afterDown (fun _ => ⟨rfl, hdom.trans hdomDropped⟩) _ hhosted⟩

/-! ### The reports of peers out of reach (R236) -/

/-- Without a job, or with no peer lost from reach, nothing is reported. -/
theorem reportLost_none (s t : State) (h : jobExists t = false ∨ ∀ d ∈ reached s, d ∈ reached t) : reportLost s t = t := by
  unfold reportLost
  split
  case isTrue hjob =>
    have hkept : ∀ d ∈ reached s, d ∈ reached t := h.resolve_left (by simp [hjob])
    have hnone : (reached s).filter (fun d => !(reached t).contains d) = [] := by
      simpa [List.filter_eq_nil_iff] using hkept
    rw [hnone]
    rfl
  case isFalse => rfl

/-- Fields of a lane by which no route goes. -/
theorem reached_setLane (s : State) (n : Nat) (l : Lane) (hbase : l.base = (lane s n).base) (hstate : l.state = (lane s n).state)
    (hrejoin : l.rejoin = (lane s n).rejoin) : reached (setLane s n l) = reached s := by
  have hport (k : Nat) : portOf (setLane s n l) k = portOf s k := by
    by_cases hk : k = n
    · subst hk
      simp only [portOf, lane_setLane, hbase]
    · simp only [portOf, lane_setLane_ne _ _ _ _ hk]
  have hlane (k : Nat) : laneUp (setLane s n l) k = laneUp s k := by
    by_cases hk : k = n
    · subst hk
      simp only [laneUp, lane_setLane, hstate, hrejoin]
    · simp only [laneUp, lane_setLane_ne _ _ _ _ hk]
  have hup : portUp (setLane s n l) = portUp s := by
    funext p
    simp only [portUp, lanesOf, hport]
    exact congrArg _ (List.any_congr rfl hlane)
  have hroute (d : Nat) : routeOf (setLane s n l) d = routeOf s d := by
    unfold routeOf
    rw [hup]
    rfl
  simp only [reached, hroute]
  rfl

/-! ### LINK_CTRL_n (R255, R419) -/

/-- LINK_CTRL_n written with BOOT_SERVE and the refusal bit that `v` gives, as a lane that stays has it. -/
def ctrlLane (s : State) (n v : Nat) : Lane :=
  { lane s n with bootServe := v.testBit 2, refused := (lane s n).refused && !v.testBit 8 }

/-- A lane taken OFF carries nothing. -/
theorem laneOff_quiet (s : State) (n : Nat) : Quiet (laneOff s n) n 0 (lane s n).disable := by
  refine ⟨?_, ?_, ?_, link_setLink s n {}⟩
  · simp only [laneOff, lane_setLane]
  · simp only [laneOff, lane_setLane]
  · simp only [laneOff, lane_setLane]

/-- A lane that leaves its port and goes OFF carries nothing, and keeps its DISABLE. -/
theorem laneOff_dropFromPort (s : State) (p n : Nat) : DownOnly s (laneOff (dropFromPort s p n) n) ∧
    Quiet (laneOff (dropFromPort s p n) n) n 0 (lane s n).disable := by
  have hdrop := dropFromPort_portsOnly s p n
  have hoff := laneOff_quiet (dropFromPort s p n) n
  have hdown := hdrop.downOnly.trans (LanesOnly.downOnly (t := laneOff (dropFromPort s p n) n) ⟨_, _, _, rfl⟩)
  have hlane : lane (dropFromPort s p n) n = lane s n := by
    obtain ⟨_, _, _, h⟩ := hdrop
    rw [h]
    rfl
  rw [hlane] at hoff
  exact ⟨hdown, hoff⟩

/-- A write to LINK_CTRL_n by its bits (Table 17.15). -/
theorem opLinkCtrl_eq (s : State) (n v : Nat) : opLinkCtrl s n v =
    if v.testBit 0 then
      (if (lane s n).disable then setLane s n (ctrlLane s n v)
       else if mayRetrain s n then afterDown (laneOff (dropFromPort
         (setLane (setLane s n (ctrlLane s n v)) n { ctrlLane s n v with disable := true }) (portOf s n) n) n) (portOf s n)
       else setLane s n { ctrlLane s n v with refused := true })
    else if (lane s n).disable then
      restartPages (setLane (setLane s n (ctrlLane s n v)) n { ctrlLane s n v with disable := false }) n
    else if v.testBit 1 then
      (if mayRetrain s n then laneDown (setLane s n (ctrlLane s n v)) n
       else setLane s n { ctrlLane s n v with refused := true })
    else if (lane s n).state = 4 then restartPages (setLane s n (ctrlLane s n v)) n
    else setLane s n (ctrlLane s n v) := rfl

/-- DISABLE takes a lane OFF, with its link layer empty. -/
theorem opLinkCtrl_disable (s : State) (n v : Nat) (hdis : (lane s n).disable = false) (hhost : s.rings.host = 0)
    (hmay : mayRetrain s n = true) (hv : v.testBit 0 = true) :
    DownOnly s (opLinkCtrl s n v) ∧ Quiet (opLinkCtrl s n v) n 0 true := by
  have hset := ((setLane_lanesOnly s n (ctrlLane s n v)).trans
    (setLane_lanesOnly _ n { ctrlLane s n v with disable := true })).downOnly
  have hlane := congrArg Lane.disable
    (lane_setLane (setLane s n (ctrlLane s n v)) n { ctrlLane s n v with disable := true })
  rw [opLinkCtrl_eq, if_pos hv, if_neg (by simp [hdis]), if_pos hmay]
  generalize setLane (setLane s n (ctrlLane s n v)) n _ = u at hset hlane
  obtain ⟨hoff, hquiet⟩ := laneOff_dropFromPort u (portOf s n) n
  have hdown := hset.trans hoff
  have hhosted : (laneOff (dropFromPort u (portOf s n) n) n).rings.host = 0 := by rw [hdown.host, hhost]
  rw [hlane] at hquiet
  exact ⟨hdown.trans (afterDown_downOnly _ _ hhosted), hquiet.afterDown (fun h => absurd h (by decide)) _ hhosted⟩

/-- RETRAIN takes a lane down. -/
theorem opLinkCtrl_retrain (s : State) (n v : Nat) (hdis : (lane s n).disable = false)
    (hmay : mayRetrain s n = true) (hv0 : v.testBit 0 = false) (hv1 : v.testBit 1 = true) :
    opLinkCtrl s n v = laneDown (setLane s n (ctrlLane s n v)) n := by
  rw [opLinkCtrl_eq, if_neg (by simp [hv0]), if_neg (by simp [hdis]), if_pos hv1, if_pos hmay]

/-- DISABLE and RETRAIN of a lane that carries SCHEDULED traffic set the refusal bit only (R255). -/
theorem opLinkCtrl_refused (s : State) (n v : Nat) (hdis : (lane s n).disable = false)
    (hmay : mayRetrain s n = false) (hv : v.testBit 0 = true ∨ v.testBit 1 = true) :
    opLinkCtrl s n v = setLane s n { ctrlLane s n v with refused := true } := by
  have henabled : ¬ (lane s n).disable = true := by simp [hdis]
  have hcarries : ¬ mayRetrain s n = true := by simp [hmay]
  by_cases h0 : v.testBit 0 = true
  · rw [opLinkCtrl_eq, if_pos h0, if_neg henabled, if_neg hcarries]
  · rw [opLinkCtrl_eq, if_neg h0, if_neg henabled, if_pos (hv.resolve_left h0), if_neg hcarries]

/-- A write that asks for neither, to a lane that has not failed its exchange, sets BOOT_SERVE and clears the refusal bit. -/
theorem opLinkCtrl_fields (s : State) (n v : Nat) (hdis : (lane s n).disable = false) (hv0 : v.testBit 0 = false)
    (hv1 : v.testBit 1 = false) (hstate : (lane s n).state ≠ 4) : opLinkCtrl s n v = setLane s n (ctrlLane s n v) := by
  rw [opLinkCtrl_eq, if_neg (by simp [hv0]), if_neg (by simp [hdis]), if_neg (by simp [hv1]), if_neg hstate]

/-- A write that changes no route reports no peer. -/
theorem reportLost_setLane (s : State) (n : Nat) (l : Lane) (hbase : l.base = (lane s n).base)
    (hstate : l.state = (lane s n).state) (hrejoin : l.rejoin = (lane s n).rejoin) :
    reportLost s (setLane s n l) = setLane s n l :=
  reportLost_none s _ (.inr (fun _ hd => (reached_setLane s n l hbase hstate hrejoin).symm ▸ hd))

/-- The operand that sets DISABLE and keeps BOOT_SERVE. -/
theorem testBit_disableWord (b : Bool) : (1 + 4 * b2n b).testBit 0 = true ∧ (1 + 4 * b2n b).testBit 2 = b ∧
    (1 + 4 * b2n b).testBit 8 = false := by
  cases b <;> decide

/-- The operand that sets RETRAIN and keeps BOOT_SERVE. -/
theorem testBit_retrainWord (b : Bool) : (2 + b2n false + 4 * b2n b).testBit 0 = false ∧
    (2 + b2n false + 4 * b2n b).testBit 1 = true ∧ (2 + b2n false + 4 * b2n b).testBit 2 = b ∧
    (2 + b2n false + 4 * b2n b).testBit 8 = false := by
  cases b <;> decide

/-- What the words that keep BOOT_SERVE leave of a lane. -/
theorem ctrlLane_kept (s : State) (n v : Nat) (h2 : v.testBit 2 = (lane s n).bootServe) (h8 : v.testBit 8 = false) :
    ctrlLane s n v = lane s n := by
  simp only [ctrlLane, h2, h8, Bool.not_false, Bool.and_true]

/-- The refusal of DISABLE or RETRAIN as a whole command leaves all but the refusal bit. -/
theorem refusedWrite (s : State) (n v : Nat) (hdis : (lane s n).disable = false) (hmay : mayRetrain s n = false)
    (hv : v.testBit 0 = true ∨ v.testBit 1 = true) (h2 : v.testBit 2 = (lane s n).bootServe) (h8 : v.testBit 8 = false) :
    writeLinkCtrl s n v = setLane s n { lane s n with refused := true } := by
  rw [writeLinkCtrl, opLinkCtrl_refused s n v hdis hmay hv, ctrlLane_kept s n v h2 h8]
  exact reportLost_setLane s n _ rfl rfl rfl

/-- LANE_SILENCE_DOWN of a lane that is UP: its record, and the lane down. -/
theorem opSilence_up (s : State) (n : Nat) (hup : (lane s n).state = 3) (hdis : (lane s n).disable = false)
    (hon : domOn s (112 + n / 8) = true) (hhost : s.rings.host = 0) :
    Quiet (opSilence s n) n 1 false ∧ (opSilence s n).flt.seq = (s.flt.seq + 1) % 2 ^ 32 ∧
      rd (opSilence s n).flt.last 0 1 = 0x0C ∧ (opSilence s n).mem = s.mem ∧ (opSilence s n).fab.windows = s.fab.windows ∧
      (opSilence s n).job = s.job := by
  obtain ⟨r, hop, hcode⟩ : ∃ r, opSilence s n = laneDown (raiseFault s r) n ∧ r.code = 0x0C :=
    ⟨_, if_neg (not_not.mpr hup), rfl⟩
  obtain ⟨_, _, hseq, hlast⟩ := raiseFault_frame s r
  obtain ⟨_, _, _, _, hraised⟩ := raiseFault_hostOnly s r hhost
  have hlane : (lane (raiseFault s r) n).disable = false := by rw [hraised]; exact hdis
  have hdom : domOn (raiseFault s r) (112 + n / 8) = true := by rw [hraised]; exact hon
  have hhosted : (raiseFault s r).rings.host = 0 := by rw [hraised]; exact hhost
  obtain ⟨⟨_, _, _, _, _, _, _, _, hdown⟩, hquiet⟩ := laneDown_frame (raiseFault s r) n hlane hdom hhosted
  have hrecord : rd (raiseFault s r).flt.last 0 1 = 0x0C := by
    rw [hlast, rd_bytes_code]
    show r.code % 256 = 0x0C
    rw [hcode]
  rw [hop]
  refine ⟨hquiet, ?_, ?_, ?_, ?_, ?_⟩
  · rw [hdown]; exact hseq
  · rw [hdown]; exact hrecord
  · rw [hdown, hraised]
  · rw [hdown, hraised]
  · rw [hdown, hraised]

/-- Settles O27: a lane down is quiet at PAGES, or OFF with DISABLE, and what follows it concerns lanes, ports and power only. -/
theorem lanesGoDownBySilenceOrSoftware : Obligations.LanesGoDownBySilenceOrSoftware := by
  unfold Obligations.LanesGoDownBySilenceOrSoftware
  intro s n v ha hn hdis hhost
  have hlaneWf : isLane n = true := by simp [isLane, hn]
  have hdisable : exec (.linkDisable n) s = .next (writeLinkCtrl s n (1 + 4 * b2n (lane s n).bootServe)) :=
    whenAlive_next (.linkDisable n) s _ hlaneWf ha
  have hretrain : exec (.linkRetrain n) s =
      .next (writeLinkCtrl s n (2 + b2n false + 4 * b2n (lane s n).bootServe)) := by
    rw [← hdis]
    exact whenAlive_next (.linkRetrain n) s _ hlaneWf ha
  obtain ⟨hd0, hd2, hd8⟩ := testBit_disableWord (lane s n).bootServe
  obtain ⟨hr0, hr1, hr2, hr8⟩ := testBit_retrainWord (lane s n).bootServe
  refine ⟨fun t => reportLost_none s t, fun hup hon => ?_, fun hmay hon => ⟨?_, ?_⟩, fun hmay => ⟨?_, ?_⟩,
    fun hv hmod hstate => ?_⟩
  · have hexec : exec (.laneSilenceDown n) s = .next (reportLost s (opSilence s n)) :=
      whenAlive_next (.laneSilenceDown n) s _ hlaneWf ha
    obtain ⟨⟨hpages, hrate, _, hlink⟩, hseq, hcode, hmem, hwindows, hjob⟩ := opSilence_up s n hup hdis hon hhost
    exact ⟨_, hexec, hpages, hrate, hlink, hseq, hcode, hmem, hwindows, hjob⟩
  · obtain ⟨⟨_, _, _, _, _, _, _, _, hdown⟩, hoff, _, hset, hlink⟩ := opLinkCtrl_disable s n _ hdis hhost hmay hd0
    exact ⟨_, hdisable, hoff, hset, hlink, by rw [hdown], by rw [hdown], by rw [hdown]⟩
  · have hop := opLinkCtrl_retrain s n _ hdis hmay hr0 hr1
    rw [ctrlLane_kept s n _ hr2 hr8] at hop
    have hlane : (lane (setLane s n (lane s n)) n).disable = false := by rw [lane_setLane, hdis]
    obtain ⟨⟨_, _, _, _, _, _, _, _, hdown⟩, hpages, _, hset, hlink⟩ := laneDown_frame (setLane s n (lane s n)) n hlane hon hhost
    rw [← hop] at hdown hpages hset hlink
    exact ⟨_, hretrain, hpages, hset, hlink, by rw [hdown]; rfl, by rw [hdown]; rfl, by rw [hdown]; rfl⟩
  · rw [refusedWrite s n _ hdis hmay (.inl hd0) hd2 hd8] at hdisable
    exact ⟨_, hdisable, rfl, lane_setLane s n _, fun k hk => lane_setLane_ne s n k _ hk⟩
  · rw [refusedWrite s n _ hdis hmay (.inr hr1) hr2 hr8] at hretrain
    exact ⟨_, hretrain, rfl, lane_setLane s n _, fun k hk => lane_setLane_ne s n k _ hk⟩
  · have hv0 : v.testBit 0 = false := by simp [Nat.testBit_zero]; omega
    have hv1 : v.testBit 1 = false := by simp [Nat.testBit_succ, Nat.testBit_zero]; omega
    have hwf : (Instr.linkCtrlWrite n v).wf = true := by
      simp only [Instr.wf, hlaneWf, fits, Bool.true_and, decide_eq_true_eq]
      exact hv
    have hexec : exec (.linkCtrlWrite n v) s = .next (writeLinkCtrl s n v) := whenAlive_next (.linkCtrlWrite n v) s _ hwf ha
    rw [writeLinkCtrl, opLinkCtrl_fields s n v hdis hv0 hv1 hstate, reportLost_setLane s n (ctrlLane s n v) rfl rfl rfl] at hexec
    exact ⟨_, hexec, rfl, lane_setLane s n _⟩

end Sys2Proof.Machine
end

section
/-! SUPPORT. The stop of a job's frames, and the end of a step. -/

namespace Sys2Proof.Machine

open Sys2Proof

/-! ### What reports leave of the held descriptors -/

theorem hostRecord_held (s : State) (ring : Nat) (body : List (Nat × List Byte)) (a : Nat) (head : List Byte) (vec : Option Nat) :
    (hostRecord s ring body a head vec).rings.held = s.rings.held := by
  obtain ⟨_, _, _, _, h⟩ := hostRecord_ringsKept s ring body a head vec
  rw [h]

theorem putFault_held (s : State) (r : FaultRec) (more : Bool) : (putFault s r more).rings.held = s.rings.held := by
  unfold putFault
  dsimp only
  split
  · exact hostRecord_held _ _ _ _ _ _
  · rw [raiseVector_rings]

theorem pushCq_held (s : State) (r : Nat) (bs : List Byte) (irq reply : Bool) :
    (pushCq s r bs irq reply).rings.held = s.rings.held := by
  obtain ⟨_, _, _, _, h⟩ := pushCq_ringsKept s r bs irq reply
  rw [h]

/-- Completions in fetch order only report, and hold nothing back. -/
theorem completeAll_frame (s : State) (l : List Held) (status : Nat) :
    ReportOnly s (completeAll s l status) ∧ (completeAll s l status).rings.held = s.rings.held :=
  List.foldlRecOn (motive := fun t : State => ReportOnly s t ∧ t.rings.held = s.rings.held) l _ ⟨.refl s, rfl⟩
    (fun t ht x _ => ⟨ht.1.trans (complete_reportOnly t x.hdr status 0), (pushCq_held t _ _ _ _).trans ht.2⟩)

/-! ### The stop of a job's frames (R297, R351) -/

theorem applySel_countOnly (s : State) (k v : Nat) : CountOnly s (applySel s k v) := by
  unfold applySel
  dsimp only
  split
  · exact ⟨_, rfl⟩
  · exact ⟨_, rfl⟩

theorem applyPending_countOnly (s : State) : CountOnly s (applyPending s) := by
  have hcleared : CountOnly s (if s.cnt.pendClear then clearAll s else s) := by
    split
    · exact ⟨_, rfl⟩
    · exact .refl s
  exact (hcleared.trans (.foldl _ (fun (u : State) (x : Nat × Nat) => applySel_countOnly u x.1 x.2) _ _)).trans ⟨_, rfl⟩

/-- The fault unit once nothing of a region or a seam waits any more. -/
def flushedFlt (s : State) : FaultUnit := { s.flt with region := [], inSeam := [] }

/-- The state in which a job's frames have stopped, before what waited is reported. -/
def framesStopped (s : State) : State :=
  { s with
    frame := { s.frame with live := false, region := false, prog := [], waitSlot := none, issued := [] }, streams := []
    loss := { s.loss with regs := s.loss.pend.getD s.loss.regs, pend := none } }

theorem flushFaults_frame (s : State) :
    ReportOnly { s with flt := flushedFlt s } (flushFaults s) ∧ (flushFaults s).rings.held = s.rings.held :=
  List.foldlRecOn (motive := fun t : State => ReportOnly { s with flt := flushedFlt s } t ∧ t.rings.held = s.rings.held)
    _ _ ⟨.refl _, rfl⟩ (fun t ht r _ => ⟨ht.1.trans (putFault_reportOnly t r false), (putFault_held t r false).trans ht.2⟩)

/-- The frames stop: what waited is reported, and the job's own state stays. -/
theorem stopFrames_frame (s : State) :
    ReportOnly { framesStopped s with flt := flushedFlt s } (stopFrames s) ∧ (stopFrames s).rings.held = s.rings.held := by
  obtain ⟨hflush, hheld⟩ := flushFaults_frame (framesStopped s)
  obtain ⟨_, happly⟩ := applyPending_countOnly (flushFaults (framesStopped s))
  have hstop : stopFrames s = applyPending (flushFaults (framesStopped s)) := rfl
  rw [hstop, happly]
  exact ⟨hflush.trans ⟨_, _, _, _, _, _, _, rfl⟩, hheld⟩

/-- A change of the job state is reported (R291). -/
theorem setJobState_frame (s : State) (new : Nat) :
    ReportOnly { s with glob.jobState := new } (setJobState s new) ∧ (setJobState s new).rings.held = s.rings.held := by
  unfold setJobState
  split
  case isTrue h => subst h; exact ⟨.refl s, rfl⟩
  case isFalse => exact ⟨pushCq_reportOnly _ _ _ _ _, pushCq_held _ _ _ _ _⟩

/-- The state of a job that has paused, before what waited is reported. -/
def pausedJob (s : State) : State :=
  { framesStopped s with
    flt := flushedFlt s, glob := { s.glob with jobState := 5 }, job := { s.job with pauseNow := false }
    train := { s.train with restart := none } }

/-- A RUNNING job pauses: its frames stop, and it waits for no restart frame. -/
theorem pauseJob_frame (s : State) (h : s.glob.jobState = 4) :
    ReportOnly (pausedJob s) (pauseJob s) ∧ (pauseJob s).rings.held = s.rings.held := by
  obtain ⟨⟨_, _, _, _, _, _, _, hstop⟩, hheld⟩ := stopFrames_frame s
  have hrun : (stopFrames s).glob.jobState ≠ 6 := by rw [hstop]; exact fun h6 => absurd (h.symm.trans h6) (by decide)
  have hset : pauseJob s = { setJobState (stopFrames s) 5 with job.pauseNow := false, train.restart := none } := by
    rw [pauseJob, if_neg hrun]
  obtain ⟨⟨_, _, _, _, _, _, _, hpost⟩, hkept⟩ := setJobState_frame (stopFrames s) 5
  refine ⟨?_, ?_⟩
  · rw [hset, hpost, hstop]
    exact ⟨_, _, _, _, _, _, _, rfl⟩
  · rw [hset]
    exact hkept.trans hheld

/-- With no activation under way or waiting, nothing settles. -/
theorem settleAct_none (s : State) (hact : s.act = none) (hqueue : s.actQueue = []) : settleAct s = s := by
  have hnext : nextAct s = s := by simp [nextAct, hact, hqueue]
  have hseam : seamAct s = s := by simp [seamAct, hact]
  unfold settleAct
  split
  · exact hnext
  · exact List.foldlRecOn (motive := fun t : State => t = s) _ _ rfl (fun t ht _ _ => by rw [ht, hnext, hseam])

/-- A RUNNING job pauses, with no activation under way or waiting. -/
theorem settleAct_pauseJob (s : State) (h : s.glob.jobState = 4) (hact : s.act = none) (hqueue : s.actQueue = []) :
    settleAct (pauseJob s) = pauseJob s := by
  obtain ⟨⟨_, _, _, _, _, _, _, hpause⟩, _⟩ := pauseJob_frame s h
  exact settleAct_none _ (by rw [hpause]; exact hact) (by rw [hpause]; exact hqueue)

/-! ### The end of a step (R225, R229, R297) -/

/-- A write of firmware to memory without uncorrectable lines is a write. -/
theorem fwStore_of_good (s : State) (a : Nat) (bs : List Byte) (h : s.mem.bad = []) : fwStore s a bs = store s a bs := by
  rw [fwStore, failLines_of_good s a _ h]
  rfl

/-- T of a group advances, saturating (R225). -/
theorem peekN_bumpT (s : State) (g : Nat) (h : s.mem.bad = []) :
    peekN (bumpT s g) (groupAt s g + 20) 4 = satN 0xFFFFFFFF (peekN s (groupAt s g + 20) 4 + 1) := by
  have hread := peek_store s (groupAt s g + 20) (leBytes 4 (satN 0xFFFFFFFF (peekN s (groupAt s g + 20) 4 + 1))) h
  rw [leBytes_length] at hread
  have hfit : satN 0xFFFFFFFF (peekN s (groupAt s g + 20) 4 + 1) < 256 ^ 4 :=
    lt_of_le_of_lt (Nat.min_le_left _ _) (by decide)
  rw [bumpT, fwStore_of_good s _ _ h, peekN, hread, leNat_leBytes, Nat.mod_eq_of_lt hfit]

theorem bumpT_frame (s : State) (g : Nat) (h : s.mem.bad = []) :
    (∃ mem cnt, bumpT s g = { s with mem := mem, cnt := cnt }) ∧ SameOutside s (bumpT s g) (groupAt s g + 20) 4 := by
  rw [bumpT, fwStore_of_good s _ _ h]
  have hout := store_outside s (groupAt s g + 20) (leBytes 4 (satN 0xFFFFFFFF (peekN s (groupAt s g + 20) 4 + 1)))
  rw [leBytes_length] at hout
  exact ⟨store_frame s _ _, hout⟩

/-- A step of a RUNNING job that used one parameter group, with no allowance, no checkpoint, Colophon, NP1 or expert counts, no test
due and no activation. -/
structure StepsPlainly (s : State) (g : Nat) : Prop where
  running : s.glob.jobState = 4
  allowance : s.job.allowance = none
  ckpt : s.job.blk.ckptInterval = 0
  colo : s.colo.interval = 0
  np1 : s.job.blk.np1 = 0
  counts : s.glob.expertCounts = 0
  writing : s.train.writing = none
  retake : s.train.retake = none
  mirrored : s.train.remirror = false
  due : s.scan.due = []
  skipped : s.job.skipped = []
  good : s.mem.bad = []
  act : s.act = none
  queue : s.actQueue = []
  groups : s.job.optGroups = [g]

/-- Such a step closes with its counts and T of its group. -/
theorem StepsPlainly.closeStep_eq {s : State} {g : Nat} (h : StepsPlainly s g) : closeStep s = bumpT (postCounts s) g := by
  have hcounts : postCounts s = { s with
      experts.past := s.experts.past ++ [(s.job.step, s.experts.count.map (fun x => (x.1, x.2.first)))], experts.count := [] } := by
    simp [postCounts, h.counts]
  obtain ⟨⟨_, _, hbump⟩, _⟩ := bumpT_frame (postCounts s) g (by rw [hcounts]; exact h.good)
  have hskip : ¬ (postCounts s).job.skipped.contains s.job.step = true := by rw [hcounts]; simp [h.skipped]
  have hfold : (postCounts s).job.optGroups.foldl bumpT (postCounts s) = bumpT (postCounts s) g := by
    rw [show (postCounts s).job.optGroups = [g] by rw [hcounts]; exact h.groups]
    rfl
  have hwriting : (bumpT (postCounts s) g).train.writing = none := by rw [hbump, hcounts]; exact h.writing
  have hcolo : (bumpT (postCounts s) g).colo.interval = 0 := by rw [hbump, hcounts]; exact h.colo
  have hseal : ckptSeal (bumpT (postCounts s) g) = bumpT (postCounts s) g := by simp [ckptSeal, hwriting]
  simp only [closeStep, hskip, hfold, hseal, coloEnd, hcolo, if_true, Bool.false_eq_true, if_false]

/-- A step opens with nothing to do. -/
theorem openStep_plain (s : State) (hheld : s.rings.held = []) (hretake : s.train.retake = none) (hckpt : s.job.blk.ckptInterval = 0)
    (hcolo : s.colo.interval = 0) (hnp1 : s.job.blk.np1 = 0) (hmirrored : s.train.remirror = false) (hdue : s.scan.due = []) :
    openStep s = s := by
  have hfirst : coloBegin (ckptFor s s.job.step) s.job.step = s := firstStep_plain s hheld hretake hckpt hcolo
  simp [openStep, hfirst, np1Boundary, hnp1, remirrorBoundary, hmirrored, askTest, firstDue, testDeferred, hdue]

/-- The number of the step that follows where no STEP_BEGIN gives one. -/
def followingStep (s : State) : Nat := (s.job.step + 1) % 2 ^ 32

/-- The state in which the next step has begun. -/
def stepBegun (s : State) (g : Nat) : State :=
  setStep { bumpT (postCounts s) g with rings.held := [], job.allowance := none } (followingStep s)

/-- T of the group leaves the held descriptors as they are. -/
theorem StepsPlainly.bumped_held {s : State} {g : Nat} (h : StepsPlainly s g) :
    (bumpT (postCounts s) g).rings.held = s.rings.held := by
  have hcounts : postCounts s = { s with
      experts.past := s.experts.past ++ [(s.job.step, s.experts.count.map (fun x => (x.1, x.2.first)))], experts.count := [] } := by
    simp [postCounts, h.counts]
  obtain ⟨⟨_, _, hbump⟩, _⟩ := bumpT_frame (postCounts s) g (by rw [hcounts]; exact h.good)
  rw [hbump, hcounts]

/-- What the begun step leaves of the state before. -/
theorem StepsPlainly.stepBegun_frame {s : State} {g : Nat} (h : StepsPlainly s g) :
    ∃ experts mem cnt job loss, stepBegun s g = { s with
        experts := experts, mem := mem, cnt := cnt, job := job, loss := loss, rings := { s.rings with held := [] } } ∧
      job.blk = s.job.blk ∧
      peekN (stepBegun s g) (groupAt s g + 20) 4 = satN 0xFFFFFFFF (peekN s (groupAt s g + 20) 4 + 1) ∧
      SameOutside s (stepBegun s g) (groupAt s g + 20) 4 := by
  have hcounts : postCounts s = { s with
      experts.past := s.experts.past ++ [(s.job.step, s.experts.count.map (fun x => (x.1, x.2.first)))], experts.count := [] } := by
    simp [postCounts, h.counts]
  have hgood : (postCounts s).mem.bad = [] := by rw [hcounts]; exact h.good
  have hbumped := peekN_bumpT (postCounts s) g hgood
  obtain ⟨⟨mem, cnt, hbump⟩, hout⟩ := bumpT_frame (postCounts s) g hgood
  have hmem : (stepBegun s g).mem = (bumpT (postCounts s) g).mem := rfl
  have hbefore : peekN (postCounts s) (groupAt (postCounts s) g + 20) 4 = peekN s (groupAt s g + 20) 4 := by rw [hcounts]; rfl
  have hgroup : groupAt (postCounts s) g = groupAt s g := by rw [hcounts]; rfl
  refine ⟨(stepBegun s g).experts, mem, cnt, (stepBegun s g).job, (stepBegun s g).loss, ?_, ?_, ?_, ?_⟩
  · rw [stepBegun, hbump, hcounts]
    rfl
  · rw [stepBegun, hbump, hcounts]
    rfl
  · rw [hbefore, hgroup] at hbumped
    exact hbumped
  · intro x hx
    rw [hmem, hout x (by rwa [hgroup]), hcounts]

/-- The end of a step without an allowance, where no STEP_BEGIN waits: the descriptors of the boundary leave the queue, the next step
opens, and a PAUSE for it pauses the job. -/
theorem stepOver_unlimited (s : State) (hs : List Held) (opening : State → State) (hbegin : lastStepBegin hs = none)
    (hallow : s.job.allowance = none) :
    stepOver s hs opening =
      let b := boundaryHeld hs (followingStep s)
      let t := opening (setStep { closeStep s with
        rings.held := (closeStep s).rings.held.filter (fun h => !b.contains h), job.allowance := none } (followingStep s))
      completeAll (if b.any (fun h => h.op == .pause (followingStep s)) then settleAct (pauseJob t) else t) b 0 := by
  have hnext : stepAfter s hs = followingStep s := by simp only [stepAfter, hbegin]; rfl
  simp only [stepOver, hnext, hbegin, hallow]
  rfl

/-- The boundary of such a step, with held descriptors that all wait for it and none of which is a STEP_BEGIN: the step begins, and
pauses the job where one of them says so. -/
theorem StepsPlainly.stepOver_eq {s : State} {g : Nat} (h : StepsPlainly s g) (hs : List Held) (hheld : s.rings.held = hs)
    (hbegin : lastStepBegin hs = none) (hall : boundaryHeld hs (followingStep s) = hs) :
    stepOver s hs openStep = completeAll
      (if hs.any (fun x => x.op == .pause (followingStep s)) then settleAct (pauseJob (stepBegun s g)) else stepBegun s g) hs 0 := by
  obtain ⟨_, _, _, job, _, hbegun, hblk, _, _⟩ := h.stepBegun_frame
  have hopen : openStep (stepBegun s g) = stepBegun s g := by
    refine openStep_plain _ ?_ ?_ ?_ ?_ ?_ ?_ ?_ <;> rw [hbegun]
    · exact h.retake
    · exact (congrArg JobBlock.ckptInterval hblk).trans h.ckpt
    · exact h.colo
    · exact (congrArg JobBlock.np1 hblk).trans h.np1
    · exact h.mirrored
    · exact h.due
  have hkept : (bumpT (postCounts s) g).rings.held = hs := h.bumped_held.trans hheld
  have htaken : hs.filter (fun x => !hs.contains x) = [] := by
    simp [List.filter_eq_nil_iff]
  rw [stepOver_unlimited s hs openStep hbegin h.allowance, hall, h.closeStep_eq, hkept]
  dsimp only
  rw [htaken]
  exact congrArg (fun t => completeAll (if hs.any (fun x => x.op == .pause (followingStep s)) then settleAct (pauseJob t) else t) hs 0)
    hopen

/-- Settles O47: the boundary of a step that ends is the state `stepBegun`, completed and paused as the held descriptors say. -/
theorem stepBoundaryEndsTheStep : Obligations.StepBoundaryEndsTheStep := by
  unfold Obligations.StepBoundaryEndsTheStep
  intro s g ha hseam hphase
  have hexec : exec .stepBoundary s = .next (inPhase s 5 (fun t => if stepEnds t then endStep t else t)) :=
    whenAlive_next .stepBoundary s _ rfl ha
  rw [inPhase_due s 5 _ hseam (by rw [hphase])] at hexec
  have hends : stepEnds (phaseBegun s 5 (phaseCycle 5)) = stepEnds s := rfl
  refine ⟨fun hmore => ?_, fun hend hrun hallow hckpt hcolo hnp1 hcounts hwriting hretake hmirrored hdue hskipped hgood hact hqueue
    hgroups => ?_⟩
  · rw [hexec, hends, hmore]
    rfl
  · have hplain : StepsPlainly (phaseBegun s 5 (phaseCycle 5)) g :=
      ⟨hrun, hallow, hckpt, hcolo, hnp1, hcounts, hwriting, hretake, hmirrored, hdue, hskipped, hgood, hact, hqueue, hgroups⟩
    obtain ⟨_, _, _, _, _, hbegun, _, hT, hout⟩ := hplain.stepBegun_frame
    simp only [hends, hend, if_true] at hexec
    have hstepped : (s.job.step + 1) % 2 ^ 32 = followingStep (phaseBegun s 5 (phaseCycle 5)) := rfl
    have hsame : SameOutside s (stepBegun (phaseBegun s 5 (phaseCycle 5)) g) (groupAt s g + 20) 4 := hout
    have hnow (hs : List Held) (hlate : hs.filter (fun x => !x.late) = hs) (hheld : s.rings.held = hs) :
        endStep (phaseBegun s 5 (phaseCycle 5)) = stepOver (phaseBegun s 5 (phaseCycle 5)) hs openStep := by
      rw [endStep, heldNow, show (phaseBegun s 5 (phaseCycle 5)).rings.held = hs from hheld, hlate]
    refine ⟨fun hheld => ?_, fun h hheld => ?_⟩
    · rw [hnow [] rfl hheld, hplain.stepOver_eq [] hheld rfl rfl] at hexec
      refine ⟨stepBegun (phaseBegun s 5 (phaseCycle 5)) g, hexec, ?_⟩
      refine ⟨rfl, rfl, rfl, rfl, ?_, ?_, hT, hsame⟩
      · rw [hbegun]; exact hrun
      · rw [hbegun]; rfl
    · have hwaits : boundaryHeld [⟨h, .pause ((s.job.step + 1) % 2 ^ 32), false⟩] (followingStep (phaseBegun s 5 (phaseCycle 5))) =
          [⟨h, .pause ((s.job.step + 1) % 2 ^ 32), false⟩] := by
        rw [hstepped]
        simp [boundaryHeld]
      have hrunning : (stepBegun (phaseBegun s 5 (phaseCycle 5)) g).glob.jobState = 4 := by rw [hbegun]; exact hrun
      have hsettled := settleAct_pauseJob (stepBegun (phaseBegun s 5 (phaseCycle 5)) g) hrunning
        (by rw [hbegun]; exact hact) (by rw [hbegun]; exact hqueue)
      obtain ⟨⟨_, _, _, _, _, _, _, hpause⟩, hkept⟩ := pauseJob_frame (stepBegun (phaseBegun s 5 (phaseCycle 5)) g) hrunning
      obtain ⟨⟨_, _, _, _, _, _, _, hcompleted⟩, hleft⟩ := completeAll_frame
        (pauseJob (stepBegun (phaseBegun s 5 (phaseCycle 5)) g)) [⟨h, .pause ((s.job.step + 1) % 2 ^ 32), false⟩] 0
      rw [hnow [⟨h, .pause ((s.job.step + 1) % 2 ^ 32), false⟩] rfl hheld, hplain.stepOver_eq _ hheld rfl hwaits,
        if_pos (by rw [hstepped]; simp), hsettled] at hexec
      refine ⟨_, hexec, ?_, ?_, ?_, hleft.trans (hkept.trans ?_), ?_⟩
      · rw [hcompleted, hpause]; rfl
      · rw [hcompleted, hpause]; rfl
      · rw [hcompleted, hpause]; rfl
      · rw [hbegun]
      · intro x hx
        rw [hcompleted, hpause]
        exact hsame x hx

end Sys2Proof.Machine
end

section
/-! SUPPORT. The coordinator and its messages: rollbacks, spares and skipped steps. -/

namespace Sys2Proof.Machine

open Sys2Proof

/-! ### A message taken from where it waits (R258, R267) -/

theorem takeMsg_queuesOnly (s : State) (src : Nat) (pay : List Byte) : QueuesOnly s (takeMsg s src pay) := by
  unfold takeMsg
  dsimp only
  split
  · exact QueuesOnly.trans ⟨_, _, _, rfl⟩ (acknowledge_queuesOnly _ _ _)
  · split
    · exact QueuesOnly.trans ⟨_, _, _, rfl⟩ (acknowledge_queuesOnly _ _ _)
    · exact .refl s

/-- A command that is a message to the scheduler core, which serves and accepts it: the message is taken, and then acts. -/
theorem exec_message {c : Instr} {s : State} {src typ : Nat} {m : SvcMsg} (f : State → State)
    (hexec : exec c s = whenAlive c s (onMsg s src m typ f)) (hwf : c.wf = true) (ha : alive s = true) (htyp : m.typ = typ)
    (haway : schedAway s = false) (hacc : acceptsMsg s src typ m.job m.spare = true) :
    exec c s = .next (f (takeMsg s src (SvcMsg.bytes m))) := by
  rw [hexec, whenAlive_next c s _ hwf ha]
  simp [onMsg, htyp, haway, hacc]

/-- The fields of a well-formed message and its source fit their bytes. -/
theorem msg_wf (src : Nat) (m : SvcMsg) (hsrc : src < 2 ^ 24) (hwf : m.wf = true) : (fits 3 src && m.wf) = true := by
  rw [hwf, Bool.and_true]
  exact decide_eq_true hsrc

theorem SvcMsg.device_lt {m : SvcMsg} (h : m.wf = true) : m.device < 2 ^ 24 := by
  simp only [SvcMsg.wf, fits, Bool.and_eq_true, decide_eq_true_eq] at h
  obtain ⟨⟨⟨⟨⟨⟨⟨⟨_, _⟩, _⟩, hdevice⟩, _⟩, _⟩, _⟩, _⟩, _⟩ := h
  exact hdevice

/-! ### The coordinator's orders (R233, R234) -/

/-- A request in a job that has no rollback in force is ordered as a ROLLBACK, with nothing counted as not ready. -/
theorem opRollbackReq_new (s : State) (m : SvcMsg) (hco : isCoordinator s = true) (hrun : s.train.paused = false)
    (hcode : m.code ≠ 0x0F ∧ m.code ≠ 0x15) (hready : m.flags.testBit 1 = false) (hnone : s.train.incident = none) :
    opRollbackReq m s =
      sendRollback { s with train.notReady := 0 } m.step (s.glob.abortPolicy == 1 || m.flags.testBit 0) 0 none := by
  simp [opRollbackReq, hco, hrun, hcode.1, hcode.2, hready, sameIncident, hnone]

/-- A request for the pause is ordered as one. -/
theorem opRollbackReq_pause (s : State) (m : SvcMsg) (hco : isCoordinator s = true) (hrun : s.train.paused = false)
    (hcode : m.code = 0x0F ∨ m.code = 0x15) : opRollbackReq m s = pauseAll s m.code := by
  rcases hcode with h | h <;> simp [opRollbackReq, hco, hrun, h]

/-- While the job is paused, a request orders nothing. -/
theorem opRollbackReq_paused (s : State) (m : SvcMsg) (hpaused : s.train.paused = true) : opRollbackReq m s = s := by
  simp [opRollbackReq, hpaused]

/-- The step that a ROLLBACK goes to: the last checkpoint, or the step of the request. -/
def rollbackTarget (s : State) (step : Nat) (toCkpt : Bool) : Nat :=
  if toCkpt then (match s.train.committed with | some (n, _) => n | none => s.job.blk.startStep) else step

/-- The coordinator's side once it has ordered a ROLLBACK. -/
def rollbackOrdered (s : State) (step : Nat) (toCkpt : Bool) : State :=
  { s with train := { s.train with
      seq := nextSeq s, incident := some (step, (currentFrame s + s.job.blk.restartFrames) % 2 ^ 48)
      target := rollbackTarget s step toCkpt, toCkpt := toCkpt, ready := [] } }

/-- Beside the coordinator's side, a ROLLBACK that is sent concerns what waits to leave. -/
theorem sendRollback_wireOnly (s : State) (step : Nat) (toCkpt : Bool) (code : Nat) (extra : Option Nat) :
    WireOnly (rollbackOrdered s step toCkpt) (sendRollback s step toCkpt code extra) := by
  cases extra with
  | none => exact sendAll_wireOnly (rollbackOrdered s step toCkpt) _
  | some d => exact (sendAll_wireOnly (rollbackOrdered s step toCkpt) _).trans (sendSvc_wireOnly _ d _)

/-- The coordinator's side once it has paused the job. -/
def pauseOrdered (s : State) : State :=
  { s with train := { s.train with seq := nextSeq s, paused := true, incident := none } }

theorem pauseAll_wireOnly (s : State) (code : Nat) : WireOnly (pauseOrdered s) (pauseAll s code) :=
  sendAll_wireOnly (pauseOrdered s) _

/-- Settles O56: the orders are what the coordinator sends to every device, and a message taken changes queues only. -/
theorem coordinatorOrdersRollbacks : Obligations.CoordinatorOrdersRollbacks := by
  unfold Obligations.CoordinatorOrdersRollbacks
  intro s src m ha hsrc hwf _ haway hacc hco
  obtain ⟨ports, box, cnt, htake⟩ := takeMsg_queuesOnly s src (SvcMsg.bytes m)
  have hcoT : isCoordinator (takeMsg s src (SvcMsg.bytes m)) = true := by rw [htake]; exact hco
  refine ⟨fun htyp => ?_, fun htyp => ?_⟩
  · have hexec := exec_message (c := .rollbackReqReceive src m) (opRollbackReq m) rfl (msg_wf src m hsrc hwf) ha htyp haway
      (htyp ▸ hacc)
    refine ⟨fun hpaused => ?_, fun hrun hcode1 hcode2 hready hnone => ?_, fun hrun hcode => ?_⟩
    · rw [hexec, opRollbackReq_paused _ m (by rw [htake]; exact hpaused)]
    · rw [opRollbackReq_new _ m hcoT (by rw [htake]; exact hrun) ⟨hcode1, hcode2⟩ hready (by rw [htake]; exact hnone)] at hexec
      obtain ⟨_, _, _, hsent⟩ := sendRollback_wireOnly { takeMsg s src (SvcMsg.bytes m) with train.notReady := 0 } m.step
        ((takeMsg s src (SvcMsg.bytes m)).glob.abortPolicy == 1 || m.flags.testBit 0) 0 none
      refine ⟨_, hexec, ?_, ?_⟩
      · rw [htake]; rfl
      · rw [hsent, htake]
        exact ⟨rfl, rfl, rfl, rfl, rfl, rfl⟩
    · rw [opRollbackReq_pause _ m hcoT (by rw [htake]; exact hrun) hcode] at hexec
      obtain ⟨_, _, _, hsent⟩ := pauseAll_wireOnly (takeMsg s src (SvcMsg.bytes m)) m.code
      refine ⟨_, hexec, ?_, ?_⟩
      · rw [htake]; rfl
      · rw [hsent, htake]
        exact ⟨rfl, rfl, rfl, rfl⟩
  · have hexec := exec_message (c := .readyReceive src m) (opReady src m) rfl (msg_wf src m hsrc hwf) ha htyp haway
      (htyp ▸ hacc)
    have hseq : (takeMsg s src (SvcMsg.bytes m)).train = s.train := by rw [htake]
    refine ⟨fun hsame => ?_, fun hother => ?_⟩
    · rw [hexec, opReady, if_pos (by simp [hcoT, hseq, hsame]), hseq]
    · rw [hexec, opReady, if_neg (by simp [hseq, hother])]

/-! ### A lost device (R236 to R238) -/

/-- The coordinator takes the loss of another device of the list that is not lost yet. -/
theorem opDeviceLost_declared (s : State) (m : SvcMsg) (hco : isCoordinator s = true) (hin : s.job.blk.devices.contains m.device = true)
    (hhere : s.job.lost.contains m.device = false) : opDeviceLost m s = declareLost s m.device := by
  simp only [opDeviceLost, hco, Bool.true_or, Bool.not_true, hhere, hin, Bool.or_self, Bool.false_eq_true, if_false]

/-- The state with a device entered among the lost ones. -/
def withLost (s : State) (d : Nat) : State := { s with job := { s.job with lost := insertNat d s.job.lost } }

/-- The record that no spare is left for a device (R238). -/
def spareRecord (d : Nat) : FaultRec := { code := 0x15, sev := 4, detail := 3 + d * 2 ^ 8, src := 6 }

/-- The message that gives the place of `d` to the spare `sp`. -/
def takeoverMsg (s : State) (d sp : Nat) : SvcMsg :=
  { svc s 6 0 0 s.job.step s.train.seq (currentFrame s) with device := d, spare := sp }

/-- The state once TAKEOVER has left for every device and for the spare. -/
def takeoverSent (s : State) (d sp : Nat) : State :=
  sendSvc (sendAll (withLost s d) (takeoverMsg (withLost s d) d sp)) sp (takeoverMsg (withLost s d) d sp)

theorem takeoverSent_wireOnly (s : State) (d sp : Nat) : WireOnly (withLost s d) (takeoverSent s d sp) :=
  (sendAll_wireOnly _ _).trans (sendSvc_wireOnly _ _ _)

/-- Another device than the coordinator declared lost, with no spare left, pauses the job. -/
theorem declareLost_exhausted (s : State) (d : Nat) (hother : d ≠ coordinator s) (hnone : freeSpare (withLost s d) = none) :
    declareLost s d = pauseAll (raiseFault (withLost s d) (spareRecord d)) 0x15 := by
  have hfree : freeSpare { s with job.lost := insertNat d s.job.lost } = none := hnone
  simp only [declareLost, hother, decide_false, Bool.false_eq_true, if_false, hfree]
  rfl

/-- Another device than the coordinator declared lost gives its place to the first free spare. -/
theorem declareLost_spare (s : State) (d sp : Nat) (hother : d ≠ coordinator s) (hsome : freeSpare (withLost s d) = some sp) :
    declareLost s d = sendRollback { takeoverSent s d sp with train.notReady := 0 } s.job.step true 0 (some sp) := by
  have hfree : freeSpare { s with job.lost := insertNat d s.job.lost } = some sp := hsome
  simp only [declareLost, hother, decide_false, Bool.false_eq_true, if_false, hfree]
  rfl

/-- A free spare is one of the list that has no place in the job and is not lost. -/
theorem freeSpare_some {s : State} {sp : Nat} (h : freeSpare s = some sp) :
    sp ∈ s.job.blk.spares ∧ sp ∉ s.job.blk.devices ∧ sp ∉ s.job.lost := by
  have hp := List.find?_some h
  exact ⟨List.mem_of_find?_eq_some h, by simpa using hp⟩

/-- DEVICE_LOST without a spare left (R238). -/
theorem declareLost_exhausted_frame (s : State) (d : Nat) (hother : d ≠ coordinator s) (hnone : freeSpare (withLost s d) = none)
    (hd : d < 2 ^ 24) : (declareLost s d).job.lost = insertNat d s.job.lost ∧ (declareLost s d).train.paused = true ∧
      rd (declareLost s d).flt.last 0 1 = 0x15 ∧ rd (declareLost s d).flt.last 32 8 = 3 + d * 2 ^ 8 ∧
      (declareLost s d).mem = s.mem := by
  obtain ⟨_, _, _, _, _, _, _, hraised⟩ := raiseFault_reportOnly (withLost s d) (spareRecord d)
  obtain ⟨_, hmem, _, hlast⟩ := raiseFault_frame (withLost s d) (spareRecord d)
  obtain ⟨_, _, _, hpause⟩ := pauseAll_wireOnly (raiseFault (withLost s d) (spareRecord d)) 0x15
  have hcode : rd (raiseFault (withLost s d) (spareRecord d)).flt.last 0 1 = 0x15 := by rw [hlast, rd_bytes_code]; rfl
  have hdetail : rd (raiseFault (withLost s d) (spareRecord d)).flt.last 32 8 = 3 + d * 2 ^ 8 := by
    rw [hlast, rd_bytes_detail]
    exact Nat.mod_eq_of_lt (show 3 + d * 2 ^ 8 < 2 ^ 64 by omega)
  rw [declareLost_exhausted s d hother hnone, hpause]
  refine ⟨?_, rfl, hcode, hdetail, hmem⟩
  show (raiseFault (withLost s d) (spareRecord d)).job.lost = _
  rw [hraised]
  rfl

/-! ### The place of a lost device, and a skipped step (R164, R236, R240) -/

/-- A TAKEOVER that concerns neither the ward, nor the buddy, nor the coordinator enters the spare in the lists. -/
theorem opTakeover_lists (s : State) (src : Nat) (m : SvcMsg) (hjob : jobExists s = true) (hward : s.job.blk.ward ≠ m.device)
    (hbuddy : s.job.blk.buddy ≠ m.device) (hco : m.device ≠ s.job.blk.devices.headD s.glob.deviceId) :
    opTakeover src m s = { s with
      job.blk.devices := swapIn m.device m.spare s.job.blk.devices, job.lost := insertNat m.device s.job.lost
      train.ownerFix := s.train.ownerFix ++ [(m.device, m.spare)] } := by
  simp only [opTakeover, hjob, hward, hbuddy, hco, decide_false, Bool.or_false, Bool.not_true, Bool.false_eq_true, if_false]

/-- A SKIP of a step of which no optimiser or mask record has issued marks it. -/
theorem opSkip_marks (s : State) (m : SvcMsg) (hnow : m.step ≠ s.job.step ∨ s.job.optRan = false)
    (hearlier : s.job.optSteps.contains m.step = false) (hnew : s.job.skipped.contains m.step = false) :
    opSkip m s = devEvent { s with job.skipped := insertNat m.step s.job.skipped } 0x4A 1 := by
  have hlate : ¬ (s.job.optSteps.contains m.step || (m.step = s.job.step && s.job.optRan)) = true := by
    rw [hearlier]
    rcases hnow with h | h <;> simp [h]
  rw [opSkip, if_neg hlate, markSkip, if_neg (by rw [hnew]; decide)]

/-- The record of a SKIP that comes too late. -/
def lateSkipRecord : FaultRec := { code := 0x0D, detail := 0xFF * 2 ^ 56, src := 6 }

/-- A SKIP of a step of which such a record has issued is a fault of the job's work. -/
theorem opSkip_late (s : State) (m : SvcMsg)
    (hlate : m.step = s.job.step ∧ s.job.optRan = true ∨ s.job.optSteps.contains m.step = true) :
    opSkip m s = abortWith s lateSkipRecord true := by
  refine if_pos ?_
  rcases hlate with ⟨hstep, hran⟩ | hearlier
  · simp [hstep, hran]
  · rw [hearlier]; rfl

/-- The abort of a frame that runs asks for a rollback with the record's code, and leaves the job as it is (R233). -/
theorem abortWith_running_request (s : State) (r : FaultRec) (force : Bool) (hlive : s.frame.live = true)
    (hrun : s.frame.aborted = false) : (abortWith s r force).job = s.job ∧
      (abortWith s r force).train.waiting.isSome = true ∧ (abortWith s r force).train.waitCode = r.code := by
  obtain ⟨flags, hsplit⟩ :
      ∃ flags, abortWith s r force = requestRollback (haltFrame (raiseFault s { r with cause := true, sev := 2 })) flags r.code :=
    ⟨_, if_pos (by simp [hlive, hrun])⟩
  obtain ⟨_, _, _, _, _, _, _, hraised⟩ := raiseFault_reportOnly s { r with cause := true, sev := 2 }
  obtain ⟨_, _, _, hsent⟩ := requestRollback_wireOnly (haltFrame (raiseFault s { r with cause := true, sev := 2 })) flags r.code
  rw [hsplit, hsent]
  refine ⟨?_, rfl, rfl⟩
  show (raiseFault s { r with cause := true, sev := 2 }).job = _
  rw [hraised]

/-- Settles O58: the coordinator's TAKEOVER and ROLLBACK as they leave, the lists of each device, and the two cases of a SKIP. -/
theorem sparesTakeOverAndStepsAreSkipped : Obligations.SparesTakeOverAndStepsAreSkipped := by
  unfold Obligations.SparesTakeOverAndStepsAreSkipped
  intro s src m ha hsrc hwf hjob haway hacc
  obtain ⟨ports, box, cnt, htake⟩ := takeMsg_queuesOnly s src (SvcMsg.bytes m)
  have hargs := msg_wf src m hsrc hwf
  refine ⟨fun htyp hco hother hin hhere => ?_, fun htyp hward hbuddy hhead => ?_, fun htyp => ⟨?_, ?_⟩⟩
  · have hexec := exec_message (c := .deviceLostReceive src m) (opDeviceLost m) rfl hargs ha htyp haway (htyp ▸ hacc)
    rw [opDeviceLost_declared _ m (by rw [htake]; exact hco) (by rw [htake]; exact hin) (by rw [htake]; exact hhere)] at hexec
    have hotherT : m.device ≠ coordinator (takeMsg s src (SvcMsg.bytes m)) := by rw [htake]; exact hother
    have hfree : freeSpare (withLost (takeMsg s src (SvcMsg.bytes m)) m.device) =
        freeSpare { s with job := { s.job with lost := insertNat m.device s.job.lost } } := by rw [htake]; rfl
    refine ⟨fun hnone => ?_, fun sp hsome => ?_⟩
    · obtain ⟨hlost, hpaused, hcode, hdetail, hmem⟩ :=
        declareLost_exhausted_frame _ m.device hotherT (hfree.trans hnone) (SvcMsg.device_lt hwf)
      exact ⟨_, hexec, by rw [hlost, htake], hpaused, hcode, hdetail, by rw [hmem, htake]⟩
    · obtain ⟨hspare, hunused, hlost⟩ := freeSpare_some hsome
      rw [declareLost_spare _ m.device sp hotherT (hfree.trans hsome)] at hexec
      have hnotLost := (mem_insertNat_iff sp m.device s.job.lost).not.mp hlost
      have hmsgs := takeoverSent_wireOnly (takeMsg s src (SvcMsg.bytes m)) m.device sp
      refine ⟨_, hexec, hspare, hunused, fun h => hnotLost (.inr h), fun h => hnotLost (.inl h), ?_, ?_⟩
      · rw [htake]; rfl
      · obtain ⟨_, _, _, hmsgs⟩ := hmsgs
        obtain ⟨_, _, _, hsent⟩ := sendRollback_wireOnly
          { takeoverSent (takeMsg s src (SvcMsg.bytes m)) m.device sp with train.notReady := 0 }
          (takeMsg s src (SvcMsg.bytes m)).job.step true 0 (some sp)
        rw [hsent, hmsgs, htake]
        exact ⟨rfl, rfl, rfl, rfl, rfl, rfl, rfl, rfl⟩
  · have hexec := exec_message (c := .takeoverReceive src m) (opTakeover src m) rfl hargs ha htyp haway (htyp ▸ hacc)
    rw [opTakeover_lists _ src m (by rw [htake]; exact hjob) (by rw [htake]; exact hward) (by rw [htake]; exact hbuddy)
      (by rw [htake]; exact hhead), htake] at hexec
    exact ⟨_, hexec, rfl, rfl, rfl, rfl, rfl, rfl, rfl⟩
  · intro hnow hearlier hnew
    have hexec := exec_message (c := .skipReceive src m) (opSkip m) rfl hargs ha htyp haway (htyp ▸ hacc)
    rw [opSkip_marks _ m (by rw [htake]; exact hnow) (by rw [htake]; exact hearlier) (by rw [htake]; exact hnew), htake] at hexec
    exact ⟨_, hexec, rfl, rfl, rfl, rfl⟩
  · intro hlate hlive hrun
    have hexec := exec_message (c := .skipReceive src m) (opSkip m) rfl hargs ha htyp haway (htyp ▸ hacc)
    rw [opSkip_late _ m (by rw [htake]; exact hlate)] at hexec
    have hliveT : (takeMsg s src (SvcMsg.bytes m)).frame.live = true := by rw [htake]; exact hlive
    have hrunT : (takeMsg s src (SvcMsg.bytes m)).frame.aborted = false := by rw [htake]; exact hrun
    obtain ⟨habort, hmem, hcode⟩ := abortWith_running _ lateSkipRecord true hliveT hrunT
    obtain ⟨hkept, hwaits, hreason⟩ := abortWith_running_request _ lateSkipRecord true hliveT hrunT
    exact ⟨_, hexec, habort, by rw [hkept, htake], by rw [hmem, htake], hcode, hwaits, hreason⟩

end Sys2Proof.Machine
end

section
/-! SUPPORT. A device that obeys a rollback, restarts, and gives up waiting (R234, R353, R355). -/

namespace Sys2Proof.Machine

open Sys2Proof

/-! ### The abort of a rollback, and what every rollback does first -/

/-- `f` is the frame of `s` with a frame that runs aborted in this cycle, where it was not aborted before. -/
structure AbortsFrame (s : State) (f : Frame) : Prop where
  aborted : s.frame.live = true → f.aborted = true
  now : s.frame.live = true → s.frame.aborted = false → f.abortedAt = some s.frame.cycle
  idle : s.frame.live = false → f = s.frame

/-- The abort for a rollback raises no record: it halts the frame. -/
theorem abortForRollback_frame (s : State) :
    ∃ f, AbortsFrame s f ∧ WireOnly { s with frame := f } (abortForRollback s) := by
  unfold abortForRollback
  split
  case isTrue h =>
    rw [Bool.and_eq_true] at h
    obtain ⟨hlive, _⟩ := h
    exact ⟨(haltFrame s).frame, ⟨fun _ => rfl, fun _ _ => rfl, fun h => absurd (hlive.symm.trans h) (by decide)⟩,
      WireOnly.trans ⟨_, _, _, rfl⟩ (devEvent_wireOnly (haltFrame s) 0x4D 1)⟩
  case isFalse h =>
    refine ⟨s.frame, ⟨fun hlive => ?_, fun hlive hrun => ?_, fun _ => rfl⟩, .refl s⟩
    · simpa [hlive] using h
    · simp [hlive, hrun] at h

/-- The state in which a device has obeyed a ROLLBACK, with the frame `f` and the coordinator `acting`. -/
def rolledBack (s : State) (m : SvcMsg) (f : Frame) (acting : Option Nat) : State :=
  { s with
    frame := f
    train := { s.train with
      acting := acting, obeyed := m.seq, waiting := none, restart := none, restoring := false, fromMirror := false
      sentReady := false }
    experts := { s.experts with
      run := [], count := [], past := s.experts.past.filter (fun p => m.flags.testBit 5 || decide (p.1 < m.step)) }
    colo := { s.colo with own := [], got := [] } }

theorem beginRollback_frame (s : State) (src : Nat) (m : SvcMsg) (hwriting : s.train.writing = none) :
    ∃ f acting, AbortsFrame s f ∧ WireOnly (rolledBack s m f acting) (beginRollback s src m) := by
  obtain ⟨acting, hacting⟩ : ∃ acting, (if s.train.asSpare.isSome || (src ≠ coordinator s && src = deputyOf s)
      then { s with train.acting := some src } else s) = { s with train.acting := acting } := by
    split
    · exact ⟨_, rfl⟩
    · exact ⟨s.train.acting, rfl⟩
  obtain ⟨f, hf, _, _, _, habort⟩ := abortForRollback_frame { s with train.acting := acting }
  have hdrop : dropWriting (abortForRollback { s with train.acting := acting }) = abortForRollback { s with train.acting := acting } := by
    have hnone : (abortForRollback { s with train.acting := acting }).train.writing = none := by rw [habort]; exact hwriting
    simp only [dropWriting, hnone]
  refine ⟨f, acting, ⟨hf.aborted, hf.now, hf.idle⟩, ?_⟩
  unfold beginRollback
  dsimp only
  rw [hacting, hdrop, habort]
  exact ⟨_, _, _, rfl⟩

/-- The same, where the ROLLBACK has just been taken. -/
theorem beginRollback_taken (s : State) (src : Nat) (m : SvcMsg) (hwriting : s.train.writing = none) :
    ∃ f acting, AbortsFrame s f ∧ WireOnly (rolledBack s m f acting) (beginRollback (takeMsg s src (SvcMsg.bytes m)) src m) := by
  obtain ⟨ports, box, cnt, htake⟩ := takeMsg_queuesOnly s src (SvcMsg.bytes m)
  obtain ⟨f, acting, hf, hbegun⟩ :=
    beginRollback_frame { s with ports := ports, fab := { s.fab with selfBox := box }, cnt := cnt } src m hwriting
  rw [htake]
  exact ⟨f, acting, ⟨hf.aborted, hf.now, hf.idle⟩, WireOnly.trans ⟨_, _, _, rfl⟩ hbegun⟩

/-! ### A ROLLBACK and the order to pause (R233, R234) -/

/-- READY leaves, and is noted. -/
theorem sendReady_wireOnly (s : State) : WireOnly { s with train.sentReady := true } (sendReady s) :=
  sendSvc_wireOnly _ _ _

theorem readyNow_free (s : State) (h : testHolds s = false) : readyNow s = sendReady s := by
  rw [readyNow, if_neg (by rw [h]; decide)]

/-- The state in which the restart frame and the step of a ROLLBACK are set. -/
def restartSet (t : State) (m : SvcMsg) : State :=
  { t with train := { t.train with restart := some m.frame, restartStep := m.step } }

/-- A ROLLBACK obeyed sets its restart frame; a device restores a checkpoint first where it says so, and is ready otherwise. -/
theorem opRollback_obeys (s : State) (src : Nat) (m : SvcMsg) (hnew : newerSeq m.seq s.train.obeyed = true)
    (hstep : m.flags.testBit 5 = false) (hrun : s.train.pausedRb = false)
    (hpower : (beginRollback s src m).power.level < 2) (hasked : (beginRollback s src m).scan.asked = none)
    (htest : testHolds (beginRollback s src m) = false) :
    opRollback src m s =
      if m.flags.testBit 2 then { restartSet (beginRollback s src m) m with train.restoring := true }
      else sendReady (restartSet (beginRollback s src m) m) := by
  have hready : readyNow (restartSet (beginRollback s src m) m) = sendReady (restartSet (beginRollback s src m) m) :=
    readyNow_free _ htest
  rw [← hready]
  simp only [opRollback, hstep, hnew, hrun, Nat.not_le.mpr hpower, hasked, Bool.not_true, Bool.or_self, Bool.false_eq_true, if_false]
  rfl

/-- An older ROLLBACK, and an older order to pause, do nothing. -/
theorem opRollback_older (s : State) (src : Nat) (m : SvcMsg) (hold : newerSeq m.seq s.train.obeyed = false) :
    opRollback src m s = s ∧ opRollbackPause src m s = s := by
  simp [opRollback, opRollbackPause, hold]

/-- The order to pause obeyed pauses the job. -/
theorem opRollbackPause_obeys (s : State) (src : Nat) (m : SvcMsg) (hnew : newerSeq m.seq s.train.obeyed = true)
    (hpause : m.flags.testBit 5 = true) (hjob : jobExists (beginRollback s src m) = true) :
    opRollbackPause src m s = settleAct (pauseJob { beginRollback s src m with train.pausedRb := true }) := by
  have hexists : jobExists { beginRollback s src m with train.pausedRb := true } = true := hjob
  simp only [opRollbackPause, hpause, hnew, hexists, Bool.not_true, Bool.or_self, Bool.false_eq_true, if_false, if_true]

/-! ### The restart frame (R234, R355) -/

/-- The state at the restart frame `rf`, once the target step is the job's. -/
def restartedAt (s : State) (rf : Nat) : State :=
  { s with
    job := { s.job with
      step := s.train.restartStep, f0 := rf, optIssued := false, optRan := false, optGroups := [], stale := []
      optSteps := s.job.optSteps.filter (fun n => decide (n < s.train.restartStep)), skipSent := false
      skipped := [], lossFlagged := false, nonfinite := false }
    train := { s.train with
      restart := none, sentReady := false, waiting := none
      acting := if s.train.coTaken then none else s.train.acting, coTaken := false }
    loss := { s.loss with spike := false, nonfinite := false }
    frame := { s.frame with aborted := false, exceeded := false } }

/-- No checkpoint begins with a step where none is due. -/
theorem ckptFor_plain (s : State) (n : Nat) (hheld : s.rings.held = []) (hretake : s.train.retake = none)
    (hckpt : s.job.blk.ckptInterval = 0) : ckptFor s n = s := by
  have hsame : ({ s with train.retake := none, rings.held := [] } : State) = s := by rw [← hheld, ← hretake]
  have hbegin : ckptBegin s n = s := by simp [ckptBegin, hheld, hretake, hckpt, hsame]
  simp [ckptFor, hbegin]

/-- A ready device begins the target step at its restart frame; beside that only the digest of a Colophon step is to be begun. -/
theorem opRestart_ready (s : State) (rf : Nat) (hrestart : s.train.restart = some rf) (hdue : laterFrame rf (currentFrame s) = false)
    (hready : s.train.sentReady = true) (htest : testHolds s = false) (hretake : s.train.retake = none)
    (hckpt : s.job.blk.ckptInterval = 0) (hheld : s.rings.held = []) :
    opRestart s = remirror (coloBegin (restartedAt s rf) s.train.restartStep) := by
  have hnow : ¬ laterFrame rf (currentFrame s) = true := by rw [hdue]; decide
  have hgo : ¬ (!s.train.sentReady || testHolds s) = true := by
    rw [hready, htest]; decide
  rw [opRestart, hrestart]
  dsimp only
  rw [if_neg hnow, if_neg hgo]
  exact congrArg (fun t => remirror (coloBegin t s.train.restartStep))
    (ckptFor_plain (restartedAt s rf) s.train.restartStep hheld hretake hckpt)

theorem remirror_none (s : State) (h : s.train.remirror = false) : remirror s = s := by
  unfold remirror
  split
  · rw [if_neg (by rw [h]; decide)]
  · rfl

/-- The digest of a Colophon step begins at zero. -/
theorem coloBegin_due (s : State) (n : Nat) (hcolo : s.colo.interval ≠ 0) (hn : n % s.colo.interval = 0) (hgood : s.mem.bad = []) :
    coloBegin s n = store s s.colo.digest (leBytes 32 0) := by
  rw [coloBegin, if_pos (by simp [hcolo, hn]), fwStore_of_good s _ _ hgood]

theorem coloBegin_none (s : State) (n : Nat) (hcolo : s.colo.interval = 0) : coloBegin s n = s := by
  rw [coloBegin, if_neg (by simp [hcolo])]

/-! ### The wait for a ROLLBACK (R234) -/

/-- The record of a device whose wait for a ROLLBACK is over. -/
def waitRecord (s : State) : FaultRec := { code := s.train.waitCode, sev := 4, src := 6 }

theorem opRollbackTimeout_due (s : State) (f : Nat) (hwaits : s.train.waiting = some f) (hjob : jobExists s = true)
    (hset : s.job.blk.rollbackWait ≠ 0) (hlong : s.job.blk.rollbackWait ≤ (currentFrame s + 2 ^ 48 - f) % 2 ^ 48) :
    opRollbackTimeout s = settleAct (pauseJob { raiseFault s (waitRecord s) with train.waiting := none }) := by
  simp only [opRollbackTimeout, hwaits, hjob, hset, Nat.not_lt.mpr hlong, decide_false, Bool.not_true, Bool.or_self,
    Bool.false_eq_true, if_false]
  rfl

/-! ### The claim -/

/-- A ROLLBACK, or an order to pause, as a device takes it. -/
theorem rollbackMessages (s : State) (src : Nat) (m : SvcMsg) (ha : alive s = true) (hsrc : src < 2 ^ 24) (hwf : m.wf = true)
    (hjob : jobExists s = true) (haway : schedAway s = false) (htyp : m.typ = 2) (hacc : acceptsMsg s src 2 m.job m.spare = true) :
    (newerSeq m.seq s.train.obeyed = true → m.flags.testBit 5 = false → s.train.pausedRb = false → s.power.level < 2 →
      s.scan.asked = none → s.train.writing = none → testHolds s = false → Answers (.rollbackReceive src m) s (fun t =>
        t.train.obeyed = m.seq ∧ t.train.restart = some m.frame ∧ t.train.restartStep = m.step ∧ t.train.waiting = none ∧
        t.train.restoring = m.flags.testBit 2 ∧ t.train.sentReady = !m.flags.testBit 2 ∧ t.mem = s.mem ∧ t.flt = s.flt ∧
        t.job = s.job ∧ t.glob = s.glob ∧ t.colo.own = [] ∧
        (s.frame.live = true → t.frame.aborted = true ∧ (s.frame.aborted = false → t.frame.abortedAt = some s.frame.cycle)) ∧
        (s.frame.live = false → t.frame = s.frame))) ∧
    (newerSeq m.seq s.train.obeyed = false →
      exec (.rollbackReceive src m) s = .next (takeMsg s src (SvcMsg.bytes m)) ∧
      exec (.rollbackPauseReceive src m) s = .next (takeMsg s src (SvcMsg.bytes m))) ∧
    (newerSeq m.seq s.train.obeyed = true → m.flags.testBit 5 = true → s.glob.jobState = 4 → s.train.writing = none →
      s.act = none → s.actQueue = [] → Answers (.rollbackPauseReceive src m) s (fun t =>
        t.glob.jobState = 5 ∧ t.frame.live = false ∧ t.train.pausedRb = true ∧ t.train.restart = none ∧
        t.train.obeyed = m.seq ∧ t.mem = s.mem ∧ t.job.step = s.job.step ∧ t.experts.past = s.experts.past)) := by
  obtain ⟨_, _, _, htake⟩ := takeMsg_queuesOnly s src (SvcMsg.bytes m)
  have hargs := msg_wf src m hsrc hwf
  have hstep := exec_message (c := .rollbackReceive src m) (opRollback src m) rfl hargs ha htyp haway hacc
  have hpaused := exec_message (c := .rollbackPauseReceive src m) (opRollbackPause src m) rfl hargs ha htyp haway hacc
  have hseq : (takeMsg s src (SvcMsg.bytes m)).train = s.train := by rw [htake]
  refine ⟨fun hnew hback hrun hpower hasked hwriting htest => ?_, fun hold => ?_, fun hnew hpause h4 hwriting hact hqueue => ?_⟩
  · obtain ⟨f, acting, hframe, _, _, _, hbegun⟩ := beginRollback_taken s src m hwriting
    rw [opRollback_obeys (takeMsg s src (SvcMsg.bytes m)) src m (by rw [hseq, hnew]) hback (by rw [hseq, hrun])
      (by rw [hbegun]; exact hpower) (by rw [hbegun]; exact hasked) (by rw [hbegun]; exact htest)] at hstep
    refine ⟨_, hstep, ?_⟩
    cases hrestore : m.flags.testBit 2 with
    | true =>
      rw [if_pos rfl, hbegun]
      exact ⟨rfl, rfl, rfl, rfl, rfl, rfl, rfl, rfl, rfl, rfl, rfl, fun h => ⟨hframe.aborted h, hframe.now h⟩, hframe.idle⟩
    | false =>
      obtain ⟨_, _, _, hsent⟩ := sendReady_wireOnly (restartSet (beginRollback (takeMsg s src (SvcMsg.bytes m)) src m) m)
      rw [if_neg Bool.false_ne_true, hsent, hbegun]
      exact ⟨rfl, rfl, rfl, rfl, rfl, rfl, rfl, rfl, rfl, rfl, rfl, fun h => ⟨hframe.aborted h, hframe.now h⟩, hframe.idle⟩
  · obtain ⟨hroll, hpause⟩ := opRollback_older (takeMsg s src (SvcMsg.bytes m)) src m (by rw [hseq, hold])
    exact ⟨by rw [hstep, hroll], by rw [hpaused, hpause]⟩
  · obtain ⟨f, acting, _, _, _, _, hbegun⟩ := beginRollback_taken s src m hwriting
    have hstate : (beginRollback (takeMsg s src (SvcMsg.bytes m)) src m).glob.jobState = 4 := by rw [hbegun]; exact h4
    rw [opRollbackPause_obeys _ src m (by rw [hseq, hnew]) hpause (by rw [hbegun]; exact hjob),
      settleAct_pauseJob { beginRollback (takeMsg s src (SvcMsg.bytes m)) src m with train.pausedRb := true } hstate
        (by rw [hbegun]; exact hact) (by rw [hbegun]; exact hqueue)] at hpaused
    obtain ⟨⟨_, _, _, _, _, _, _, hpaused5⟩, _⟩ :=
      pauseJob_frame { beginRollback (takeMsg s src (SvcMsg.bytes m)) src m with train.pausedRb := true } hstate
    have hpast : s.experts.past.filter (fun p => m.flags.testBit 5 || decide (p.1 < m.step)) = s.experts.past := by
      simp [hpause]
    refine ⟨_, hpaused, ?_⟩
    rw [hpaused5, hbegun]
    exact ⟨rfl, rfl, rfl, rfl, rfl, rfl, rfl, hpast⟩

/-- A device obeys a ROLLBACK, restarts at its frame, and pauses by itself where none comes. -/
theorem rollbackIsObeyed_here : Claim.RollbackIsObeyed := by
  unfold Claim.RollbackIsObeyed
  intro s src m ha hsrc hwf hjob haway
  refine ⟨rollbackMessages s src m ha hsrc hwf hjob haway,
    fun rf hrestart hdue hready htest hremirror hretake hckpt hheld => ?_, fun f hwaits hset h4 hact hqueue hlong => ?_⟩
  · have hexec : exec .restartFrame s = .next (remirror (coloBegin (restartedAt s rf) s.train.restartStep)) := by
      have hnext : exec .restartFrame s = .next (if jobExists s then opRestart s else spareLate s) :=
        whenAlive_next .restartFrame s _ rfl ha
      rw [hnext, if_pos hjob, opRestart_ready s rf hrestart hdue hready htest hretake hckpt hheld]
    refine ⟨fun hcolo hstep hgood => ?_, fun hcolo => ?_⟩
    · obtain ⟨_, _, hstored⟩ := store_frame (restartedAt s rf) s.colo.digest (leBytes 32 0)
      have hzero := peek_store (restartedAt s rf) s.colo.digest (leBytes 32 0) hgood
      have hout := store_outside (restartedAt s rf) s.colo.digest (leBytes 32 0)
      rw [leBytes_length] at hzero hout
      have hdigest : coloBegin (restartedAt s rf) s.train.restartStep = store (restartedAt s rf) s.colo.digest (leBytes 32 0) :=
        coloBegin_due (restartedAt s rf) s.train.restartStep hcolo hstep hgood
      rw [hdigest, remirror_none _ (by rw [hstored]; exact hremirror)] at hexec
      exact ⟨_, hexec, by rw [hstored]; rfl, hzero, hout⟩
    · rw [coloBegin_none (restartedAt s rf) _ hcolo, remirror_none (restartedAt s rf) hremirror] at hexec
      exact ⟨_, hexec, rfl, rfl, rfl, rfl, rfl, rfl, rfl, rfl, rfl, rfl, rfl⟩
  · obtain ⟨_, _, _, _, _, _, _, hraised⟩ := raiseFault_reportOnly s (waitRecord s)
    obtain ⟨_, hmem, hnext, _⟩ := raiseFault_frame s (waitRecord s)
    have hcode := raiseFault_code s (waitRecord s)
    have hstate : (raiseFault s (waitRecord s)).glob.jobState = 4 := by rw [hraised]; exact h4
    have hexec : exec .rollbackWaitTimeout s = .next (opRollbackTimeout s) := whenAlive_next .rollbackWaitTimeout s _ rfl ha
    rw [opRollbackTimeout_due s f hwaits hjob hset hlong,
      settleAct_pauseJob { raiseFault s (waitRecord s) with train.waiting := none } hstate
        (by rw [hraised]; exact hact) (by rw [hraised]; exact hqueue)] at hexec
    obtain ⟨⟨_, _, _, _, _, _, _, hpaused⟩, _⟩ :=
      pauseJob_frame { raiseFault s (waitRecord s) with train.waiting := none } hstate
    refine ⟨_, hexec, ?_⟩
    rw [hpaused]
    exact ⟨rfl, rfl, rfl, hmem, hnext, hcode⟩

end Sys2Proof.Machine
end

section
/-! SUPPORT. The restore of a checkpoint (R231, R234). -/

namespace Sys2Proof.Machine

open Sys2Proof

/-! ### The regions that come back -/

/-- The writes that bring the regions of a slot image back. -/
def imageWrites (img : List Byte) : List (Nat × List Byte) :=
  (regionPlaces 4096 (imageRegions img)).map (fun r => (r.1, slice img r.2.2 r.2.1))

/-- Writes of firmware to memory without uncorrectable lines are writes. -/
theorem fwStoreAll_of_good (s : State) (runs : List (Nat × List Byte)) (hgood : s.mem.bad = []) :
    runs.foldl (fun t r => fwStore t r.1 r.2) s = runs.foldl (fun t r => store t r.1 r.2) s := by
  induction runs generalizing s with
  | nil => rfl
  | cons r rs ih =>
    rw [List.foldl_cons, List.foldl_cons, fwStore_of_good s r.1 r.2 hgood]
    exact ih _ (store_bad s r.1 r.2 hgood)

theorem restoreImage_of_good (s : State) (img : List Byte) (hgood : s.mem.bad = []) :
    restoreImage s img = { (imageWrites img).foldl (fun t r => store t r.1 r.2) s with
      loss.avg := rd img 64 4, loss.count := rd img 68 4 } := by
  rw [← fwStoreAll_of_good s _ hgood, imageWrites, List.foldl_map]
  rfl

/-- What comes back is memory and the loss monitor's state. -/
theorem restoreImage_frame (s : State) (img : List Byte) (hgood : s.mem.bad = []) :
    ∃ mem cnt, restoreImage s img = { s with
      mem := mem, cnt := cnt, loss := { s.loss with avg := rd img 64 4, count := rd img 68 4 } } := by
  obtain ⟨_, _, _, _, _, _, _, hwritten⟩ := storeAll_written (imageWrites img) s
  rw [restoreImage_of_good s img hgood, hwritten]
  exact ⟨_, _, rfl⟩

/-- What comes back does not depend on the counters. -/
theorem restoreImage_cells (s t : State) (img : List Byte) (hgood : s.mem.bad = []) (h : CountOnly s t) :
    (restoreImage t img).mem.cells = (restoreImage s img).mem.cells := by
  have hcells := (storeAll_readsAlike h.corrected.readsAlike (imageWrites img)).cells
  have hgoodT : t.mem.bad = [] := by
    obtain ⟨_, rfl⟩ := h
    exact hgood
  rw [restoreImage_of_good s img hgood, restoreImage_of_good t img hgoodT]
  exact hcells

/-- A spare takes images for its Ductus, and nothing else. -/
theorem takeImages_frame (s : State) (rs : List (Nat × Nat)) : ∃ ductus, takeImages s rs = { s with ductus := ductus } := by
  unfold takeImages
  split
  · exact ⟨_, rfl⟩
  · exact ⟨_, rfl⟩

theorem readSlot_countOnly (s : State) (hbad : s.mem.bad = []) (hcorr : s.mem.corr = []) : CountOnly s (readSlot s) := by
  unfold readSlot
  split
  · split
    · exact .refl s
    · exact fwRead_countOnly s _ _ hbad hcorr
  · exact .refl s

/-- The restore is over: its reads are forgotten. -/
def restoreOver (s : State) : State := dropCkpt { s with train.restoring := false, train.fromMirror := false } 3

theorem readyNow_restoreOver (s : State) (h : testHolds s = false) :
    WireOnly { restoreOver s with train.sentReady := true } (readyNow (restoreOver s)) := by
  rw [readyNow_free (restoreOver s) h]
  exact sendReady_wireOnly _

/-- A restore whose slot holds brings it back, and READY follows. -/
theorem opRestore_ok (s : State) (b : List Byte) (hrestoring : s.train.restoring = true) (hbytes : restoreBytes s = some b)
    (hok : imageOk b = true) :
    opRestore s .ok = readyNow (restoreOver (takeImages (restoreImage (readSlot s) b) (imageRegions b))) := by
  have himage : (restoreBytes s).filter imageOk = some b := by rw [hbytes, Option.filter_some, if_pos hok]
  simp only [opRestore, hrestoring, himage, Bool.not_true, Bool.false_eq_true, if_false]
  rfl

/-- The state in which a restore has brought back memory `mem`, with the images `ductus` of a spare. -/
def restoredWith (s : State) (b : List Byte) (mem : Mem) (ductus : List Loaded) : State :=
  { s with
    mem := mem, ductus := ductus, loss := { s.loss with avg := rd b 64 4, count := rd b 68 4 }
    train := { s.train with restoring := false, fromMirror := false, sentReady := true } }

/-- What comes back at a spare or another device, where no line of memory has an error. -/
theorem imageTaken_frame (s : State) (b : List Byte) (hbad : s.mem.bad = []) (hcorr : s.mem.corr = []) :
    ∃ mem ductus cnt, mem.cells = (restoreImage s b).mem.cells ∧
      takeImages (restoreImage (readSlot s) b) (imageRegions b) =
        { s with mem := mem, ductus := ductus, cnt := cnt, loss := { s.loss with avg := rd b 64 4, count := rd b 68 4 } } := by
  have hcount := readSlot_countOnly s hbad hcorr
  have hcells := restoreImage_cells s (readSlot s) b hbad hcount
  obtain ⟨_, hread⟩ := hcount
  obtain ⟨mem, cnt, himage⟩ := restoreImage_frame (readSlot s) b (by rw [hread]; exact hbad)
  obtain ⟨ductus, htaken⟩ := takeImages_frame (restoreImage (readSlot s) b) (imageRegions b)
  refine ⟨mem, ductus, cnt, ?_, ?_⟩
  · rw [← hcells, himage]
  · rw [htaken, himage, hread]

/-- A restored device has its regions back, and is ready. -/
theorem opRestore_ok_frame (s : State) (b : List Byte) (hrestoring : s.train.restoring = true) (hbytes : restoreBytes s = some b)
    (hok : imageOk b = true) (htest : testHolds s = false) (hbad : s.mem.bad = []) (hcorr : s.mem.corr = []) :
    ∃ mem ductus, mem.cells = (restoreImage s b).mem.cells ∧ WireOnly (restoredWith s b mem ductus) (opRestore s .ok) := by
  obtain ⟨mem, ductus, cnt, hcells, htaken⟩ := imageTaken_frame s b hbad hcorr
  refine ⟨mem, ductus, hcells, ?_⟩
  rw [opRestore_ok s b hrestoring hbytes hok, htaken]
  exact WireOnly.trans ⟨_, _, _, rfl⟩ (readyNow_restoreOver _ htest)

/-! ### The buddy's mirror -/

/-- A transfer of the checkpoint services that finds no way ends without a record. -/
theorem endTransfer_ckpt (s : State) (x : Transfer) (p : Nat) (pkt : Packet) (hx : ckptXfer x = true) :
    endTransfer s x p 0x0C pkt = s := by
  have hfolio : x.folio = none := by
    rw [ckptXfer, Bool.and_eq_true] at hx
    exact Option.isNone_iff_eq_none.mp hx.1
  simp [endTransfer, hfolio, hx]

theorem noWay_ckpt (s : State) (x : Transfer) (pkt : Packet) (hx : ckptXfer x = true) : WireOnly s (noWay s x pkt) := by
  unfold noWay
  dsimp only
  rw [endTransfer_ckpt _ { x with dst := pkt.dst } _ _ hx]
  exact ⟨_, _, _, rfl⟩

theorem sendReads_ckpt (s : State) (x : Transfer) (dev : Nat × Nat) (b : Buf) (hx : ckptXfer x = true) :
    WireOnly s (sendReads s x dev b) := by
  unfold sendReads
  dsimp only
  refine List.foldlRecOn (motive := WireOnly s) _ _ ⟨_, _, _, rfl⟩ (fun u hu p _ => ?_)
  split
  · exact hu.trans (sendPacket_wireOnly u 0 p.pkt)
  · exact (hu.trans (sendPacket_wireOnly u 0 p.pkt)).trans (noWay_ckpt _ _ _ hx)

theorem askMirror_wireOnly (s : State) : WireOnly { s with train.fromMirror := true } (askMirror s) := by
  have hx : ckptXfer { tag := 0, dst := 0, idx := ckptIdx 3, cls := 1 } = true := by decide
  exact WireOnly.trans ⟨_, _, _, rfl⟩ (sendReads_ckpt (dropCkpt { s with train.fromMirror := true } 3) _ _ _ hx)

/-- A slot that fails is asked of the mirror, unless it came from there. -/
theorem opRestore_localFailed (s : State) (hrestoring : s.train.restoring = true)
    (hlocal : (readSlot s).train.fromMirror = false) : opRestore s .localFailed = askMirror (readSlot s) := by
  simp only [opRestore, hrestoring, hlocal, Bool.not_true, Bool.false_eq_true, if_false, Bool.false_or]
  rfl

/-! ### Both copies failed -/

theorem requestRollback_mem (s : State) (flags code : Nat) : (requestRollback s flags code).mem = s.mem := by
  obtain ⟨_, _, _, h⟩ := requestRollback_wireOnly s flags code
  rw [h]

theorem raiseFault_mem (s : State) (r : FaultRec) : (raiseFault s r).mem = s.mem := by
  obtain ⟨_, hmem, _, _⟩ := raiseFault_frame s r
  exact hmem

/-- A fault of the job's work writes nothing. -/
theorem abortWith_mem (s : State) (r : FaultRec) (force : Bool) : (abortWith s r force).mem = s.mem := by
  unfold abortWith
  split
  · exact (requestRollback_mem _ _ _).trans (raiseFault_mem s _)
  · split
    · exact raiseFault_mem s _
    · split
      · exact (requestRollback_mem _ _ _).trans (raiseFault_mem s _)
      · exact raiseFault_mem s _

theorem lineError_mem (s : State) (l : Nat) : (lineError s l).mem = s.mem := by
  unfold lineError lineErrorBy
  split
  · exact abortWith_mem s _ false
  · exact raiseFault_mem s _

/-- A read of firmware leaves every byte as it is. -/
theorem fwRead_bytes (s : State) (a n : Nat) :
    (fwRead s a n).mem.cells = s.mem.cells ∧ (fwRead s a n).mem.full = s.mem.full := by
  unfold fwRead
  split
  next l _ => rw [lineError_mem]; exact ⟨rfl, rfl⟩
  next =>
    obtain ⟨_, _, _, _, _, hread⟩ : Corrected s (noteRead s a n) := noteReads_corrected s [(a, n)]
    rw [hread]
    exact ⟨rfl, rfl⟩

theorem readSlot_bytes (s : State) : (readSlot s).mem.cells = s.mem.cells ∧ (readSlot s).mem.full = s.mem.full := by
  unfold readSlot
  split
  · split
    · exact ⟨rfl, rfl⟩
    · exact fwRead_bytes s _ _
  · exact ⟨rfl, rfl⟩

theorem opRestore_mirrorFailed (s : State) (hrestoring : s.train.restoring = true) :
    opRestore s .mirrorFailed = restoreFails (readSlot s) := by
  simp [opRestore, hrestoring]

/-- The record of a restore that fails. -/
def restoreRecord : FaultRec := { code := 0x0F, sev := 4, src := 6 }

theorem restoreFails_eq (s : State) : restoreFails s = requestRollback (raiseFault (restoreOver s) restoreRecord) 0 0x0F := rfl

/-- The restore given up: its record, and the request for the pause. -/
theorem restoreFails_frame (s : State) : (restoreFails s).train.restoring = false ∧ (restoreFails s).train.fromMirror = false ∧
    (restoreFails s).train.waitCode = 0x0F ∧ (restoreFails s).train.waiting.isSome = true ∧ (restoreFails s).mem = s.mem ∧
    rd (restoreFails s).flt.last 0 1 = 0x0F := by
  obtain ⟨_, _, _, hsent⟩ := requestRollback_wireOnly (raiseFault (restoreOver s) restoreRecord) 0 0x0F
  obtain ⟨_, _, _, _, _, _, _, hraised⟩ := raiseFault_reportOnly (restoreOver s) restoreRecord
  have hcode := raiseFault_code (restoreOver s) restoreRecord
  have hmem := raiseFault_mem (restoreOver s) restoreRecord
  rw [restoreFails_eq, hsent]
  refine ⟨?_, ?_, rfl, rfl, hmem, hcode⟩
  · rw [hraised]; rfl
  · rw [hraised]; rfl

/-! ### The claims -/

/-- A restore brings the own slot back, asks the mirror, or gives up. -/
theorem restoreBringsTheCheckpointBack_here : Claim.RestoreBringsTheCheckpointBack := by
  unfold Claim.RestoreBringsTheCheckpointBack
  intro s b ha hrestoring
  have hexec (r : RestoreResult) : exec (.restoreComplete r) s = .next (opRestore s r) :=
    whenAlive_next (.restoreComplete r) s _ rfl ha
  refine ⟨fun hbytes hok htest hbad hcorr => ?_, fun hlocal hbad hcorr => ?_, ?_⟩
  · obtain ⟨_, _, hcells, _, _, _, hrestored⟩ := opRestore_ok_frame s b hrestoring hbytes hok htest hbad hcorr
    refine ⟨_, hexec .ok, ?_⟩
    rw [hrestored]
    exact ⟨hcells, rfl, rfl, rfl, rfl, rfl, rfl, rfl⟩
  · obtain ⟨_, hread⟩ := readSlot_countOnly s hbad hcorr
    have hnext := hexec .localFailed
    rw [opRestore_localFailed s hrestoring (by rw [hread]; exact hlocal)] at hnext
    obtain ⟨_, _, _, hasked⟩ := askMirror_wireOnly (readSlot s)
    refine ⟨_, hnext, ?_⟩
    rw [hasked, hread]
    exact ⟨hrestoring, rfl, rfl, rfl, rfl, rfl⟩
  · obtain ⟨hrestored, hmirror, hcode, hwaits, hmem, hlast⟩ := restoreFails_frame (readSlot s)
    obtain ⟨hcells, hfull⟩ := readSlot_bytes s
    exact ⟨_, (hexec .mirrorFailed).trans (congrArg _ (opRestore_mirrorFailed s hrestoring)), hrestored, hmirror, hcode, hwaits,
      by rw [hmem, hcells], by rw [hmem, hfull], hlast⟩

/-- Settles O57: the ROLLBACK as it is obeyed, and the restore. -/
theorem rollbackIsObeyed : Obligations.RollbackIsObeyed :=
  ⟨rollbackIsObeyed_here, restoreBringsTheCheckpointBack_here⟩

end Sys2Proof.Machine
end

section
/-! SUPPORT. A reduction of one bucket of bucket arrays (R213 to R218). -/

namespace Sys2Proof.Machine

open Sys2Proof

/-- The sums of bucket 0 in the tree order. -/
def Red.sums (d : Red) (s : State) : List Val :=
  (List.range (d.count s 0)).map (fun p => (tree ((List.range d.inputs).map (fun j => d.value s [] 0 j p))).1)

/-- The bytes that a reduction writes for bucket 0: its sums as FP32, or a bucket of the wire format. -/
def Red.outBytes (d : Red) (s : State) : List Byte :=
  if d.fp32 then (d.sums s).flatMap (fun v => leBytes 4 v.bits32) else (encodeBucket d.wire s.job.step 0 (d.sums s)).1

/-- What a reduction reads for bucket 0. -/
def Red.bucketReads (d : Red) (s : State) : List (Nat × Nat) :=
  d.arrays.map (fun j => (d.bucketAt j 0, 32768)) ++ d.tileReads s 0

/-- Where the headers of its inputs agree, a bucket is written; the rest is counted, and noted when it is not finite. -/
theorem reduceBucket_writes (s : State) (x : Ctx) (d : Red) (htiles : d.tiles = none) (hbad : s.mem.bad = [])
    (hheader : d.headerBad s 0 = none) :
    SkipOnly (commit (noteReads s (d.bucketReads s)) (some (x.l, x.i)) [(rd d.b 16 8, d.outBytes s)]) (reduceBucket s [] x d 0) := by
  have hhere : withFar s [] = s := rfl
  have hout : rd d.b 16 8 + (if d.fp32 then 4 * bucketVals * 0 else 32768 * 0) = rd d.b 16 8 := by simp
  unfold reduceBucket
  simp only [hhere, hout, readsBad_of_good s _ hbad, hheader, htiles, Option.bind_none, List.map_map, List.flatMap_map]
  rw [Red.outBytes, Red.sums, List.flatMap_map]
  exact (nibMoved_countOnly _ _ _ _ _).skipOnly.trans (nibWrote_skipOnly _ _ _ _ _ _ _)

/-- Memories that read alike hold the same byte at each address. -/
theorem ReadsAlike.memByte_eq {s t : State} (h : ReadsAlike s t) (a : Nat) : memByte t.mem a = memByte s.mem a := by
  simp only [memByte, h.cells, h.undef]

theorem SkipOnly.readsAlike {s t : State} (h : SkipOnly s t) : ReadsAlike s t := by
  obtain ⟨_, _, _, _, _, _, rfl⟩ := h
  exact ⟨rfl, rfl, rfl⟩

/-- What a bucket's reduction leaves: its bytes where it writes, and nothing else changed. -/
theorem reduceBucket_effect (s : State) (x : Ctx) (d : Red) (htiles : d.tiles = none) (hbad : s.mem.bad = [])
    (hheader : d.headerBad s 0 = none) :
    peek (reduceBucket s [] x d 0) (rd d.b 16 8) (d.outBytes s).length = d.outBytes s ∧
      SameOutside s (reduceBucket s [] x d 0) (rd d.b 16 8) (d.outBytes s).length ∧
      (reduceBucket s [] x d 0).mem.full = s.mem.full ∧ (reduceBucket s [] x d 0).frame = s.frame ∧
      (reduceBucket s [] x d 0).rings = s.rings := by
  have hread := noteReads_corrected s (d.bucketReads s)
  have hgood := hread.readsAlike.bad.trans hbad
  have hskip := reduceBucket_writes s x d htiles hbad hheader
  rw [commit_of_good _ _ _ hgood, List.foldl_cons, List.foldl_nil] at hskip
  have hbytes := peek_store (noteReads s (d.bucketReads s)) (rd d.b 16 8) (d.outBytes s) hgood
  have hout := store_outside (noteReads s (d.bucketReads s)) (rd d.b 16 8) (d.outBytes s)
  have hwritten := hread.written.trans (store_written _ (rd d.b 16 8) (d.outBytes s))
  have halike := hskip.readsAlike
  refine ⟨(halike.peek_eq _ _).trans hbytes,
    fun a ha => (halike.memByte_eq a).trans ((hout a ha).trans (hread.readsAlike.memByte_eq a)), ?_⟩
  obtain ⟨_, _, _, _, _, _, hrun⟩ := hskip
  obtain ⟨_, _, _, _, _, _, _, hstored⟩ := hwritten
  rw [hrun, hstored]
  exact ⟨rfl, rfl, rfl⟩

/-- Inputs whose headers disagree fail the stroke (R217). -/
theorem reduceBucket_header (s : State) (x : Ctx) (d : Red) (b : Bad) (hbad : s.mem.bad = [])
    (hheader : d.headerBad s 0 = some b) : reduceBucket s [] x d 0 = failStroke s x.l x.i b := by
  have hhere : withFar s [] = s := rfl
  unfold reduceBucket
  simp only [hhere, readsBad_of_good s _ hbad, hheader]

/-- A stroke is at work only in a frame that runs (R43). -/
theorem ctxOf_live {s : State} {l i cls : Nat} {x : Ctx} (h : ctxOf s l i cls = some x) : s.frame.live = true := by
  by_contra hidle
  simp [ctxOf, hidle] at h

/-- The record of a header check names BUCKET_HEADER. -/
theorem Red.headerBad_code {d : Red} {s : State} {i : Nat} {b : Bad} (h : d.headerBad s i = some b) : b.code = 0x11 := by
  obtain ⟨j, _, hj⟩ := List.exists_of_findSome?_eq_some h
  dsimp only at hj
  split at hj
  · cases hj
  · cases hj
    rfl

/-- A reduction of one bucket of bucket arrays asks other devices for nothing, and makes its effect at once. -/
theorem opReduce_oneBucket {s : State} {x : Ctx} {l i : Nat} {d : Red} (hx : ctxOf s l i 7 = some x) (hdec : x.run.dec = .reduce d)
    (hone : d.buckets = 1) (htiles : d.tiles = none) (hasked : fetching s (strokeXfer l i) = []) :
    opReduce s l i =
      if (reduceBucket s [] x d 0).frame.aborted then reduceBucket s [] x d 0 else doneRun (reduceBucket s [] x d 0) l i := by
  have hrun := ctxOf_aborted hx
  have hlocal : ({ d with tiles := d.tiles.map (fun t => t.virt s.glob.deviceId) } : Red) = d := by
    cases d
    cases htiles
    rfl
  have hreads (v : State) : (List.range d.buckets).flatMap (d.tileReads v) = [] := by simp [Red.tileReads, htiles]
  have hgather : gather s (strokeXfer l i) (fun v => (List.range d.buckets).flatMap (d.tileReads v)) = (s, some []) :=
    gather_here s _ _ hasked (by simp only [hreads]; rfl)
  unfold opReduce
  rw [inAbortCycle_running s _ hrun]
  simp only [hx, hdec, hlocal, hgather]
  simp only [hone, List.range_one, List.foldl_cons, List.foldl_nil, hrun, Bool.false_eq_true, if_false]

/-- Settles O54: the bucket that is written, and the header that disagrees. -/
theorem reduceWritesItsBucket : Obligations.ReduceWritesItsBucket := by
  unfold Obligations.ReduceWritesItsBucket
  intro s x l i d ha hl hx hdec hone htiles hbad hasked
  have hrun := ctxOf_aborted hx
  have hexec : exec (.reduce l i) s = .next (opReduce s l i) := whenAlive_next (.reduce l i) s _ (decide_eq_true hl) ha
  rw [opReduce_oneBucket hx hdec hone htiles hasked] at hexec
  refine ⟨fun hheader => ?_, fun hheader => ?_⟩
  · obtain ⟨hbytes, hout, hfull, hframe, hrings⟩ := reduceBucket_effect s x d htiles hbad hheader
    generalize reduceBucket s [] x d 0 = t at hexec hbytes hout hfull hframe hrings
    rw [if_neg (by rw [hframe, hrun]; decide)] at hexec
    refine ⟨_, hexec, hbytes, hout, hfull, ?_, congrArg Rings.sq hrings⟩
    show (doneRun t l i).frame = (doneRun s l i).frame
    rw [doneRun, hframe]
    rfl
  · obtain ⟨b, hb⟩ := Option.ne_none_iff_exists'.mp hheader
    obtain ⟨habort, hmem, hcode⟩ := abortWith_running s (badRecord s x.l x.i b) false (ctxOf_live hx) hrun
    have hfail : reduceBucket s [] x d 0 = abortWith s (badRecord s x.l x.i b) false := reduceBucket_header s x d b hbad hb
    rw [hfail, if_pos habort] at hexec
    exact ⟨_, hexec, habort, hmem, by rw [hcode, badRecord_code, Red.headerBad_code hb]⟩

end Sys2Proof.Machine
end

-- The proofs of the family of chapter 10: routers, the window checker, answers, lanes and flits.
section
/-! SUPPORT. What packets sent, answers and reports change of the fabric; the routers, and what the window checker refuses. -/

namespace Sys2Proof.Machine

open Sys2Proof

/-! ### Packets into port queues (R263, R264) -/

/-- Only the queue of port `q` takes a packet put there. -/
theorem port_enqueue (s : State) (q req k : Nat) (pkt : Packet) : port (enqueue s q req pkt) k =
    { port s k with queue := (port s k).queue ++ if k = q then [⟨req, pkt.cls, pkt.bytes⟩] else [] } := by
  unfold enqueue
  by_cases hk : k = q
  · subst hk
    rw [port_setPort, if_pos rfl]
  · rw [port_setPort_ne _ _ _ _ hk, if_neg hk, List.append_nil]

theorem port_enqueue_queue_ne (s : State) {q k : Nat} (req : Nat) (pkt : Packet) (h : k ≠ q) :
    (port (enqueue s q req pkt) k).queue = (port s k).queue := by rw [port_enqueue, if_neg h, List.append_nil]

/-- A packet put into the queues of some ports, one after another. -/
theorem queue_enqueueAll (ps : List Nat) (hps : ps.Nodup) (s : State) (f : Nat → Nat) (pkt : Packet) (k : Nat) :
    (port (ps.foldl (fun t q => enqueue t q (f q) pkt) s) k).queue =
      (port s k).queue ++ if k ∈ ps then [⟨f k, pkt.cls, pkt.bytes⟩] else [] := by
  induction ps generalizing s with
  | nil => simp
  | cons q ps ih =>
    obtain ⟨hq, hps⟩ := List.nodup_cons.mp hps
    rw [List.foldl_cons, ih hps, port_enqueue]
    by_cases hk : k = q
    · subst hk
      simp [hq]
    · simp [hk]

/-- Packets put into port queues change nothing but the ports. -/
theorem enqueueAll_ports (ps : List Nat) (s : State) (f : Nat → Nat) (pkt : Packet) :
    ∃ ports, ps.foldl (fun t q => enqueue t q (f q) pkt) s = { s with ports := ports } :=
  List.foldlRecOn (motive := fun t : State => ∃ ports, t = { s with ports := ports }) ps _ ⟨_, rfl⟩
    (fun _ ⟨_, ht⟩ _ _ => ht ▸ ⟨_, rfl⟩)

/-- A packet taken from where it waited leaves all but that alone. -/
theorem takeIn_frame (s : State) (p : Nat) (pkt : Packet) :
    ∃ ports box, takeIn s p pkt = { s with ports := ports, fab := { s.fab with selfBox := box } } := by
  unfold takeIn
  split
  · exact ⟨_, _, rfl⟩
  · exact ⟨_, _, rfl⟩

/-- A packet that is not refused before the checks, and does not come from a neighbour, comes to a device that has an id (R262). -/
theorem deviceId_of_preRefusal {s : State} {pkt : Packet} (h : preRefusal s pkt = none) (hnear : pkt.neighbour = false) :
    s.glob.deviceId ≠ 0xFFFFFF := by
  intro hid
  unfold preRefusal at h
  split at h
  · cases h
  · simp [hid, hnear] at h

/-- The answer to a request that has been taken in, on the port of the requester's route (R258, R263). -/
theorem respond_takeIn {s : State} {pkt : Packet} (p q status : Nat) (data : List Byte) (hresp : pkt.resp = false)
    (hnear : pkt.neighbour = false) (hpre : preRefusal s pkt = none) (hsrc : pkt.src ≠ 0xFFFFFF)
    (hroute : routeOf s pkt.src = some (some q)) :
    respond (takeIn s p pkt) p pkt status data = enqueue (takeIn s p pkt) q 1 (response s pkt status data) := by
  have hid := deviceId_of_preRefusal hpre hnear
  obtain ⟨_, _, htake⟩ := takeIn_frame s p pkt
  have hresponse : response (takeIn s p pkt) pkt status data = response s pkt status data := by rw [htake]; rfl
  rw [← hresponse]
  exact respond_routed p q status data hresp hnear (by rw [htake]; exact hid) hsrc (by rw [htake]; exact hroute)

/-- An answer carries RESP. -/
theorem response_resp (s : State) (pkt : Packet) (status : Nat) (data : List Byte) : (response s pkt status data).resp = true := by
  simp [response, Packet.resp]

/-- The answer in its port's queue, with what else changes. -/
theorem answered_frame (s : State) (p q status : Nat) (pkt : Packet) (data : List Byte) :
    (∃ ports box, enqueue (takeIn s p pkt) q 1 (response s pkt status data) =
      { s with ports := ports, fab := { s.fab with selfBox := box } }) ∧
    (port (enqueue (takeIn s p pkt) q 1 (response s pkt status data)) q).queue =
      (port s q).queue ++ [⟨1, pkt.cls, (response s pkt status data).bytes⟩] := by
  obtain ⟨_, _, htake⟩ := takeIn_frame s p pkt
  refine ⟨?_, ?_⟩
  · rw [htake]
    exact ⟨_, _, rfl⟩
  · rw [port_enqueue_self, port_takeIn_queue]
    rfl

/-! ### The routers (R260, R263, R264) -/

/-- A packet as it leaves the device that forwards it. -/
def forwarded (pkt : Packet) : Packet := { pkt with hops := min 0xFFFF (pkt.hops + 1) }

theorem exec_packetForward {s : State} {p : Nat} {pkt : Packet} (ha : alive s = true) (hp : p < 96) (hwf : pkt.wf = true) :
    exec (.packetForward p pkt) s = .next (opForward s p pkt) :=
  whenAlive_next (.packetForward p pkt) s _ (by simp [Instr.wf, isLane, hp, hwf]) ha

/-- A packet for another device, by what its route's partner takes (R260, R263). -/
theorem opForward_routed {s : State} {p q : Nat} {pkt : Packet} (hpre : preRefusal s pkt = none) (hnear : pkt.neighbour = false)
    (hdst : pkt.dst ≠ 0xFFFFFF) (hroute : routeFor s pkt = some (some q)) : opForward s p pkt =
      if pkt.typ = 3 && !pkt.resp && noReduce s q then respond (takeIn s p pkt) p pkt 0x11 []
      else enqueue (takeIn s p pkt) q (2 + p) (forwarded pkt) := by
  simp [opForward, hpre, hnear, hdst, hroute, forwarded, satN]

theorem exec_broadcastReceive {s : State} {p : Nat} {pkt : Packet} (ha : alive s = true) (hp : p < 96) (hwf : pkt.wf = true) :
    exec (.broadcastReceive p pkt) s = .next (opBroadcast s p pkt) :=
  whenAlive_next (.broadcastReceive p pkt) s _ (by simp [Instr.wf, isLane, hp, hwf]) ha

/-- A broadcast delivered here, before it leaves on any port. -/
def delivered (s : State) (p : Nat) (pkt : Packet) : State :=
  { takeIn s p pkt with fab.selfBox := (takeIn s p pkt).fab.selfBox ++ [pkt] }

/-- A broadcast of a MGMT packet (R264). -/
theorem opBroadcast_mgmt {s : State} (p : Nat) {pkt : Packet} (hdst : pkt.dst = 0xFFFFFF) (hnear : pkt.neighbour = false)
    (htyp : pkt.typ = 6) (hpre : preRefusal s pkt = none) : opBroadcast s p pkt =
      ((bcastPorts s).filter (fun q => decide (q ≠ p))).foldl (fun v q => enqueue v q (2 + p) (forwarded pkt)) (delivered s p pkt) := by
  simp [opBroadcast, hdst, hnear, htyp, hpre, delivered, forwarded, satN]

theorem nodup_bcastPorts (s : State) : (bcastPorts s).Nodup := List.nodup_range.filter _

/-- Settles O24: the routed port, and it alone, takes the packet; a broadcast goes once to each port that it leaves on. -/
theorem routersForwardAndBroadcast : Obligations.RoutersForwardAndBroadcast := by
  unfold Obligations.RoutersForwardAndBroadcast
  intro s p q pkt ha hp hwf hnear
  obtain ⟨_, _, htake⟩ := takeIn_frame s p pkt
  refine ⟨fun hpre hdst hroute htakes => ?_, fun hpre hdst hroute htyp hresp hlacks b hsrc hback => ?_, fun hdst htyp hpre => ?_⟩
  · have hgoes : ¬ (pkt.typ = 3 && !pkt.resp && noReduce s q) = true := by
      simp only [Bool.and_eq_true, decide_eq_true_eq, Bool.not_eq_true']
      rintro ⟨⟨htyp, hresp⟩, hlacks⟩
      rw [htakes htyp hresp] at hlacks
      cases hlacks
    have hexec := exec_packetForward ha hp hwf
    rw [opForward_routed hpre hnear hdst hroute, if_neg hgoes] at hexec
    refine ⟨_, hexec, ?_, ?_, fun k hk => ?_⟩
    · rw [htake]
      rfl
    · rw [port_enqueue_self, port_takeIn_queue]
      rfl
    · rw [port_enqueue_queue_ne _ _ _ hk, port_takeIn_queue]
  · have hexec := exec_packetForward ha hp hwf
    rw [opForward_routed hpre hnear hdst hroute, if_pos (by simp [htyp, hresp, hlacks]),
      respond_takeIn p b 0x11 [] hresp hnear hpre hsrc hback] at hexec
    obtain ⟨⟨_, _, hframe⟩, hqueue⟩ := answered_frame s p b 0x11 pkt []
    exact ⟨_, hexec, by rw [hframe], _, hqueue, response_resp s pkt 0x11 [], rfl⟩
  · have hexec := exec_broadcastReceive ha hp hwf
    rw [opBroadcast_mgmt p hdst hnear htyp hpre] at hexec
    have hqueue := queue_enqueueAll _ ((nodup_bcastPorts s).filter (fun q => decide (q ≠ p))) (delivered s p pkt) (fun _ => 2 + p)
      (forwarded pkt)
    have hwaits (k : Nat) : (port (delivered s p pkt) k).queue = (port s k).queue := port_takeIn_queue s p k pkt
    obtain ⟨_, hports⟩ := enqueueAll_ports ((bcastPorts s).filter (fun q => decide (q ≠ p))) (delivered s p pkt) (fun _ => 2 + p)
      (forwarded pkt)
    refine ⟨_, hexec, ?_, ?_, fun k hk hkp => ?_, fun k hk => ?_⟩
    · rw [hports, delivered, htake]
    · rw [hports]
      exact List.mem_append_right _ List.mem_cons_self
    · rw [hqueue, hwaits, if_pos (by simp [hk, hkp])]
      rfl
    · rw [hqueue, hwaits, if_neg (by simpa [or_iff_not_imp_left] using hk), List.append_nil]

/-! ### What reports leave alone (R286, R299) -/

/-- `t` is `s` after reports: writes and notices at the ring host, records in its rings, and packets put into port queues or kept for
this device. No submission ring, no counter and no other field of a port changes. -/
structure Reported (s t : State) : Prop where
  frame : ∃ hostMem out pcie rings ports box tag, t = { s with
    hostMem := hostMem, out := out, pcie := pcie, rings := rings, ports := ports
    fab := { s.fab with selfBox := box, nextTag := tag } }
  sq : t.rings.sq = s.rings.sq
  port : ∀ k, ∃ queue, port t k = { port s k with queue := queue }

theorem Reported.refl (s : State) : Reported s s := ⟨⟨_, _, _, _, _, _, _, rfl⟩, rfl, fun _ => ⟨_, rfl⟩⟩

theorem Reported.trans {s t u : State} (h : Reported s t) (g : Reported t u) : Reported s u := by
  refine ⟨?_, g.sq.trans h.sq, fun k => ?_⟩
  · obtain ⟨_, _, _, _, _, _, _, hst⟩ := h.frame
    obtain ⟨_, _, _, _, _, _, _, htu⟩ := g.frame
    rw [htu, hst]
    exact ⟨_, _, _, _, _, _, _, rfl⟩
  · obtain ⟨_, hst⟩ := h.port k
    obtain ⟨_, htu⟩ := g.port k
    rw [htu, hst]
    exact ⟨_, rfl⟩

/-- A fold of steps each of which only reports. -/
theorem Reported.foldl {α : Type} (f : State → α → State) (hf : ∀ u x, Reported u (f u x)) (l : List α) (s : State) :
    Reported s (l.foldl f s) :=
  List.foldlRecOn l f (Reported.refl s) (fun t ht x _ => ht.trans (hf t x))

/-- What changes no port and no submission ring, nor what else a report leaves alone. -/
theorem Reported.of_frame {s t : State} {hostMem out pcie rings box tag} (h : t = { s with
    hostMem := hostMem, out := out, pcie := pcie, rings := rings, fab := { s.fab with selfBox := box, nextTag := tag } })
    (hsq : rings.sq = s.rings.sq) : Reported s t := by
  subst h
  exact ⟨⟨_, _, _, _, _, _, _, rfl⟩, hsq, fun _ => ⟨_, rfl⟩⟩

theorem enqueue_reported (s : State) (q req : Nat) (pkt : Packet) : Reported s (enqueue s q req pkt) :=
  ⟨⟨_, _, _, _, _, _, _, rfl⟩, rfl, fun _ => ⟨_, port_enqueue ..⟩⟩

theorem sendPacket_reported (s : State) (req : Nat) (pkt : Packet) : Reported s (sendPacket s req pkt).1 := by
  unfold sendPacket
  split
  · exact .refl s
  · split
    · exact .foldl _ (fun u q => enqueue_reported u q req pkt) _ s
    · split
      · exact .refl s
      · exact .of_frame rfl rfl
      · exact enqueue_reported s _ req pkt

theorem hostSend_reported (s : State) (a : Nat) (bs : List Byte) : Reported s (hostSend s a bs) := by
  have hpoke : Reported s (hostPoke s a bs) := .of_frame rfl rfl
  unfold hostSend
  split
  · exact hpoke.trans (.foldl _ (fun u x => sendPacket_reported u 1 _) _ _)
  · split
    · exact hpoke
    · exact .refl s

theorem raiseVector_reported (s : State) (v : Nat) : Reported s (raiseVector s v) := by
  unfold raiseVector
  split
  · exact hostSend_reported s _ _
  · split
    · exact .refl s
    · split
      · exact .of_frame rfl rfl
      · exact .of_frame rfl rfl

theorem sendRecord_reported (ring no : Nat) (waits : Bool) (s : State) (x : Nat × List Byte) :
    Reported s (sendRecord ring no waits s x) := by
  have htag : Reported s (newTag s).2 := .of_frame rfl rfl
  have hsent (pkt : Packet) :
      Reported (newTag s).2 (if waits = true then ((newTag s).2, true) else sendPacket (newTag s).2 1 pkt).1 := by
    cases waits with
    | true => exact .refl _
    | false => exact sendPacket_reported _ 1 pkt
  exact (htag.trans (hsent _)).trans (.of_frame rfl rfl)

theorem hostRecord_reported (s : State) (ring : Nat) (body : List (Nat × List Byte)) (a : Nat) (head : List Byte)
    (vec : Option Nat) : Reported s (hostRecord s ring body a head vec) := by
  have hpoke (u : State) (b : Nat) (bs : List Byte) : Reported u (hostPoke u b bs) := .of_frame rfl rfl
  unfold hostRecord
  split
  · exact ((Reported.foldl _ (sendRecord_reported ring _ false) _ s).trans
      (.foldl _ (sendRecord_reported ring _ _) _ _)).trans (.of_frame rfl rfl)
  · have hwritten := (Reported.foldl _ (fun u (b : Nat × List Byte) => hpoke u b.1 b.2) body s).trans (hpoke _ a head)
    cases vec with
    | none => exact hwritten
    | some v => exact hwritten.trans (raiseVector_reported _ v)

theorem putFault_reported (s : State) (r : FaultRec) (more : Bool) : Reported s (putFault s r more) := by
  have hring (q : OutRing) : Reported s { s with rings.fq := q } := .of_frame rfl rfl
  unfold putFault
  dsimp only
  split
  · exact (hring _).trans (hostRecord_reported _ _ _ _ _ _)
  · exact (hring _).trans (raiseVector_reported _ _)

/-- A fault record raised concerns the fault unit and its report. -/
theorem raiseFault_reported (s : State) (r : FaultRec) : Reported { s with flt := (raiseFault s r).flt } (raiseFault s r) := by
  unfold raiseFault
  dsimp only
  split
  · exact .refl _
  · split
    · exact .refl _
    · have hput := putFault_reported
        { s with flt.seq := (s.flt.seq + 1) % 2 ^ 32, flt.last := (stamp s r).bytes } (stamp s r) false
      obtain ⟨_, _, _, _, _, _, _, hframe⟩ := hput.frame
      refine ⟨?_, hput.sq, hput.port⟩
      rw [hframe]
      exact ⟨_, _, _, _, _, _, _, rfl⟩

theorem pushCq_reported (s : State) (r : Nat) (bs : List Byte) (irq reply : Bool) : Reported s (pushCq s r bs irq reply) := by
  have hset (q : OutRing) : Reported s (setCq s r q) := .of_frame rfl rfl
  unfold pushCq
  dsimp only
  split
  · exact (hset _).trans (hostRecord_reported _ _ _ _ _ _)
  · split
    · exact hset _
    · exact (hset _).trans (raiseVector_reported _ 6)

theorem complete_reported (s : State) (h : Hdr) (status data : Nat) : Reported s (complete s h status data) :=
  pushCq_reported s _ _ _ _

/-! ### What the window checker refuses (R186, R266, R273) -/

theorem exec_inboundWrite {s : State} {p : Nat} {pkt : Packet} (ha : alive s = true) (hp : p < 96) (hwf : pkt.wf = true) :
    exec (.inboundWrite p pkt) s = .next (inbound s p pkt 1 (landWrite p pkt)) :=
  whenAlive_next (.inboundWrite p pkt) s _ (by simp [Instr.wf, isLane, hp, hwf]) ha

/-- What becomes of a packet at the checks, by their verdict (Table 10.11). -/
def checked (s : State) (p : Nat) (pkt : Packet) (land : State → State) : Verdict → State
  | .late ahead quiet => lateData s p pkt ahead quiet
  | .hold => holdPacket s p pkt
  | .refuse code => refusePacket s p pkt code
  | .pass => land s

/-- A packet that comes to the checks is taken from where it waited. -/
theorem inbound_checked {s : State} {pkt : Packet} (p : Nat) {typ : Nat} (land : State → State) (htyp : pkt.typ = typ)
    (hresp : pkt.resp = false) (hto : toMirror s pkt = false) (hpre : preRefusal s pkt = none) :
    inbound s p pkt typ land = checked (takeIn s p pkt) p pkt land (verdict s pkt) := by
  obtain ⟨hpre', hverdict⟩ := (takeIn_queuesOnly s p pkt).checks pkt
  rw [← hverdict]
  simp only [inbound, htyp, hresp, hto, hpre'.trans hpre, ne_eq, not_true_eq_false, decide_false, Bool.or_self,
    Bool.false_eq_true, if_false]
  cases verdict (takeIn s p pkt) pkt <;> rfl

/-- The record of LATE_DATA (R273). -/
def lateRecord (p : Nat) (pkt : Packet) (ahead : Bool) : FaultRec :=
  { code := 0x18, sev := 0, detail := pkt.src + (if ahead then 2 ^ 63 else 0), src := 5, key := p, die := laneDie p }

/-- LATE_DATA without a record: a rollback is under way, or the frame has its record (R234, R273). -/
theorem lateData_counted {s : State} (p : Nat) (pkt : Packet) (ahead : Bool) {quiet : Bool}
    (h : quiet = true ∨ s.fab.lateFrame = some (tickedFrame s)) :
    lateData s p pkt ahead quiet = respond (devEvent s 0x57 1) p pkt 0x18 [] := by
  have hnone : (quiet || decide ((devEvent s 0x57 1).fab.lateFrame = some (tickedFrame s))) = true := by
    rcases h with h | h
    · simp [h]
    · rw [show (devEvent s 0x57 1).fab.lateFrame = _ from h]
      simp
  unfold lateData
  dsimp only
  rw [if_pos hnone]

/-- The first LATE_DATA of a frame has its record. -/
theorem lateData_recorded {s : State} (p : Nat) (pkt : Packet) (ahead : Bool) (h : s.fab.lateFrame ≠ some (tickedFrame s)) :
    lateData s p pkt ahead false = respond { raiseFault (devEvent s 0x57 1) (lateRecord p pkt ahead) with
      fab.lateFrame := some (tickedFrame s) } p pkt 0x18 [] := by
  have hfirst : ¬ (false || decide ((devEvent s 0x57 1).fab.lateFrame = some (tickedFrame s))) = true := by
    rw [show (devEvent s 0x57 1).fab.lateFrame = s.fab.lateFrame from rfl]
    simpa using h
  unfold lateData
  dsimp only
  rw [if_neg hfirst]
  rfl

/-- The state as LATE_DATA is answered: counted, with its record where it is due. -/
theorem lateData_answers (s : State) (p : Nat) (pkt : Packet) (ahead quiet : Bool) :
    ∃ u, lateData s p pkt ahead quiet = respond u p pkt 0x18 [] ∧
      u.cnt = (devEvent s 0x57 1).cnt ∧ u.lanes = s.lanes ∧ u.glob = s.glob ∧ u.fab.routes = s.fab.routes ∧
      u.mem = s.mem ∧ u.rings.sq = s.rings.sq ∧ u.frame = s.frame ∧
      (quiet = false → s.fab.lateFrame ≠ some (tickedFrame s) →
        u.flt.seq = (s.flt.seq + 1) % 2 ^ 32 ∧ rd u.flt.last 0 1 = 0x18 ∧ u.fab.lateFrame = some (tickedFrame s)) ∧
      (quiet = true ∨ s.fab.lateFrame = some (tickedFrame s) → u.flt = s.flt) := by
  by_cases h : quiet = true ∨ s.fab.lateFrame = some (tickedFrame s)
  · refine ⟨_, lateData_counted p pkt ahead h, rfl, rfl, rfl, rfl, rfl, rfl, rfl, fun hloud hfirst => ?_, fun _ => rfl⟩
    exact absurd h (by simp [hloud, hfirst])
  · obtain ⟨hloud, hfirst⟩ := not_or.mp h
    rw [Bool.eq_false_iff.mpr hloud, lateData_recorded p pkt ahead hfirst]
    have hraised := raiseFault_reported (devEvent s 0x57 1) (lateRecord p pkt ahead)
    obtain ⟨_, _, hseq, _⟩ := raiseFault_frame (devEvent s 0x57 1) (lateRecord p pkt ahead)
    have hcode := raiseFault_code (devEvent s 0x57 1) (lateRecord p pkt ahead)
    have hsq := hraised.sq
    obtain ⟨_, _, _, _, _, _, _, hframe⟩ := hraised.frame
    exact ⟨_, rfl, congrArg (·.cnt) hframe, congrArg (·.lanes) hframe, congrArg (·.glob) hframe, congrArg (·.fab.routes) hframe,
      congrArg (·.mem) hframe, hsq, congrArg (·.frame) hframe, fun _ _ => ⟨hseq, hcode, rfl⟩,
      fun hquiet => absurd hquiet (by simp [hfirst])⟩

/-- Where a route leads depends on the routes, the lanes and the device's own id. -/
theorem routeOf_congr {s t : State} (hlanes : t.lanes = s.lanes) (hglob : t.glob = s.glob) (hroutes : t.fab.routes = s.fab.routes)
    (d : Nat) : routeOf t d = routeOf s d := by
  have hlane : laneUp t = laneUp s := by
    funext n
    simp only [laneUp, lane, hlanes]
  have hup : portUp t = portUp s := by
    funext p
    simp only [portUp, lanesOf, portOf, lane, hlanes, hlane]
  simp only [routeOf, routeVia, hup, hglob, hroutes]

/-- A packet of the next frame is held, and nothing else changes but for where it waited (R273). -/
theorem holdPacket_takeIn (s : State) (p : Nat) (pkt : Packet) : ∃ ports box, holdPacket (takeIn s p pkt) p pkt = { s with
    ports := ports, fab := { s.fab with selfBox := box, holdNext := s.fab.holdNext ++ [(p, pkt)] } } := by
  obtain ⟨_, _, htake⟩ := takeIn_frame s p pkt
  rw [htake]
  exact ⟨_, _, rfl⟩

/-- A refusal other than WINDOW_CLOSED and WINDOW_BOUNDS is its answer. -/
theorem refusePacket_plain {code : Nat} (s : State) (p : Nat) (pkt : Packet) (hclosed : code ≠ 0x0A) (hbounds : code ≠ 9) :
    refusePacket s p pkt code = respond s p pkt code [] := by
  simp [refusePacket, hclosed, hbounds]

/-- The answer to a request from a state that has the lanes, the ids and the routes of `s`. -/
theorem respond_like {s u : State} {pkt : Packet} (p q status : Nat) (data : List Byte) (hlanes : u.lanes = s.lanes)
    (hglob : u.glob = s.glob) (hroutes : u.fab.routes = s.fab.routes) (hresp : pkt.resp = false) (hnear : pkt.neighbour = false)
    (hid : s.glob.deviceId ≠ 0xFFFFFF) (hsrc : pkt.src ≠ 0xFFFFFF) (hroute : routeOf s pkt.src = some (some q)) :
    respond u p pkt status data = enqueue u q 1 (response s pkt status data) := by
  have hresponse : response u pkt status data = response s pkt status data := by simp only [response, hglob]
  rw [← hresponse]
  exact respond_routed p q status data hresp hnear (by rwa [hglob]) hsrc ((routeOf_congr hlanes hglob hroutes _).trans hroute)

/-- R186, R266, R273: the refusals of O23. -/
theorem refusedPacketsWriteNothing : Claim.RefusedPacketsWriteNothing := by
  unfold Claim.RefusedPacketsWriteNothing
  intro s p q pkt ha hp hwf htyp hresp hto hpre
  obtain ⟨hnear, hid⟩ := routed_of_preRefusal hpre (by omega)
  obtain ⟨ports, box, htake⟩ := takeIn_frame s p pkt
  have hexec := exec_inboundWrite ha hp hwf
  rw [inbound_checked p (landWrite p pkt) htyp hresp hto hpre] at hexec
  refine ⟨fun hhold => ?_, fun hsrc hroute => ⟨fun hclosed => ?_, fun hbusy => ?_, fun ahead quiet hlate => ?_⟩, fun hbounds hlive => ?_⟩
  · rw [hhold] at hexec
    obtain ⟨_, _, hheld⟩ := holdPacket_takeIn s p pkt
    exact ⟨_, hexec, by rw [checked, hheld]⟩
  · rw [hclosed] at hexec
    have hanswer : checked (takeIn s p pkt) p pkt (landWrite p pkt) (.refuse 0x0A) =
        enqueue (devEvent (takeIn s p pkt) 0x5A 1) q 1 (response s pkt 0x0A []) :=
      respond_like p q 0x0A [] (by rw [htake]; rfl) (by rw [htake]; rfl) (by rw [htake]; rfl) hresp hnear hid hsrc hroute
    rw [hanswer] at hexec
    refine ⟨_, hexec, ?_, _, ?_, response_resp s pkt 0x0A [], rfl⟩
    · rw [htake]
      rfl
    · rw [port_enqueue_self]
      exact congrArg (· ++ _) (port_takeIn_queue s p q pkt)
  · rw [hbusy, checked, refusePacket_plain _ p pkt (by decide) (by decide),
      respond_takeIn p q 0x19 [] hresp hnear hpre hsrc hroute] at hexec
    obtain ⟨⟨_, _, hframe⟩, hqueue⟩ := answered_frame s p q 0x19 pkt []
    exact ⟨_, hexec, by rw [hframe], _, hqueue, response_resp s pkt 0x19 [], rfl⟩
  · rw [hlate, checked] at hexec
    obtain ⟨u, hanswer, hcnt, hlanes, hglob, hroutes, hmem, hsq, hframe, hrecord, hnone⟩ :=
      lateData_answers (takeIn s p pkt) p pkt ahead quiet
    rw [hanswer, respond_like p q 0x18 [] (s := s) (by rw [hlanes, htake]) (by rw [hglob, htake]) (by rw [hroutes, htake]) hresp hnear
      hid hsrc hroute] at hexec
    rw [htake] at hcnt hmem hsq hframe hrecord hnone
    refine ⟨_, hexec, hcnt, ⟨_, ?_, response_resp s pkt 0x18 [], rfl, rfl⟩, hrecord, hnone, hmem, hsq, hframe⟩
    rw [port_enqueue_self, List.getLast?_concat]
    rfl
  · rw [hbounds, checked, refusePacket_bounds _ p pkt (by rw [htake]; exact hlive)] at hexec
    obtain ⟨_, hmem, hseq, _⟩ := raiseFault_frame (takeIn s p pkt) (boundsRecord p pkt)
    have hcode := raiseFault_code (takeIn s p pkt) (boundsRecord p pkt)
    obtain ⟨_, _, _, hanswer⟩ := respond_queuesOnly (raiseFault (takeIn s p pkt) (boundsRecord p pkt)) p pkt 9 []
    refine ⟨_, hexec, ?_, ?_, ?_⟩
    · rw [hanswer, hmem, htake]
    · rw [hanswer, hseq, htake]
    · rw [hanswer]
      exact hcode

/-! ### Window queries and refused messages (R267, R269) -/

/-- The payload of a window's state (Table 10.7). -/
def windowState (s : State) (n : Nat) : List Byte :=
  leBytes 1 2 ++ leBytes 1 n ++ leBytes 2 (window s n).gen ++ leBytes 1 (b2n (window s n).isOpen) ++ leBytes 3 0 ++
    leBytes 6 (window s n).length ++ leBytes 1 (window s n).flags ++ leBytes 17 0

theorem rd_windowState (s : State) {n : Nat} (hn : n < 256) :
    rd (windowState s n) 0 1 = 2 ∧ rd (windowState s n) 1 1 = n ∧
      rd (windowState s n) 2 2 = (window s n).gen % 2 ^ 16 ∧ rd (windowState s n) 4 1 = b2n (window s n).isOpen := by
  have hbit : b2n (window s n).isOpen % 256 = b2n (window s n).isOpen := by cases (window s n).isOpen <;> rfl
  simp only [windowState, List.append_assoc]
  refine ⟨?_, ?_, ?_, ?_⟩ <;> simp [rd_append_right, rd_leBytes, hbit, hn]

/-- The answer to a neighbour's query of a window. -/
def queryAnswer (s : State) (pkt : Packet) : Packet :=
  { pkt with
    flags := (pkt.flags &&& 2) ||| 8, dst := pkt.src, src := s.glob.deviceId, length := 32, hops := 0
    payload := windowState s (rd pkt.payload 1 1), status := 0 }

theorem opWindowQuery_neighbour {s : State} (p : Nat) {pkt : Packet} (htyp : pkt.typ = 4) (hresp : pkt.resp = false)
    (hnear : pkt.neighbour = true) (hpre : preRefusal s pkt = none) (hquery : rd pkt.payload 0 1 = 1) :
    opWindowQuery s p pkt = sendNeighbour (takeIn s p pkt) p (queryAnswer s pkt) := by
  have hgo : ¬ (pkt.typ ≠ 4 || pkt.resp || rd pkt.payload 0 1 ≠ 1) = true := by simp [htyp, hresp, hquery]
  obtain ⟨_, _, htake⟩ := takeIn_frame s p pkt
  rw [opWindowQuery, if_neg hgo, hpre]
  dsimp only
  rw [if_pos hnear, htake]
  rfl

/-- R267, R269: the queries and messages of O23. -/
theorem windowQueriesAndRefusedMessages : Claim.WindowQueriesAndRefusedMessages := by
  unfold Claim.WindowQueriesAndRefusedMessages
  intro s p q pkt ha hp hwf hresp
  have hargs : (isLane p && pkt.wf) = true := by simp [isLane, hp, hwf]
  obtain ⟨_, _, htake⟩ := takeIn_frame s p pkt
  refine ⟨fun htyp hnear hpre hup hquery => ?_, ?_, fun htyp hnear hrefuse hpre hhere hsrc hroute => ?_⟩
  · have hexec : exec (.windowCtrlQuery p pkt) s = .next (opWindowQuery s p pkt) :=
      whenAlive_next (.windowCtrlQuery p pkt) s _ hargs ha
    have hupT : portUp (takeIn s p pkt) p = true := by rw [htake]; exact hup
    rw [opWindowQuery_neighbour p htyp hresp hnear hpre hquery, sendNeighbour, if_pos hupT] at hexec
    obtain ⟨hkind, hnumber, hgen, hopen⟩ := rd_windowState s (rd_lt pkt.payload 1 1)
    refine ⟨_, hexec, ?_, { queryAnswer s pkt with flags := (queryAnswer s pkt).flags ||| 2 }, ?_, hkind, hnumber, hopen, hgen⟩
    · rw [htake]
      rfl
    · rw [port_enqueue_self, port_takeIn_queue]
      rfl
  · refine ⟨takeIn s p pkt, whenAlive_next (.windowCtrlState p pkt) s _ hargs ha, ?_, fun k => port_takeIn_queue s p k pkt⟩
    rw [htake]
  · have hexec : exec (.mgmtMessageRefuse p pkt) s = .next (opMsgRefuse s p pkt) :=
      whenAlive_next (.mgmtMessageRefuse p pkt) s _ hargs ha
    have hanswer : opMsgRefuse s p pkt = respond (takeIn s p pkt) p pkt 9 [] := by
      simp [opMsgRefuse, htyp, hresp, hnear, hpre, hhere, hrefuse]
    rw [hanswer, respond_takeIn p q 9 [] hresp hnear hpre hsrc hroute] at hexec
    obtain ⟨⟨_, _, hframe⟩, hqueue⟩ := answered_frame s p q 9 pkt []
    exact ⟨_, hexec, by rw [hframe], _, hqueue, response_resp s pkt 9 [], rfl, rfl⟩

/-- Settles O23: every verdict but a pass leaves memory and tags as they were, and so do queries and refused messages. -/
theorem refusalsWriteNothing : Obligations.RefusalsWriteNothing := ⟨refusedPacketsWriteNothing, windowQueriesAndRefusedMessages⟩

end Sys2Proof.Machine
end

section
/-! SUPPORT. The window phase of the seam. -/

namespace Sys2Proof.Machine

open Sys2Proof

/-- The header of a descriptor of session 9. -/
def session9Hdr : Hdr := { sq := 0, cq := 0, owner := 9, tag := 3, flags := 0 }

/-- A window entry over 4,096 bytes at 0x40000. -/
def smallWindow : List Byte := leBytes 7 0x40000 ++ leBytes 1 3 ++ leBytes 6 4096 ++ leBytes 2 1 ++ leBytes 16 0

/-- A session's part in the seam of a frame, whose fault collection has run in seam cycle 640: the close of window 4, which is open,
waits for the window phase. -/
def seamBeforeWindows : State :=
  { State.reset with
    pins.sysReset := false, glob.deviceId := 5, glob.jobState := 4, boot.phase := 6, job.session := 9, time.period := 4000
    fab.windows := [(4, { isOpen := true })], rings.held := [⟨session9Hdr, .closeWindow 4, false⟩]
    frame.live := true, frame.seam := true, frame.phase := 2, frame.seamAt := 14000, frame.cycle := 14640 }

/-- The window phase begins in seam cycle 896 (Table 2.4), and the cycle count goes on to it. -/
theorem windowPhase_seamBeforeWindows : Answers .windowPhase seamBeforeWindows (fun t => t.frame.cycle = 14896) :=
  ⟨_, whenAlive_next .windowPhase seamBeforeWindows _ rfl rfl, by decide +kernel⟩

/-- Refutes O40: the window phase of the seam acts in cycle 896 of it, 256 cycles after the fault collection, so that the frame does not
stay as it is but for its phase. -/
theorem not_windowsAndRequests : ¬ Obligations.WindowsAndRequests := by
  unfold Obligations.WindowsAndRequests
  rintro ⟨hwindows, -⟩
  obtain ⟨-, -, -, hphase⟩ := hwindows seamBeforeWindows session9Hdr 4 smallWindow rfl (by decide) (by decide) (by decide) (by decide)
    (by decide) (by decide) (by decide)
  obtain ⟨t, hexec, -, -, -, -, hframe, -⟩ := hphase rfl rfl rfl rfl
  obtain ⟨u, hends, hcycle⟩ := windowPhase_seamBeforeWindows
  cases hexec.symm.trans hends
  rw [hframe] at hcycle
  exact absurd hcycle (by decide)

end Sys2Proof.Machine
end

section
/-! SUPPORT. The transfers of this device: their answers, and what is sent again. -/

namespace Sys2Proof.Machine

open Sys2Proof

/-! ### What an answer leaves where nothing waits for it (R299, R371, log 49) -/

/-- Without record writes on their way, a response answers none. -/
theorem answerWrite_none {s : State} (pkt : Packet) (h : s.rings.writes = []) : answerWrite s pkt = s := by
  simp [answerWrite, h]

/-- A response other than OK concerns the record writes only. -/
theorem answerWrite_refused {s : State} {pkt : Packet} (h : pkt.status ≠ 0) :
    ∃ writes, answerWrite s pkt = { s with rings := { s.rings with writes := writes } } := by
  unfold answerWrite
  split
  · exact ⟨_, rfl⟩
  · rw [if_neg h]
    exact ⟨_, rfl⟩

/-- Without a held snapshot request nothing is captured. -/
theorem settleSnaps_none {s : State} (h : ∀ x ∈ s.rings.held, x.op ≠ .snapshot) : settleSnaps s = s := by
  have hnone : s.rings.held.any (fun x => decide (x.op = .snapshot)) = false := by simpa using h
  simp [settleSnaps, hnone]

/-- Without a held mask operation none goes on. -/
theorem resumeMasks_none {s : State} (h : ∀ x ∈ s.rings.held, ∀ rec, x.op ≠ .maskOp rec) : resumeMasks s = s := by
  refine List.foldlRecOn (motive := fun t => t = s) _ _ rfl (fun t ht x hx => ?_)
  dsimp only
  split
  next rec hop => exact absurd hop (h x hx rec)
  next => exact ht

/-! ### The one transfer of the table (R258) -/

/-- `s` with other transfers. -/
def withXfers (s : State) (xs : List Transfer) : State := { s with fab := { s.fab with xfers := xs } }

/-- What an answer makes of the one transfer, where it stays. -/
def oneXfer (x : Transfer) : List Transfer := if x.gone then [] else [x]

theorem updXfer_one {s : State} {pkt : Packet} {x : Transfer} (f : Transfer → Transfer) (hone : s.fab.xfers = [x])
    (hmine : isXfer s pkt x = true) : updXfer s pkt f = withXfers s (oneXfer (f x)) := by
  by_cases hgone : (f x).gone = true
  · simp [updXfer, hone, hmine, oneXfer, hgone, withXfers]
  · simp [updXfer, hone, hmine, oneXfer, hgone, withXfers]

theorem mem_oneXfer {x y : Transfer} (h : y ∈ oneXfer x) : y = x := by
  unfold oneXfer at h
  split at h
  · cases h
  · simpa using h

/-- A transfer with a packet to come stays, until it is acknowledged. -/
theorem gone_eq_false {x : Transfer} (hacked : x.acked = false) (hwaits : x.pkts ≠ []) : x.gone = false := by
  simp [Transfer.gone, hacked, hwaits]

/-- A response of a transfer, taken in. -/
structure AnswersOne (s : State) (pkt : Packet) (x : Transfer) : Prop where
  one : s.fab.xfers = [x]
  mine : isXfer s pkt x = true
  noWrites : s.rings.writes = []
  noSnapshot : ∀ h ∈ s.rings.held, h.op ≠ .snapshot
  noMask : ∀ h ∈ s.rings.held, ∀ rec, h.op ≠ .maskOp rec

theorem AnswersOne.takeIn {s : State} {pkt : Packet} {x : Transfer} (h : AnswersOne s pkt x) (p : Nat) :
    AnswersOne (takeIn s p pkt) pkt x := by
  obtain ⟨hone, hmine, hwrites, hsnap, hmask⟩ := h
  obtain ⟨_, _, htake⟩ := takeIn_frame s p pkt
  rw [htake]
  exact ⟨hone, hmine, hwrites, hsnap, hmask⟩

/-! ### The answers, command by command -/

/-- OK (R258). -/
theorem exec_responseOk {s : State} {p : Nat} {pkt : Packet} {x : Transfer} (ha : alive s = true)
    (hargs : (isLane p && pkt.wf) = true) (hresp : pkt.resp = true) (h : AnswersOne s pkt x) (hok : pkt.status = 0) :
    ∃ ports box, exec (.responseOk p pkt) s = .next { s with
      ports := ports, fab := { s.fab with selfBox := box, xfers := oneXfer (x.okFor pkt) } } := by
  obtain ⟨hone, hmine, hwrites, hsnap, _⟩ := h.takeIn p
  obtain ⟨ports, box, htake⟩ := takeIn_frame s p pkt
  refine ⟨ports, box, (whenAlive_next (.responseOk p pkt) s _ hargs ha).trans (congrArg _ ?_)⟩
  rw [onResponse, if_pos hresp, if_pos hok, updXfer_one _ hone hmine, answerWrite_none, settleSnaps_none]
  · rw [htake]
    rfl
  · exact hsnap
  · exact hwrites

/-- LATE_DATA (R259). -/
theorem exec_responseLateData {s : State} {p : Nat} {pkt : Packet} {x : Transfer} (ha : alive s = true)
    (hargs : (isLane p && pkt.wf) = true) (hresp : pkt.resp = true) (h : AnswersOne s pkt x) (hlate : pkt.status = 0x18) :
    ∃ ports box, exec (.responseLateData p pkt) s = .next { s with
      ports := ports, cnt := (devEvent s 0x58 1).cnt
      fab := { s.fab with selfBox := box, xfers := oneXfer (x.lateFor pkt) } } := by
  obtain ⟨hone, hmine, hwrites, _, _⟩ := h.takeIn p
  obtain ⟨ports, box, htake⟩ := takeIn_frame s p pkt
  refine ⟨ports, box, (whenAlive_next (.responseLateData p pkt) s _ hargs ha).trans (congrArg _ ?_)⟩
  rw [onResponse, if_pos hresp, if_pos hlate, updXfer_one (s := devEvent (takeIn s p pkt) 0x58 1) _ hone hmine,
    answerWrite_none]
  · rw [htake]
    rfl
  · exact hwrites

/-- The transfer after BUSY for the packet at an address. -/
def Transfer.busyAt (x : Transfer) (addr : Nat) : Transfer := x.mark addr (fun u => { u with busy := true })

theorem Transfer.busyAt_gone (x : Transfer) (addr : Nat) : (x.busyAt addr).gone = x.gone := by
  simp [Transfer.busyAt, Transfer.mark, Transfer.gone]

theorem Transfer.busyAt_pkts (x : Transfer) (addr : Nat) : (x.busyAt addr).pkts.map (·.pkt) = x.pkts.map (·.pkt) ∧
    ∀ u ∈ (x.busyAt addr).pkts, u.pkt.addr = addr → u.busy = true := by
  simp only [Transfer.busyAt, Transfer.mark, List.map_map]
  refine ⟨List.map_congr_left fun u _ => ?_, fun u hu haddr => ?_⟩
  · simp only [Function.comp]
    split <;> rfl
  · obtain ⟨v, _, rfl⟩ := List.mem_map.mp hu
    split at haddr
    next h => rw [if_pos h]
    next h => exact absurd haddr h

/-- A SCHEDULED packet of the current frame, once it is marked, stalls the cycle (R259). -/
theorem Transfer.busyAt_busyNow {s : State} {x : Transfer} {addr : Nat} (hgoes : x.stopped = false)
    (h : ∃ u ∈ x.pkts, u.pkt.addr = addr ∧ u.pkt.cls = 0 ∧ u.pkt.frame = currentFrame s) :
    (x.busyAt addr).busyNow s = true := by
  obtain ⟨u, hu, haddr, hcls, hframe⟩ := h
  simp only [Transfer.busyNow, Transfer.busyAt, Transfer.mark, hgoes, Bool.not_false, Bool.true_and, List.any_map, List.any_eq_true]
  exact ⟨u, hu, by simp [haddr, hcls, hframe]⟩

/-- BUSY (R259). -/
theorem exec_responseBusy {s : State} {p : Nat} {pkt : Packet} {x : Transfer} (ha : alive s = true)
    (hargs : (isLane p && pkt.wf) = true) (hresp : pkt.resp = true) (h : AnswersOne s pkt x) (hbusy : pkt.status = 0x19) :
    ∃ ports box, exec (.responseBusy p pkt) s = .next { s with
      ports := ports, fab := { s.fab with selfBox := box, xfers := oneXfer (x.busyAt pkt.addr) }
      frame := { s.frame with
        blocked := s.frame.blocked || (s.frame.region && (oneXfer (x.busyAt pkt.addr)).any (Transfer.busyNow s)) } } := by
  obtain ⟨hone, hmine, hwrites, _, _⟩ := h.takeIn p
  obtain ⟨ports, box, htake⟩ := takeIn_frame s p pkt
  refine ⟨ports, box, (whenAlive_next (.responseBusy p pkt) s _ hargs ha).trans (congrArg _ ?_)⟩
  rw [onResponse, if_pos hresp, if_pos hbusy, updXfer_one _ hone hmine, answerWrite_none]
  · rw [htake]
    rfl
  · exact hwrites

/-- The transfer after data of a READ. -/
def Transfer.readFor (y : Transfer) (pkt : Packet) : Transfer :=
  let ps := y.pkts.filter (fun u => u.pkt.addr ≠ pkt.addr)
  { y with
    pkts := ps, acked := ps.isEmpty && !y.stopped && !y.late,
    got := if y.reads then y.got ++ [(pkt.addr, pkt.payload)] else y.got }

/-- The data of a READ (R258). -/
theorem exec_readResponseReceive {s : State} {p : Nat} {pkt : Packet} {x : Transfer} (ha : alive s = true)
    (hargs : (isLane p && pkt.wf) = true) (hresp : pkt.resp = true) (h : AnswersOne s pkt x) (htyp : pkt.typ = 2)
    (hok : pkt.status = 0) : ∃ ports box, exec (.readResponseReceive p pkt) s = .next { s with
      ports := ports, fab := { s.fab with selfBox := box, xfers := oneXfer (x.readFor pkt) } } := by
  obtain ⟨hone, hmine, _, _, hmask⟩ := h.takeIn p
  have hread : opReadResponse (takeIn s p pkt) pkt = withXfers (takeIn s p pkt) (oneXfer (x.readFor pkt)) :=
    updXfer_one _ hone hmine
  obtain ⟨ports, box, htake⟩ := takeIn_frame s p pkt
  refine ⟨ports, box, (whenAlive_next (.readResponseReceive p pkt) s _ hargs ha).trans (congrArg _ ?_)⟩
  rw [onResponse, if_pos hresp, if_pos (by simp [htyp, hok]), hread, resumeMasks_none]
  · rw [htake]
    rfl
  · exact hmask

/-! ### A refusal ends the transfer (R259) -/

/-- The record of a transfer that is refused. -/
def refusedRecord (x : Transfer) (p : Nat) (pkt : Packet) : FaultRec :=
  { code := pkt.status, valid := 0x20, addr := pkt.addr, detail := x.dst + pkt.window * 2 ^ 24, src := 5, key := p, die := laneDie p }

theorem opRefusal_one {s : State} {pkt : Packet} {x : Transfer} (p : Nat) (hone : s.fab.xfers = [x])
    (hmine : isXfer s pkt x = true) (hckpt : ckptXfer x = false) :
    opRefusal s p pkt = endTransfer (withXfers s []) x p pkt.status pkt := by
  simp [opRefusal, hone, hmine, hckpt, withXfers]

/-- Without held mask operations the end of a transfer ends none of them. -/
theorem endMaskOp_none {s : State} (x : Transfer) (code : Nat) (hmask : ∀ h ∈ s.rings.held, ∀ rec, h.op ≠ .maskOp rec)
    (hnone : s.fab.xfers = []) : endMaskOp s x code = s := by
  unfold endMaskOp
  split
  · rfl
  · have hheld : s.rings.held.filter (fun h => !(h.op == .maskOp x.idx)) = s.rings.held :=
      List.filter_eq_self.mpr fun h hh => by simpa using hmask h hh x.idx
    have htaken : s.rings.held.filter (fun h => h.op == .maskOp x.idx) = [] :=
      List.filter_eq_nil_iff.mpr fun h hh => by simpa using hmask h hh x.idx
    simp only [takeHeld, htaken, hheld, completeAll, List.foldl_nil, hnone, List.filter_nil]
    rw [← hnone]

/-- The end of an operation of firmware, by the code of the refusal. -/
theorem endTransfer_operation {s : State} {x : Transfer} {pkt : Packet} (p : Nat) (hfw : x.folio = none)
    (hckpt : ckptXfer x = false) (hmask : ∀ h ∈ s.rings.held, ∀ rec, h.op ≠ .maskOp rec) :
    endTransfer (withXfers s []) x p pkt.status pkt =
      if pkt.status = 9 || pkt.status = 0x0C then withXfers s []
      else endMaskOp (failOperation (withXfers s []) (refusedRecord x p pkt)) x pkt.status := by
  unfold endTransfer
  rw [hfw]
  simp only [hckpt, Bool.false_eq_true, if_false]
  split
  · exact endMaskOp_none x _ hmask rfl
  · rfl

/-- OK without RESEND leaves what is held, or waits for an answer of its own. -/
theorem okFor_pkts (x : Transfer) {pkt : Packet} (hfirst : pkt.resend = false) :
    (x.okFor pkt).pkts = x.pkts.filter (fun u => u.held || u.busy || u.resent) := by simp [Transfer.okFor, hfirst]

/-- A message sent changes no transfer. -/
theorem requestRollback_xfers (s : State) (flags code : Nat) : (requestRollback s flags code).fab.xfers = s.fab.xfers := by
  have hsent (req : Nat) (pkt : Packet) : (sendPacket s req pkt).1.fab.xfers = s.fab.xfers := by
    obtain ⟨_, _, _, h⟩ := sendPacket_queuesOnly s req pkt
    rw [h]
  show (sendMgmt s _ _).fab.xfers = _
  unfold sendMgmt
  dsimp only
  split <;> exact hsent 1 _

/-! ### Fields of the record of a refusal (Table 14.1) -/

/-- Byte 1 of a record is its severity, with CAUSE. -/
theorem rd_bytes_severity (r : FaultRec) : rd r.bytes 1 1 = (r.sev + if r.cause then 64 else 0) % 256 := by
  simp only [FaultRec.bytes, List.append_assoc]
  simp [rd_append_right, rd_leBytes]

/-- Byte 11 of a record is its die. -/
theorem rd_bytes_die (r : FaultRec) : rd r.bytes 11 1 = r.die % 256 := by
  simp only [FaultRec.bytes, List.append_assoc]
  simp [rd_append_right, rd_leBytes]

theorem raiseFault_held (s : State) (r : FaultRec) : (raiseFault s r).rings.held = s.rings.held := by
  unfold raiseFault
  dsimp only
  split
  · rfl
  · split
    · rfl
    · exact putFault_held _ _ _

theorem raiseFault_xfers (s : State) (r : FaultRec) : (raiseFault s r).fab.xfers = s.fab.xfers := by
  obtain ⟨_, _, _, _, _, _, _, h⟩ := (raiseFault_reported s r).frame
  exact congrArg (·.fab.xfers) h

/-- The codes of a refusal are bytes, and none of them is OK. -/
theorem refusalCode_byte {c : Nat} (h : refusalCode c = true) : c ≠ 0 ∧ c % 256 = c := by
  simp only [refusalCode, Bool.or_eq_true, beq_iff_eq] at h
  omega

/-- The record of an operation that fails: code, severity and die. -/
theorem failOperation_record (s : State) (x : Transfer) (p : Nat) (pkt : Packet) (hcode : refusalCode pkt.status = true) :
    let t := failOperation s (refusedRecord x p pkt)
    t.flt.seq = (s.flt.seq + 1) % 2 ^ 32 ∧ rd t.flt.last 0 1 = pkt.status ∧ rd t.flt.last 1 1 = 1 ∧
      rd t.flt.last 11 1 = (if p < 48 then 4 else 5) ∧ t.mem = s.mem ∧ t.frame = s.frame := by
  obtain ⟨_, hbyte⟩ := refusalCode_byte hcode
  obtain ⟨_, hmem, hseq, hlast⟩ := raiseFault_frame s { refusedRecord x p pkt with sev := 1, valid := 0x20 }
  obtain ⟨_, _, _, _, _, _, _, hframe⟩ := (raiseFault_reported s { refusedRecord x p pkt with sev := 1, valid := 0x20 }).frame
  refine ⟨hseq, ?_, ?_, ?_, hmem, congrArg (·.frame) hframe⟩
  · exact (congrArg (rd · 0 1) hlast).trans ((rd_bytes_code _).trans hbyte)
  · exact (congrArg (rd · 1 1) hlast).trans (rd_bytes_severity _)
  · refine (congrArg (rd · 11 1) hlast).trans ((rd_bytes_die _).trans ?_)
    show laneDie p % 256 = _
    unfold laneDie
    split <;> rfl

/-! ### Refusals, command by command -/

theorem exec_responseRefusal {s : State} {p : Nat} {pkt : Packet} {x : Transfer} (ha : alive s = true)
    (hargs : (isLane p && pkt.wf) = true) (hresp : pkt.resp = true) (h : AnswersOne s pkt x) (hckpt : ckptXfer x = false)
    (hcode : refusalCode pkt.status = true) : exec (.responseRefusal p pkt) s =
      .next (answerWrite (endTransfer (withXfers (takeIn s p pkt) []) x p pkt.status pkt) pkt) := by
  obtain ⟨hone, hmine, _, _, _⟩ := h.takeIn p
  refine (whenAlive_next (.responseRefusal p pkt) s _ hargs ha).trans (congrArg _ ?_)
  rw [onResponse, if_pos hresp, if_pos hcode, opRefusal_one p hone hmine hckpt]

/-- The refusal of a stroke's packet aborts its frame (R259). -/
theorem endTransfer_stroke {s : State} {x : Transfer} {l : Nat} (p : Nat) (pkt : Packet) (hstroke : x.folio = some l) :
    endTransfer s x p pkt.status pkt = abortWith s ((refusedRecord x p pkt).ofStroke s (some (l, x.idx))) false := by
  unfold endTransfer
  rw [hstroke]
  rfl

/-- The abort of a frame that runs, where no transfer is left. -/
theorem abortWith_xfers {s : State} (r : FaultRec) (force : Bool) (hlive : s.frame.live = true) (hrun : s.frame.aborted = false)
    (hnone : s.fab.xfers = []) : (abortWith s r force).fab.xfers = [] := by
  obtain ⟨flags, hsplit⟩ : ∃ flags, abortWith s r force = requestRollback (haltFrame (raiseFault s r.asCause)) flags r.code :=
    ⟨_, if_pos (by simp [hlive, hrun])⟩
  have hhalted : (haltFrame (raiseFault s r.asCause)).fab.xfers = [] := by
    show (raiseFault s r.asCause).fab.xfers.map _ = []
    rw [raiseFault_xfers, hnone]
    rfl
  rw [hsplit, ← hhalted]
  exact requestRollback_xfers _ _ _

/-- R258, R259, R348: the answers of O25. -/
theorem answersSettleTheTransfer_here : Claim.AnswersSettleTheTransfer := by
  unfold Claim.AnswersSettleTheTransfer
  intro s p pkt x ha hp hwf hresp hone hmine hgoes hwrites hheld
  have hargs : (isLane p && pkt.wf) = true := by simp [isLane, hp, hwf]
  have h : AnswersOne s pkt x := ⟨hone, hmine, hwrites, fun y hy => (hheld y hy).1, fun y hy => (hheld y hy).2⟩
  refine ⟨fun hok hfirst => ?_, fun hbusy hstays => ?_, fun hlate => ?_, fun htyp hok hreads => ?_, fun hcode hfw hckpt => ?_,
    fun l hcode hstroke hlive hrun => ?_⟩
  · obtain ⟨ports, box, hexec⟩ := exec_responseOk ha hargs hresp h hok
    have hpkts := okFor_pkts x hfirst
    refine ⟨_, hexec, rfl, fun y hy => ?_, fun hwaits => ?_⟩
    · rw [mem_oneXfer hy, hpkts]
    · have hleft : (x.okFor pkt).pkts ≠ [] := by
        rw [hpkts, ne_eq, List.filter_eq_nil_iff]
        obtain ⟨u, hu, huwaits⟩ := hwaits
        exact fun hnone => hnone u hu (by simpa [or_assoc] using huwaits)
      have hacked : (x.okFor pkt).acked = false := by
        show ((x.okFor pkt).pkts.isEmpty && !x.stopped && !x.late) = false
        simp [hleft]
      simp [oneXfer, gone_eq_false hacked hleft]
  · obtain ⟨ports, box, hexec⟩ := exec_responseBusy ha hargs hresp h hbusy
    have hone' : oneXfer (x.busyAt pkt.addr) = [x.busyAt pkt.addr] := by
      rw [oneXfer, Transfer.busyAt_gone, hstays]
      rfl
    rw [hone'] at hexec
    obtain ⟨hsame, hmarked⟩ := x.busyAt_pkts pkt.addr
    refine ⟨_, hexec, rfl, fun hregion hsched => ?_, x.busyAt pkt.addr, rfl, hsame, hmarked⟩
    have hnow := Transfer.busyAt_busyNow (s := s) hgoes hsched
    simp [hregion, hnow]
  · obtain ⟨ports, box, hexec⟩ := exec_responseLateData ha hargs hresp h hlate
    refine ⟨_, hexec, rfl, fun y hy => ?_⟩
    rw [mem_oneXfer hy]
    exact ⟨rfl, rfl⟩
  · obtain ⟨ports, box, hexec⟩ := exec_readResponseReceive ha hargs hresp h htyp hok
    have hstays : oneXfer (x.readFor pkt) = [x.readFor pkt] := by simp [oneXfer, Transfer.gone, Transfer.readFor, hreads]
    exact ⟨_, hexec, rfl, x.readFor pkt, hstays, if_pos hreads⟩
  · have hexec := exec_responseRefusal ha hargs hresp h hckpt hcode
    obtain ⟨_, _, hwritesT, _, hmask⟩ := h.takeIn p
    obtain ⟨_, _, htake⟩ := takeIn_frame s p pkt
    rw [endTransfer_operation p hfw hckpt hmask] at hexec
    by_cases hquiet : pkt.status = 9 ∨ pkt.status = 0x0C
    · rw [if_pos (by simpa using hquiet), answerWrite_none] at hexec
      · refine ⟨_, hexec, fun _ => ?_, fun h9 hC => absurd hquiet (by simp [h9, hC])⟩
        rw [htake]
        rfl
      · exact hwritesT
    · rw [if_neg (by simpa using hquiet), endMaskOp_none _ _ (by rw [failOperation, raiseFault_held]; exact hmask)
        (by rw [failOperation, raiseFault_xfers]; rfl)] at hexec
      obtain ⟨_, hanswered⟩ := answerWrite_refused (s := failOperation (withXfers (takeIn s p pkt) []) (refusedRecord x p pkt))
        (refusalCode_byte hcode).1
      obtain ⟨hseq, hlast, hsev, hdie, hmem, hframe⟩ := failOperation_record (withXfers (takeIn s p pkt) []) x p pkt hcode
      refine ⟨_, hexec, fun hq => absurd hq hquiet, fun _ _ => ?_⟩
      rw [hanswered]
      refine ⟨by rw [failOperation, raiseFault_xfers]; rfl, hseq.trans ?_, hlast, hsev, hdie, hmem.trans ?_, hframe.trans ?_⟩
      all_goals rw [htake]; rfl
  · have hckpt : ckptXfer x = false := by simp [ckptXfer, hstroke]
    have hexec := exec_responseRefusal ha hargs hresp h hckpt hcode
    rw [endTransfer_stroke p pkt hstroke] at hexec
    obtain ⟨_, _, htake⟩ := takeIn_frame s p pkt
    generalize hr : (refusedRecord x p pkt).ofStroke _ _ = r at hexec
    have hliveT : (withXfers (takeIn s p pkt) []).frame.live = true := by rw [htake]; exact hlive
    have hrunT : (withXfers (takeIn s p pkt) []).frame.aborted = false := by rw [htake]; exact hrun
    obtain ⟨haborted, hmem, _⟩ := abortWith_running _ r false hliveT hrunT
    obtain ⟨_, hwaiting, _⟩ := abortWith_running_request _ r false hliveT hrunT
    have hxfers := abortWith_xfers r false hliveT hrunT rfl
    obtain ⟨_, hanswered⟩ := answerWrite_refused (s := abortWith (withXfers (takeIn s p pkt) []) r false) (refusalCode_byte hcode).1
    refine ⟨_, hexec, ?_⟩
    rw [hanswered]
    refine ⟨hxfers, haborted, hwaiting, hmem.trans ?_⟩
    rw [htake]
    rfl

/-! ### What is sent again, and what leaves when its slot is full (R259, R261) -/

/-- A packet with a route to another device leaves on its port. -/
theorem sendPacket_routed {s : State} {pkt : Packet} {q : Nat} (req : Nat) (hid : s.glob.deviceId ≠ 0xFFFFFF)
    (hdst : pkt.dst ≠ 0xFFFFFF) (hroute : routeFor s pkt = some (some q)) : (sendPacket s req pkt).1 = enqueue s q req pkt := by
  rw [sendPacket, if_neg hid, if_neg hdst, hroute]

/-- RESEND leaves the route of a packet: it is not RESP. -/
theorem routeFor_resend (s : State) (pkt : Packet) : routeFor s { pkt with flags := pkt.flags ||| 16 } = routeFor s pkt := by
  have hresp : Packet.resp { pkt with flags := pkt.flags ||| 16 } = pkt.resp := by simp [Packet.resp]
  simp only [routeFor, hresp]

theorem opBusyResend_one {s : State} {x : Transfer} {u : Unanswered} {q : Nat} (hone : s.fab.xfers = [x]) (hpkt : x.pkts = [u])
    (hgoes : x.stopped = false) (hid : s.glob.deviceId ≠ 0xFFFFFF) (hdst : u.pkt.dst ≠ 0xFFFFFF)
    (hroute : routeFor s u.pkt = some (some q)) (hbusy : u.busy = true) (hframe : u.pkt.frame = currentFrame s)
    (hseam : u.pkt.cls = 0 → s.frame.seam = false) : opBusyResend s x.tag u.pkt.addr =
      withXfers (enqueue s q 0 { u.pkt with flags := u.pkt.flags ||| 16 })
        [{ x with pkts := [{ u with busy := false, resent := true }] }] := by
  have hfind : s.fab.xfers.find? (fun y => y.tag = x.tag && y.pkts.any (fun u' => u'.busy && u'.pkt.addr = u.pkt.addr)) = some x := by
    simp [hone, hpkt, hbusy]
  have hmark : x.pkts.find? (fun u' => u'.busy && u'.pkt.addr = u.pkt.addr) = some u := by simp [hpkt, hbusy]
  have hsent := sendPacket_routed (pkt := { u.pkt with flags := u.pkt.flags ||| 16 }) 0 hid hdst ((routeFor_resend s u.pkt).trans hroute)
  have hxfers : (enqueue s q 0 { u.pkt with flags := u.pkt.flags ||| 16 }).fab.xfers = [x] := hone
  unfold opBusyResend
  rw [hfind]
  dsimp only
  rw [hmark]
  dsimp only
  rw [if_neg (by simpa [hgoes, hframe] using hseam), hsent, hxfers]
  simp [withXfers, Transfer.mark, hpkt]

theorem opSlotFill_one {s : State} {x : Transfer} {u : Unanswered} {q : Nat} (hone : s.fab.xfers = [x]) (hpkt : x.pkts = [u])
    (hgoes : x.stopped = false) (hid : s.glob.deviceId ≠ 0xFFFFFF) (hdst : u.pkt.dst ≠ 0xFFFFFF)
    (hroute : routeFor s u.pkt = some (some q)) (hheld : u.held = true) (hlate : x.late = false) : opSlotFill s x.tag =
      withXfers (enqueue s q 0 { u.pkt with frame := currentFrame s }) [{ x with pkts := [{ u with held := false }] }] := by
  have hfind : s.fab.xfers.find? (fun y => y.tag = x.tag && !y.stopped && !y.late && !y.pkts.isEmpty && y.pkts.all (fun u => u.held)) =
      some x := by
    simp [hone, hpkt, hgoes, hlate, hheld]
  have hsent := sendPacket_routed (pkt := { u.pkt with frame := currentFrame s }) 0 hid hdst hroute
  have hxfers : (enqueue s q 0 { u.pkt with frame := currentFrame s }).fab.xfers = [x] := hone
  unfold opSlotFill
  rw [hfind]
  dsimp only
  rw [hpkt, List.foldl_cons, List.foldl_nil, hsent, hxfers]
  simp [withXfers, hpkt]

/-- R259, R261: what is sent again, or leaves when its slot is full. -/
theorem heldAndBusyPacketsAreSentAgain : Claim.HeldAndBusyPacketsAreSentAgain := by
  unfold Claim.HeldAndBusyPacketsAreSentAgain
  intro s q x u ha hone hpkt hgoes htag haddr hid hdst hroute
  refine ⟨fun hbusy hframe hseam => ?_, fun hheld hlate => ?_⟩
  · have hwf : (fits 2 x.tag && fits 6 u.pkt.addr) = true := by simpa [fits, htag] using haddr
    have hop := opBusyResend_one hone hpkt hgoes hid hdst hroute hbusy hframe hseam
    exact ⟨_, (whenAlive_next (.busyResend x.tag u.pkt.addr) s _ hwf ha).trans (congrArg _ hop), rfl, port_enqueue_self s q 0 _⟩
  · have hwf : fits 2 x.tag = true := by simp [fits, htag]
    have hop := opSlotFill_one hone hpkt hgoes hid hdst hroute hheld hlate
    exact ⟨_, (whenAlive_next (.slotFillSend x.tag) s _ hwf ha).trans (congrArg _ hop), rfl, port_enqueue_self s q 0 _, rfl⟩

/-- Settles O25: the one transfer of the table takes each answer as its own function of the transfer says, and a refusal ends it; what
waits leaves on the port of its route. -/
theorem answersSettleTheTransfer : Obligations.AnswersSettleTheTransfer :=
  ⟨answersSettleTheTransfer_here, heldAndBusyPacketsAreSentAgain⟩

end Sys2Proof.Machine
end

section
/-! SUPPORT. Lanes that come up: the page exchange, the training, and a rate that fails. -/

namespace Sys2Proof.Machine

open Sys2Proof

/-! ### What a lost port leaves alone (R254, R295, R333) -/

/-- `t` keeps of `s` its memory, its frame, its Folios, its lanes with their link layers, and the rates that failed at its ports. -/
structure LanesKept (s t : State) : Prop where
  mem : t.mem = s.mem
  frame : t.frame = s.frame
  folios : t.folios = s.folios
  lanes : t.lanes = s.lanes
  links : t.links = s.links
  removed : ∀ k, (port t k).removed = (port s k).removed

theorem LanesKept.refl (s : State) : LanesKept s s := ⟨rfl, rfl, rfl, rfl, rfl, fun _ => rfl⟩

theorem LanesKept.trans {s t u : State} (h : LanesKept s t) (g : LanesKept t u) : LanesKept s u :=
  ⟨g.mem.trans h.mem, g.frame.trans h.frame, g.folios.trans h.folios, g.lanes.trans h.lanes, g.links.trans h.links,
    fun k => (g.removed k).trans (h.removed k)⟩

/-- A fold of steps each of which keeps the lanes. -/
theorem LanesKept.foldl {α : Type} (f : State → α → State) (hf : ∀ u x, LanesKept u (f u x)) (l : List α) (s : State) :
    LanesKept s (l.foldl f s) :=
  List.foldlRecOn l f (LanesKept.refl s) (fun t ht x _ => ht.trans (hf t x))

theorem LanesKept.lane {s t : State} (h : LanesKept s t) (n : Nat) : lane t n = lane s n := by
  simp only [Machine.lane, h.lanes]

theorem LanesKept.link {s t : State} (h : LanesKept s t) (n : Nat) : link t n = link s n := by
  simp only [Machine.link, h.links]

theorem Reported.lanesKept {s t : State} (h : Reported s t) : LanesKept s t := by
  obtain ⟨_, _, _, _, _, _, _, hframe⟩ := h.frame
  refine ⟨congrArg (·.mem) hframe, congrArg (·.frame) hframe, congrArg (·.folios) hframe, congrArg (·.lanes) hframe,
    congrArg (·.links) hframe, fun k => ?_⟩
  obtain ⟨_, hport⟩ := h.port k
  rw [hport]

theorem PowerOnly.lanesKept {s t : State} (h : PowerOnly s t) : LanesKept s t := by
  obtain ⟨_, _, rfl⟩ := h
  exact ⟨rfl, rfl, rfl, rfl, rfl, fun _ => rfl⟩

theorem respond_lanesKept (s : State) (p : Nat) (pkt : Packet) (status : Nat) (data : List Byte) :
    LanesKept s (respond s p pkt status data) := by
  have hcounted (u : State) : LanesKept u (devEvent u 0x59 1) := ⟨rfl, rfl, rfl, rfl, rfl, fun _ => rfl⟩
  unfold respond
  split
  · exact hcounted s
  · dsimp only
    split
    · split
      · exact (enqueue_reported s p 1 _).lanesKept
      · exact hcounted s
    · have hsent := (sendPacket_reported s 1 (response s pkt status data)).lanesKept
      split
      · exact hsent
      · exact hsent.trans (hcounted _)

theorem flushDown_lanesKept (s : State) (p : Nat) : LanesKept s (flushDown s p) := by
  unfold flushDown
  split
  · exact .refl s
  · refine List.foldlRecOn (motive := LanesKept s) _ _ ⟨rfl, rfl, rfl, rfl, rfl, fun k => ?_⟩
      (fun u hu x _ => hu.trans (respond_lanesKept u p x.1 0x0C []))
    by_cases hk : k = p
    · subst hk
      rw [port_setPort]
    · rw [port_setPort_ne _ _ _ _ hk]

theorem dropSession_lanesKept (s : State) : LanesKept s (dropSession s) := by
  have hheld : LanesKept s (takeHeld s (fun _ => true)).2 := ⟨rfl, rfl, rfl, rfl, rfl, fun _ => rfl⟩
  have hall (u : State) (l : List Held) : LanesKept u (completeAll u l 0x19) :=
    .foldl _ (fun v (x : Held) => (complete_reported v x.hdr 0x19 0).lanesKept) l u
  have hacts (u : State) (l : List Hdr) : LanesKept u (l.foldl (fun v h => complete v h 0x19 0) u) :=
    .foldl _ (fun v h => (complete_reported v h 0x19 0).lanesKept) l u
  unfold dropSession
  dsimp only
  exact ((hheld.trans (hall _ _)).trans (hacts _ _)).trans ⟨rfl, rfl, rfl, rfl, rfl, fun _ => rfl⟩

theorem setJobState_lanesKept (s : State) (new : Nat) : LanesKept s (setJobState s new) := by
  unfold setJobState
  split
  · exact .refl s
  · exact LanesKept.trans (t := { s with glob.jobState := new }) ⟨rfl, rfl, rfl, rfl, rfl, fun _ => rfl⟩
      (pushCq_reported _ _ _ _ _).lanesKept

/-- A session that ends takes no lane with it (R295). -/
theorem loseSession_lanesKept (s : State) : LanesKept s (loseSession s) := by
  have hjob (u : State) (job : Job) : LanesKept u { u with job := job } := ⟨rfl, rfl, rfl, rfl, rfl, fun _ => rfl⟩
  unfold loseSession
  split
  · exact .refl s
  · split
    · exact ((dropSession_lanesKept s).trans (hjob _ _)).trans (setJobState_lanesKept _ _)
    · split
      · exact (hjob s _).trans (setJobState_lanesKept _ _)
      · exact .refl s

theorem peerHostLost_lanesKept (s : State) : LanesKept s (peerHostLost s) := by
  unfold peerHostLost
  split
  · exact loseSession_lanesKept s
  · exact .refl s

/-- What follows the loss of a port, once the rates that failed at it are settled. -/
theorem lostPort_lanesKept (s : State) (p : Nat) : LanesKept s (dropPartner (peerHostLost (flushDown s p)) (p / 8)) :=
  ((flushDown_lanesKept s p).trans (peerHostLost_lanesKept _)).trans (dropPartner_powerOnly _ _).lanesKept

/-- Where no rate has failed, none is tried again. -/
theorem afterDown_lanesKept {s : State} {p : Nat} (h : (port s p).removed = 0) : LanesKept s (afterDown s p) := by
  have hfresh : freshRates s p = s := by
    unfold freshRates
    rw [if_pos (by simp [h])]
  rw [afterDown, hfresh]
  exact lostPort_lanesKept s p

/-! ### The page exchange (R247 to R249) -/

/-- A rate is one of four. -/
theorem commonRates_lt (rates rates' fec fec' : Nat) : commonRates rates rates' fec fec' < 16 := by
  have hlow : rates &&& rates' &&& 15 ≤ 15 := Nat.and_le_right
  have hand (r m : Nat) : r &&& m ≤ r := Nat.and_le_left
  unfold commonRates
  dsimp only
  generalize rates &&& rates' &&& 15 = r at hlow
  have h7 := hand r 7
  have h8 := hand r 8
  have h78 := hand (r &&& 7) 8
  split <;> split <;> omega

theorem topRate_le (r : Nat) : topRate r ≤ 4 := by
  unfold topRate
  repeat' split
  all_goals omega

theorem rateWith_le (s : State) (n : Nat) (page : List Byte) : rateWith s n page ≤ 4 := by
  have hcommon : ratesWith s n page < 2 ^ 4 := commonRates_lt _ _ _ _
  unfold rateWith
  dsimp only
  split
  · next r _ =>
    split
    · next hbit =>
      have hsmall : 2 ^ (r - 1) < 2 ^ 4 := (Nat.ge_two_pow_of_testBit hbit).trans_lt hcommon
      have := (Nat.pow_lt_pow_iff_right (by decide : 1 < 2)).mp hsmall
      omega
    · exact Nat.zero_le 4
  · exact topRate_le _

/-- Pages that agree give a rate (R248). -/
theorem rateWith_pos {s : State} {n : Nat} {page : List Byte} (h : mismatch s n page = 0) : 1 ≤ rateWith s n page := by
  unfold mismatch at h
  dsimp only at h
  split at h
  · cases h
  · split at h
    · cases h
    · split at h
      · cases h
      · split at h
        · cases h
        · omega

/-- A lane as the partner's page leaves it (R247). -/
def heard (s : State) (n : Nat) (page : List Byte) : Lane :=
  { lane s n with
    echoSeq := rd page 2 1, partner := rd page 13 3, partnerFeat := rd page 8 2, partnerTime := rd page 16 1 % 4
    partnerLane := rd page 10 1 }

theorem portOf_heard (s : State) (n : Nat) (page : List Byte) : portOf (setLane s n (heard s n page)) n = portOf s n := by
  simp only [portOf, lane_setLane]
  rfl

/-- A page that passes its check and echoes the lane's number ends the exchange: the port waits, or the lane goes on or fails. -/
theorem opPage_echoed {s : State} {n : Nat} {page : List Byte} (hstate : (lane s n).state = 1) (hclock : clockLost s n = false)
    (hcrc : rd page 60 4 = crc32c (page.take 60)) (hmagic : rd page 0 2 = 0x5244) (hecho : rd page 3 1 = (lane s n).pageSeq) :
    let u := setLane s n (heard s n page)
    let p := portOf s n
    opPage s n page =
      if mismatch u n page = 4 && (port s p).removed ≠ 0 && ratesWith u n page = 0 &&
          ratesWith (setPort u p { port u p with removed := 0 }) n page ≠ 0 then portWaits u p
      else if mismatch u n page ≠ 0 then setLane u n { heard s n page with state := 4, reason := mismatch u n page }
      else setLane u n { heard s n page with
        state := 2, reason := 0, rate := rateWith u n page, common := ratesWith u n page } := by
  dsimp only
  unfold opPage
  rw [if_neg (by simp [hstate, hclock, hcrc, hmagic])]
  dsimp only
  rw [if_neg (by simp [hecho]), ← portOf_heard s n page]
  rfl

/-- A page that is not one is ignored (R247, R386). -/
theorem opPage_ignored {s : State} {n : Nat} {page : List Byte}
    (h : rd page 60 4 ≠ crc32c (page.take 60) ∨ rd page 0 2 ≠ 0x5244 ∨ clockLost s n = true) : opPage s n page = s := by
  unfold opPage
  rw [if_pos ?_]
  simp only [Bool.or_eq_true, decide_eq_true_eq]
  rcases h with h | h | h
  · exact .inl (.inr h)
  · exact .inr h
  · exact .inl (.inl (.inl h))

/-! ### A port that waits (Table 10.3) -/

/-- One lane of a port that waits. -/
def waitLane (p : Nat) (t : State) (k : Nat) : State :=
  if (lane t k).state = 0 || (lane t k).state = 4 then t
  else setLink (setLane (dropFromPort t p k) k { lane t k with state := 5, rate := 0, rejoin := false }) k {}

theorem portWaits_eq (s : State) (p : Nat) : portWaits s p =
    afterDown (setPort ((lanesOf s p).foldl (waitLane p) s) p
      { port ((lanesOf s p).foldl (waitLane p) s) p with removed := 0 }) p := rfl

theorem waitLane_kept (p : Nat) (s : State) (k : Nat) :
    (waitLane p s k).mem = s.mem ∧ (waitLane p s k).frame = s.frame ∧ (waitLane p s k).folios = s.folios := by
  unfold waitLane
  split
  · exact ⟨rfl, rfl, rfl⟩
  · obtain ⟨_, _, _, hdrop⟩ := dropFromPort_portsOnly s p k
    rw [hdrop]
    exact ⟨rfl, rfl, rfl⟩

theorem lane_waitLane_ne (p : Nat) (s : State) {n k : Nat} (h : n ≠ k) : lane (waitLane p s k) n = lane s n := by
  unfold waitLane
  split
  · rfl
  · obtain ⟨_, _, _, hdrop⟩ := dropFromPort_portsOnly s p k
    rw [hdrop]
    exact lane_setLane_ne _ _ _ _ h

/-- A lane that is in use waits, at no rate. -/
theorem lane_waitLane (p : Nat) {s : State} {n : Nat} (h0 : (lane s n).state ≠ 0) (h4 : (lane s n).state ≠ 4) :
    lane (waitLane p s n) n = { lane s n with state := 5, rate := 0, rejoin := false } ∧ link (waitLane p s n) n = {} := by
  unfold waitLane
  rw [if_neg (by simp [h0, h4])]
  exact ⟨lane_setLane (dropFromPort s p n) n _, link_setLink _ n _⟩

/-- Every lane of the port that is in use waits. -/
theorem lane_waitLanes (p n : Nat) (ls : List Nat) (s : State) (hmem : n ∈ ls) (h0 : (lane s n).state ≠ 0)
    (h4 : (lane s n).state ≠ 4) :
    (lane (ls.foldl (waitLane p) s) n).state = 5 ∧ (lane (ls.foldl (waitLane p) s) n).rate = 0 := by
  induction ls generalizing s with
  | nil => cases hmem
  | cons k ls ih =>
    by_cases hk : n = k
    · subst hk
      have hself := (lane_waitLane p h0 h4).1
      refine List.foldlRecOn (motive := fun t : State => (lane t n).state = 5 ∧ (lane t n).rate = 0) ls _
        (by rw [hself]; exact ⟨rfl, rfl⟩) (fun t ht k _ => ?_)
      by_cases hk : n = k
      · subst hk
        rw [(lane_waitLane p (by rw [ht.1]; decide) (by rw [ht.1]; decide)).1]
        exact ⟨rfl, rfl⟩
      · rwa [lane_waitLane_ne p t hk]
    · have hkept := lane_waitLane_ne p s hk
      exact ih _ ((List.mem_cons.mp hmem).resolve_left hk) (by rwa [hkept]) (by rwa [hkept])

/-- A port that waits may try every rate again (R248). -/
theorem portWaits_kept (s : State) (p : Nat) :
    LanesKept (setPort ((lanesOf s p).foldl (waitLane p) s) p
      { port ((lanesOf s p).foldl (waitLane p) s) p with removed := 0 }) (portWaits s p) ∧
    (port (portWaits s p) p).removed = 0 ∧ (portWaits s p).mem = s.mem ∧ (portWaits s p).frame = s.frame ∧
    (portWaits s p).folios = s.folios := by
  have hfold := List.foldlRecOn (motive := fun t : State => t.mem = s.mem ∧ t.frame = s.frame ∧ t.folios = s.folios)
    (lanesOf s p) (waitLane p) (b := s) ⟨rfl, rfl, rfl⟩ (fun t ht k _ => by
      obtain ⟨hmem, hframe, hfolios⟩ := waitLane_kept p t k
      exact ⟨hmem.trans ht.1, hframe.trans ht.2.1, hfolios.trans ht.2.2⟩)
  rw [portWaits_eq]
  generalize (lanesOf s p).foldl (waitLane p) s = u at hfold
  obtain ⟨hmem, hframe, hfolios⟩ := hfold
  have hzero : (port (setPort u p { port u p with removed := 0 }) p).removed = 0 := by rw [port_setPort]
  have hkept := afterDown_lanesKept hzero
  exact ⟨hkept, (hkept.removed p).trans hzero, hkept.mem.trans hmem, hkept.frame.trans hframe, hkept.folios.trans hfolios⟩

/-- A lane in use of a port that waits. -/
theorem lane_portWaits {s : State} {p n : Nat} (hmem : n ∈ lanesOf s p) (h0 : (lane s n).state ≠ 0) (h4 : (lane s n).state ≠ 4) :
    (lane (portWaits s p) n).state = 5 ∧ (lane (portWaits s p) n).rate = 0 := by
  rw [(portWaits_kept s p).1.lane]
  exact lane_waitLanes p n _ s hmem h0 h4

/-- R247 to R249, R386: the page exchange of O26. -/
theorem pageExchangeEnds : Claim.PageExchangeEnds := by
  unfold Claim.PageExchangeEnds
  intro s n page ha hn hlen
  have hwf : (isLane n && decide (page.length = 64)) = true := by simp [isLane, hn, hlen]
  refine ⟨fun hstate hclock hcrc hmagic hecho => ?_, fun hbad => ?_⟩
  · have hexec := (whenAlive_next (.capabilityPageReceive n page) s _ hwf ha).trans
      (congrArg _ (opPage_echoed hstate hclock hcrc hmagic hecho))
    dsimp only at hexec
    intro l u m p
    rw [show setLane s n (heard s n page) = u from rfl] at hexec
    refine ⟨fun hgoes => ?_, fun hremoved hm hnone hall => ?_⟩
    · rw [if_neg ?_] at hexec
      · by_cases hm : m = 0
        · rw [if_neg (by simpa using hm)] at hexec
          refine ⟨_, hexec, rfl, fun k hk => ?_, ?_, fun _ => ?_, fun h => absurd hm h⟩
          · rw [lane_setLane_ne _ _ _ _ hk, lane_setLane_ne _ _ _ _ hk]
          · rw [lane_setLane]
            rfl
          · rw [lane_setLane]
            exact ⟨rfl, rfl, rateWith_pos hm, rateWith_le _ _ _⟩
        · rw [if_pos hm] at hexec
          refine ⟨_, hexec, rfl, fun k hk => ?_, ?_, fun h => absurd h hm, fun _ => ?_⟩
          · rw [lane_setLane_ne _ _ _ _ hk, lane_setLane_ne _ _ _ _ hk]
          · rw [lane_setLane]
            rfl
          · rw [lane_setLane]
            exact ⟨rfl, rfl⟩
      · simp only [Bool.and_eq_true, decide_eq_true_eq, not_and]
        rintro ⟨⟨hm, hremoved⟩, hnone⟩
        exact absurd hgoes (by simp [m, p, hm, hremoved, hnone])
    · rw [if_pos ?_] at hexec
      · have hlane : lane u n = heard s n page := lane_setLane _ _ _
        have hmem : n ∈ lanesOf u p := List.mem_filter.mpr ⟨List.mem_range.mpr hn, beq_iff_eq.mpr (portOf_heard s n page)⟩
        have hone : (lane u n).state = 1 := by rw [hlane]; exact hstate
        obtain ⟨hwaits, hrate⟩ := lane_portWaits hmem (by rw [hone]; decide) (by rw [hone]; decide)
        obtain ⟨_, hfresh, hmemory, hframe, _⟩ := portWaits_kept u p
        exact ⟨_, hexec, hwaits, hrate, hfresh, hmemory, hframe⟩
      · simp [m, p, u, hm, hremoved, hnone, hall]
  · exact (whenAlive_next (.capabilityPageReceive n page) s _ hwf ha).trans (congrArg _ (opPage_ignored hbad))

/-! ### The training and the quality check (R245, R246) -/

/-- A lane as it comes UP. -/
def upLane (s : State) (n : Nat) : Lane := { lane s n with state := 3, rejoin := s.frame.live }

/-- A route over fewer ports leads nowhere where it led nowhere over more. -/
theorem routeVia_isSome {ok ok' : Nat → Bool} (h : ∀ p, ok p = true → ok' p = true) {s : State} {d : Nat}
    (hsome : (routeVia ok s d).isSome = true) : (routeVia ok' s d).isSome = true := by
  unfold routeVia at hsome ⊢
  split
  · rfl
  next hother =>
    rw [if_neg hother] at hsome
    split
    next hnone =>
      rw [hnone] at hsome
      exact hsome
    next r hroute =>
      rw [hroute] at hsome
      split
      · rfl
      next hself =>
        dsimp only at hsome
        rw [if_neg hself] at hsome
        split
        · rfl
        next hport =>
          rw [if_neg (fun hok => hport (h _ hok))] at hsome
          split
          · rfl
          next halt =>
            rw [if_neg (fun hok => halt (h _ hok))] at hsome
            exact hsome

/-- A lane that comes UP takes no peer out of reach (R236). -/
theorem reached_upLane (s : State) (n : Nat) (hdown : (lane s n).state ≠ 3) :
    ∀ d ∈ reached s, d ∈ reached (setLane s n (upLane s n)) := by
  have hport (k : Nat) : portOf (setLane s n (upLane s n)) k = portOf s k := by
    by_cases hk : k = n
    · subst hk
      simp only [portOf, lane_setLane]
      rfl
    · simp only [portOf, lane_setLane_ne _ _ _ _ hk]
  have hlane (k : Nat) (hup : laneUp s k = true) : laneUp (setLane s n (upLane s n)) k = true := by
    have hk : k ≠ n := fun hk => hdown (by simp [laneUp, hk] at hup; exact hup.1)
    simpa only [laneUp, lane_setLane_ne _ _ _ _ hk] using hup
  have hportUp (p : Nat) (hup : portUp s p = true) : portUp (setLane s n (upLane s n)) p = true := by
    simp only [portUp, lanesOf, hport, Bool.and_eq_true, List.any_eq_true] at hup ⊢
    obtain ⟨hconfigured, k, hk, hkup⟩ := hup
    exact ⟨hconfigured, k, hk, hlane k hkup⟩
  intro d hd
  obtain ⟨hjob, hroute⟩ := List.mem_filter.mp hd
  simp only [Bool.and_eq_true] at hroute
  refine List.mem_filter.mpr ⟨hjob, ?_⟩
  simp only [Bool.and_eq_true]
  exact ⟨hroute.1, routeVia_isSome hportUp hroute.2⟩

theorem opQuality_passes {s : State} {n errs syms : Nat} (hclock : clockLost s n = false) (hstate : (lane s n).state = 2)
    (hquality : (link s n).quality = true) (hpass : errs * 10000 ≤ syms) :
    opQuality s n errs syms = setLink (setLane s n (upLane s n)) n { link s n with quality := false } := by
  unfold opQuality
  rw [if_neg (by simp [hclock, hstate, hquality]), if_pos hpass]
  rfl

theorem opTrained_stopped {s : State} (n : Nat) (inv : Bool) (hclock : clockLost s n = true) : opTrained s n inv = s := by
  unfold opTrained
  rw [if_pos (by simp [hclock])]

/-! ### A rate that fails (R248) -/

/-- A port of one lane whose lane does not carry its flits. -/
theorem dropFromPort_down {s : State} {p n : Nat} (h : laneUp s n = false) : dropFromPort s p n = s := by simp [dropFromPort, h]

/-- The port of one lane, after its lane's rate has failed, where another rate is left. -/
theorem rateFails_one {s : State} {n : Nat} (hone : lanesOf s n = [n]) (hbase : (lane s n).base = none)
    (hstate : (lane s n).state = 2) (hleft : (lane s n).common &&& (15 - 2 ^ ((lane s n).rate - 1)) ≠ 0) :
    LanesKept (restartPages (setPort s n { port s n with removed := (port s n).removed ||| 2 ^ ((lane s n).rate - 1) }) n)
      (rateFails s n) := by
  have hport : portOf s n = n := by simp [portOf, hbase]
  have hdown : laneUp (setPort s n { port s n with removed := (port s n).removed ||| 2 ^ ((lane s n).rate - 1) }) n = false := by
    show laneUp s n = false
    simp [laneUp, hstate]
  unfold rateFails
  rw [hport]
  dsimp only
  rw [if_neg hleft, hone, List.foldl_cons, List.foldl_nil, if_neg ?_, dropFromPort_down hdown]
  · exact lostPort_lanesKept _ n
  · show ¬ ((decide ((lane s n).state = 0) || decide ((lane s n).state = 4)) = true)
    simp [hstate]

/-- The lane whose rate has failed repeats the exchange, or waits where no common rate is left (R248, Table 10.3). -/
theorem rateFails_lane {s : State} {n : Nat} (hone : lanesOf s n = [n]) (hbase : (lane s n).base = none)
    (hstate : (lane s n).state = 2) (hdis : (lane s n).disable = false) (hon : domOn s (112 + n / 8) = true) :
    let left := (lane s n).common &&& (15 - 2 ^ ((lane s n).rate - 1))
    let t := rateFails s n
    link t n = {} ∧ (lane t n).rate = 0 ∧ (lane t n).state = (if left = 0 then 5 else 1) ∧
      (port t n).removed = (if left = 0 then 0 else (port s n).removed ||| 2 ^ ((lane s n).rate - 1)) ∧
      t.mem = s.mem ∧ t.frame = s.frame ∧ t.folios = s.folios := by
  dsimp only
  split
  case isTrue hnone =>
    have hport : portOf s n = n := by simp [portOf, hbase]
    have hwaits : rateFails s n = portWaits s n := by
      unfold rateFails
      dsimp only
      rw [if_pos hnone, hport]
    obtain ⟨hkept, hremoved, hmem, hframe, hfolios⟩ := portWaits_kept s n
    obtain ⟨hlane, hlink⟩ := lane_waitLane (s := s) (n := n) n (by rw [hstate]; decide) (by rw [hstate]; decide)
    rw [hone, List.foldl_cons, List.foldl_nil] at hkept
    have hlane' : lane (portWaits s n) n = _ := (hkept.lane n).trans hlane
    have hlink' : link (portWaits s n) n = {} := (hkept.link n).trans hlink
    rw [hwaits, hlane', hlink']
    exact ⟨rfl, rfl, rfl, hremoved, hmem, hframe, hfolios⟩
  case isFalse hleft =>
    have hkept := rateFails_one hone hbase hstate hleft
    generalize hu : setPort s n { port s n with removed := (port s n).removed ||| 2 ^ ((lane s n).rate - 1) } = u at hkept
    have hquiet := restartPages_quiet u n
    obtain ⟨_, _, _, hrestart⟩ := restartPages_lanesOnly u n
    have hdisU : (lane u n).disable = false := by rw [← hu]; exact hdis
    have honU : domOn u (112 + n / 8) = true := by rw [← hu]; exact hon
    rw [hdisU, honU] at hquiet
    obtain ⟨hpages, hrate, _, hlink⟩ := hquiet
    have hremoved : (port (restartPages u n) n).removed = (port s n).removed ||| 2 ^ ((lane s n).rate - 1) := by
      rw [hrestart]
      show (port u n).removed = _
      rw [← hu, port_setPort]
    rw [hkept.lane, hkept.link]
    refine ⟨hlink, hrate, hpages, (hkept.removed n).trans hremoved, hkept.mem.trans ?_, hkept.frame.trans ?_, hkept.folios.trans ?_⟩
    all_goals rw [hrestart, ← hu]; rfl

/-- The lanes of a port, taken anew, are all that changes (R420). -/
theorem applyLanes_lanes (s : State) (n : Nat) : ∃ lanes, applyLanes s n = { s with lanes := lanes } := by
  unfold applyLanes
  split
  · exact ⟨_, rfl⟩
  · refine List.foldlRecOn (motive := fun u : State => ∃ lanes, u = { s with lanes := lanes }) _ _ ⟨_, rfl⟩ (fun u hu i _ => ?_)
    obtain ⟨_, rfl⟩ := hu
    dsimp only
    split
    · exact ⟨_, rfl⟩
    · split
      · exact ⟨_, rfl⟩
      · split <;> exact ⟨_, rfl⟩

/-- R236, R245, R246, R248, R254, R275, R386: the training of O26. -/
theorem lanesTrainAndComeUp : Claim.LanesTrainAndComeUp := by
  unfold Claim.LanesTrainAndComeUp
  intro s n errs syms blocks flits inv ha hn
  have hwf : isLane n = true := by simp [isLane, hn]
  refine ⟨fun hclock hstate hquality => ?_, fun hclock hstate hquality hpass => ?_, fun hclock => ?_,
    fun hstate hquality hone hbase hdis hon => ?_, fun hstate hdis hon => ?_, fun hrate hblocks hflits => ?_⟩
  · have htrained : opTrained s n inv = setLink (setLane { s with free := s.free + 1 + 1 } n { lane s n with
        inverted := inv, txDelay := Config.freeNat s.free, rxDelay := Config.freeNat (s.free + 1) }) n
        { link s n with quality := true } := by
      unfold opTrained
      rw [if_neg (by simp [hclock, hstate, hquality])]
      rfl
    refine ⟨_, (whenAlive_next (.laneTrainingDone n inv) s _ hwf ha).trans (congrArg _ htrained), rfl,
      ⟨Config.freeNat s.free, Config.freeNat (s.free + 1), ?_⟩, link_setLink _ n _⟩
    exact lane_setLane { s with free := s.free + 1 + 1 } n _
  · have hreached : reportLost s (opQuality s n errs syms) =
        setLink (setLane s n (upLane s n)) n { link s n with quality := false } := by
      rw [opQuality_passes hclock hstate hquality hpass]
      exact reportLost_none _ _ (.inr (reached_upLane s n (by rw [hstate]; decide)))
    refine ⟨_, (whenAlive_next (.laneQualityCheck n errs syms) s _ hwf ha).trans (congrArg _ hreached), rfl, lane_setLane s n _, ?_,
      fun k hk => lane_setLane_ne s n k _ hk⟩
    rw [link_setLink]
  · exact (whenAlive_next (.laneTrainingDone n inv) s _ hwf ha).trans (congrArg _ (opTrained_stopped n inv hclock))
  · have hfails : opTrainingTimeout s n = reportLost s (rateFails s n) := by
      unfold opTrainingTimeout
      rw [if_pos (by simp [hstate, hquality])]
    exact ⟨_, (whenAlive_next (.laneTrainingTimeout n) s _ hwf ha).trans (congrArg _ hfails),
      fun hjob => reportLost_none _ _ (.inl hjob), rateFails_lane hone hbase hstate hdis hon⟩
  · have hrestart : (if (lane s n).state = 5 then restartPages s n else s) = restartPages s n := if_pos hstate
    obtain ⟨hpages, _, _, hlink⟩ := restartPages_quiet s n
    obtain ⟨lanes, happly⟩ := applyLanes_lanes s n
    obtain ⟨b, hb⟩ := lane_applyLanes s n n
    have hlane : lane (freshNat (applyLanes s n)).2 n = { lane s n with base := b } := hb
    rw [hdis, hon] at hpages
    refine ⟨_, (whenAlive_next (.laneWaitRestart n) s _ hwf ha).trans (congrArg _ hrestart), ?_, hpages, ?_, ?_, hlink⟩
    · simp only [restartPages, happly]
      rfl
    · simp only [restartPages, lane_setLane, hlane]
    · simp only [restartPages, lane_setLane, hlane]
  · have hlock : (if (lane s n).rate = 4 && decide (256 ≤ blocks) && decide (8 ≤ flits) then
        setLink s n { link s n with locked := true } else s) = setLink s n { link s n with locked := true } :=
      if_pos (by simp [hrate, hblocks, hflits])
    exact ⟨_, (whenAlive_next (.codewordLock n blocks flits) s _ hwf ha).trans (congrArg _ hlock), rfl, link_setLink s n _,
      fun k hk => link_setLink_ne s n k _ hk⟩

/-- Settles O26: a page that ends the exchange leads to one of three states of its lane, and what follows the loss of a port keeps the
lanes. -/
theorem lanesComeUp : Obligations.LanesComeUp := ⟨pageExchangeEnds, lanesTrainAndComeUp⟩

end Sys2Proof.Machine
end

section
/-! SUPPORT. Flits sent: the layout of a flit, and what its slot sends. -/

namespace Sys2Proof.Machine

open Sys2Proof

/-! ### The layout of a flit (R250, Table 10.4) -/

/-- A flit before its CRC. -/
def flitHead (l : LinkLayer) (typ seq : Nat) (body : List Byte) : List Byte :=
  leBytes 2 (seq + typ * 4096) ++ leBytes 2 ((l.rxNext + 4095) % 4096 + 4096 + (if l.nak then 8192 else 0)) ++
    leBytes 1 (min 255 (nth3 l.freed 0)) ++ leBytes 1 (min 255 (nth3 l.freed 1)) ++ leBytes 1 (min 255 (nth3 l.freed 2)) ++
    leBytes 1 0 ++ slice body 0 240 ++ leBytes 4 0

theorem flitOf_eq (l : LinkLayer) (typ seq : Nat) (body : List Byte) :
    flitOf l typ seq body = flitHead l typ seq body ++ leBytes 4 (crc32c (flitHead l typ seq body)) := rfl

theorem flitHead_length (l : LinkLayer) (typ seq : Nat) (body : List Byte) : (flitHead l typ seq body).length = 252 := by
  simp [flitHead]

theorem flitOf_length (l : LinkLayer) (typ seq : Nat) (body : List Byte) : (flitOf l typ seq body).length = 256 := by
  rw [flitOf_eq, List.length_append, flitHead_length, leBytes_length]

/-- Bytes 252 to 255 of a flit are the CRC of the others. -/
theorem flitOf_crc (l : LinkLayer) (typ seq : Nat) (body : List Byte) :
    rd (flitOf l typ seq body) 252 4 = crc32c ((flitOf l typ seq body).take 252) % 2 ^ 32 := by
  have hlen := flitHead_length l typ seq body
  have htake : (flitOf l typ seq body).take 252 = flitHead l typ seq body := by
    rw [flitOf_eq, List.take_left' hlen]
  rw [htake, flitOf_eq, rd_append_right _ _ _ _ (by omega), hlen]
  have hcrc := rd_leBytes 4 (crc32c (flitHead l typ seq body)) []
  rwa [List.append_nil] at hcrc

/-- Bytes 0 and 1 of a flit are its number and its type. -/
theorem flitOf_seq (l : LinkLayer) (typ seq : Nat) (body : List Byte) :
    rd (flitOf l typ seq body) 0 2 = (seq + typ * 4096) % 65536 := by
  simp only [flitOf_eq, flitHead, List.append_assoc]
  exact rd_leBytes 2 _ _

/-- Bytes 2 and 3 of a flit are its acknowledgement. -/
theorem flitOf_ack (l : LinkLayer) (typ seq : Nat) (body : List Byte) :
    rd (flitOf l typ seq body) 2 2 = (l.rxNext + 4095) % 4096 + 4096 + (if l.nak then 8192 else 0) := by
  simp only [flitOf_eq, flitHead, List.append_assoc]
  rw [rd_append_right _ _ _ _ (by simp), leBytes_length, Nat.sub_self, rd_leBytes]
  split <;> omega

/-- Bytes 4 to 6 of a flit are the credits that it gives back. -/
theorem flitOf_freed (l : LinkLayer) (typ seq : Nat) (body : List Byte) {c : Nat} (hc : c < 3) :
    rd (flitOf l typ seq body) (4 + c) 1 = min 255 (nth3 l.freed c) := by
  have hbyte (v : Nat) : min 255 v % 256 = min 255 v := Nat.mod_eq_of_lt (by omega)
  simp only [flitOf_eq, flitHead, List.append_assoc]
  obtain rfl | rfl | rfl : c = 0 ∨ c = 1 ∨ c = 2 := by omega
  all_goals simp [rd_append_right, rd_leBytes, hbyte]

/-- Bytes 8 to 247 of a flit are its body. -/
theorem flitOf_body (l : LinkLayer) (typ seq k : Nat) (body : List Byte) (hk : k ≤ 240) :
    slice (flitOf l typ seq body) 8 k = slice (slice body 0 240) 0 k := by
  rw [flitOf_eq, slice_append_left _ _ _ _ (by rw [flitHead_length]; omega), flitHead, slice_append_left _ _ _ _ (by simp; omega),
    slice_append_right _ _ _ _ (by simp)]
  simp

theorem slice_whole (bs : List Byte) : slice bs 0 bs.length = bs := by simp [slice]

/-- A body of 240 bytes goes out as it is, a longer one by its first 240. -/
theorem flitOf_body_whole (l : LinkLayer) (typ seq : Nat) (body : List Byte) :
    slice (flitOf l typ seq body) 8 240 = slice body 0 240 := by
  have hwhole := slice_whole (slice body 0 240)
  rw [slice_length] at hwhole
  rw [flitOf_body l typ seq 240 body (Nat.le_refl _), hwhole]

/-- A body that fits goes out at the start of the flit's. -/
theorem flitOf_body_short (l : LinkLayer) (typ seq : Nat) {body : List Byte} (h : body.length ≤ 240) :
    slice (flitOf l typ seq (slice body 0 240)) 8 body.length = body := by
  have hpadded : slice body 0 240 = body ++ List.replicate (240 - body.length) 0 := by
    simp [slice, List.take_of_length_le h]
  have hwhole := slice_whole (slice body 0 240)
  rw [slice_length] at hwhole
  rw [flitOf_body l typ seq _ _ h, hwhole, hpadded, slice_append_left _ _ _ _ (by omega), slice_whole]

/-! ### What leaves a slot (R271) -/

/-- The packets of a slot: what the port has left, the body, and its classes. -/
def slotServed (s : State) (n : Nat) : Port × List Byte × List Nat :=
  if laneUp s n && rotateFrom (upLanes s (portOf s n)) (port s (portOf s n)).txNext == some n &&
      !decide (64 ≤ (link s n).retry.length) then
    fillBody s (portOf s n) n ((link s n).slot % 64 == 0 || (link s n).mgmtDue) 15 (port s (portOf s n)) [] []
  else (port s (portOf s n), [], [])

/-- The link layer of a lane whose DATA flit leaves with `body` of the classes `cs`. -/
def dataLink (l : LinkLayer) (cs : List Nat) (body : List Byte) : LinkLayer :=
  { l with
    txSeq := (l.txSeq + 1) % 4096, retry := l.retry ++ [⟨l.txSeq, cs.headD 0, body⟩]
    credits := cs.foldl (fun k c => k.set c (nth3 k c - 1)) l.credits }

theorem countWaits_frame (s : State) (p n : Nat) (q : Port) (cyc : Nat) (cs : List Nat) :
    ∃ cnt ports, countWaits s p n q cyc cs = { s with cnt := cnt, ports := ports } := by
  unfold countWaits
  split
  · exact ⟨_, _, rfl⟩
  · dsimp only
    split
    · split
      · exact ⟨_, _, rfl⟩
      · exact ⟨_, _, rfl⟩
    · split
      · exact ⟨_, _, rfl⟩
      · exact ⟨_, _, rfl⟩

theorem carries_queue (q : Port) (s : State) : (q.carries s).queue = q.queue ∧ (q.carries s).cur = q.cur := by
  unfold Port.carries
  split
  · split
    · exact ⟨rfl, rfl⟩
    · exact ⟨rfl, rfl⟩
  · exact ⟨rfl, rfl⟩

theorem opFlitSlot_replay {s : State} {n q0 : Nat} {more : List Nat} (hgoes : laneStill s n = false)
    (hreplay : (link s n).replay = q0 :: more) : ∃ cnt, opFlitSlot s n =
      sendFlit { s with cnt := cnt } n { link s n with replay := more, txRetry := !more.isEmpty } 1 q0
        ((((link s n).retry.find? (fun f => f.seq == q0)).map (·.body)).getD []) := by
  have hcounted : ∃ cnt, (if (link s n).txRetry || (link s n).rxRetry then laneSignal s n 0x70 0 (slotCycles (lane s n).rate)
      else s) = { s with cnt := cnt } := by
    split
    · exact ⟨_, rfl⟩
    · exact ⟨_, rfl⟩
  obtain ⟨cnt, hcnt⟩ := hcounted
  refine ⟨cnt, ?_⟩
  unfold opFlitSlot
  rw [if_neg (by simp [hgoes])]
  dsimp only
  rw [hcnt, hreplay]

/-- What a slot without a replay sends: `t` is the state with the slot's waits counted, `l` its link layer, `r` what it serves. -/
def slotFlit (s : State) (n : Nat) (t : State) (l : LinkLayer) (r : Port × List Byte × List Nat) : State :=
  let p := portOf s n
  let q := { r.1 with
    txNext := n + 1, schedSent := r.1.schedSent + b2n (r.2.2.contains 0)
    schedWait := (port t p).schedWait, bulkWait := (port t p).bulkWait }
  let u := setPort t p (if r.2.2.contains 0 then q.carries s else q)
  if r.2.2 = [] then sendFlit t n l 0 0 []
  else sendFlit (if r.2.2.contains 0 then laneSignal u p 0x76 1 1 else u) n
    (dataLink l r.2.2 (slice r.2.1 0 240)) 1 l.txSeq (slice r.2.1 0 240)

/-- A slot without a replay, where its waits are counted. -/
theorem opFlitSlot_next {s : State} {n : Nat} (hgoes : laneStill s n = false) (hreplay : (link s n).replay = []) :
    ∃ cnt due c ports, opFlitSlot s n = slotFlit { s with cnt := cnt } n { s with cnt := c, ports := ports }
      { link s n with mgmtDue := due } (slotServed { s with cnt := cnt } n) := by
  have hcounted (u : State) (b : Bool) (code occ cyc : Nat) :
      ∃ cnt, (if b then laneSignal u n code occ cyc else u) = { u with cnt := cnt } := by
    split
    · exact ⟨_, rfl⟩
    · exact ⟨_, rfl⟩
  obtain ⟨c1, h1⟩ := hcounted s ((link s n).txRetry || (link s n).rxRetry) 0x70 0 (slotCycles (lane s n).rate)
  obtain ⟨c2, h2⟩ := hcounted { s with cnt := c1 }
    (laneUp s n && rotateFrom (upLanes s (portOf s n)) (port s (portOf s n)).txNext == some n &&
      decide (64 ≤ (link s n).retry.length) &&
      (decide ((port s (portOf s n)).cur ≠ []) || decide ((port s (portOf s n)).queue ≠ []))) 0x75 1 (slotCycles (lane s n).rate)
  obtain ⟨c3, ports, h3⟩ := countWaits_frame { s with cnt := c2 } (portOf s n) n (port s (portOf s n)) (slotCycles (lane s n).rate)
    (slotServed { s with cnt := c2 } n).2.2
  have hop : opFlitSlot s n = slotFlit { s with cnt := c2 } n
      (countWaits { s with cnt := c2 } (portOf s n) n (port s (portOf s n)) (slotCycles (lane s n).rate)
        (slotServed { s with cnt := c2 } n).2.2)
      { link s n with mgmtDue := ((link s n).slot % 64 == 0 || (link s n).mgmtDue) &&
        (!(laneUp s n && rotateFrom (upLanes s (portOf s n)) (port s (portOf s n)).txNext == some n &&
          !decide (64 ≤ (link s n).retry.length)) || decide (240 ≤ (port s (portOf s n)).cur.length)) }
      (slotServed { s with cnt := c2 } n) := by
    unfold opFlitSlot
    rw [if_neg (by simp [hgoes])]
    dsimp only
    rw [h1, hreplay]
    dsimp only
    rw [show upLanes { s with cnt := c1 } (portOf s n) = upLanes s (portOf s n) from rfl,
      show laneUp { s with cnt := c1 } n = laneUp s n from rfl, h2]
    rfl
  rw [hop, h3]
  exact ⟨c2, _, c3, ports, rfl⟩

theorem slotFlit_idle {s t : State} {n : Nat} {l : LinkLayer} {r : Port × List Byte × List Nat} (h : r.2.2 = []) :
    slotFlit s n t l r = sendFlit t n l 0 0 [] := if_pos h

theorem slotFlit_data {s t : State} {n : Nat} {l : LinkLayer} {r : Port × List Byte × List Nat} (h : r.2.2 ≠ []) :
    ∃ cnt ports, slotFlit s n t l r = sendFlit { t with cnt := cnt, ports := ports } n
        (dataLink l r.2.2 (slice r.2.1 0 240)) 1 l.txSeq (slice r.2.1 0 240) ∧
      (port { t with cnt := cnt, ports := ports } (portOf s n)).queue = r.1.queue ∧
      (port { t with cnt := cnt, ports := ports } (portOf s n)).cur = r.1.cur := by
  unfold slotFlit
  dsimp only
  rw [if_neg h]
  by_cases hsched : r.2.2.contains 0 = true
  · rw [if_pos hsched, if_pos hsched]
    refine ⟨_, _, rfl, ?_⟩
    show (port (setPort t (portOf s n) _) (portOf s n)).queue = _ ∧ (port (setPort t (portOf s n) _) (portOf s n)).cur = _
    rw [port_setPort]
    exact carries_queue _ s
  · rw [if_neg hsched, if_neg hsched]
    refine ⟨_, _, rfl, ?_⟩
    show (port (setPort t (portOf s n) _) (portOf s n)).queue = _ ∧ (port (setPort t (portOf s n) _) (portOf s n)).cur = _
    rw [port_setPort]
    exact ⟨rfl, rfl⟩

/-- The flit of a slot, with what else a slot changes. -/
def Sent (s : State) (n : Nat) (l : LinkLayer) (typ seq : Nat) (body : List Byte) (t : State) : Prop :=
  t = { s with out := t.out, links := t.links, ports := t.ports, cnt := t.cnt } ∧
    t.out.flits = s.out.flits ++ [(n, flitOf l typ seq body)] ∧
    ∃ group, link t n = { l with
      freed := l.freed.map (fun f => f - min 255 f), nak := false, slot := l.slot + 1, group := group }

theorem sent_sendFlit (s : State) (cnt : Counters) (ports : Tbl Port) (n : Nat) (l : LinkLayer) (typ seq : Nat) (body : List Byte) :
    Sent s n l typ seq body (sendFlit { s with cnt := cnt, ports := ports } n l typ seq body) :=
  ⟨rfl, rfl, _, link_setLink _ n _⟩

theorem exec_flitSlot {s : State} {n : Nat} (ha : alive s = true) (hn : n < 96) :
    exec (.flitSlot n) s = .next (opFlitSlot s n) :=
  whenAlive_next (.flitSlot n) s _ (by simp [Instr.wf, isLane, hn]) ha

/-- R250, R252, R271: one flit a slot. -/
theorem flitSlotSendsOneFlit_here : Claim.FlitSlotSendsOneFlit := by
  unfold Claim.FlitSlotSendsOneFlit
  intro s n ha hn hgoes
  refine ⟨_, exec_flitSlot ha hn, ?_⟩
  cases hreplay : (link s n).replay with
  | cons q0 more =>
    obtain ⟨cnt, hop⟩ := opFlitSlot_replay hgoes hreplay
    obtain ⟨hframe, hflits, group, hlink⟩ := sent_sendFlit s cnt s.ports n
      { link s n with replay := more, txRetry := !more.isEmpty } 1 q0
      ((((link s n).retry.find? (fun f => f.seq == q0)).map (·.body)).getD [])
    rw [← hop] at hframe hflits hlink
    refine ⟨⟨_, hflits, flitOf_length _ _ _ _, flitOf_crc _ _ _ _, fun q1 rest e hcons hfind => ?_, fun hnone => ?_⟩, ?_, ?_⟩
    · obtain ⟨rfl, rfl⟩ := List.cons.inj hcons
      refine ⟨?_, ?_, by rw [hlink]⟩
      · rw [flitOf_seq]
        omega
      · rw [flitOf_body_whole, hfind]
        rfl
    · cases hnone
    · rw [hlink]
    · rw [hframe]
      exact ⟨rfl, rfl, rfl, rfl⟩
  | nil =>
    obtain ⟨cnt, due, c, ports, hop⟩ := opFlitSlot_next hgoes hreplay
    by_cases hidle : (slotServed { s with cnt := cnt } n).2.2 = []
    · rw [slotFlit_idle hidle] at hop
      obtain ⟨hframe, hflits, group, hlink⟩ := sent_sendFlit s c ports n { link s n with mgmtDue := due } 0 0 []
      rw [← hop] at hframe hflits hlink
      refine ⟨⟨_, hflits, flitOf_length _ _ _ _, flitOf_crc _ _ _ _, fun q1 rest e hcons => ?_, fun _ hnext => ?_⟩, ?_, ?_⟩
      · cases hcons
      · exact absurd (by rw [hlink]) hnext
      · rw [hlink]
      · rw [hframe]
        exact ⟨rfl, rfl, rfl, rfl⟩
    · obtain ⟨c', ports', hdata, _⟩ := slotFlit_data (s := { s with cnt := cnt }) (t := { s with cnt := c, ports := ports }) (n := n)
        (l := { link s n with mgmtDue := due }) hidle
      rw [hdata] at hop
      obtain ⟨hframe, hflits, group, hlink⟩ := sent_sendFlit s c' ports' n
        (dataLink { link s n with mgmtDue := due } (slotServed { s with cnt := cnt } n).2.2
          (slice (slotServed { s with cnt := cnt } n).2.1 0 240)) 1 (link s n).txSeq
        (slice (slotServed { s with cnt := cnt } n).2.1 0 240)
      rw [← hop] at hframe hflits hlink
      refine ⟨⟨_, hflits, flitOf_length _ _ _ _, flitOf_crc _ _ _ _, fun q1 rest e hcons => ?_, fun _ _ => ?_⟩, ?_, ?_⟩
      · cases hcons
      · refine ⟨?_, by rw [hlink]; rfl, ?_⟩
        · rw [flitOf_seq]
          congr 1
          omega
        · rw [hlink]
          simp [dataLink]
      · rw [hlink]
        rfl
      · rw [hframe]
        exact ⟨rfl, rfl, rfl, rfl⟩

/-! ### What a slot serves (R253, R271) -/

/-- A class's credits as a flit gives them back. -/
theorem nth3_sent (l : List Nat) (c : Nat) : nth3 (l.map (fun f => f - min 255 f)) c = nth3 l c - min 255 (nth3 l c) := by
  unfold nth3
  rw [List.getElem?_map]
  cases l[c]? <;> simp

/-- No packet begins where none waits. -/
theorem beginPacket_empty (s : State) (p n off : Nat) {q : Port} (reserved : Bool) (h : q.queue = []) :
    beginPacket s p n off q reserved = none := by
  have hhead (c : Nat) : classHead s p n off q c = none := by simp [classHead, h]
  have hready : (heads q).filter (fun w => w.cls ≠ 0 && canGo s p n off w) = [] := by simp [heads, h]
  have hpick : wrrPick s p q [] = none := by simp [wrrPick]
  unfold beginPacket
  rw [hhead 0, hhead 2, ite_self]
  dsimp only [Option.or]
  rw [hready, hpick]

theorem slotServed_empty {s : State} {n : Nat} (hqueue : (port s (portOf s n)).queue = []) (hcur : (port s (portOf s n)).cur = []) :
    (slotServed s n).2.2 = [] := by
  have hbegin := beginPacket_empty s (portOf s n) n (([] : List Byte).length / 16)
    ((link s n).slot % 64 == 0 || (link s n).mgmtDue) hqueue
  unfold slotServed
  split
  · unfold fillBody
    dsimp only
    rw [if_neg (by simp [hcur]), hbegin]
  · rfl

/-- The packet under way leaves whole, while its class has a credit, where no other waits and the body has room. -/
theorem fillBody_current (s : State) (p n k : Nat) (reserved : Bool) {q : Port} {b : List Byte} {cs : List Nat}
    (hqueue : q.queue = []) (hmem : q.curCls ∈ cs) (hcredit : nth3 (link s n).credits q.curCls ≠ 0)
    (hgranules : q.cur.length % 16 = 0) (hroom : q.cur.length ≤ 16 * k) :
    fillBody s p n reserved k q b cs = ({ q with cur := [] }, b ++ q.cur, cs) := by
  induction k generalizing q b with
  | zero =>
    have hnone : q.cur = [] := List.eq_nil_of_length_eq_zero (by omega)
    unfold fillBody
    rw [hnone, List.append_nil, ← hnone]
  | succ k ih =>
    unfold fillBody
    dsimp only
    by_cases hnone : q.cur = []
    · rw [if_neg (by simp [hnone]), beginPacket_empty s p n _ reserved hqueue, hnone, List.append_nil, ← hnone]
    · rw [if_pos hnone, if_neg hcredit]
      dsimp only
      rw [List.insert_of_mem hmem, ih (q := { q with cur := q.cur.drop 16 }) hqueue hmem hcredit]
      · simp [List.append_assoc]
      · show (q.cur.drop 16).length % 16 = 0
        rw [List.length_drop]
        omega
      · show (q.cur.drop 16).length ≤ 16 * k
        rw [List.length_drop]
        omega

/-- A packet of at most 15 granules may begin a flit of a port of one lane, with a credit of its class. -/
theorem canGo_short {s : State} {n : Nat} {w : Waiting} (hup : upLanes s n = [n]) (hsome : 0 < w.bytes.length)
    (hshort : w.bytes.length ≤ 240) (hcredit : 1 ≤ nth3 (link s n).credits w.cls) : canGo s n n 0 w = true := by
  have hflits : cdiv (0 + cdiv w.bytes.length 16) 15 = 1 := by
    unfold cdiv
    omega
  unfold canGo
  split
  next hsched =>
    rw [hsched] at hcredit
    exact decide_eq_true hcredit
  next =>
    dsimp only
    rw [hflits]
    simp [lanesAhead, hup, hcredit]

/-- The only requester that is ready has the turn. -/
theorem wrrPick_one (s : State) (p : Nat) (q : Port) {w : Waiting} (hreq : w.req < 98) :
    ∃ left, wrrPick s p q [w] = some (w.req, left) := by
  have hreqs : (List.range 98).filter (fun r => [w].any (fun v => v.req == r)) = [w.req] := by
    have hcount : (List.range 98).count w.req = 1 := List.count_eq_one_of_mem List.nodup_range (List.mem_range.mpr hreq)
    have hsame : (fun r => [w].any (fun v => v.req == r)) = (· == w.req) := by
      funext r
      simp [BEq.comm]
    rw [hsame, List.filter_beq, hcount]
    rfl
  unfold wrrPick
  dsimp only
  rw [hreqs]
  split
  next hturn =>
    obtain ⟨_, hsame⟩ : 0 < q.wrrLeft ∧ q.wrrReq = w.req := by simpa using hturn
    exact ⟨_, by rw [hsame]⟩
  next =>
    have hnext : ([w.req].find? (fun r => decide (q.wrrReq < r))).or [w.req].head? = some w.req := by
      by_cases hafter : q.wrrReq < w.req <;> simp [hafter]
    rw [hnext]
    exact ⟨_, rfl⟩

/-- The only packet that waits begins. -/
theorem beginPacket_alone {s : State} {n : Nat} {q : Port} {w : Waiting} (reserved : Bool) (hqueue : q.queue = [w]) (hreq : w.req < 98)
    (hgo : canGo s n n 0 w = true) : ∃ req left, beginPacket s n n 0 q reserved = some (q.begin s n w req left) := by
  have hhead (c : Nat) : classHead s n n 0 q c = if w.cls = c then some w else none := by
    by_cases hc : w.cls = c
    · simp [classHead, hqueue, hc, hgo]
    · simp [classHead, hqueue, hc]
  unfold beginPacket
  by_cases hfirst : (reserved = true ∧ w.cls = 2) ∨ w.cls = 0
  · have hpick : (if reserved then classHead s n n 0 q 2 else none).or (classHead s n n 0 q 0) = some w := by
      rw [hhead, hhead]
      rcases hfirst with ⟨hreserved, hmgmt⟩ | hsched
      · simp [hreserved, hmgmt]
      · simp [hsched]
    rw [hpick]
    exact ⟨_, _, rfl⟩
  · obtain ⟨hnotReserved, hcls⟩ := not_or.mp hfirst
    have hpick : (if reserved then classHead s n n 0 q 2 else none).or (classHead s n n 0 q 0) = none := by
      rw [hhead, hhead, if_neg hcls]
      cases reserved with
      | false => rfl
      | true => rw [if_pos rfl, if_neg (fun h => hnotReserved ⟨rfl, h⟩)]; rfl
    have hready : (heads q).filter (fun w => w.cls ≠ 0 && canGo s n n 0 w) = [w] := by simp [heads, hqueue, hcls, hgo]
    rw [hpick]
    dsimp only
    obtain ⟨left, hturn⟩ := wrrPick_one s n q hreq
    rw [hready, hturn]
    exact ⟨w.req, left, by simp⟩

/-- A packet that has begun goes out with its own bytes, but for a SYNC. -/
theorem begin_cur (q : Port) (s : State) (n : Nat) (w : Waiting) (req left : Nat) (htyp : rd w.bytes 0 1 ≠ 5) :
    (q.begin s n w req left).cur = w.bytes := by
  simp [Port.begin, stamped, htyp]

/-- A packet of at most 15 granules that waits alone at a port of one lane, with a credit of its class, is all that a slot serves. -/
theorem slotServed_one {s : State} {n : Nat} {w : Waiting} (hport : portOf s n = n) (hone : lanesOf s n = [n])
    (hup : laneUp s n = true) (hqueue : (port s n).queue = [w]) (hcur : (port s n).cur = []) (hretry : (link s n).retry.length < 64)
    (hreq : w.req < 98) (hgranules : w.bytes.length % 16 = 0) (hsome : 0 < w.bytes.length) (hshort : w.bytes.length ≤ 240)
    (htyp : rd w.bytes 0 1 ≠ 5) (hcredit : 1 ≤ nth3 (link s n).credits w.cls) :
    ∃ q, slotServed s n = (q, w.bytes, [w.cls]) ∧ q.queue = [] ∧ q.cur = [] := by
  have hups : upLanes s n = [n] := by simp [upLanes, hone, hup]
  have hturn : rotateFrom [n] (port s n).txNext = some n := by
    unfold rotateFrom
    by_cases hafter : (port s n).txNext ≤ n <;> simp [hafter]
  obtain ⟨req, left, hbegin⟩ := beginPacket_alone ((link s n).slot % 64 == 0 || (link s n).mgmtDue) hqueue hreq
    (canGo_short hups hsome hshort hcredit)
  have hbegun := begin_cur (port s n) s n w req left htyp
  have hleft : ((port s n).begin s n w req left).queue = [] := by simp [Port.begin, hqueue]
  unfold slotServed
  rw [hport, hups, hturn, if_pos (by simp [hup, hretry])]
  unfold fillBody
  dsimp only
  rw [if_neg (by simp [hcur])]
  rw [List.length_nil, Nat.zero_div, hbegin]
  dsimp only
  rw [fillBody_current (q := { (port s n).begin s n w req left with cur := ((port s n).begin s n w req left).cur.drop 16 }) s n n 14 _
    hleft]
  · refine ⟨{ (port s n).begin s n w req left with cur := [] }, ?_, hleft, rfl⟩
    rw [hbegun, List.nil_append, List.take_append_drop]
    rfl
  · exact List.mem_insert_self
  · exact Nat.one_le_iff_ne_zero.mp hcredit
  · rw [hbegun, List.length_drop]
    omega
  · rw [hbegun, List.length_drop]
    omega

/-- R250, R253, R256, R271: what a slot's flit holds. -/
theorem flitSlotSendsWhatWaits : Claim.FlitSlotSendsWhatWaits := by
  unfold Claim.FlitSlotSendsWhatWaits
  intro s n w ha hn hgoes hreplay
  obtain ⟨cnt, due, c, ports, hop⟩ := opFlitSlot_next hgoes hreplay
  refine ⟨fun hqueue hcur => ⟨_, exec_flitSlot ha hn, ?_⟩,
    fun hport hone hup hqueue hcur hretry hcls hreq hgranules hsome hshort htyp hlen hcredit => ⟨_, exec_flitSlot ha hn, ?_⟩⟩
  · rw [slotFlit_idle (slotServed_empty (s := { s with cnt := cnt }) hqueue hcur)] at hop
    obtain ⟨hframe, hflits, group, hlink⟩ := sent_sendFlit s c ports n { link s n with mgmtDue := due } 0 0 []
    rw [← hop] at hframe hflits hlink
    refine ⟨hframe, _, hflits, flitOf_seq _ _ _ _, flitOf_ack _ _ _ _, fun c hc => ⟨flitOf_freed _ _ _ _ hc, ?_⟩, ?_, ?_, ?_⟩
    · rw [hlink]
      exact nth3_sent _ c
    · rw [flitOf_body_whole]
      rfl
    · rw [hlink]
    · rw [hlink]
  · obtain ⟨q, hserved, hleft, hnone⟩ := slotServed_one (s := { s with cnt := cnt }) hport hone hup hqueue hcur hretry hreq hgranules
      hsome hshort htyp hcredit
    rw [hserved] at hop
    obtain ⟨c', ports', hdata, hqueue', hcur'⟩ := slotFlit_data (s := { s with cnt := cnt }) (t := { s with cnt := c, ports := ports })
      (n := n) (l := { link s n with mgmtDue := due }) (r := (q, w.bytes, [w.cls])) (List.cons_ne_nil _ _)
    rw [hdata] at hop
    obtain ⟨hframe, hflits, group, hlink⟩ := sent_sendFlit s c' ports' n
      (dataLink { link s n with mgmtDue := due } [w.cls] (slice w.bytes 0 240)) 1 (link s n).txSeq (slice w.bytes 0 240)
    have hports : (opFlitSlot s n).ports = ports' := by rw [hop]; rfl
    have hportN : port { s with cnt := c', ports := ports' } (portOf s n) = port (opFlitSlot s n) n := by
      rw [hport, port, port, hports]
    rw [← hop] at hflits hlink
    refine ⟨⟨_, hflits, ?_, flitOf_body_short _ _ _ hshort⟩, ?_, ?_, ?_⟩
    · rw [flitOf_seq]
      congr 1
      omega
    · rw [← hportN]
      exact hqueue'.trans hleft
    · rw [← hportN]
      exact hcur'.trans hnone
    · rw [hlink]
      simp [dataLink, nth3, hlen, hcls]

/-! ### NAK (R43, R252) -/

/-- An acknowledgement takes the flits up to the one that it names. -/
theorem ackTo_append {a b : List TxFlit} {e : TxFlit} {ack : Nat} (he : e.seq = ack) (ha : ∀ x ∈ a, x.seq ≠ ack) :
    ackTo (a ++ e :: b) ack = b := by
  have hdrop : (a ++ e :: b).dropWhile (fun f => f.seq ≠ ack) = e :: b := by
    rw [List.dropWhile_append_of_pos (by simpa using ha)]
    simp [he]
  unfold ackTo
  rw [if_pos (by simp [he]), hdrop]
  rfl

/-- The link layer of a lane that replays every flit after the one that a NAK acknowledges. -/
def replayLink (l : LinkLayer) (ack : Nat) : LinkLayer :=
  { l with retry := ackTo l.retry ack, replay := (ackTo l.retry ack).map (·.seq), txRetry := !(ackTo l.retry ack).isEmpty }

theorem stallNow_false (s : State) : stallNow s false = s := by simp [stallNow]

theorem onNak_eq (s : State) (n ack : Nat) : ∃ u, onNak s n ack = stallNow u (linkRetryStall u) ∧
    ∃ cnt, u = setLink { s with cnt := cnt } n (replayLink (link s n) ack) := ⟨_, rfl, _, rfl⟩

/-- While frames run, a stall that stands once it is taken was there to take. -/
theorem stallNow_linkRetry {u : State} (hregion : u.frame.region = true)
    (hstall : linkRetryStall (stallNow u (linkRetryStall u)) = true) : (stallNow u (linkRetryStall u)).frame.blocked = true := by
  cases hwas : linkRetryStall u with
  | true => simp [stallNow, hregion]
  | false =>
    rw [hwas, stallNow_false, hwas] at hstall
    cases hstall

/-- R43, R252: a NAK starts the replay. -/
theorem nakStartsTheReplay : Claim.NakStartsTheReplay := by
  unfold Claim.NakStartsTheReplay
  intro s n ack ha hn hack hstate
  obtain ⟨u, hnak, cnt, hu⟩ := onNak_eq s n ack
  have hexec : (if (lane s n).state = 3 then onNak s n ack else s) = stallNow u (linkRetryStall u) := (if_pos hstate).trans hnak
  have hregion : u.frame.region = s.frame.region := by rw [hu]; rfl
  have hstalled := stallNow_linkRetry (u := u)
  rw [hregion] at hstalled
  generalize linkRetryStall u = on at hexec hstalled
  have hlink : link (stallNow u on) n = replayLink (link s n) ack := by
    rw [hu]
    exact link_setLink _ n _
  refine ⟨stallNow u on, (whenAlive_next (.nakReceive n ack) s _ (by simp [Instr.wf, isLane, hn, hack]) ha).trans (congrArg _ hexec),
    ?_, hstalled, ?_, ?_, fun k hk => ?_, fun a e b hretry he hbefore => ?_⟩
  · rw [hu]
    rfl
  · rw [hlink]
    rfl
  · rw [hlink]
    rfl
  · rw [hu]
    exact link_setLink_ne _ n k _ hk
  · rw [hlink, replayLink, hretry, ackTo_append he hbefore]
    exact ⟨rfl, rfl⟩

/-- Settles O28: the flit of a slot is the next of the replay, or holds what the port may send; a NAK takes what it acknowledges and
replays the rest. -/
theorem flitSlotSendsOneFlit : Obligations.FlitSlotSendsOneFlit :=
  ⟨flitSlotSendsOneFlit_here, flitSlotSendsWhatWaits, nakStartsTheReplay⟩

end Sys2Proof.Machine
end

section
/-! SUPPORT. Flits received: their check, their credits and their order. -/

namespace Sys2Proof.Machine

open Sys2Proof

/-! ### What comes in on the line (R243, R245) -/

/-- The codewords of a lane as they decode. -/
def decoded (s : State) (n : Nat) (words weak : List (List Nat)) : List (Option (List Nat) × Nat) :=
  words.zipIdx.map (fun x => lineReceive (lane s n).rate x.1 (weak.getD x.2 []))

/-- The codewords that the receiver of a lane holds once those of `words` have come. -/
def heldWords (s : State) (n place : Nat) (words weak : List (List Nat)) : List (Option (List Nat)) :=
  ((if place = 0 then [] else (link s n).rxWords) ++ (decoded s n words weak).map (fun w => w.1.map (wordData (lane s n).rate))).take 2

/-- A codeword of another lane than the partner's has come (R243). -/
def wrongLane (s : State) (n : Nat) (words weak : List (List Nat)) : Bool :=
  decide ((lane s n).rate ≠ 4) && (decoded s n words weak).any (fun w => w.1.any (fun w => wordLane w != (lane s n).partnerLane))

theorem wrongLane_iff (s : State) (n : Nat) (words weak : List (List Nat)) : wrongLane s n words weak = true ↔
    (lane s n).rate ≠ 4 ∧ ∃ x ∈ words.zipIdx, ∃ d,
      (lineReceive (lane s n).rate x.1 (weak.getD x.2 [])).1 = some d ∧ wordLane d ≠ (lane s n).partnerLane := by
  simp only [wrongLane, decoded, Bool.and_eq_true, decide_eq_true_eq, List.any_map, List.any_eq_true, Function.comp_apply,
    Option.any_eq_true, bne_iff_ne]

/-- A receiver of 400 Gbit/s that has not locked takes nothing (R245). -/
theorem opFlitReceive_unlocked {s : State} {n : Nat} (place : Nat) (words weak : List (List Nat)) (hrate : (lane s n).rate = 4)
    (hlocked : (link s n).locked = false) : opFlitReceive s n place words weak = s := by
  unfold opFlitReceive
  rw [if_pos (by simp [hrate, hlocked])]

theorem takeWords_swap {s : State} {n : Nat} (place : Nat) {words weak : List (List Nat)} (h : wrongLane s n words weak = true) :
    takeWords s n place words weak = laneSwap s n := if_pos h

/-- The state as a flit is taken: the codewords that have come are kept. -/
def withWords (s : State) (n : Nat) (cnt : Counters) (ws : List (Option (List Nat))) : State :=
  setLink { s with cnt := cnt } n { link s n with rxWords := ws }

theorem link_withWords (s : State) (n : Nat) (cnt : Counters) (ws : List (Option (List Nat))) :
    link (withWords s n cnt ws) n = { link s n with rxWords := ws } := link_setLink _ n _

/-- Codewords of the right lane are kept, and what their decoding showed is counted. -/
theorem takeWords_kept {s : State} {n : Nat} (place : Nat) {words weak : List (List Nat)} (h : wrongLane s n words weak = false) :
    ∃ cnt, takeWords s n place words weak = withWords s n cnt (heldWords s n place words weak) := by
  have hcounted (u : State) (code k : Nat) : ∃ cnt, (if k = 0 then u else laneSignal u n code k k) = { u with cnt := cnt } := by
    split
    · exact ⟨_, rfl⟩
    · exact ⟨_, rfl⟩
  obtain ⟨c1, h1⟩ := hcounted s 0x72 ((decoded s n words weak).map (fun w => w.2)).sum
  obtain ⟨c2, h2⟩ := hcounted { s with cnt := c1 } 0x73 ((decoded s n words weak).countP (fun w => w.1.isNone))
  have hwrong : ¬ wrongLane s n words weak = true := by simp [h]
  refine ⟨c2, (if_neg hwrong).trans ?_⟩
  dsimp only
  unfold decoded at h1 h2
  rw [h1, h2]
  rfl

/-! ### A wrong wiring (R243, R249) -/

/-- The restart of another lane leaves a lane as it is, but for the port that it belongs to (R420). -/
theorem restartPages_ne (s : State) {n k : Nat} (h : n ≠ k) :
    (∃ b, lane (restartPages s k) n = { lane s n with base := b }) ∧ link (restartPages s k) n = link s n := by
  obtain ⟨b, hb⟩ := lane_applyLanes s k n
  refine ⟨⟨b, ?_⟩, ?_⟩
  · simp only [restartPages]
    rw [lane_setLane_ne _ _ _ _ h]
    exact hb
  · show link (setLink (applyLanes s k) k {}) n = _
    rw [link_setLink_ne _ _ _ _ h]
    exact congrArg (tget · n {}) (links_applyLanes s k)

/-- Rates tried again leave a lane that is not at PAGES as it is, but for the port that it belongs to (R248). -/
theorem freshRates_lane (s : State) (p : Nat) {n : Nat} (h : (lane s n).state ≠ 1) :
    (∃ b, lane (freshRates s p) n = { lane s n with base := b }) ∧ link (freshRates s p) n = link s n := by
  unfold freshRates
  split
  · exact ⟨⟨_, rfl⟩, rfl⟩
  · refine List.foldlRecOn (motive := fun u : State => (∃ b, lane u n = { lane s n with base := b }) ∧ link u n = link s n)
      _ _ ⟨⟨_, rfl⟩, rfl⟩ (fun u hu k _ => ?_)
    split
    case isTrue hpages =>
      obtain ⟨⟨b, hlane⟩, hlink⟩ := hu
      have hk : n ≠ k := fun hk => h (by rw [← hk, hlane] at hpages; exact hpages)
      obtain ⟨⟨b', hlane'⟩, hlink'⟩ := restartPages_ne u hk
      exact ⟨⟨b', by rw [hlane', hlane]⟩, hlink'.trans hlink⟩
    case isFalse => exact hu

/-- A lane that names another one is in MISMATCH for its wiring, with its link layer empty. -/
theorem laneSwap_lane (s : State) (n : Nat) : (lane (laneSwap s n) n).state = 4 ∧ (lane (laneSwap s n) n).reason = 2 ∧
    link (laneSwap s n) n = {} ∧ (laneSwap s n).mem = s.mem ∧ (laneSwap s n).frame = s.frame := by
  unfold laneSwap
  dsimp only
  obtain ⟨_, _, _, hdrop⟩ := dropFromPort_portsOnly (laneSignal s n 0x71 1 1) (portOf s n) n
  generalize hu : setLink (setLane (dropFromPort (laneSignal s n 0x71 1 1) (portOf s n) n) n _) n {} = u
  have hlane : (lane u n).state = 4 ∧ (lane u n).reason = 2 := by
    rw [← hu]
    show (lane (setLane _ n _) n).state = 4 ∧ (lane (setLane _ n _) n).reason = 2
    rw [lane_setLane]
    exact ⟨rfl, rfl⟩
  have hlink : link u n = {} := by rw [← hu, link_setLink]
  have hmem : u.mem = s.mem := by rw [← hu, hdrop]; rfl
  have hframe : u.frame = s.frame := by rw [← hu, hdrop]; rfl
  obtain ⟨⟨b, hlane'⟩, hlink'⟩ := freshRates_lane u (portOf s n) (n := n) (by rw [hlane.1]; decide)
  obtain ⟨_, _, _, _, _, _, _, _, hfresh⟩ := freshRates_downOnly u (portOf s n)
  have hkept := lostPort_lanesKept (freshRates u (portOf s n)) (portOf s n)
  rw [afterDown, hkept.lane, hkept.link, hlane', hlink', hkept.mem, hkept.frame, hfresh]
  exact ⟨hlane.1, hlane.2, hlink, hmem, hframe⟩

/-! ### Flits that fail, and flits that pass (R251 to R253) -/

/-- The link layer of a lane that has failed a flit: in retry, with a NAK to send. -/
def failedLink (l : LinkLayer) (again : Bool) : LinkLayer :=
  { l with rxRetry := true, nak := l.nak || again || !l.rxRetry }

theorem rxFail_frame (s : State) (n : Nat) (again : Bool) :
    let t := rxFail s n again
    t = { s with links := t.links, cnt := t.cnt, frame := { s.frame with blocked := t.frame.blocked } } ∧
      link t n = failedLink (link s n) again := by
  unfold rxFail failedLink
  dsimp only
  split
  case isTrue hretry =>
    cases again with
    | true =>
      refine ⟨rfl, (link_setLink s n _).trans ?_⟩
      simp [hretry]
    | false =>
      refine ⟨rfl, ?_⟩
      simp only [Bool.false_eq_true, if_false, hretry, Bool.not_true, Bool.or_false]
      rw [← hretry]
  case isFalse hretry =>
    refine ⟨rfl, (link_setLink s n _).trans ?_⟩
    simp [hretry]

/-- The credits that a flit brings, to each class's cap (R253). -/
def creditsWith (l : LinkLayer) (f : List Byte) : List Nat :=
  [min 160 (nth3 l.credits 0 + rd f 4 1), min 64 (nth3 l.credits 1 + rd f 5 1), min 16 (nth3 l.credits 2 + rd f 6 1)]

/-- A flit without a NAK brings its acknowledgement and credits only. -/
theorem onReport_plain (s : State) (n : Nat) {f : List Byte} (hnak : (rd f 2 2).testBit 13 = false) :
    ∃ retry, onReport s n f = setLink s n { link s n with credits := creditsWith (link s n) f, retry := retry } := by
  unfold onReport
  dsimp only
  rw [if_neg (by simp [hnak])]
  split
  · exact ⟨_, rfl⟩
  · exact ⟨_, rfl⟩

/-- A flit that is lost, fails its CRC or is of no type is not acknowledged. -/
theorem opFlit_fails (s : State) (n : Nat) {f : List Byte} {lost : Bool}
    (h : lost = true ∨ rd f 252 4 ≠ crc32c (f.take 252) ∨ 2 ≤ rd f 0 2 / 4096) :
    ∃ cnt, opFlit s n f lost = rxFail { s with cnt := cnt } n true := by
  have hcounted : ∃ cnt, (if rd f 252 4 = crc32c (f.take 252) then s else laneSignal s n 0x74 1 1) = { s with cnt := cnt } := by
    split
    · exact ⟨_, rfl⟩
    · exact ⟨_, rfl⟩
  obtain ⟨cnt, hcnt⟩ := hcounted
  refine ⟨cnt, ?_⟩
  unfold opFlit
  dsimp only
  rw [hcnt, if_pos]
  simpa [or_assoc] using h

/-- A DATA flit in sequence is counted in its lane's order. -/
def nextInSequence (s : State) (n : Nat) : State :=
  setLink s n { link s n with rxNext := ((link s n).rxNext + 1) % 4096, rxRetry := false }

/-- A flit's body has arrived at port `p` on lane `n`, and what the rotation lets through is delivered. -/
def arrive (s : State) (p n : Nat) (body : List Byte) : State :=
  deliverAll ((port s p).arrived.length + 1) (setPort s p { port s p with arrived := (port s p).arrived ++ [(n, body)] }) p

/-- A flit that passes is taken by its type. -/
theorem opFlit_passes (s : State) (n : Nat) {f : List Byte} (hcrc : rd f 252 4 = crc32c (f.take 252)) (htyp : rd f 0 2 / 4096 < 2) :
    opFlit s n f false =
      if rd f 0 2 / 4096 = 0 then onReport s n f
      else if rd f 0 2 % 4096 ≠ (link (onReport s n f) n).rxNext then rxFail (onReport s n f) n false
      else arrive (nextInSequence (onReport s n f) n) (portOf (onReport s n f) n) n (slice f 8 240) := by
  unfold opFlit
  dsimp only
  rw [if_pos hcrc, if_neg (by simp [hcrc, htyp])]
  rfl

/-! ### Delivery (R253) -/

/-- `t` is `s` after deliveries: ports and counters, and the credits that lanes may give back. -/
def Delivered (s t : State) : Prop := PortsOnly s t ∧ ∀ k, ∃ freed, link t k = { link s k with freed := freed }

theorem Delivered.refl (s : State) : Delivered s s := ⟨⟨_, _, _, rfl⟩, fun _ => ⟨_, rfl⟩⟩

theorem Delivered.trans {s t u : State} (h : Delivered s t) (g : Delivered t u) : Delivered s u := by
  refine ⟨h.1.trans g.1, fun k => ?_⟩
  obtain ⟨_, hst⟩ := h.2 k
  obtain ⟨_, htu⟩ := g.2 k
  exact ⟨_, by rw [htu, hst]⟩

theorem setPort_delivered (s : State) (p : Nat) (q : Port) : Delivered s (setPort s p q) := ⟨⟨_, _, _, rfl⟩, fun _ => ⟨_, rfl⟩⟩

theorem freeFlit_delivered (s : State) (x : Nat × Nat × Bool) : Delivered s (freeFlit s x) := by
  refine ⟨freeFlit_portsOnly s x, fun k => ?_⟩
  unfold freeFlit
  dsimp only
  split
  · exact ⟨_, rfl⟩
  · by_cases hk : k = x.1
    · subst hk
      exact ⟨_, link_setLink s x.1 _⟩
    · exact ⟨_, link_setLink_ne _ _ _ _ hk⟩

theorem settleFlits_delivered (p : Nat) (held : Bool) (l : List (Nat × Nat × Bool)) (s : State) :
    Delivered s (l.foldl (settleFlit p held) s) := by
  refine List.foldlRecOn (motive := Delivered s) l _ (.refl s) (fun u hu x _ => hu.trans ?_)
  unfold settleFlit
  split
  · exact setPort_delivered u p _
  · exact freeFlit_delivered u x

theorem deliver_delivered (s : State) (p n : Nat) (body : List Byte) : Delivered s (deliver s p n body) :=
  ((setPort_delivered s p _).trans (settleFlits_delivered p _ _ _)).trans (settleFlits_delivered p false _ _)

theorem deliverAll_delivered (k : Nat) (s : State) (p : Nat) : Delivered s (deliverAll k s p) := by
  induction k generalizing s with
  | zero => exact .refl s
  | succ k ih =>
    unfold deliverAll
    dsimp only
    split
    · exact .refl s
    · split
      · exact .refl s
      · exact ((setPort_delivered s p _).trans (deliver_delivered _ p _ _)).trans (ih _)

theorem arrive_delivered (s : State) (p n : Nat) (body : List Byte) : Delivered s (arrive s p n body) :=
  (setPort_delivered s p _).trans (deliverAll_delivered _ _ p)

/-! ### FLIT_RECEIVE -/

/-- The flit of codewords of the right lane is taken from them. -/
theorem exec_flitReceive {s : State} {n place : Nat} {words weak : List (List Nat)} (ha : alive s = true)
    (hwf : (isLane n && decide (place < 5)) = true) (hgoes : laneStill s n = false)
    (hlock : (lane s n).rate = 4 → (link s n).locked = true) (hlane : wrongLane s n words weak = false) :
    ∃ cnt, exec (.flitReceive n place words weak) s = .next (opFlit (withWords s n cnt (heldWords s n place words weak)) n
      (wordsFlit (heldWords s n place words weak) place) (wordsBad (heldWords s n place words weak) place)) := by
  obtain ⟨cnt, hwords⟩ := takeWords_kept place hlane
  refine ⟨cnt, (whenAlive_next (.flitReceive n place words weak) s _ hwf ha).trans (congrArg _ ?_)⟩
  have hup : (lane s n).state = 3 := by
    simp only [laneStill, Bool.or_eq_false_iff, decide_eq_false_iff_not, not_not] at hgoes
    exact hgoes.1
  unfold opFlitReceive
  rw [if_neg (by simpa [hgoes] using hlock), hwords]
  dsimp only
  rw [link_withWords, if_neg]
  exact not_not.mpr hup

/-- A flit that fails (R251, R252). -/
theorem flitReceive_fails {s : State} (n : Nat) (cnt : Counters) (ws : List (Option (List Nat))) {f : List Byte} {lost : Bool}
    (h : lost = true ∨ rd f 252 4 ≠ crc32c (f.take 252) ∨ 2 ≤ rd f 0 2 / 4096) :
    let t := opFlit (withWords s n cnt ws) n f lost
    t = { s with links := t.links, cnt := t.cnt, frame := { s.frame with blocked := t.frame.blocked } } ∧
      (link t n).nak = true ∧ (link t n).rxRetry = true ∧ (link t n).rxNext = (link s n).rxNext ∧
      (link t n).retry = (link s n).retry ∧ (link t n).rxWords = ws := by
  dsimp only
  obtain ⟨cnt', hfails⟩ := opFlit_fails (withWords s n cnt ws) n h
  obtain ⟨hframe, hlink⟩ := rxFail_frame { withWords s n cnt ws with cnt := cnt' } n true
  have hlink' := hlink.trans (congrArg (failedLink · true) (link_withWords s n cnt ws))
  rw [hfails, hlink']
  refine ⟨?_, ?_, rfl, rfl, rfl, rfl⟩
  · rw [hframe]
    rfl
  · simp [failedLink]

/-- An IDLE flit that passes (R253). -/
theorem flitReceive_idle {s : State} (n : Nat) (cnt : Counters) (ws : List (Option (List Nat))) {f : List Byte}
    (hcrc : rd f 252 4 = crc32c (f.take 252)) (hnak : (rd f 2 2).testBit 13 = false) (htyp : rd f 0 2 / 4096 = 0) :
    let t := opFlit (withWords s n cnt ws) n f false
    t = { s with links := t.links, cnt := t.cnt } ∧ (link t n).rxNext = (link s n).rxNext ∧
      (link t n).credits = creditsWith (link s n) f := by
  dsimp only
  obtain ⟨_, hreport⟩ := onReport_plain (withWords s n cnt ws) n hnak
  rw [opFlit_passes _ n hcrc (by omega), if_pos htyp, hreport, link_setLink, link_withWords]
  exact ⟨rfl, rfl, rfl⟩

/-- A DATA flit in sequence (R251, R253). -/
theorem flitReceive_inSequence {s : State} (n : Nat) (cnt : Counters) (ws : List (Option (List Nat))) {f : List Byte}
    (hcrc : rd f 252 4 = crc32c (f.take 252)) (hnak : (rd f 2 2).testBit 13 = false) (htyp : rd f 0 2 / 4096 = 1)
    (hseq : rd f 0 2 % 4096 = (link s n).rxNext) :
    let t := opFlit (withWords s n cnt ws) n f false
    t = { s with links := t.links, ports := t.ports, cnt := t.cnt } ∧
      (link t n).rxNext = ((link s n).rxNext + 1) % 4096 ∧ (link t n).rxRetry = false := by
  dsimp only
  obtain ⟨_, hreport⟩ := onReport_plain (withWords s n cnt ws) n hnak
  rw [link_withWords] at hreport
  have hnumber : ¬ rd f 0 2 % 4096 ≠ (link (onReport (withWords s n cnt ws) n f) n).rxNext := by
    rw [hreport, link_setLink]
    exact not_not.mpr hseq
  rw [opFlit_passes _ n hcrc (by omega), if_neg (by omega), if_neg hnumber]
  obtain ⟨⟨_, _, _, hports⟩, hlinks⟩ := arrive_delivered (nextInSequence (onReport (withWords s n cnt ws) n f) n)
    (portOf (onReport (withWords s n cnt ws) n f) n) n (slice f 8 240)
  obtain ⟨_, hlink⟩ := hlinks n
  rw [hlink, hports, hreport, nextInSequence, link_setLink, link_setLink]
  exact ⟨rfl, rfl, rfl⟩

/-- A DATA flit out of sequence (R252). -/
theorem flitReceive_outOfSequence {s : State} (n : Nat) (cnt : Counters) (ws : List (Option (List Nat))) {f : List Byte}
    (hcrc : rd f 252 4 = crc32c (f.take 252)) (hnak : (rd f 2 2).testBit 13 = false) (htyp : rd f 0 2 / 4096 = 1)
    (hseq : rd f 0 2 % 4096 ≠ (link s n).rxNext) :
    let t := opFlit (withWords s n cnt ws) n f false
    t = { s with links := t.links, cnt := t.cnt, frame := { s.frame with blocked := t.frame.blocked } } ∧
      (link t n).rxNext = (link s n).rxNext ∧ (link t n).rxRetry = true ∧
      ((link s n).rxRetry = false → (link t n).nak = true) := by
  dsimp only
  obtain ⟨retry, hreport⟩ := onReport_plain (withWords s n cnt ws) n hnak
  rw [link_withWords] at hreport
  obtain ⟨hframe, hlink⟩ := rxFail_frame (onReport (withWords s n cnt ws) n f) n false
  rw [opFlit_passes _ n hcrc (by omega), if_neg (by omega), if_pos (by rw [hreport, link_setLink]; exact hseq), hlink]
  refine ⟨?_, ?_, rfl, fun hfirst => ?_⟩
  · rw [hframe, hreport]
    rfl
  · rw [hreport, link_setLink]
    rfl
  · rw [hreport, link_setLink]
    simp [failedLink, hfirst]

/-- Settles O29: codewords of another lane take the lane to MISMATCH; the flit of the others is taken, by its check, its type and its
number. -/
theorem flitsAreCheckedAndDelivered : Obligations.FlitsAreCheckedAndDelivered := by
  unfold Obligations.FlitsAreCheckedAndDelivered
  intro s n place words weak ha hn hplace hgoes
  have hwf : (isLane n && decide (place < 5)) = true := by simp [isLane, hn, hplace]
  intro got swap ws f
  have hws : heldWords s n place words weak = ws := by simp [heldWords, decoded, ws, got, List.map_map, Function.comp_def]
  refine ⟨fun hrate hlocked => ?_, fun hlock => ⟨fun hswap => ?_, fun hright => ?_⟩⟩
  · exact (whenAlive_next (.flitReceive n place words weak) s _ hwf ha).trans
      (congrArg _ (opFlitReceive_unlocked place words weak hrate hlocked))
  · have hwrong : wrongLane s n words weak = true := (wrongLane_iff s n words weak).mpr hswap
    obtain ⟨hstate, hreason, hlink, hmem, hframe⟩ := laneSwap_lane s n
    have hop : opFlitReceive s n place words weak = laneSwap s n := by
      unfold opFlitReceive
      rw [if_neg (by simpa [hgoes] using hlock), takeWords_swap place hwrong]
      dsimp only
      rw [if_pos (by rw [hstate]; decide)]
    exact ⟨_, (whenAlive_next (.flitReceive n place words weak) s _ hwf ha).trans (congrArg _ hop), hstate, hreason, hlink, hmem, hframe⟩
  · have hlane : wrongLane s n words weak = false := by
      rw [← Bool.not_eq_true, wrongLane_iff]
      exact hright
    obtain ⟨cnt, hexec⟩ := exec_flitReceive ha hwf hgoes hlock hlane
    rw [hws] at hexec
    refine ⟨fun hbad => ⟨_, hexec, flitReceive_fails n cnt ws hbad⟩, fun hgood hcrc hnak => ?_⟩
    rw [hgood] at hexec
    exact ⟨fun htyp => ⟨_, hexec, flitReceive_idle n cnt ws hcrc hnak htyp⟩,
      fun htyp hseq => ⟨_, hexec, flitReceive_inSequence n cnt ws hcrc hnak htyp hseq⟩,
      fun htyp hseq => ⟨_, hexec, flitReceive_outOfSequence n cnt ws hcrc hnak htyp hseq⟩⟩

end Sys2Proof.Machine
end

section
/-! SUPPORT. The management Ethernet ports: what their commands do to a port, and to the time unit where a port is its source. -/

namespace Sys2Proof.Machine

open Sys2Proof

/-! ### What a missed Sync and a change of state do to the time unit (R33, R302) -/

/-- The time unit in a state: only its state and the counters change. -/
theorem setTimeState_frame (s : State) (st : Nat) :
    ∃ cnt, setTimeState s st = { s with time := { s.time with state := st }, cnt := cnt } := by
  unfold setTimeState
  split
  case isTrue h => exact ⟨s.cnt, by rw [← h]⟩
  case isFalse => exact ⟨_, rfl⟩

/-- A missed exchange is closed and counted. -/
theorem exchangeMissed_frame (s : State) :
    ∃ st cnt, exchangeMissed s =
      { s with time := { s.time with exch := none, missed := s.time.missed + 1, good := 0, state := st }, cnt := cnt } := by
  unfold exchangeMissed
  dsimp only
  split
  · obtain ⟨cnt, h⟩ := setTimeState_frame { s with time := { s.time with exch := none, missed := s.time.missed + 1, good := 0 } } 3
    exact ⟨3, cnt, h⟩
  · exact ⟨s.time.state, s.cnt, rfl⟩

/-! ### PTP messages (R302) -/

/-- A message that the port does not take, or that comes in DRAIN, is discarded and counted (R301, R335). -/
theorem opPtpMessage_discarded {s : State} {n : Nat} {m : PtpMsg} (ts : Nat)
    (h : ptpTakes (ethPort s n) m = false ∨ (dom s (129 + n)).state = 3) : opPtpMessage s n m ts = devEvent s 0x54 1 := by
  unfold opPtpMessage
  rw [if_pos (by simpa using h)]

section taken
variable {s : State} {n : Nat} {m : PtpMsg} (ts : Nat) (htake : ptpTakes (ethPort s n) m = true)
  (hdom : (dom s (129 + n)).state ≠ 3)
include htake hdom

/-- A two-step Sync of the master that the port follows opens an exchange, which its Follow_Up completes. -/
theorem opPtpMessage_sync {q : Nat} (hkind : m.kind = 0) (htwo : m.twoStep = true)
    (hmaster : (ethPort s n).master = some (m.master, q)) :
    opPtpMessage s n m ts = setEth s n { ethPort s n with
      logInterval := m.log, masterStale := false,
      exch := some { seq := m.seq, t1 := m.t, t2 := ts - (ethPort s n).rxDelay, corr := m.corr, stage := 0 } } := by
  simp [opPtpMessage, htake, hdom, hkind, htwo, hmaster]

/-- An answer to a Delay_Req of another number changes nothing. -/
theorem opPtpMessage_otherDelay (hkind : m.kind = 2) (hseq : ∀ x, (ethPort s n).delay = some x → x.seq ≠ m.seq) :
    opPtpMessage s n m ts = s := by
  cases hdelay : (ethPort s n).delay with
  | none => simp [opPtpMessage, htake, hdom, hkind, hdelay]
  | some x => simp [opPtpMessage, htake, hdom, hkind, hdelay, hseq x hdelay]

/-- An answer to a Pdelay_Req of another number changes nothing. -/
theorem opPtpMessage_otherPeerDelay (hkind : m.kind = 3) (hseq : m.seq ≠ (ethPort s n).pdSeq) : opPtpMessage s n m ts = s := by
  cases hsent : (ethPort s n).pdSent with
  | none => simp [opPtpMessage, ptpPeerResp, htake, hdom, hkind, hsent]
  | some t1 => simp [opPtpMessage, ptpPeerResp, htake, hdom, hkind, hsent, hseq]

/-- A port that measures the peer delay answers a Pdelay_Req. -/
theorem opPtpMessage_peerRequest (hkind : m.kind = 6) (hprofile : (ethPort s n).profile ≠ 0) :
    opPtpMessage s n m ts = setEth s n { ethPort s n with
      pdReplies := (ethPort s n).pdReplies + 1, pdLast := (m.seq, ts - (ethPort s n).rxDelay) } := by
  simp [opPtpMessage, htake, hdom, hkind, hprofile]

end taken

/-! ### O15 -/

/-- R301, R302: the ports as clocks. -/
theorem ethernetPortsKeepTime_clocks : Claim.EthernetPortsKeepTime := by
  unfold Claim.EthernetPortsKeepTime
  intro s n ts q m ha hn
  have hport : isEth n = true := by simpa [isEth] using hn
  have hmessage : exec (.ptpMessageReceive n m ts) s = .next (opPtpMessage s n m ts) :=
    whenAlive_next (.ptpMessageReceive n m ts) s _ hport ha
  refine ⟨fun htake hdom => ⟨fun hkind htwo hmaster => ?_, fun hkind hseq => ?_, fun hkind hseq => ?_, fun hkind hprofile => ?_⟩,
    fun hdiscard => ?_, whenAlive_next (.ethDiscard n) s _ hport ha, fun hup hprofile hdom => ?_, ?_⟩
  · refine ⟨_, hmessage.trans (congrArg _ (opPtpMessage_sync ts htake hdom hkind htwo hmaster)), rfl, ?_⟩
    rw [ethPort_setEth]
    exact ⟨rfl, rfl, _, rfl, rfl, rfl, rfl⟩
  · rw [hmessage, opPtpMessage_otherDelay ts htake hdom hkind hseq]
  · rw [hmessage, opPtpMessage_otherPeerDelay ts htake hdom hkind hseq]
  · exact ⟨_, hmessage.trans (congrArg _ (opPtpMessage_peerRequest ts htake hdom hkind hprofile)), rfl, ethPort_setEth s n _⟩
  · rw [hmessage, opPtpMessage_discarded ts hdiscard]
  · have hsend : opPtpDelayReq s n ts = setEth s n { ethPort s n with
        pdSeq := ((ethPort s n).pdSeq + 1) % 65536, pdSent := some (ts + (ethPort s n).txDelay), pd := none } := by
      simp [opPtpDelayReq, hup, hdom, hprofile]
    exact ⟨_, (whenAlive_next (.ptpDelayReqSend n ts) s _ hport ha).trans (congrArg _ hsend), rfl,
      congrArg Eth.pdSent (ethPort_setEth s n _), congrArg Eth.pdSeq (ethPort_setEth s n _),
      fun k hk => ethPort_setEth_ne s n k _ hk⟩
  · have hclosed := ethPort_setEth s n { ethPort s n with exch := none, delay := none, masterStale := true }
    refine ⟨_, whenAlive_next (.ptpSyncMissed n) s _ hport ha, ?_⟩
    dsimp only
    split
    case isTrue hsource =>
      obtain ⟨_, _, hmissed⟩ := exchangeMissed_frame
        (setEth s n { ethPort s n with exch := none, delay := none, masterStale := true })
      rw [hmissed]
      exact ⟨rfl, congrArg Eth.exch hclosed, fun h => absurd hsource h, fun _ => rfl⟩
    case isFalse hsource => exact ⟨rfl, congrArg Eth.exch hclosed, fun _ => rfl, fun h => absurd h hsource⟩

/-- R301, R302, R423: the links of the ports. -/
theorem ethernetLinksComeAndGo : Claim.EthernetLinksComeAndGo := by
  unfold Claim.EthernetLinksComeAndGo
  intro s n a b ip v ha hn hv hip
  have hport : isEth n = true := by simpa [isEth] using hn
  have harp : (Instr.arpRequest n ip).wf = true := by simp [Instr.wf, hport, hip]
  have hmode : exec (.ethModeWrite n v) s = .next (opEthMode s n v) :=
    whenAlive_next (.ethModeWrite n v) s _ (by simp [Instr.wf, hport, hv]) ha
  refine ⟨fun hon => ?_,
    ⟨_, whenAlive_next (.ethLinkDown n) s _ hport ha, rfl, ethPort_setEth s n _, fun k hk => ethPort_setEth_ne s n k _ hk⟩,
    fun hup hset => ⟨fun howner => ?_, fun hother => ?_⟩, fun hjob => ?_, fun hjob => ?_⟩
  · exact ⟨_, (whenAlive_next (.ethLinkUp n a b) s _ hport ha).trans (congrArg _ (if_pos hon)), rfl, ethPort_setEth s n _,
      fun k hk => ethPort_setEth_ne s n k _ hk⟩
  · exact ⟨_, (whenAlive_next (.arpRequest n ip) s _ harp ha).trans (congrArg _ (if_pos (by simp [hup, hset, ← howner]))), rfl,
      ethPort_setEth s n _⟩
  · exact (whenAlive_next (.arpRequest n ip) s _ harp ha).trans (congrArg _ (if_neg (by simp [hother])))
  · have hdown := ethPort_setEth s n
      { ethPort s n with mode := v % 8, up := false, exch := none, delay := none, pdSent := none, pd := none }
    refine ⟨_, hmode.trans (congrArg _ (if_neg (by simp [hjob]))), ?_⟩
    dsimp only
    split
    case isTrue hsource =>
      obtain ⟨_, hstate⟩ := setTimeState_frame (setEth s n
        { ethPort s n with mode := v % 8, up := false, exch := none, delay := none, pdSent := none, pd := none }) 3
      rw [hstate]
      exact ⟨rfl, congrArg Eth.mode hdown, congrArg Eth.up hdown, fun _ => rfl, fun h => absurd hsource h⟩
    case isFalse hsource =>
      exact ⟨rfl, congrArg Eth.mode hdown, congrArg Eth.up hdown, fun h => absurd h hsource, fun _ => rfl⟩
  · exact hmode.trans (congrArg _ (if_pos hjob))

/-- Settles O15: each command of a port is what its operation does to the port, and to the time unit that it disciplines. -/
theorem ethernetPortsKeepTime : Obligations.EthernetPortsKeepTime :=
  ⟨ethernetPortsKeepTime_clocks, ethernetLinksComeAndGo⟩

end Sys2Proof.Machine
end

section
/-! SUPPORT. Doorbells, and the rings that are enabled and disabled: what each changes of the rings. -/

namespace Sys2Proof.Machine

open Sys2Proof

/-! ### Vectors where PCIe hosts the rings (R279) -/

/-- With a link, the bus and MSI-X, a vector leaves as a message, or waits as a pending bit while its entry is masked. -/
theorem raiseVector_ready {s : State} (v : Nat) (hhost : s.rings.host ≠ 1) (hready : hostReady s = true)
    (hmsix : s.pcie.msixEn = true) :
    raiseVector s v = if (msixEntry s v).ctrl.testBit 0 then { s with pcie.pba := s.pcie.pba ||| 2 ^ v }
      else { s with out.msix := s.out.msix ++ [v] } :=
  (if_neg hhost).trans (if_neg (by simp [hready, hmsix]))

/-! ### Doorbells (R283, R284) -/

/-- What a doorbell's writer has written stands in the ring host's memory, and nowhere else. -/
theorem hostWrites_frame (s : State) (l : List (Nat × List Byte)) : ∃ hostMem, hostWrites s l = { s with hostMem := hostMem } :=
  List.foldlRecOn (motive := fun t : State => ∃ hostMem, t = { s with hostMem := hostMem }) l _ ⟨_, rfl⟩
    (fun t ht x _ => by obtain ⟨_, rfl⟩ := ht; exact ⟨_, rfl⟩)

/-- A rejected doorbell is counted as its event is, and leaves rings and memory as they are. -/
theorem doorbellBad_frame (s : State) :
    (doorbellBad s).cnt = (devEvent s 0x52 1).cnt ∧ (doorbellBad s).rings = s.rings ∧ (doorbellBad s).mem = s.mem := by
  obtain ⟨_, _, _, _, _, _, _, h⟩ := (raiseVector_reported (devEvent s 0x52 1) 6).frame
  exact ⟨congrArg (·.cnt) h, raiseVector_rings _ 6, congrArg (·.mem) h⟩

/-- A rejected doorbell raises vector 6. -/
theorem doorbellBad_vector {s : State} (hhost : s.rings.host ≠ 1) (hready : hostReady s = true) (hmsix : s.pcie.msixEn = true) :
    ((msixEntry s 6).ctrl.testBit 0 = false → (doorbellBad s).out.msix = s.out.msix ++ [6]) ∧
      ((msixEntry s 6).ctrl.testBit 0 = true → (doorbellBad s).pcie.pba.testBit 6 = true) := by
  have hvector := raiseVector_ready (s := devEvent s 0x52 1) 6 hhost hready hmsix
  refine ⟨fun hopen => ?_, fun hmasked => ?_⟩
  · exact congrArg (·.out.msix) (hvector.trans (if_neg (ne_true_of_eq_false hopen)))
  · have hpending : (doorbellBad s).pcie.pba = s.pcie.pba ||| 2 ^ 6 := congrArg (·.pcie.pba) (hvector.trans (if_pos hmasked))
    rw [hpending, Nat.testBit_or, Nat.testBit_two_pow_self, Bool.or_true]

section doorbells
variable {s : State} {v : Nat}

/-- A submission tail below the size that withdraws no descriptor is taken. -/
theorem opSqTail_taken {n : Nat} (hdeg : degraded s = false) (hen : (sq s n).en = true) (hlt : v < 2 ^ (sq s n).size)
    (hdist : ringDist (2 ^ (sq s n).size) (sq s n).head (sq s n).tail ≤ ringDist (2 ^ (sq s n).size) (sq s n).head v) :
    opSqTail s n v = setSq s n { sq s n with tail := v } :=
  (if_neg (ne_true_of_eq_false hdeg)).trans (if_pos (by simp [hen, entries, hlt, hdist]))

/-- Any other submission tail is rejected. -/
theorem opSqTail_rejected {n : Nat} (hdeg : degraded s = false)
    (hbad : (sq s n).en = false ∨ 2 ^ (sq s n).size ≤ v ∨
      ringDist (2 ^ (sq s n).size) (sq s n).head v < ringDist (2 ^ (sq s n).size) (sq s n).head (sq s n).tail) :
    opSqTail s n v = doorbellBad s := by
  refine (if_neg (ne_true_of_eq_false hdeg)).trans (if_neg ?_)
  rcases hbad with hdisabled | hpast | hwithdraws
  · simp [hdisabled]
  · simp [entries, Nat.not_lt.mpr hpast]
  · simp [entries, Nat.not_le.mpr hwithdraws]

end doorbells

/-- R283, R284: the doorbells of O16. -/
theorem doorbellsMoveTheirIndex : Claim.DoorbellsMoveTheirIndex := by
  unfold Claim.DoorbellsMoveTheirIndex
  intro s n v host ha hdeg hv
  have hfits : fits 4 v = true := by simpa [fits] using hv
  have hserved : ¬ doorbellIgnored s = true := ne_true_of_eq_false hdeg
  obtain ⟨hcnt, hrings, hmem⟩ := doorbellBad_frame s
  refine ⟨fun hn => ?_, fun hn => ?_, fun hok => ?_, fun hbad => ?_, fun hok => ?_, fun hbad => ?_, hcnt,
    fun hpcie => ⟨hrings, hmem, doorbellBad_vector hpcie⟩⟩
  · have hexec : exec (.sqTailDoorbell n v host) s = .next (opSqTail (hostWrites s host) n v) :=
      whenAlive_next (.sqTailDoorbell n v host) s _ (by simp [Instr.wf, hn, hfits]) ha
    obtain ⟨hostMem, hhost⟩ := hostWrites_frame s host
    rw [hhost] at hexec ⊢
    refine ⟨fun hen hlt hdist => ⟨_, hexec.trans (congrArg _ (opSqTail_taken hdeg hen hlt hdist)), rfl, sq_setSq _ n _,
      fun k hk => sq_setSq_ne _ _ _ _ hk⟩, fun hbad => hexec.trans (congrArg _ (opSqTail_rejected hdeg hbad))⟩
  · have hexec : exec (.cqHeadDoorbell n v) s = .next (opCqHead s n v) :=
      whenAlive_next (.cqHeadDoorbell n v) s _ (by simp [Instr.wf, hn, hfits]) ha
    exact ⟨fun hok => ⟨_, hexec.trans (congrArg _ ((if_neg hserved).trans (if_pos hok))), rfl, cq_setCq s n _,
      fun k hk => cq_setCq_ne s n k _ hk⟩,
      fun hbad => hexec.trans (congrArg _ ((if_neg hserved).trans (if_neg (ne_true_of_eq_false hbad))))⟩
  · exact (whenAlive_next (.fqHeadDoorbell v) s _ hfits ha).trans (congrArg _ ((if_neg hserved).trans (if_pos hok)))
  · exact (whenAlive_next (.fqHeadDoorbell v) s _ hfits ha).trans
      (congrArg _ ((if_neg hserved).trans (if_neg (ne_true_of_eq_false hbad))))
  · exact (whenAlive_next (.ctrHeadDoorbell v) s _ hfits ha).trans (congrArg _ ((if_neg hserved).trans (if_pos hok)))
  · exact (whenAlive_next (.ctrHeadDoorbell v) s _ hfits ha).trans
      (congrArg _ ((if_neg hserved).trans (if_neg (ne_true_of_eq_false hbad))))

/-! ### Rings enabled and disabled (R282, R409) -/

/-- The range of a ring that the NX1 produces, as its enable takes it (Table 17.5). -/
theorem OutRing.enabled_of_range {r : OutRing} {lo hi : Nat} (hen : r.en = false) (hsize : lo ≤ r.size ∧ r.size ≤ hi) :
    r.enabled lo hi = { r with en := true, head := 0, tail := 0, phase := 1 } := by
  simp [OutRing.enabled, hen, hsize]

/-- R282, R409: the enables of O16. -/
theorem ringsAreEnabledAndDisabled : Claim.RingsAreEnabledAndDisabled := by
  unfold Claim.RingsAreEnabledAndDisabled
  intro s r n ha hr
  have henable : exec (.ringEnable r) s = .next (opRingEnable s r) := whenAlive_next (.ringEnable r) s _ hr ha
  have hdisable : exec (.ringDisable r) s = .next (opRingDisable s r) := whenAlive_next (.ringDisable r) s _ hr ha
  refine ⟨fun hsq hen hlo hhi => ?_, fun hout hen hsize => ?_, fun hsq hbad => ?_, fun hsq => ?_, fun hout => ?_⟩
  · subst hsq
    exact ⟨_, henable.trans (congrArg _ (if_pos (by simp [hlo, hhi, hen]))), rfl, sq_setSq s n _⟩
  · cases r with
    | sq k => exact absurd rfl (hout k)
    | cq k =>
      exact ⟨_, henable, rfl, rfl, (cq_setCq s k _).trans (OutRing.enabled_of_range hen hsize)⟩
    | fq => exact ⟨_, henable, rfl, rfl, OutRing.enabled_of_range hen hsize⟩
    | ctr => exact ⟨_, henable, rfl, rfl, OutRing.enabled_of_range hen hsize⟩
  · subst hsq
    refine henable.trans (congrArg _ (if_neg ?_))
    simp only [Bool.and_eq_true, decide_eq_true_eq, not_and]
    omega
  · subst hsq
    exact ⟨_, hdisable, rfl, sq_setSq s n _⟩
  · cases r with
    | sq k => exact absurd rfl (hout k)
    | cq k => exact ⟨_, hdisable, rfl, rfl, cq_setCq s k _⟩
    | fq => exact ⟨_, hdisable, rfl, rfl, rfl⟩
    | ctr => exact ⟨_, hdisable, rfl, rfl, rfl⟩

/-- Settles O16: the doorbells and the enables, each by what it does to its ring. -/
theorem ringsTakeTheirIndices : Obligations.RingsTakeTheirIndices := ⟨doorbellsMoveTheirIndex, ringsAreEnabledAndDisabled⟩

end Sys2Proof.Machine
end

section
/-! SUPPORT. A record that waits for its ring, and the BAR4 window. -/

namespace Sys2Proof.Machine

open Sys2Proof

/-! ### Records into a ring where PCIe hosts it (R282, R286) -/

/-- The bytes that a record has in its ring. -/
def ringBytes (s : State) (r : Nat) (bs : List Byte) : List Byte := withPhase (withSqHead s bs) 2 0 (cq s r).phase

/-- A record of ring `r` has gone into the memory of a host that PCIe reaches, and raised nothing. -/
def recordIn (s : State) (r : Nat) (bs : List Byte) : State :=
  hostPoke (setCq s r (cq s r).pushed) ((cq s r).base + 32 * (cq s r).tail) (ringBytes s r bs)

@[simp] theorem withPhase_length (bs : List Byte) (i k phase : Nat) : (withPhase bs i k phase).length = bs.length := by
  simp [withPhase]

/-- SQ_HEAD replaces four bytes of a completion record (Table 11.6). -/
theorem withSqHead_length (s : State) {bs : List Byte} (h : bs.length = 32) : (withSqHead s bs).length = 32 := by
  unfold withSqHead
  split
  · simp [h]
  · exact h

/-- A record written to a ring in the memory of a PCIe host. -/
theorem writeCq_pcie (s : State) (r : Nat) (bs : List Byte) (irq : Bool) (hhost : s.rings.host = 0) :
    writeCq s r bs irq = if irq then raiseVector (recordIn s r bs) r else recordIn s r bs := by
  have hpcie : ¬ (setCq s r (cq s r).pushed).rings.host = 1 := fun h => absurd (hhost.symm.trans h) (by decide)
  cases irq with
  | true => exact if_neg hpcie
  | false => exact if_neg hpcie

/-- A record that goes in changes the ring host's memory and its ring. -/
theorem recordIn_frame (s : State) (r : Nat) (bs : List Byte) : recordIn s r bs =
    { s with hostMem := (recordIn s r bs).hostMem, rings := { s.rings with cq := (recordIn s r bs).rings.cq } } := rfl

/-- A record of 32 bytes stands at the tail of its ring, and no other byte of the host's memory changes. -/
theorem recordIn_bytes (s : State) (r : Nat) {bs : List Byte} (h : bs.length = 32) :
    hostPeek (recordIn s r bs) ((cq s r).base + 32 * (cq s r).tail) 32 = ringBytes s r bs ∧
      ∀ a, a < (cq s r).base + 32 * (cq s r).tail ∨ (cq s r).base + 32 * (cq s r).tail + 32 ≤ a →
        readByte (recordIn s r bs).hostMem a = readByte s.hostMem a := by
  have hlen : (ringBytes s r bs).length = 32 := by simp [ringBytes, withSqHead_length s h]
  have hread := hostPeek_hostPoke (setCq s r (cq s r).pushed) ((cq s r).base + 32 * (cq s r).tail) (ringBytes s r bs)
  rw [hlen] at hread
  exact ⟨hread, fun a ha => readByte_writeBytes_outside _ _ _ a (by rw [hlen]; exact ha)⟩

/-- The tail advances, and at the wrap it is 0 with the phase inverted (R282, R283). -/
theorem OutRing.pushed_cases (r : OutRing) :
    (r.tail + 1 = 2 ^ r.size → r.pushed.tail = 0 ∧ r.pushed.phase = 1 - r.phase) ∧
      (r.tail + 1 ≠ 2 ^ r.size → r.pushed.tail = r.tail + 1 ∧ r.pushed.phase = r.phase) := by
  unfold OutRing.pushed entries
  refine ⟨fun h => ?_, fun h => ?_⟩
  · rw [if_pos h]
    exact ⟨rfl, rfl⟩
  · rw [if_neg h]
    exact ⟨rfl, rfl⟩

theorem OutRing.pushed_queue (r : OutRing) : r.pushed.queue = r.queue := by
  unfold OutRing.pushed
  split <;> rfl

/-! ### QUEUED_RECORD_FLUSH -/

/-- Ring `r` without the records that wait for it. -/
def withoutQueue (s : State) (r : Nat) : State := setCq s r { cq s r with queue := [] }

/-- The one record that waits goes into its ring. -/
theorem flushQueue_one {s : State} {r : Nat} {bs : List Byte} (hhost : s.rings.host = 0) (hqueue : (cq s r).queue = [(bs, false)])
    (hroom : canWrite s (cq s r) = true) : flushQueue (cq s r).queue.length s r = recordIn (withoutQueue s r) r bs := by
  have hwrite := writeCq_pcie (withoutQueue s r) r bs false hhost
  have hflush : flushQueue 1 s r = writeCq (withoutQueue s r) r bs false := by
    simp only [flushQueue, hqueue, hroom, if_true, withoutQueue]
  rw [hqueue]
  exact hflush.trans hwrite

/-- R286, R295: the flush of O17. -/
theorem waitingRecordIsFlushed : Claim.WaitingRecordIsFlushed := by
  unfold Claim.WaitingRecordIsFlushed
  intro s r bs ha hr hhost hqueue hroom hlen htyp
  have hexec : exec (.queuedRecordFlush r) s = .next (flushQueue (cq s r).queue.length s r) :=
    whenAlive_next (.queuedRecordFlush r) s _ (by simpa [Instr.wf] using hr) ha
  have hring : cq (withoutQueue s r) r = { cq s r with queue := [] } := cq_setCq s r _
  have hpushed : cq (recordIn (withoutQueue s r) r bs) r = (cq (withoutQueue s r) r).pushed := cq_setCq _ r _
  have hbytes : ringBytes (withoutQueue s r) r bs = withPhase bs 2 0 (cq s r).phase := by
    rw [ringBytes, withSqHead, if_neg htyp, hring]
  obtain ⟨hstands, hothers⟩ := recordIn_bytes (withoutQueue s r) r hlen
  rw [hring] at hstands hothers hpushed
  obtain ⟨hwrap, hnext⟩ := OutRing.pushed_cases { cq s r with queue := [] }
  refine ⟨_, hexec.trans (congrArg _ (flushQueue_one hhost hqueue hroom)), recordIn_frame (withoutQueue s r) r bs, ?_⟩
  rw [hpushed]
  exact ⟨OutRing.pushed_queue _, hstands.trans hbytes, hothers, hwrap, hnext⟩

/-! ### BAR4 (R281) -/

section bar4
variable {s : State} {off : Nat}

theorem exec_bar4Write (bs : List Byte) (ha : alive s = true) (hoff : off < 2 ^ 36) :
    exec (.bar4Write off bs) s = .next (opBar4Write s off bs) :=
  whenAlive_next (.bar4Write off bs) s _ (by simpa [Instr.wf] using hoff) ha

theorem exec_bar4Read (n : Nat) (ha : alive s = true) (hoff : off < 2 ^ 36) :
    exec (.bar4Read off n) s = .next (opBar4Read s off n) :=
  whenAlive_next (.bar4Read off n) s _ (by simpa [Instr.wf] using hoff) ha

variable (hen : s.pcie.bar4En = true)
include hen

/-- A write inside installed memory without failing lines is a write. -/
theorem opBar4Write_installed {bs : List Byte} (hin : installed s (s.pcie.bar4Base + off) bs.length = true) (hgood : s.mem.bad = []) :
    opBar4Write s off bs = store s (s.pcie.bar4Base + off) bs := by
  simp [opBar4Write, bar4Addr, hen, hin, failLines_of_good s _ _ hgood]

theorem opBar4Write_outside {bs : List Byte} (hout : installed s (s.pcie.bar4Base + off) bs.length = false) :
    opBar4Write s off bs = devEvent s 0x53 1 := by
  simp [opBar4Write, bar4Addr, hen, hout]

/-- A read inside installed memory without failing lines answers its bytes. -/
theorem opBar4Read_installed {n : Nat} (hin : installed s (s.pcie.bar4Base + off) n = true) (hgood : s.mem.bad = []) :
    opBar4Read s off n = noteRead { s with out.readBytes := peek s (s.pcie.bar4Base + off) n, out.completerAbort := false }
      (s.pcie.bar4Base + off) n := by
  simp [opBar4Read, bar4Addr, hen, hin, badLine_of_good s _ _ hgood]

theorem opBar4Read_outside {n : Nat} (hout : installed s (s.pcie.bar4Base + off) n = false) :
    opBar4Read s off n = devEvent { s with out.readBytes := List.replicate n 0, out.completerAbort := false } 0x53 1 := by
  simp [opBar4Read, bar4Addr, hen, hout]

end bar4

/-- R281: the BAR4 window of O17. -/
theorem bar4ReadsAndWritesMemory : Claim.Bar4ReadsAndWritesMemory := by
  unfold Claim.Bar4ReadsAndWritesMemory
  intro s off n bs ha hoff hen
  refine ⟨fun hin hgood => ?_, fun hin hgood hcorr => ?_, fun hout => ?_, fun hout => ?_⟩
  · refine ⟨_, (exec_bar4Write bs ha hoff).trans (congrArg _ (opBar4Write_installed hen hin hgood)), ?_,
      peek_store s _ bs hgood, store_full s _ bs, store_outside s _ bs⟩
    obtain ⟨_, _, hstore⟩ := store_frame s (s.pcie.bar4Base + off) bs
    rw [hstore]
  · obtain ⟨_, hread⟩ := noteRead_countOnly
      { s with out.readBytes := peek s (s.pcie.bar4Base + off) n, out.completerAbort := false } (s.pcie.bar4Base + off) n hcorr
    refine ⟨_, (exec_bar4Read n ha hoff).trans (congrArg _ (opBar4Read_installed hen hin hgood)), ?_⟩
    rw [hread]
    exact ⟨rfl, rfl, rfl⟩
  · rw [exec_bar4Write bs ha hoff, opBar4Write_outside hen hout]
  · exact ⟨_, (exec_bar4Read n ha hoff).trans (congrArg _ (opBar4Read_outside hen hout)), rfl, rfl, rfl⟩

/-- Settles O17: the flush puts the one record that waits into its ring, and BAR4 is a store or a peek of its address. -/
theorem recordsAndBar4Memory : Obligations.RecordsAndBar4Memory := ⟨waitingRecordIsFlushed, bar4ReadsAndWritesMemory⟩

end Sys2Proof.Machine
end

section
/-! SUPPORT. The completion record, the checks that gate a descriptor, and the fetch. -/

namespace Sys2Proof.Machine

open Sys2Proof

/-! ### The completion record (R290, Table 11.6) -/

/-- The completion record of a descriptor as it stands in its ring: SQ_HEAD is the ring's head, and STATUS2 holds the phase. -/
def completionBytes (s : State) (h : Hdr) (status data : Nat) : List Byte :=
  leBytes 1 1 ++ (leBytes 1 status ++ (leBytes 1 (cq s h.cq).phase ++ (leBytes 1 h.sq ++ (leBytes 4 h.tag ++
  (leBytes 4 (sq s (rd (cqBytes s 1 status h.sq h.tag data) 3 1)).head ++
  (leBytes 4 (if jobExists s then s.job.step else 0) ++ (leBytes 8 (tickedFrame s) ++ leBytes 8 data)))))))

theorem cqBytes_length (s : State) (typ status sqn tag data : Nat) : (cqBytes s typ status sqn tag data).length = 32 := by
  simp [cqBytes]

/-- The phase of a completion record goes into bit 0 of its third byte, which is zero. -/
theorem withPhase_third (a b phase : Nat) (rest : List Byte) :
    withPhase (leBytes 1 a ++ (leBytes 1 b ++ (leBytes 1 0 ++ rest))) 2 0 phase =
      leBytes 1 a ++ (leBytes 1 b ++ (leBytes 1 phase ++ rest)) := by
  simp [withPhase, leBytes, rd, leNat]

/-- The record that a completion puts into its ring. -/
theorem ringBytes_completion (s : State) (h : Hdr) (status data : Nat) :
    ringBytes s h.cq (cqBytes s 1 status h.sq h.tag data) = completionBytes s h status data := by
  have htyp : rd (cqBytes s 1 status h.sq h.tag data) 0 1 = 1 := by
    simp only [cqBytes, List.append_assoc, rd_leBytes]
    rfl
  have hhead : withSqHead s (cqBytes s 1 status h.sq h.tag data) =
      leBytes 1 1 ++ (leBytes 1 status ++ (leBytes 1 0 ++ (leBytes 1 h.sq ++ (leBytes 4 h.tag ++
      (leBytes 4 (sq s (rd (cqBytes s 1 status h.sq h.tag data) 3 1)).head ++
      (leBytes 4 (if jobExists s then s.job.step else 0) ++ (leBytes 8 (tickedFrame s) ++ leBytes 8 data))))))) :=
    (if_pos htyp).trans rfl
  rw [ringBytes, hhead, withPhase_third]
  rfl

/-- The fields of a completion record, each as far as it fits. -/
theorem completionBytes_fields (s : State) {h : Hdr} {status data : Nat} (hwf : h.wf = true) (hstatus : status < 256)
    (hdata : data < 2 ^ 64) (hphase : (cq s h.cq).phase ≤ 1) :
    let b := completionBytes s h status data
    rd b 0 1 = 1 ∧ rd b 1 1 = status ∧ rd b 2 1 = (cq s h.cq).phase ∧ rd b 3 1 = h.sq ∧ rd b 4 4 = h.tag ∧ rd b 24 8 = data := by
  simp only [Hdr.wf, fits, Bool.and_eq_true, decide_eq_true_eq] at hwf
  obtain ⟨⟨⟨⟨hsq, _⟩, _⟩, htag⟩, _⟩ := hwf
  have hlast : rd (leBytes 8 data) 0 8 = data := by
    have h := rd_leBytes 8 data []
    rw [List.append_nil] at h
    rw [h, Nat.mod_eq_of_lt (by omega)]
  unfold completionBytes
  simp [rd_append_right, rd_leBytes, hlast, Nat.mod_eq_of_lt hstatus, Nat.mod_eq_of_lt (show h.tag < 4294967296 from htag),
    Nat.mod_eq_of_lt (show h.sq < 256 by omega), Nat.mod_eq_of_lt (show (cq s h.cq).phase < 256 by omega)]

/-! ### The interrupt of a record (R279) -/

/-- A vector raised where PCIe hosts the rings is a message or a pending bit. -/
theorem raiseVector_pcie (s : State) (v : Nat) (hhost : s.rings.host = 0) :
    ∃ out pcie, raiseVector s v = { s with out := out, pcie := pcie } := by
  unfold raiseVector
  rw [if_neg (by omega)]
  split
  · exact ⟨_, _, rfl⟩
  · split
    · exact ⟨_, _, rfl⟩
    · exact ⟨_, _, rfl⟩

/-- The completion of a descriptor whose ring has room is its record in the ring, and the interrupt that it asks for. -/
theorem complete_roomFor {s : State} {h : Hdr} (status data : Nat) (hroom : RoomFor s h) :
    complete s h status data = if h.flags.testBit 0
      then raiseVector (recordIn s h.cq (cqBytes s 1 status h.sq h.tag data)) h.cq
      else recordIn s h.cq (cqBytes s 1 status h.sq h.tag data) := by
  obtain ⟨hcq, hwrite, hqueue, hhost⟩ := hroom
  have hpush : pushCq s h.cq (cqBytes s 1 status h.sq h.tag data) (h.flags.testBit 0) true =
      writeCq s h.cq (cqBytes s 1 status h.sq h.tag data) (h.flags.testBit 0) := if_pos (by simp [hwrite, hqueue])
  rw [complete, if_pos hcq, hpush, writeCq_pcie _ _ _ _ hhost]

/-- R285, R290: the completion record of O34. -/
theorem completionRecordIsWritten : Claim.CompletionRecordIsWritten := by
  unfold Claim.CompletionRecordIsWritten
  intro s h status data hwf hroom hstatus hdata hphase t a
  have ht : t = if h.flags.testBit 0
      then raiseVector (recordIn s h.cq (cqBytes s 1 status h.sq h.tag data)) h.cq
      else recordIn s h.cq (cqBytes s 1 status h.sq h.tag data) := complete_roomFor status data hroom
  obtain ⟨hstands, hothers⟩ := recordIn_bytes s h.cq (cqBytes_length s 1 status h.sq h.tag data)
  have hframe := recordIn_frame s h.cq (cqBytes s 1 status h.sq h.tag data)
  have hcq : cq (recordIn s h.cq (cqBytes s 1 status h.sq h.tag data)) h.cq = (cq s h.cq).pushed := cq_setCq s h.cq _
  have hne (k : Nat) (hk : k ≠ h.cq) : cq (recordIn s h.cq (cqBytes s 1 status h.sq h.tag data)) k = cq s k :=
    cq_setCq_ne s h.cq k _ hk
  rw [ringBytes_completion] at hstands
  obtain ⟨htyp, hst, hph, hsq, htag, hda⟩ := completionBytes_fields s hwf hstatus hdata hphase
  generalize recordIn s h.cq (cqBytes s 1 status h.sq h.tag data) = u at *
  have hhost : u.rings.host = 0 := by
    rw [hframe]
    exact hroom.2.2.2
  have hraised : ∃ out pcie, t = { u with out := out, pcie := pcie } ∧ (h.flags.testBit 0 = false → pcie = u.pcie ∧ out = u.out) := by
    rw [ht]
    split
    case isTrue hirq =>
      obtain ⟨out, pcie, hvector⟩ := raiseVector_pcie u h.cq hhost
      exact ⟨out, pcie, hvector, fun hno => absurd hirq (by simp [hno])⟩
    case isFalse => exact ⟨_, _, rfl, fun _ => ⟨rfl, rfl⟩⟩
  obtain ⟨out, pcie, ht', hquiet⟩ := hraised
  clear_value t
  subst ht'
  have hread : hostPeek { u with out := out, pcie := pcie } a 32 = completionBytes s h status data := hstands
  rw [hread]
  refine ⟨htyp, hst, hph, hsq, htag, hda, hothers, hcq, hne, ?_, fun hno => ?_⟩
  · rw [hframe]
  · obtain ⟨hpcie, hout⟩ := hquiet hno
    rw [hframe] at hpcie hout
    exact ⟨hpcie, hout⟩

/-! ### The gate of a descriptor (R287, R292 to R294) -/

section gate
variable {s : State} {h : Hdr} (ok : Bool) (states : List Nat) (bad : Option Nat) (run : State)

/-- A descriptor that the scheduler core does not take, or that comes over a degraded link, stays in its ring. -/
theorem gate_away (haway : degraded s = true ∨ schedAway s = true) : gate s h ok states bad run = s :=
  if_pos (by simpa using haway)

variable (hdeg : degraded s = false) (hserved : schedAway s = false)
include hdeg hserved

theorem gate_flagsBad (hflags : 4 ≤ h.flags) : gate s h ok states bad run = complete s h 0x11 1 := by
  simp [gate, hdeg, hserved, headBad, hflags]

theorem gate_cqBad (hflags : h.flags < 4) (hcq : 4 ≤ h.cq) : gate s h ok states bad run = complete s h 0x11 2 := by
  simp [gate, hdeg, hserved, headBad, Nat.not_le.mpr hflags, hcq]

variable (hflags : h.flags < 4) (hcq : h.cq < 4)
include hflags hcq

theorem gate_inBoot (hboot : s.glob.jobState = 0) : gate s h ok states bad run = complete s h 0x19 0 := by
  simp [gate, hdeg, hserved, headBad, Nat.not_le.mpr hflags, Nat.not_le.mpr hcq, hboot]

variable (hup : s.glob.jobState ≠ 0)
include hup

theorem gate_otherOwner (hsession : s.job.session ≠ 0) (howner : h.owner ≠ s.job.session) :
    gate s h ok states bad run = complete s h 0x12 0 := by
  simp [gate, hdeg, hserved, headBad, Nat.not_le.mpr hflags, Nat.not_le.mpr hcq, hup, hsession, howner]

variable (howner : h.owner = s.job.session)
include howner

/-- A restricted session may not send what `gate` does not allow it. -/
theorem gate_restricted (hrestricted : s.job.restricted = true) :
    gate s h false states bad run = complete s h 0x13 0 := by
  simp [gate, hdeg, hserved, headBad, Nat.not_le.mpr hflags, Nat.not_le.mpr hcq, hup, howner, hrestricted]

theorem gate_otherState (hfree : s.job.restricted = false) (hstate : s.glob.jobState ∉ states) :
    gate s h ok states bad run = complete s h 0x19 0 := by
  simp [gate, hdeg, hserved, headBad, Nat.not_le.mpr hflags, Nat.not_le.mpr hcq, hup, howner, hfree, hstate]

end gate

/-- The descriptors of the gate's claim: each passes it for states in which a session is there, and none for a restricted one. -/
theorem exec_gated {s : State} {h : Hdr} {c : Instr} (ha : alive s = true) (hwf : c.wf = true)
    (hc : (∃ n k, c = .stepBegin h n k) ∨ (∃ n, c = .jobPause h n) ∨ c = .jobEnd h ∨ c = .checkpointOnce h ∨
      (∃ n, c = .checkpointInterval h n) ∨ (∃ w, c = .paramWrite h w) ∨ (∃ a b, c = .jobStart h a b)) :
    ∃ states bad run, exec c s = .next (gate s h false states bad run) ∧ 1 ∉ states ∧ 6 ∉ states := by
  have hrun (t : State) : whenAlive c s t = .next t := whenAlive_next c s t hwf ha
  rcases hc with ⟨n, k, rfl⟩ | ⟨n, rfl⟩ | rfl | rfl | ⟨n, rfl⟩ | ⟨w, rfl⟩ | ⟨a, b, rfl⟩
  · exact ⟨_, _, _, hrun _, by decide, by decide⟩
  · exact ⟨_, _, _, hrun _, by decide, by decide⟩
  · exact ⟨_, _, _, hrun _, by decide, by decide⟩
  · exact ⟨_, _, _, hrun _, by decide, by decide⟩
  · exact ⟨_, _, _, hrun _, by decide, by decide⟩
  · exact ⟨_, _, _, hrun _, by decide, by decide⟩
  · exact ⟨_, _, _, hrun _, by decide, by decide⟩

/-- R287, R292 to R294: the gate of O34. -/
theorem descriptorsAreGated : Claim.DescriptorsAreGated := by
  unfold Claim.DescriptorsAreGated
  intro s h c ha hwf _ _ hc
  obtain ⟨states, bad, run, hexec, h1, h6⟩ := exec_gated ha hwf hc
  rw [hexec]
  refine ⟨fun haway => congrArg _ (gate_away _ _ _ _ haway), fun hdeg hserved => ⟨fun hflags => ?_, fun hflags hcq => ?_, fun hflags hcq =>
    ⟨fun hboot => ?_, fun hup hsession howner => ?_, fun hup howner hrestricted => ?_, fun howner hfree hstate => ?_⟩⟩⟩
  · rw [gate_flagsBad _ _ _ _ hdeg hserved hflags]
  · rw [gate_cqBad _ _ _ _ hdeg hserved hflags hcq]
  · rw [gate_inBoot _ _ _ _ hdeg hserved hflags hcq hboot]
  · rw [gate_otherOwner _ _ _ _ hdeg hserved hflags hcq hup hsession howner]
  · rw [gate_restricted _ _ _ hdeg hserved hflags hcq hup howner hrestricted]
  · have hup : s.glob.jobState ≠ 0 := by omega
    have hother : s.glob.jobState ∉ states := by
      rcases hstate with hidle | horphaned
      · rwa [hidle]
      · rwa [horphaned]
    rw [gate_otherState _ _ _ _ hdeg hserved hflags hcq hup howner hfree hother]

/-! ### The fetch (R285) -/

/-- The state in which a descriptor of ring `n` has been taken: its head has advanced, and the turn has passed on. -/
def taken (s : State) (n : Nat) : State :=
  let u := setSq s n { sq s n with head := ((sq s n).head + 1) % 2 ^ (sq s n).size }
  { u with rings := { u.rings with turn := (n + 1) % 16, fetchFailed := none } }

/-- A type that Table 11.5 does not list. -/
theorem runDescriptor_unlisted (s : State) (n : Nat) {b : List Byte} (h : rd b 0 1 = 0 ∨ 0x12 ≤ rd b 0 1) :
    runDescriptor s n b = complete s (headerOf n b) 0x11 0 := by
  unfold runDescriptor
  dsimp only
  split
  case h_18 => rfl
  all_goals omega

/-- R285: the fetch of O34. -/
theorem fetchTakesOneDescriptor : Claim.FetchTakesOneDescriptor := by
  unfold Claim.FetchTakesOneDescriptor
  intro s n ha hhost
  have hexec (ok : Bool) : exec (.descriptorFetch ok) s = .next (opFetch s ok) := whenAlive_next (.descriptorFetch ok) s _ rfl ha
  have hpacket : fetchPacket s n = s := if_neg (by omega)
  refine ⟨fun hturn hopen => ?_, fun hblocked => ?_⟩
  · have hnot : ¬ fetchBlocked s = true := by simp [hopen]
    have hfetch : opFetch s true = runDescriptor (taken s n) n (nextDescriptor s n) := by
      simp only [opFetch, hturn, if_neg hnot, hpacket]
      rfl
    have hfails : opFetch s false = { s with rings := { s.rings with fetchFailed := none } } := by
      simp [opFetch, hturn, hopen, hpacket, hhost]
    exact ⟨(hexec true).trans (congrArg _ hfetch),
      fun htyp => (hexec true).trans (congrArg _ (hfetch.trans (runDescriptor_unlisted _ n htyp))),
      (hexec false).trans (congrArg _ hfails)⟩
  · have hstop : fetchBlocked s = true := by
      rcases hblocked with h | h | h | h | h <;> simp [fetchBlocked, hostReady, hhost, h]
    rw [hexec]
    unfold opFetch
    split
    · rfl
    · rw [if_pos hstop]

/-- Settles O34: a completion is its record in the ring and its interrupt, a descriptor passes the checks of the gate in their order,
and the fetch carries out what lies at the head of the next ring. -/
theorem descriptorsComplete : Obligations.DescriptorsComplete :=
  ⟨completionRecordIsWritten, descriptorsAreGated, fetchTakesOneDescriptor⟩

end Sys2Proof.Machine
end

section
/-! SUPPORT. The descriptors that a job takes between its steps: what takes effect at once, what waits, and what is late. -/

namespace Sys2Proof.Machine

open Sys2Proof

/-! ### Writes that lie apart -/

/-- What a write leaves alone reads as before. -/
theorem SameOutside.peek_eq {s t : State} {a n : Nat} (h : SameOutside s t a n) {b k : Nat} (hapart : b + k ≤ a ∨ a + n ≤ b) :
    peek t b k = peek s b k := by
  induction k generalizing b with
  | zero => rfl
  | succ k ih => exact congrArg₂ _ (h b (by omega)) (ih (by omega))

theorem SameOutside.trans {s t u : State} {a n : Nat} (h : SameOutside s t a n) (g : SameOutside t u a n) : SameOutside s u a n :=
  fun x hx => (g x hx).trans (h x hx)

theorem SameOutside.widen {s t : State} {a n b k : Nat} (h : SameOutside s t b k) (hin : a ≤ b ∧ b + k ≤ a + n) :
    SameOutside s t a n := fun x hx => h x (by omega)

/-- Runs leave alone every byte outside a range that holds them. -/
theorem storeAll_outside (runs : List (Nat × List Byte)) (s : State) (a n : Nat)
    (hin : ∀ r ∈ runs, a ≤ r.1 ∧ r.1 + r.2.length ≤ a + n) :
    SameOutside s (runs.foldl (fun t r => store t r.1 r.2) s) a n :=
  List.foldlRecOn (motive := fun t : State => SameOutside s t a n) runs _ (fun _ _ => rfl)
    (fun t ht r hr => ht.trans ((store_outside t r.1 r.2).widen (hin r hr)))

/-- Runs of which each lies past those before it are all read back. -/
theorem peek_storeAll (runs : List (Nat × List Byte)) (s : State) (hgood : s.mem.bad = [])
    (hrise : runs.Pairwise (fun x y => x.1 + x.2.length ≤ y.1)) :
    ∀ r ∈ runs, peek (runs.foldl (fun t r => store t r.1 r.2) s) r.1 r.2.length = r.2 := by
  induction runs generalizing s with
  | nil => exact fun r hr => absurd hr List.not_mem_nil
  | cons r rs ih =>
    obtain ⟨hfirst, hrest⟩ := List.pairwise_cons.mp hrise
    intro x hx
    rcases List.mem_cons.mp hx with rfl | hx
    · exact List.foldlRecOn (motive := fun t : State => peek t x.1 x.2.length = x.2) rs _ (peek_store s x.1 x.2 hgood)
        (fun t ht y hy => ((store_outside t y.1 y.2).peek_eq (.inl (hfirst y hy))).trans ht)
    · exact ih _ (store_bad s r.1 r.2 hgood) hrest x hx

/-! ### The fields of a parameter group (R226, Table 9.3) -/

/-- The fields that a PARAM_WRITE may write: the bit of its mask, the offset in the group, and the value. LR_STEP goes with LR. -/
def paramFields (w : ParamWrite) : List (Nat × Nat × Nat) :=
  [(0, 0, w.lr), (1, 4, w.beta1), (2, 8, w.beta2), (3, 12, w.eps), (4, 16, w.wd), (0, 24, w.target)]

/-- The writes that a PARAM_WRITE makes. -/
def paramRuns (a : Nat) (w : ParamWrite) : List (Nat × List Byte) :=
  ((paramFields w).filter (fun f => w.fields.testBit f.1)).map (fun f => (a + f.2.1, leBytes 4 f.2.2))

theorem mem_paramRuns {a : Nat} {w : ParamWrite} {f : Nat × Nat × Nat} (hf : f ∈ paramFields w) (hbit : w.fields.testBit f.1 = true) :
    (a + f.2.1, leBytes 4 f.2.2) ∈ paramRuns a w :=
  List.mem_map_of_mem (List.mem_filter.mpr ⟨hf, hbit⟩)

/-- The writes lie in the 28 bytes of the group that they may change. -/
theorem paramRuns_in (a : Nat) (w : ParamWrite) : ∀ r ∈ paramRuns a w, a ≤ r.1 ∧ r.1 + r.2.length ≤ a + 28 := by
  intro r hr
  obtain ⟨f, hf, rfl⟩ := List.mem_map.mp hr
  have hoff : ∀ f ∈ paramFields w, f.2.1 ≤ 24 := by simp [paramFields]
  have := hoff f (List.mem_of_mem_filter hf)
  simp only [leBytes_length]
  omega

theorem paramRuns_rise (a : Nat) (w : ParamWrite) : (paramRuns a w).Pairwise (fun x y => x.1 + x.2.length ≤ y.1) := by
  have hfields : (paramFields w).Pairwise (fun f g => f.2.1 + 4 ≤ g.2.1) := by simp [paramFields]
  refine List.pairwise_map.mpr ((hfields.filter _).imp (fun {f g} hfg => ?_))
  simp only [leBytes_length]
  omega

/-- In good memory the parameters are written by their runs. -/
theorem applyParam_of_good (s : State) (w : ParamWrite) (hgood : s.mem.bad = []) :
    applyParam s w = (paramRuns (groupAt s w.group) w).foldl (fun t r => store t r.1 r.2) s := by
  rw [← fwStoreAll_of_good s _ hgood, paramRuns, List.foldl_map, List.foldl_filter]
  rfl

/-! ### Descriptors that are held (R285) -/

/-- With room among those held, a descriptor waits. -/
theorem hold_room {s : State} (h : Hdr) (op : HeldOp) (hroom : heldCount s < 256) :
    hold s h op = { s with rings := { s.rings with held := s.rings.held ++ [⟨h, op, pastSwitch s⟩] } } :=
  if_neg (Nat.not_le.mpr hroom)

/-- A field below 2^48 has no reserved bit set. -/
theorem hiAt_of_lt {v : Nat} (off : Nat) (hv : v < 2 ^ 48) : hiAt off v = none := by
  have h48 : fld v 48 8 = 0 := by simp only [fld]; omega
  have h56 : fld v 56 8 = 0 := by simp only [fld]; omega
  simp [hiAt, h48, h56]

section admitted
variable {s : State} {h : Hdr} (ha : alive s = true) (hadm : Admitted s h)
include ha hadm

theorem exec_stepBegin {n k : Nat} (hstate : s.glob.jobState ∈ [3, 4, 5]) (hn : n < 2 ^ 32) (hk : k < 2 ^ 32) :
    exec (.stepBegin h n k) s = .next (if s.frame.live then hold s h (.stepBegin n k)
      else complete { s with job := { s.job with step := n, allowance := allowanceOf k } } h 0 0) :=
  (whenAlive_next (.stepBegin h n k) s _ (by simpa [Instr.wf, hadm.1, fits] using ⟨hn, hk⟩) ha).trans
    (congrArg _ (gate_admitted s h false [3, 4, 5] _ hadm hstate))

theorem exec_paramWrite {w : ParamWrite} (hstate : s.glob.jobState ∈ [3, 4, 5]) (hwf : w.wf = true) (hok : paramBad w = none) :
    exec (.paramWrite h w) s = .next (opParamWrite s h w) := by
  refine (whenAlive_next (.paramWrite h w) s _ (by simp [Instr.wf, hadm.1, hwf]) ha).trans (congrArg _ ?_)
  rw [runParamWrite, hok]
  exact gate_admitted s h false [3, 4, 5] _ hadm hstate

theorem exec_shapeCellWrite {dst src : Nat} (hstate : s.glob.jobState ∈ onward) (hhost : s.rings.host = 0) (hdst : dst < 2 ^ 48)
    (hsrc : src < 2 ^ 64) (hal : dst % 64 = 0) (hin : installed s dst 64 = true) :
    exec (.shapeCellWrite h dst src) s = .next (if s.frame.live then hold s h (.shapeCell dst (hostPeek s src 64))
      else complete (fwStore s dst (hostPeek s src 64)) h 0 0) := by
  have hwf : (Instr.shapeCellWrite h dst src).wf = true := by
    simp only [Instr.wf, hadm.1, fits, Bool.true_and, Bool.and_eq_true, decide_eq_true_eq]
    omega
  have hbad : firstOf [none, badIf (dst % 64 ≠ 0 || (decide (dst < 2 ^ 48) && !installed s dst 64)) 16, hiAt 16 dst,
      hostHi s 24 src] = none := by
    simp [firstOf, badIf, hal, hin, hiAt_of_lt 16 hdst, hostHi, hhost]
  refine (whenAlive_next (.shapeCellWrite h dst src) s _ hwf ha).trans (congrArg _ ?_)
  rw [runShapeCell, hbad]
  exact gate_admitted s h false onward _ hadm hstate

theorem exec_checkpointInterval {n : Nat} (hstate : s.glob.jobState ∈ [4, 5]) (hn : n < 2 ^ 32) :
    exec (.checkpointInterval h n) s =
      .next (complete { s with job := { s.job with blk := { s.job.blk with ckptInterval := n } } } h 0 0) :=
  (whenAlive_next (.checkpointInterval h n) s _ (by simpa [Instr.wf, hadm.1, fits] using hn) ha).trans
    (congrArg _ (gate_admitted s h false [4, 5] _ hadm hstate))

theorem exec_checkpointOnce (hstate : s.glob.jobState ∈ [4, 5]) :
    exec (.checkpointOnce h) s = .next (hold s h (.ckptOnce none)) :=
  (whenAlive_next (.checkpointOnce h) s _ hadm.1 ha).trans (congrArg _ (gate_admitted s h false [4, 5] _ hadm hstate))

end admitted

/-! ### PARAM_WRITE (R226) -/

/-- A list without its repeats is no longer than it was. -/
theorem length_eraseDups_le {α : Type} [BEq α] : (l : List α) → l.eraseDups.length ≤ l.length
  | [] => by simp
  | a :: as => by
    have hfilter : (as.filter (fun b => !b == a)).length ≤ as.length := List.length_filter_le _ as
    have hrest := length_eraseDups_le (as.filter (fun b => !b == a))
    rw [List.eraseDups_cons, List.length_cons, List.length_cons]
    omega
termination_by l => l.length
decreasing_by simp only [List.length_cons]; omega

/-- A write that is not late, while no frame runs, takes effect at once. -/
theorem opParamWrite_now {s : State} (h : Hdr) {w : ParamWrite} (hdue : s.job.step ≤ w.target) (hlive : s.frame.live = false) :
    opParamWrite s h w = complete (applyParam s w) h 0 0 := by
  simp [opParamWrite, Nat.not_lt.mpr hdue, hlive]

/-- While frames run it waits, where 4,095 or fewer do. -/
theorem opParamWrite_waits {s : State} (h : Hdr) {w : ParamWrite} (hdue : s.job.step ≤ w.target) (hlive : s.frame.live = true)
    (hroom : s.job.params.length < 4096) :
    opParamWrite s h w = { s with job := { s.job with params := s.job.params ++ [⟨h, .param w, false⟩] } } := by
  have hkeys : ((s.job.params.filterMap (fun x => x.op.paramKey)).eraseDups).length < 4096 :=
    lt_of_le_of_lt ((length_eraseDups_le _).trans (List.length_filterMap_le _ _)) hroom
  simp [opParamWrite, Nat.not_lt.mpr hdue, hlive, hkeys]

/-- The parameters that stand once a write has taken effect. -/
theorem complete_applyParam (s : State) (h : Hdr) (w : ParamWrite) (hgood : s.mem.bad = []) :
    let t := complete (applyParam s w) h 0 0
    (∀ f ∈ paramFields w, w.fields.testBit f.1 = true → peek t (groupAt s w.group + f.2.1) 4 = leBytes 4 f.2.2) ∧
      SameOutside s t (groupAt s w.group) 28 ∧ t.frame = s.frame ∧ t.job = s.job := by
  have hmem : (complete (applyParam s w) h 0 0).mem = (applyParam s w).mem ∧
      (complete (applyParam s w) h 0 0).frame = (applyParam s w).frame ∧
      (complete (applyParam s w) h 0 0).job = (applyParam s w).job := by
    obtain ⟨_, _, _, _, _, _, _, hdone⟩ := complete_reportOnly (applyParam s w) h 0 0
    rw [hdone]
    exact ⟨rfl, rfl, rfl⟩
  obtain ⟨hmem, hframe, hjob⟩ := hmem
  obtain ⟨_, _, _, _, _, _, _, hwritten⟩ := storeAll_written (paramRuns (groupAt s w.group) w) s
  refine ⟨fun f hf hbit => ?_, fun x hx => ?_, hframe.trans ?_, hjob.trans ?_⟩
  · have hstands := peek_storeAll _ s hgood (paramRuns_rise (groupAt s w.group) w) _ (mem_paramRuns hf hbit)
    rw [leBytes_length, ← applyParam_of_good s w hgood] at hstands
    rw [peek, hmem]
    exact hstands
  · rw [hmem, applyParam_of_good s w hgood]
    exact storeAll_outside _ s _ 28 (paramRuns_in _ w) x hx
  · rw [applyParam_of_good s w hgood, hwritten]
  · rw [applyParam_of_good s w hgood, hwritten]

/-- Settles O38: each descriptor passes the gate, and then takes effect, waits, or is late. -/
theorem jobDescriptorsTakeEffectOrWait : Obligations.JobDescriptorsTakeEffectOrWait := by
  unfold Obligations.JobDescriptorsTakeEffectOrWait
  intro s h n k dst src w ha hadm hjob hhost hn hk hdst hsrc hwf hok hgood hroom
  have hrun : s.glob.jobState ∈ [4, 5] := by simpa using hjob
  have hmeter : s.glob.jobState ∈ [3, 4, 5] := List.mem_cons_of_mem _ hrun
  have hbegin := exec_stepBegin ha hadm hmeter hn hk
  have hparam := exec_paramWrite ha hadm hmeter hwf hok
  refine ⟨fun hlive => ⟨?_, fun hdue => ?_, fun hal hin => ?_⟩, fun hlive => ⟨?_, fun hdue hfew => ?_⟩, fun hlate => ?_,
    exec_checkpointInterval ha hadm hrun hn, ?_⟩
  · rw [hbegin, if_neg (by simp [hlive])]
    rfl
  · obtain ⟨hfields, hout, hframe, hkept⟩ := complete_applyParam s h w hgood
    refine ⟨_, hparam.trans (congrArg _ (opParamWrite_now h hdue hlive)), fun hbit => ⟨?_, ?_⟩, fun hbit => ?_, fun hbit => ?_,
      fun hbit => ?_, fun hbit => ?_, hout, hframe, hkept⟩
    · exact hfields (0, 0, w.lr) (by simp [paramFields]) hbit
    · exact hfields (0, 24, w.target) (by simp [paramFields]) hbit
    · exact hfields (1, 4, w.beta1) (by simp [paramFields]) hbit
    · exact hfields (2, 8, w.beta2) (by simp [paramFields]) hbit
    · exact hfields (3, 12, w.eps) (by simp [paramFields]) hbit
    · exact hfields (4, 16, w.wd) (by simp [paramFields]) hbit
  · have hcell := exec_shapeCellWrite ha hadm (List.mem_cons_of_mem _ hmeter) hhost hdst hsrc hal hin
    have hlen : (hostPeek s src 64).length = 64 := readBytes_length _ _ _
    obtain ⟨_, _, _, _, _, _, _, hdone⟩ := complete_reportOnly (store s dst (hostPeek s src 64)) h 0 0
    obtain ⟨_, _, hstore⟩ := store_frame s dst (hostPeek s src 64)
    have hread := peek_store s dst (hostPeek s src 64) hgood
    have hout := store_outside s dst (hostPeek s src 64)
    rw [hlen] at hread hout
    rw [if_neg (by simp [hlive]), fwStore_of_good s _ _ hgood] at hcell
    refine ⟨_, hcell, ?_⟩
    rw [hdone]
    refine ⟨hread, hout, ?_⟩
    rw [hstore]
    exact ⟨rfl, rfl⟩
  · rw [hbegin, if_pos hlive, hold_room h _ hroom]
  · rw [hparam, opParamWrite_waits h hdue hlive hfew]
  · rw [hparam, opParamWrite, if_pos hlate]
  · rw [exec_checkpointOnce ha hadm hrun, hold_room h _ hroom]

end Sys2Proof.Machine
end

section
/-! SUPPORT. The session: how it opens, how it is adopted, and what its end leaves. -/

namespace Sys2Proof.Machine

open Sys2Proof

/-! ### Reports around a change of the job state (R290, R291) -/

/-- What has only been reported has been reported in any job state. -/
theorem Reported.inState {s t : State} (h : Reported s t) (n : Nat) :
    Reported { s with glob := { s.glob with jobState := n } } { t with glob := { t.glob with jobState := n } } := by
  obtain ⟨⟨_, _, _, _, _, _, _, rfl⟩, hsq, hport⟩ := h
  exact ⟨⟨_, _, _, _, _, _, _, rfl⟩, hsq, hport⟩

/-- A change of the job state is reported, and holds nothing back. -/
theorem setJobState_reported (s : State) (new : Nat) :
    Reported { s with glob := { s.glob with jobState := new } } (setJobState s new) := by
  unfold setJobState
  split
  case isTrue h => subst h; exact .refl s
  case isFalse => exact pushCq_reported _ _ _ _ _

/-- Hold conditions that have arisen abort entries, and concern power only (R335). -/
theorem recheckDrains_powerOnly (s : State) : PowerOnly s (recheckDrains s) := by
  refine .foldl _ (fun u n => ?_) _ s
  split
  · split
    · exact abortEntry_powerOnly u n _
    · exact .refl u
  · exact .refl u

/-! ### What a session waits for, at its end (R295, R298) -/

/-- Completions only report, and hold nothing back. -/
theorem completes_reported {α : Type} (f : State → α → State) (hf : ∀ u x, ∃ h status, f u x = complete u h status 0) (l : List α)
    (s : State) : Reported s (l.foldl f s) ∧ (l.foldl f s).rings.held = s.rings.held :=
  List.foldlRecOn (motive := fun t : State => Reported s t ∧ t.rings.held = s.rings.held) l f ⟨.refl s, rfl⟩
    (fun t ht x _ => by
      obtain ⟨h, status, hx⟩ := hf t x
      rw [hx]
      exact ⟨ht.1.trans (complete_reported t h status 0), (pushCq_held t _ _ _ _).trans ht.2⟩)

/-- All that is held is taken. -/
theorem takeHeld_all (s : State) : takeHeld s (fun _ => true) = (s.rings.held, { s with rings := { s.rings with held := [] } }) := by
  simp [takeHeld]

/-- What a session waits for ends with completions, and nothing is held any more. -/
theorem dropSession_frame (s : State) : ∃ u act xfers, Reported { s with rings := { s.rings with held := [] } } u ∧
    u.rings.held = [] ∧
    dropSession s = { u with actHdr := none, actQueue := [], act := act, fab := { u.fab with xfers := xfers } } := by
  obtain ⟨hheld, hnone⟩ := completes_reported (fun t (x : Held) => complete t x.hdr 0x19 0) (fun _ x => ⟨x.hdr, 0x19, rfl⟩)
    s.rings.held { s with rings := { s.rings with held := [] } }
  let v := completeAll { s with rings := { s.rings with held := [] } } s.rings.held 0x19
  obtain ⟨hacts, hkept⟩ := completes_reported (fun t (h : Hdr) => complete t h 0x19 0) (fun _ h => ⟨h, 0x19, rfl⟩)
    (v.actHdr.toList ++ v.actQueue.map (fun y => y.1)) v
  simp only [dropSession, takeHeld_all]
  exact ⟨_, _, _, hheld.trans hacts, hkept.trans hnone, rfl⟩

/-! ### CLAIM (R293 to R295) -/

/-- The job's registers under a session that has opened or adopted it. -/
def claimedJob (s : State) (h : Hdr) (major : Nat) : Job :=
  { s.job with session := h.owner, restricted := restrictedFor s major, driver := major }

/-- A session opens in a job state: what changes beside it is reported, or concerns the power core. -/
theorem openSession_frame (s : State) (h : Hdr) (major new : Nat) :
    ∃ u, Reported { s with job := claimedJob s h major, glob := { s.glob with jobState := new } } u ∧
      PowerOnly u (openSession s h major new) := by
  have hdone := complete_reported { s with job := claimedJob s h major } h (if restrictedFor s major then 0x13 else 0)
    (imgMajor ((imageOf s.boot.running 2).getD []) + imgMinor ((imageOf s.boot.running 2).getD []) * 2 ^ 16)
  exact ⟨_, (hdone.inState new).trans (setJobState_reported _ new), recheckDrains_powerOnly _⟩

/-- What a session that opens leaves alone, and the registers it sets. -/
theorem openSession_keeps (s : State) (h : Hdr) (major new : Nat) : let t := openSession s h major new
    t.glob = { s.glob with jobState := new } ∧ t.job = claimedJob s h major ∧ t.mem = s.mem ∧ t.frame = s.frame ∧
      t.folios = s.folios ∧ t.rings.sq = s.rings.sq := by
  obtain ⟨u, hreport, _, _, hpower⟩ := openSession_frame s h major new
  obtain ⟨_, _, _, _, _, _, _, hu⟩ := hreport.frame
  intro t
  have ht : t = _ := hpower
  have hsq : t.rings.sq = s.rings.sq := by
    rw [ht]
    exact hreport.sq
  rw [hu] at ht
  exact ⟨congrArg (·.glob) ht, congrArg (·.job) ht, congrArg (·.mem) ht, congrArg (·.frame) ht, congrArg (·.folios) ht, hsq⟩

section claim
variable {s : State} {h : Hdr} {major minor flags : Nat} (ha : alive s = true) (hwf : h.wf = true) (hflags : h.flags < 4)
  (hcq : h.cq < 4) (howner : h.owner ≠ 0) (hmajor : major < 65536) (hminor : minor < 65536) (hforce : flags < 2)
  (hdeg : degraded s = false) (hserved : schedAway s = false)
include ha hwf hflags hcq howner hmajor hminor hforce hdeg hserved

/-- A CLAIM that passes its header, by the state of the part. -/
theorem exec_claim (hup : s.glob.jobState ≠ 0) : exec (.claim h major minor flags) s = .next
    (if s.glob.jobState ≠ 1 && s.glob.jobState ≠ 6 then complete s h 0x12 0
     else if s.glob.jobState = 6 && h.owner ≠ s.job.session && !flags.testBit 0 then complete s h 0x12 0
     else if s.glob.jobState = 1 then openSession s h major 2
     else if h.owner = s.job.session then openSession s h major s.job.savedState
     else openSession (dropSession (endJob s)) h major 2) := by
  have hop : (Instr.claim h major minor flags).wf = true := by
    simp only [Instr.wf, hwf, fits, Bool.true_and, Bool.and_eq_true, decide_eq_true_eq]
    omega
  have hhead : headBad h = none := by simp [headBad, Nat.not_le.mpr hflags, Nat.not_le.mpr hcq]
  refine (whenAlive_next (.claim h major minor flags) s _ hop ha).trans (congrArg _ ?_)
  simp [runClaim, hdeg, hserved, hhead, hup, howner, firstOf, badIf, Nat.not_le.mpr hforce]

end claim

/-! ### RELEASE (R298) -/

/-- The session of a CLAIMED part ends with RELEASE. -/
theorem releaseNow_frame (s : State) (h : Hdr) : let t := releaseNow s h
    t.glob.jobState = 1 ∧ t.job = {} ∧ t.rings.held = [] ∧ t.cnt.userRead = false ∧ t.mem = s.mem ∧ t.frame = s.frame := by
  obtain ⟨u, act, xfers, hdropped, hheld, hdrop⟩ := dropSession_frame s
  obtain ⟨_, _, _, _, _, _, _, hu⟩ := hdropped.frame
  let v : State := { dropSession s with job := {}, cnt := { (dropSession s).cnt with userRead := false, pendUser := none } }
  obtain ⟨_, _, _, _, _, _, _, hidle⟩ := (setJobState_reported v 1).frame
  obtain ⟨_, _, _, _, _, _, _, hdone⟩ := (complete_reported (setJobState v 1) h 0 0).frame
  have hkept : (complete (setJobState v 1) h 0 0).rings.held = (dropSession s).rings.held :=
    (pushCq_held _ _ _ _ _).trans (setJobState_frame v 1).2
  intro t
  have ht : t = complete (setJobState v 1) h 0 0 := rfl
  refine ⟨?_, ?_, ?_, ?_, ?_, ?_⟩
  · rw [ht, hdone, hidle]
  · rw [ht, hdone, hidle]
  · rw [ht, hkept, hdrop]
    exact hheld
  · rw [ht, hdone, hidle]
  · rw [ht, hdone, hidle]
    show (dropSession s).mem = _
    rw [hdrop, hu]
  · rw [ht, hdone, hidle]
    show (dropSession s).frame = _
    rw [hdrop, hu]

/-- RELEASE of a CLAIMED session by its owner. -/
theorem exec_release {s : State} {h : Hdr} {flags : Nat} (ha : alive s = true) (hwf : h.wf = true) (hflags : h.flags < 4)
    (hcq : h.cq < 4) (hforce : flags < 2) (hdeg : degraded s = false) (hserved : schedAway s = false)
    (hstate : s.glob.jobState = 2) (howner : h.owner = s.job.session) : exec (.release h flags) s = .next (releaseNow s h) := by
  have hop : (Instr.release h flags).wf = true := by
    simp only [Instr.wf, hwf, fits, Bool.true_and, decide_eq_true_eq]
    omega
  have hhead : headBad h = none := by simp [headBad, Nat.not_le.mpr hflags, Nat.not_le.mpr hcq]
  refine (whenAlive_next (.release h flags) s _ hop ha).trans (congrArg _ ?_)
  simp [runRelease, gate, hdeg, hserved, hhead, hstate, howner, firstOf, badIf, Nat.not_le.mpr hforce]

/-- Settles O35: a CLAIM opens the session in the state it finds, and a RELEASE leaves nothing of it. -/
theorem sessionIsClaimedAndReleased : Obligations.SessionIsClaimedAndReleased := by
  unfold Obligations.SessionIsClaimedAndReleased
  intro s h major minor flags ha hwf hflags hcq howner hmajor hminor hforce hdeg hserved
  have hclaim := exec_claim ha hwf hflags hcq howner hmajor hminor hforce hdeg hserved
  refine ⟨fun hidle => ?_, fun horphaned hsession => ?_, fun hlo hhi => ?_, fun hclaimed hsession => ?_⟩
  · obtain ⟨hglob, hjob, hmem, hframe, hfolios, hsq⟩ := openSession_keeps s h major 2
    refine ⟨openSession s h major 2, (hclaim (by omega)).trans (by simp [hidle]), ?_, ?_, ?_, ?_, hmem, hframe, hfolios, hsq⟩
    · rw [hglob]
    all_goals rw [hjob]; rfl
  · obtain ⟨hglob, hjob, hmem, hframe, _⟩ := openSession_keeps s h major s.job.savedState
    refine ⟨openSession s h major s.job.savedState, (hclaim (by omega)).trans (by simp [horphaned, hsession]),
      ?_, ?_, ?_, ?_, hmem, hframe⟩
    · rw [hglob]
    all_goals rw [hjob]; rfl
  · rw [hclaim (by omega), if_pos (by simp; omega)]
  · exact ⟨_, exec_release ha hwf hflags hcq hforce hdeg hserved hclaimed hsession, releaseNow_frame s h⟩

end Sys2Proof.Machine
end

section
/-! SUPPORT. The end of a job: what stops, what comes on again, and what an activation that waited for it leaves alone. -/

namespace Sys2Proof.Machine

open Sys2Proof

/-! ### What an activation that settles leaves alone (R322 to R326) -/

/-- The Folios keep their bank masks. -/
def BanksKept (s t : State) : Prop := ∀ k, (folio t k).fbOn = (folio s k).fbOn ∧ (folio t k).wellOn = (folio s k).wellOn

theorem BanksKept.refl (s : State) : BanksKept s s := fun _ => ⟨rfl, rfl⟩

theorem BanksKept.trans {s t u : State} (h : BanksKept s t) (g : BanksKept t u) : BanksKept s u :=
  fun k => ⟨(g k).1.trans (h k).1, (g k).2.trans (h k).2⟩

theorem BanksKept.of_folios {s t : State} (h : t.folios = s.folios) : BanksKept s t := fun k => by simp only [folio, h, and_self]

/-- A Folio given an image keeps its bank masks. -/
theorem setFolio_image_banksKept (s : State) (n : Nat) (i : Option Image) :
    BanksKept s (setFolio s n { folio s n with image := i }) := by
  intro k
  by_cases hk : k = n
  · rw [hk, folio_setFolio]
    exact ⟨rfl, rfl⟩
  · rw [folio_setFolio_ne _ _ _ _ hk]
    exact ⟨rfl, rfl⟩

/-- Folios without images of their own keep their bank masks. -/
theorem tget_withoutImages (l : Tbl Folio) (k : Nat) (d : Folio) :
    (tget (l.map (fun x => (x.1, { x.2 with image := none }))) k d).fbOn = (tget l k d).fbOn ∧
      (tget (l.map (fun x => (x.1, { x.2 with image := none }))) k d).wellOn = (tget l k d).wellOn := by
  induction l with
  | nil => exact ⟨rfl, rfl⟩
  | cons x xs ih =>
    simp only [List.map_cons, tget]
    split
    · exact ⟨rfl, rfl⟩
    · exact ih

/-- What an activation that goes on may change: reports, the images and their bookkeeping, and a session's restriction. -/
structure Settling (s t : State) : Prop where
  frame : ∃ hostMem out pcie rings ports fab cnt act hdr queue boot folios word restricted, t = { s with
    hostMem := hostMem, out := out, pcie := pcie, rings := rings, ports := ports, fab := fab, cnt := cnt
    act := act, actHdr := hdr, actQueue := queue, boot := boot, folios := folios
    glob := { s.glob with agreement := word }, job := { s.job with restricted := restricted } }
  held : t.rings.held = s.rings.held
  banks : BanksKept s t

theorem Settling.refl (s : State) : Settling s s := ⟨⟨_, _, _, _, _, _, _, _, _, _, _, _, _, _, rfl⟩, rfl, .refl s⟩

theorem Settling.trans {s t u : State} (h : Settling s t) (g : Settling t u) : Settling s u := by
  obtain ⟨⟨_, _, _, _, _, _, _, _, _, _, _, _, _, _, hst⟩, hheld, hbanks⟩ := h
  obtain ⟨⟨_, _, _, _, _, _, _, _, _, _, _, _, _, _, htu⟩, hkept, hon⟩ := g
  refine ⟨?_, hkept.trans hheld, hbanks.trans hon⟩
  rw [htu, hst]
  exact ⟨_, _, _, _, _, _, _, _, _, _, _, _, _, _, rfl⟩

theorem Settling.foldl {α : Type} (f : State → α → State) (hf : ∀ u x, Settling u (f u x)) (l : List α) (s : State) :
    Settling s (l.foldl f s) :=
  List.foldlRecOn (motive := fun t : State => Settling s t) l f (.refl s) (fun t ht x _ => ht.trans (hf t x))

theorem complete_settling (s : State) (h : Hdr) (status data : Nat) : Settling s (complete s h status data) := by
  obtain ⟨⟨_, _, _, _, _, _, _, hdone⟩, hheld⟩ : ReportOnly s (complete s h status data) ∧ _ :=
    ⟨complete_reportOnly s h status data, pushCq_held s _ _ _ _⟩
  exact ⟨⟨_, _, _, _, _, _, _, _, _, _, _, _, _, _, hdone⟩, hheld, .of_folios (by rw [hdone])⟩

theorem endAct_settling (s : State) (status data : Nat) : Settling s (endAct s status data) := by
  have hended : Settling s { s with act := none, actHdr := none } :=
    ⟨⟨_, _, _, _, _, _, _, _, _, _, _, _, _, _, rfl⟩, rfl, .refl s⟩
  unfold endAct
  split
  · exact hended.trans (complete_settling _ _ status data)
  · exact hended

theorem reform_settling (s : State) : Settling s (reform s) := by
  unfold reform rejudge
  split <;> exact ⟨⟨_, _, _, _, _, _, _, _, _, _, _, _, _, _, rfl⟩, rfl, .refl s⟩

/-- The Folios run the image of the store again. -/
theorem oneImage_settling (s : State) (boot : Boot) : Settling s { s with
    boot := boot, folios := { s.folios with phys := s.folios.phys.map (fun x => (x.1, { x.2 with image := none })) } } :=
  ⟨⟨_, _, _, _, _, _, _, _, _, _, _, _, _, _, rfl⟩, rfl, fun k => tget_withoutImages s.folios.phys k (Folio.dflt k)⟩

theorem giveImage_settling (i : Image) (s : State) (n : Nat) : Settling s (giveImage i s n) := by
  have hgiven : Settling s (setFolio s n { folio s n with image := some i }) :=
    ⟨⟨_, _, _, _, _, _, _, _, _, _, _, _, _, _, rfl⟩, rfl, setFolio_image_banksKept s n (some i)⟩
  unfold giveImage
  dsimp only
  split
  · exact hgiven.trans (oneImage_settling _ _)
  · exact hgiven

/-- An activation moves on, with the images staged, running and waiting. -/
theorem act_settling (s : State) (act : Option Activation) (hdr : Option Hdr) (queue : List (Hdr × Activation)) (boot : Boot) :
    Settling s { s with act := act, actHdr := hdr, actQueue := queue, boot := boot } :=
  ⟨⟨_, _, _, _, _, _, _, _, _, _, _, _, _, _, rfl⟩, rfl, .refl s⟩

theorem unstage_settling (s : State) (c : Nat) : Settling s (unstage s c) := act_settling s s.act s.actHdr s.actQueue _

theorem rollOn_settling (s : State) (a : Activation) (n : Nat) : Settling s (rollOn s a n) := by
  unfold rollOn
  split
  · exact act_settling s _ s.actHdr s.actQueue s.boot
  · exact (unstage_settling s 3).trans (endAct_settling _ 0 0)

/-- What follows a cluster image on its Folio: the next Folio, or the end. -/
theorem afterImage_settling (s : State) (a : Activation) (n : Nat) :
    Settling s (if a.rolling then rollOn s a n else endAct (unstage s 3) 0 0) := by
  split
  · exact rollOn_settling s a n
  · exact (unstage_settling s 3).trans (endAct_settling _ 0 0)

theorem finishAct_settling (s : State) (a : Activation) : Settling s (finishAct s a) := by
  unfold finishAct
  split
  · split
    · exact act_settling s _ s.actHdr s.actQueue s.boot
    · exact ((oneImage_settling s { s.boot with running := a.imgs, staged := [] }).trans (reform_settling _)).trans
        (endAct_settling _ 0 0)
  · split
    · have hrun := (act_settling s s.act s.actHdr s.actQueue
        { s.boot with running := tput s.boot.running a.core (a.image a.core) }).trans (unstage_settling _ a.core)
      refine Settling.trans ?_ (endAct_settling _ 0 0)
      split
      · exact hrun.trans (reform_settling _)
      · exact hrun
    · exact ((giveImage_settling (a.image 3) s a.target).trans (reform_settling _)).trans
        (afterImage_settling _ { a with updated := a.updated + 1 } a.target)

theorem armAct_settling (s : State) (a : Activation) : Settling s (armAct s a) := by
  unfold armAct passIdle
  split
  · exact act_settling s _ s.actHdr s.actQueue s.boot
  split
  · exact .refl s
  split
  · exact ((giveImage_settling (a.image 3) s a.target).trans (reform_settling _)).trans (afterImage_settling _ a a.target)
  split
  · exact (reform_settling s).trans (endAct_settling _ _ _)
  · exact act_settling s _ s.actHdr s.actQueue s.boot

theorem seamAct_settling (s : State) : Settling s (seamAct s) := by
  unfold seamAct
  split
  · exact .refl s
  split
  · exact armAct_settling s _
  split
  · exact act_settling s _ s.actHdr s.actQueue s.boot
  split
  · exact finishAct_settling s _
  · exact .refl s

theorem beginRolling_settling (s : State) (a : Activation) : Settling s (beginRolling s a) := by
  have hidle := Settling.foldl (giveImage (a.image 3)) (giveImage_settling (a.image 3))
    ((List.range 68).filter (fun n => (folio s n).state ≠ 0)) s
  unfold beginRolling
  dsimp only
  split
  · exact ((hidle.trans (unstage_settling _ 3)).trans (reform_settling _)).trans (endAct_settling _ 0 0)
  · exact hidle.trans (act_settling _ _ _ _ _)

theorem nextAct_settling (s : State) : Settling s (nextAct s) := by
  unfold nextAct
  split
  next h a rest _ _ =>
    have hfirst := act_settling s (some a) (some h) rest s.boot
    split
    · exact hfirst.trans (beginRolling_settling _ _)
    · exact hfirst
  next => exact .refl s

theorem settleAct_settling (s : State) : Settling s (settleAct s) := by
  unfold settleAct
  split
  · exact nextAct_settling s
  · exact .foldl _ (fun u _ => (nextAct_settling u).trans (seamAct_settling _)) _ s

/-! ### What stops and comes on again with an END (R297) -/

theorem applyRemaps_frame (s : State) :
    ∃ free mem folios, applyRemaps s = { s with free := free, mem := mem, folios := folios } :=
  List.foldlRecOn (motive := fun t : State => ∃ free mem folios, t = { s with free := free, mem := mem, folios := folios })
    s.folios.remaps remapFolio ⟨_, _, _, rfl⟩ (fun t ht x _ => by
      obtain ⟨_, _, _, rfl⟩ := ht
      exact ⟨_, _, _, rfl⟩)

theorem changeSource_frame (s : State) (v : Nat) (inJob : Bool) : ∃ time cnt power i3c, changeSource s v inJob =
    { s with time := time, cnt := cnt, power := power, i3c := i3c } := by
  let t : State := { s with
    time.source := v % 4, time.sourceLane := fld v 8 7, time.pendSource := none, time.exch := none,
    time.good := 0, time.bad := 0, time.missed := 0 }
  obtain ⟨_, _, hdrains⟩ := recheckDrains_powerOnly (setTimeState t (if inJob then 3 else 0))
  obtain ⟨_, htime⟩ := setTimeState_frame t (if inJob then 3 else 0)
  have hset : changeSource s v inJob = recheckDrains (setTimeState t (if inJob then 3 else 0)) := rfl
  rw [hset, hdrains, htime]
  exact ⟨_, _, _, _, rfl⟩

theorem closeAts_frame (l : List Nat) (s : State) : ∃ fab, l.foldl closeAt s = { s with fab := fab } :=
  List.foldlRecOn (motive := fun t : State => ∃ fab, t = { s with fab := fab }) l closeAt ⟨_, rfl⟩ (fun t ht w _ => by
    obtain ⟨_, rfl⟩ := ht
    unfold closeAt
    split <;> exact ⟨_, rfl⟩)

theorem allBanksOn_frame (s : State) : ∃ folios, allBanksOn s = { s with folios := folios } :=
  List.foldlRecOn (motive := fun t : State => ∃ folios, t = { s with folios := folios }) (List.range 68) _ ⟨_, rfl⟩
    (fun t ht n _ => by
      obtain ⟨_, rfl⟩ := ht
      exact ⟨_, rfl⟩)

/-- The bank masks of one Folio. -/
def maskFolio (fb well : Nat) (s : State) (n : Nat) : State := setFolio s n { folio s n with fbOn := fb, wellOn := well }

theorem folio_maskFolio (fb well : Nat) (s : State) (n k : Nat) :
    folio (maskFolio fb well s n) k = if k = n then { folio s n with fbOn := fb, wellOn := well } else folio s k := by
  split
  case isTrue h => rw [h, maskFolio, folio_setFolio]
  case isFalse h => rw [maskFolio, folio_setFolio_ne _ _ _ _ h]

/-- Folios that are masked in turn have the masks, and so has one that had them before. -/
theorem folio_maskFolios (fb well : Nat) (l : List Nat) (s : State) (k : Nat)
    (h : k ∈ l ∨ ((folio s k).fbOn = fb ∧ (folio s k).wellOn = well)) :
    (folio (l.foldl (maskFolio fb well) s) k).fbOn = fb ∧ (folio (l.foldl (maskFolio fb well) s) k).wellOn = well := by
  induction l generalizing s with
  | nil => exact h.resolve_left List.not_mem_nil
  | cons n ns ih =>
    refine ih _ ?_
    rw [folio_maskFolio]
    split
    case isTrue => exact .inr ⟨rfl, rfl⟩
    case isFalse hkn => exact h.imp_left (fun hmem => (List.mem_cons.mp hmem).resolve_left hkn)

/-- A change of TIME_SOURCE that waits for the job's end is made (R303). -/
def takeSource (s : State) : State := match s.time.pendSource with | some v => changeSource s v false | none => s

theorem takeSource_frame (s : State) :
    ∃ time cnt power i3c, takeSource s = { s with time := time, cnt := cnt, power := power, i3c := i3c } := by
  unfold takeSource
  split
  · exact changeSource_frame s _ false
  · exact ⟨_, _, _, _, rfl⟩

/-- The job stopped, before what it held is answered. -/
def stoppedJob (s : State) : State :=
  let t := takeSource (stopFrames (applyRemaps s))
  allBanksOn (t.job.opened.foldl closeAt t)

/-- Parts of the state that the stop of a job may touch. -/
def Stopping (s t : State) : Prop := ∃ free hostMem out pcie rings ports fab cnt mem folios time power i3c flt, t = { s with
  free := free, hostMem := hostMem, out := out, pcie := pcie, rings := rings, ports := ports, fab := fab, cnt := cnt
  mem := mem, folios := folios, time := time, power := power, i3c := i3c, flt := flt }

theorem Stopping.trans {s t u : State} (h : Stopping s t) (g : Stopping t u) : Stopping s u := by
  obtain ⟨_, _, _, _, _, _, _, _, _, _, _, _, _, _, rfl⟩ := h
  obtain ⟨_, _, _, _, _, _, _, _, _, _, _, _, _, _, rfl⟩ := g
  exact ⟨_, _, _, _, _, _, _, _, _, _, _, _, _, _, rfl⟩

/-- The stop of the frames of a job whose remaps have been made. -/
theorem framesStopping (s : State) : Stopping (framesStopped s) (stopFrames (applyRemaps s)) := by
  obtain ⟨⟨_, _, _, _, _, _, _, hstop⟩, _⟩ := stopFrames_frame (applyRemaps s)
  obtain ⟨_, _, _, hremap⟩ := applyRemaps_frame s
  rw [hstop, hremap]
  exact ⟨_, _, _, _, _, _, _, _, _, _, _, _, _, _, rfl⟩

/-- A step of the stop that leaves the rings and memory alone. -/
def StoppingQuietly (s t : State) : Prop := Stopping s t ∧ t.rings = s.rings ∧ t.mem = s.mem

theorem StoppingQuietly.trans {s t u : State} (h : StoppingQuietly s t) (g : StoppingQuietly t u) : StoppingQuietly s u :=
  ⟨h.1.trans g.1, g.2.1.trans h.2.1, g.2.2.trans h.2.2⟩

theorem takeSource_quietly (s : State) : StoppingQuietly s (takeSource s) := by
  obtain ⟨_, _, _, _, hsource⟩ := takeSource_frame s
  rw [hsource]
  exact ⟨⟨_, _, _, _, _, _, _, _, _, _, _, _, _, _, rfl⟩, rfl, rfl⟩

theorem closeAts_quietly (l : List Nat) (s : State) : StoppingQuietly s (l.foldl closeAt s) := by
  obtain ⟨_, hclose⟩ := closeAts_frame l s
  rw [hclose]
  exact ⟨⟨_, _, _, _, _, _, _, _, _, _, _, _, _, _, rfl⟩, rfl, rfl⟩

theorem allBanksOn_quietly (s : State) : StoppingQuietly s (allBanksOn s) := by
  obtain ⟨_, hbanks⟩ := allBanksOn_frame s
  rw [hbanks]
  exact ⟨⟨_, _, _, _, _, _, _, _, _, _, _, _, _, _, rfl⟩, rfl, rfl⟩

/-- What is held waits for its answer, and memory is as it was where no remap waits. -/
theorem stoppedJob_frame (s : State) : Stopping (framesStopped s) (stoppedJob s) ∧ (stoppedJob s).rings.held = s.rings.held ∧
    (s.folios.remaps = [] → (stoppedJob s).mem = s.mem) := by
  obtain ⟨hon, hrings, hmem⟩ := ((takeSource_quietly (stopFrames (applyRemaps s))).trans (closeAts_quietly _ _)).trans
    (allBanksOn_quietly _)
  obtain ⟨⟨_, _, _, _, _, _, _, hstop⟩, hheld⟩ := stopFrames_frame (applyRemaps s)
  obtain ⟨_, _, _, hremap⟩ := applyRemaps_frame s
  refine ⟨(framesStopping s).trans hon, ?_, fun hnone => hmem.trans ?_⟩
  · exact ((congrArg (·.held) hrings).trans hheld).trans (congrArg (·.rings.held) hremap)
  · exact (congrArg (·.mem) hstop).trans (congrArg (·.mem) (applyRemaps_none s hnone))

/-- Every bank of a stopped job is on. -/
theorem stoppedJob_banks (s : State) {k : Nat} (hk : k < 68) :
    (folio (stoppedJob s) k).fbOn = 2 ^ 64 - 1 ∧ (folio (stoppedJob s) k).wellOn = 2 ^ 16 - 1 := by
  unfold stoppedJob allBanksOn
  exact folio_maskFolios _ _ (List.range 68) _ k (.inl (List.mem_range.mpr hk))

/-- What is held of the job, answered with BUSY. -/
def answerJob (s : State) : State :=
  let x := takeHeld s HeldOp.ofJob
  completeAll (completeAll x.2 x.1 0x19) s.job.params 0x19

/-- Nothing of the job is held any more. -/
def withoutJobHeld (s : State) : State :=
  { s with rings := { s.rings with held := s.rings.held.filter (fun x => !HeldOp.ofJob x.op) } }

/-- Completions that only report, twice. -/
theorem completeAll_completeAll_frame (s : State) (l m : List Held) (status : Nat) :
    ReportOnly s (completeAll (completeAll s l status) m status) ∧
      (completeAll (completeAll s l status) m status).rings.held = s.rings.held := by
  obtain ⟨hfirst, hkept⟩ := completeAll_frame s l status
  obtain ⟨hparams, hheld⟩ := completeAll_frame (completeAll s l status) m status
  exact ⟨hfirst.trans hparams, hheld.trans hkept⟩

/-- The held descriptors of the job are answered; of the rest only reports change. -/
theorem answerJob_frame (s : State) : ReportOnly (withoutJobHeld s) (answerJob s) ∧
    (answerJob s).rings.held = s.rings.held.filter (fun x => !HeldOp.ofJob x.op) :=
  completeAll_completeAll_frame (withoutJobHeld s) (takeHeld s HeldOp.ofJob).1 s.job.params 0x19

/-- The registers of a part whose job has ended. -/
def endedJob (t : State) : State := { t with
  glob.stackUse := 0xFF
  job := { session := t.job.session, restricted := t.job.restricted, driver := t.job.driver }
  train := {}, experts := {}, scan.asked := none, fab.xfers := t.fab.xfers.filter (fun x => !ckptXfer x)
  frame := { t.frame with current := none, next := none, aborted := false, exceeded := false } }

theorem endJob_eq (s : State) : endJob s = settleAct (setJobState (endedJob (answerJob (stoppedJob s))) 2) := by
  unfold endJob
  extract_lets t u v x w
  have hv : v = stoppedJob s := rfl
  have hw : w = answerJob v := rfl
  clear_value w v
  rw [← hv, ← hw]
  rfl

/-- The state of a part whose job has ended, before an activation that waited for the end settles. -/
def idleJob (s : State) : State := setJobState (endedJob (answerJob (stoppedJob s))) 2

/-- The job's registers once only its session is left. -/
def Job.ended (j : Job) : Job := { session := j.session, restricted := j.restricted, driver := j.driver }

/-- What the end of a job touches beside what its stop has touched: reports, and the registers of the job. -/
def EndedFrom (v t : State) : Prop := ∃ hostMem out pcie rings ports fab cnt scan, t = { v with
  glob := { v.glob with stackUse := 0xFF, jobState := 2 }
  job := v.job.ended, train := {}, experts := {}, scan := scan
  frame := { v.frame with current := none, next := none, aborted := false, exceeded := false }
  hostMem := hostMem, out := out, pcie := pcie, rings := rings, ports := ports, fab := fab, cnt := cnt }

theorem EndedFrom.of_reports {v a w : State} (hanswer : ReportOnly (withoutJobHeld v) a)
    (hset : ReportOnly { endedJob a with glob.jobState := 2 } w) : EndedFrom v w := by
  obtain ⟨_, _, _, _, _, _, _, rfl⟩ := hset
  obtain ⟨_, _, _, _, _, _, _, rfl⟩ := hanswer
  exact ⟨_, _, _, _, _, _, _, _, rfl⟩

theorem endedJob_held (a : State) : (endedJob a).rings.held = a.rings.held := rfl

theorem idleJob_endedFrom (s : State) : EndedFrom (stoppedJob s) (idleJob s) :=
  .of_reports (answerJob_frame (stoppedJob s)).1 (setJobState_frame (endedJob (answerJob (stoppedJob s))) 2).1

theorem idleJob_held (s : State) : (idleJob s).rings.held = s.rings.held.filter (fun x => !HeldOp.ofJob x.op) := by
  rw [idleJob, (setJobState_frame _ 2).2, endedJob_held, (answerJob_frame _).2, (stoppedJob_frame s).2.1]

/-- What the end of a job sets: CLAIMED, with nothing of the job but its session. -/
structure JobEnded (s t : State) : Prop where
  state : t.glob.jobState = 2 ∧ t.glob.stackUse = 0xFF
  job : t.job.session = s.job.session ∧ t.job.blk = {} ∧ t.job.step = 0 ∧ t.train = {} ∧ t.ductus = s.ductus
  frame : t.frame.live = false ∧ t.frame.current = none ∧ t.frame.prog = []
  held : t.rings.held = s.rings.held.filter (fun x => !HeldOp.ofJob x.op)
  banks : ∀ k, k < 68 → (folio t k).fbOn = 2 ^ 64 - 1 ∧ (folio t k).wellOn = 2 ^ 16 - 1

/-- What settles, and what only reports, leaves a job ended. -/
theorem JobEnded.settle {s t u : State} (h : JobEnded s t) (g : Settling t u) : JobEnded s u := by
  obtain ⟨⟨_, _, _, _, _, _, _, _, _, _, _, _, _, _, hframe⟩, hheld, hbanks⟩ := g
  refine ⟨?_, ?_, ?_, hheld.trans h.held, fun k hk => ⟨(hbanks k).1.trans (h.banks k hk).1, (hbanks k).2.trans (h.banks k hk).2⟩⟩
  · rw [hframe]
    exact h.state
  · rw [hframe]
    exact h.job
  · rw [hframe]
    exact h.frame

theorem idleJob_ended (s : State) : JobEnded s (idleJob s) := by
  have hidle := idleJob_endedFrom s
  have hheld := idleJob_held s
  obtain ⟨hstop, _⟩ := stoppedJob_frame s
  have hbanks : ∀ k, k < 68 → _ := fun k hk => stoppedJob_banks s (k := k) hk
  generalize idleJob s = t at hidle hheld ⊢
  generalize stoppedJob s = v at hidle hstop hbanks
  obtain ⟨_, _, _, _, _, _, _, _, rfl⟩ := hidle
  obtain ⟨_, _, _, _, _, _, _, _, _, _, _, _, _, _, rfl⟩ := hstop
  exact ⟨⟨rfl, rfl⟩, ⟨rfl, rfl, rfl, rfl, rfl⟩, ⟨rfl, rfl, rfl⟩, hheld, hbanks⟩

/-- With no remap, no change of the source and no activation that waits, the end of a job leaves memory and images alone. -/
theorem endJob_quiet (s : State) (hremaps : s.folios.remaps = []) (hact : s.act = none) (hqueue : s.actQueue = []) :
    (endJob s).mem = s.mem ∧ (endJob s).boot = s.boot := by
  have hidle := idleJob_endedFrom s
  obtain ⟨hstop, _, hmem⟩ := stoppedJob_frame s
  have hkept := hmem hremaps
  have hend : endJob s = settleAct (idleJob s) := endJob_eq s
  rw [hend]
  generalize idleJob s = t at hidle ⊢
  generalize stoppedJob s = v at hidle hstop hkept
  obtain ⟨_, _, _, _, _, _, _, _, rfl⟩ := hidle
  rw [settleAct_none]
  · refine ⟨hkept, ?_⟩
    obtain ⟨_, _, _, _, _, _, _, _, _, _, _, _, _, _, rfl⟩ := hstop
    rfl
  · obtain ⟨_, _, _, _, _, _, _, _, _, _, _, _, _, _, rfl⟩ := hstop
    exact hact
  · obtain ⟨_, _, _, _, _, _, _, _, _, _, _, _, _, _, rfl⟩ := hstop
    exact hqueue

/-- The end of a job, whatever activation waited for it. -/
theorem endJob_ended (s : State) : JobEnded s (endJob s) := by
  rw [endJob_eq]
  exact (idleJob_ended s).settle (settleAct_settling _)

/-! ### PAUSE, RESUME and END (R297) -/

/-- A taking of held descriptors of which there are none. -/
theorem takeHeld_none (s : State) (p : HeldOp → Bool) (h : ∀ x ∈ s.rings.held, p x.op = false) : takeHeld s p = ([], s) := by
  have htaken : s.rings.held.filter (fun x => p x.op) = [] := List.filter_eq_nil_iff.mpr (fun x hx => by simp [h x hx])
  have hleft : s.rings.held.filter (fun x => !p x.op) = s.rings.held :=
    List.filter_eq_self.mpr (fun x hx => by simp [h x hx])
  rw [takeHeld, htaken, hleft]

section admitted
variable {s : State} {h : Hdr} (ha : alive s = true) (hadm : Admitted s h) (hstate : s.glob.jobState ∈ [4, 5])
include ha hadm hstate

theorem exec_jobPause {n : Nat} (hn : n < 2 ^ 32) : exec (.jobPause h n) s = .next
    (if s.glob.jobState = 5 && n = s.job.step then complete s h 0 0
     else if n ≤ s.job.step then complete s h 0x18 0 else hold s h (.pause n)) :=
  (whenAlive_next (.jobPause h n) s _ (by simpa [Instr.wf, hadm.1, fits] using hn) ha).trans
    (congrArg _ (gate_admitted s h false [4, 5] _ hadm hstate))

theorem exec_jobEnd : exec (.jobEnd h) s = .next (if s.glob.jobState = 5 then complete (endJob s) h 0 0 else hold s h .jobEnd) :=
  (whenAlive_next (.jobEnd h) s _ hadm.1 ha).trans (congrArg _ (gate_admitted s h false [4, 5] _ hadm hstate))

/-- A RESUME that no other RESUME waits before. -/
theorem exec_jobResume {f : Nat} (hf : f < 2 ^ 48) (hnone : s.glob.jobState = 5 → laterFrame f (currentFrame s) = true →
    ∀ x ∈ s.rings.held, ∀ g, x.op ≠ .resume g) : exec (.jobResume h f) s = .next
    (if s.glob.jobState ≠ 5 then complete s h 0x19 0
     else if !laterFrame f (currentFrame s) then complete s h 0x18 0 else hold s h (.resume f)) := by
  have hwf : (Instr.jobResume h f).wf = true := by
    simp only [Instr.wf, hadm.1, fits, Bool.true_and, decide_eq_true_eq]
    omega
  have hbad : firstOf [none, hiAt 24 f] = none := by simp [firstOf, hiAt_of_lt 24 hf]
  refine (whenAlive_next (.jobResume h f) s _ hwf ha).trans (congrArg _ ?_)
  rw [runJobResume, hbad]
  refine (gate_admitted s h false [4, 5] _ hadm hstate).trans ?_
  split
  · rfl
  split
  · rfl
  case isFalse.isFalse hpaused hlater =>
    have hkeep := hnone (by simpa using hpaused) (by simpa using hlater)
    dsimp only
    rw [takeHeld_none s _ (fun x hx => ?_)]
    · rfl
    · have hop := hkeep x hx
      split
      next g heq => exact absurd heq (hop g)
      next => rfl

end admitted

/-- Settles O39: a PAUSE or a RESUME that is not late waits, and END of a paused job leaves nothing of it. -/
theorem jobPausesResumesAndEnds : Obligations.JobPausesResumesAndEnds := by
  unfold Obligations.JobPausesResumesAndEnds
  intro s h n f ha hadm hhost hn hf hroom
  refine ⟨fun hrun => ?_, fun hpaused => ?_⟩
  · have hstate : s.glob.jobState ∈ [4, 5] := by simp [hrun]
    refine ⟨fun hlater => ?_, fun hlate => ?_, ?_, ?_⟩
    · rw [exec_jobPause ha hadm hstate hn, if_neg (by simp [hrun]), if_neg (Nat.not_le.mpr hlater), hold_room h _ hroom]
    · rw [exec_jobPause ha hadm hstate hn, if_neg (by simp [hrun]), if_pos hlate]
    · rw [exec_jobEnd ha hadm hstate, if_neg (by simp [hrun]), hold_room h _ hroom]
    · rw [exec_jobResume ha hadm hstate hf (by simp [hrun]), if_pos (by simp [hrun])]
  · have hstate : s.glob.jobState ∈ [4, 5] := by simp [hpaused]
    refine ⟨fun hnow => ?_, fun hlate => ?_, fun hlater hnone => ?_, ?_⟩
    · rw [exec_jobPause ha hadm hstate hn, if_pos (by simp [hpaused, hnow])]
    · rw [exec_jobResume ha hadm hstate hf (by simp [hlate]), if_neg (by simp [hpaused]), if_pos (by simp [hlate])]
    · rw [exec_jobResume ha hadm hstate hf (fun _ _ => hnone), if_neg (by simp [hpaused]), if_neg (by simp [hlater]),
        hold_room h _ hroom]
    · obtain ⟨⟨hjob, huse⟩, ⟨hsession, hblk, hstep, htrain, hductus⟩, ⟨hlive, hcurrent, hprog⟩, hheld, hbanks⟩ :=
        (endJob_ended s).settle (complete_settling (endJob s) h 0 0)
      refine ⟨complete (endJob s) h 0 0, (exec_jobEnd ha hadm hstate).trans (by rw [if_pos hpaused]), hjob, hsession, hblk, hstep,
        hlive, hcurrent, hprog, htrain, huse, hbanks, fun x hx => ?_, hductus, fun hremaps _ hact hqueue => ?_⟩
      · rw [hheld] at hx
        simpa using (List.mem_filter.mp hx).2
      · obtain ⟨hmem, hboot⟩ := endJob_quiet s hremaps hact hqueue
        obtain ⟨_, _, _, _, _, _, _, hdone⟩ := complete_reportOnly (endJob s) h 0 0
        exact ⟨(congrArg (·.mem) hdone).trans hmem, (congrArg (·.boot) hdone).trans hboot⟩

end Sys2Proof.Machine
end

section
/-! SUPPORT. The start of a job: what the acceptance of its block sets, and what else it touches. -/

namespace Sys2Proof.Machine

open Sys2Proof

/-! ### Lines that fail under a write of the scheduler core (R195) -/

/-- What a write of the scheduler core may touch: memory, reports, and the frame and rollback of a job that it breaks. -/
structure Storing (s t : State) : Prop where
  frame : ∃ hostMem out pcie rings ports fab cnt mem flt train frame, t = { s with
    hostMem := hostMem, out := out, pcie := pcie, rings := rings, ports := ports, fab := fab, cnt := cnt
    mem := mem, flt := flt, train := train, frame := frame }
  sq : t.rings.sq = s.rings.sq

theorem Storing.refl (s : State) : Storing s s := ⟨⟨_, _, _, _, _, _, _, _, _, _, _, rfl⟩, rfl⟩

theorem Storing.trans {s t u : State} (h : Storing s t) (g : Storing t u) : Storing s u := by
  obtain ⟨⟨_, _, _, _, _, _, _, _, _, _, _, hst⟩, hsq⟩ := h
  obtain ⟨⟨_, _, _, _, _, _, _, _, _, _, _, htu⟩, hkept⟩ := g
  refine ⟨?_, hkept.trans hsq⟩
  rw [htu, hst]
  exact ⟨_, _, _, _, _, _, _, _, _, _, _, rfl⟩

theorem raiseFault_storing (s : State) (r : FaultRec) : Storing s (raiseFault s r) := by
  have hreport := raiseFault_reported s r
  obtain ⟨_, _, _, _, _, _, _, hframe⟩ := hreport.frame
  exact ⟨⟨_, _, _, _, _, _, _, _, _, _, _, hframe⟩, hreport.sq⟩

theorem haltFrame_storing (s : State) : Storing s (haltFrame s) := ⟨⟨_, _, _, _, _, _, _, _, _, _, _, rfl⟩, rfl⟩

theorem requestRollback_storing (s : State) (flags code : Nat) : Storing s (requestRollback s flags code) := by
  obtain ⟨_, _, _, hwire⟩ := requestRollback_wireOnly s flags code
  rw [hwire]
  exact ⟨⟨_, _, _, _, _, _, _, _, _, _, _, rfl⟩, rfl⟩

theorem abortWith_storing (s : State) (r : FaultRec) (force : Bool) : Storing s (abortWith s r force) := by
  unfold abortWith
  split
  · exact ((raiseFault_storing s _).trans (haltFrame_storing _)).trans (requestRollback_storing _ _ _)
  split
  · exact raiseFault_storing s _
  split
  · exact (raiseFault_storing s _).trans (requestRollback_storing _ _ _)
  · exact raiseFault_storing s _

theorem lineError_storing (s : State) (l : Nat) : Storing s (lineError s l) := by
  unfold lineError lineErrorBy
  split
  · exact abortWith_storing s _ false
  · exact raiseFault_storing s _

theorem fwStore_storing (s : State) (a : Nat) (bs : List Byte) : Storing s (fwStore s a bs) := by
  obtain ⟨_, _, hstore⟩ := store_frame s a bs
  refine List.foldlRecOn (motive := Storing s) _ lineError ?_ (fun t ht l _ => ht.trans (lineError_storing t l))
  rw [hstore]
  exact ⟨⟨_, _, _, _, _, _, _, _, _, _, _, rfl⟩, rfl⟩

/-! ### The map and the banks of a job (R18, R190) -/

/-- What the map and the banks of a job touch; a Folio that is ACTIVE stays so. -/
structure Mapping (s t : State) : Prop where
  frame : ∃ free mem folios power i3c fab,
    t = { s with free := free, mem := mem, folios := folios, power := power, i3c := i3c, fab := fab }
  active : ∀ n, (folio s n).state = 0 → (folio t n).state = 0

theorem Mapping.refl (s : State) : Mapping s s := ⟨⟨_, _, _, _, _, _, rfl⟩, fun _ h => h⟩

theorem Mapping.trans {s t u : State} (h : Mapping s t) (g : Mapping t u) : Mapping s u := by
  obtain ⟨⟨_, _, _, _, _, _, hst⟩, hactive⟩ := h
  obtain ⟨⟨_, _, _, _, _, _, htu⟩, hstays⟩ := g
  refine ⟨?_, fun n hn => hstays n (hactive n hn)⟩
  rw [htu, hst]
  exact ⟨_, _, _, _, _, _, rfl⟩

theorem Mapping.foldl {α : Type} (f : State → α → State) (hf : ∀ u x, Mapping u (f u x)) (l : List α) (s : State) :
    Mapping s (l.foldl f s) :=
  List.foldlRecOn (motive := Mapping s) l f (.refl s) (fun t ht x _ => ht.trans (hf t x))

/-- A spare that becomes ACTIVE. -/
theorem setFolioState_mapping (s : State) (n : Nat) : Mapping s (setFolioState s n 0) := by
  obtain ⟨_, _, hvote⟩ := setFolioState_powerOnly s n 0
  rw [hvote]
  refine ⟨⟨_, _, _, _, _, _, rfl⟩, fun k hk => ?_⟩
  show (folio (putState s n 0) k).state = 0
  by_cases hkn : k = n
  · rw [hkn, putState, folio_setFolio]
  · rw [putState, folio_setFolio_ne _ _ _ _ hkn, hk]

theorem fillDie_mapping (s : State) (d : Nat) : Mapping s (fillDie s d) := .foldl _ setFolioState_mapping _ s

theorem forget_mapping (s : State) (lo hi : Nat) (group : Option (Nat × Nat)) : Mapping s (forget s lo hi group) :=
  ⟨⟨_, _, _, _, _, _, rfl⟩, fun _ h => h⟩

theorem forgetFolio_mapping (s : State) (l : Nat) : Mapping s (forgetFolio s l) := forget_mapping s _ _ none

theorem mapFolios_mapping (s : State) : Mapping s (mapFolios s) := ⟨⟨_, _, _, _, _, _, rfl⟩, fun _ h => h⟩

theorem waiting_mapping (s : State) (ls : List Nat) : Mapping s { s with folios := { s.folios with waiting := ls } } :=
  ⟨⟨_, _, _, _, _, _, rfl⟩, fun _ h => h⟩

theorem mapForJob_mapping (s : State) : Mapping s (mapForJob s) := by
  have hfill := Mapping.foldl fillDie fillDie_mapping (List.range 4) s
  unfold mapForJob
  generalize (List.range 4).foldl fillDie s = t at hfill ⊢
  exact ((hfill.trans (mapFolios_mapping t)).trans (waiting_mapping _ _)).trans (.foldl forgetFolio forgetFolio_mapping _ _)

theorem openMirror_mapping (s : State) (b : JobBlock) (ckpt : Nat) : Mapping s (openMirror s b ckpt) :=
  ⟨⟨_, _, _, _, _, _, rfl⟩, fun _ h => h⟩

theorem forgetBanks_mapping (s : State) (fb well : Nat) : Mapping s (forgetBanks s fb well) :=
  .foldl _ (fun u _ => .foldl _ (fun v _ => forget_mapping v _ _ none) _ u) _ s

theorem maskFolio_mapping (fb well : Nat) (s : State) (n : Nat) : Mapping s (maskFolio fb well s n) := by
  refine ⟨⟨_, _, _, _, _, _, rfl⟩, fun k hk => ?_⟩
  rw [folio_maskFolio]
  split
  case isTrue hkn => rw [← hkn, hk]
  case isFalse => exact hk

theorem setBanks_mapping (s : State) (fb well : Nat) : Mapping s (setBanks s fb well) :=
  (Mapping.foldl _ (maskFolio_mapping fb well) _ s).trans (forgetBanks_mapping _ fb well)

/-- The ACTIVE Folios have the masks of the job. -/
theorem setBanks_masks (s : State) (fb well n : Nat) (hn : n < 68) (hactive : (folio s n).state = 0) :
    (folio (setBanks s fb well) n).fbOn = fb ∧ (folio (setBanks s fb well) n).wellOn = well := by
  have hfolios (t : State) : (forgetBanks t fb well).folios = t.folios :=
    List.foldlRecOn (motive := fun u : State => u.folios = t.folios) (List.range 64) _ rfl (fun u hu _ _ =>
      List.foldlRecOn (motive := fun v : State => v.folios = t.folios) _ _ hu (fun _ hv _ _ => hv))
  have hmem : n ∈ (List.range 68).filter (fun n => (folio s n).state = 0) := by simp [hn, hactive]
  have hmasks := folio_maskFolios fb well ((List.range 68).filter (fun n => (folio s n).state = 0)) s n (.inl hmem)
  unfold setBanks
  rw [folio_congr (congrArg (·.phys) (hfolios _))]
  exact hmasks

/-! ### The acceptance of a block (R296) -/

/-- The registers of the job that a block at `a` sets, and the state of a job in which nothing has run yet. -/
def withBlock (s : State) (a : Nat) (t : State) : State :=
  let k := readBlock s a
  let b := hostPeek s a 256
  { t with
    glob.paramTable := rd b 104 8, glob.abortPolicy := rd b 42 1, glob.ckptBase := rd b 64 8
    job := { session := s.job.session, restricted := s.job.restricted, driver := s.job.driver, blk := k, step := k.startStep
             f0 := k.startFrame, opened := insertNat k.mirrorWindow s.job.opened }
    train := {}, experts := {}, mem.corrCount := [], colo.own := [], colo.got := [], loss.spike := false
    loss.nonfinite := false, frame := { number := frameOf t s.time.now, thrUsed := 0 } }

/-- The scheduler core's copy of the block's parameters. -/
def blockStored (s : State) (a : Nat) : State :=
  fwStore (withEpoch { s with glob.stackUse := rd (hostPeek s a 256) 43 1 } a) (rd (hostPeek s a 256) 104 8)
    (hostPeek s (a + rd (hostPeek s a 256) 124 4) 131072)

/-- The part whose job has its registers, its map and its banks. -/
def blockMapped (s : State) (a : Nat) : State :=
  setBanks (mapForJob (openMirror (withBlock s a (blockStored s a)) (readBlock s a) (rd (hostPeek s a 256) 64 8)))
    (readBlock s a).fbMask (readBlock s a).wellMask

/-- What an accepted job has from its block, and what it has not touched. -/
structure Accepted (s : State) (a : Nat) (t : State) : Prop where
  job : t.job.blk = readBlock s a ∧ t.job.step = (readBlock s a).startStep ∧ t.job.session = s.job.session ∧ t.frame.live = false
  regs : t.time.period = rd (hostPeek s a 256) 20 4 ∧ t.glob.stackUse = rd (hostPeek s a 256) 43 1 ∧
    t.glob.ckptBase = rd (hostPeek s a 256) 64 8
  banks : ∀ n, n < 68 → (folio s n).state = 0 →
    (folio t n).fbOn = (readBlock s a).fbMask ∧ (folio t n).wellOn = (readBlock s a).wellMask
  kept : t.rings.sq = s.rings.sq ∧ t.boot = s.boot ∧ t.flash = s.flash ∧ t.ductus = s.ductus

theorem withBlock_accepts (s : State) (a : Nat) : let t := withBlock s a (blockStored s a)
    (t.job.blk = readBlock s a ∧ t.job.step = (readBlock s a).startStep ∧ t.job.session = s.job.session ∧ t.frame.live = false) ∧
    (t.time.period = rd (hostPeek s a 256) 20 4 ∧ t.glob.stackUse = rd (hostPeek s a 256) 43 1 ∧
      t.glob.ckptBase = rd (hostPeek s a 256) 64 8) ∧
    (t.rings.sq = s.rings.sq ∧ t.boot = s.boot ∧ t.flash = s.flash ∧ t.ductus = s.ductus) ∧ t.folios = s.folios := by
  have hstored : Storing (withEpoch { s with glob.stackUse := rd (hostPeek s a 256) 43 1 } a) (blockStored s a) :=
    fwStore_storing _ _ _
  generalize blockStored s a = u at hstored ⊢
  obtain ⟨⟨_, _, _, _, _, _, _, _, _, _, _, rfl⟩, hsq⟩ := hstored
  exact ⟨⟨rfl, rfl, rfl, rfl⟩, ⟨rfl, rfl, rfl⟩, ⟨hsq, rfl, rfl, rfl⟩, rfl⟩

theorem blockMapped_accepted (s : State) (a : Nat) : Accepted s a (blockMapped s a) := by
  obtain ⟨hjob, hregs, hkept, hfolios⟩ := withBlock_accepts s a
  unfold blockMapped
  generalize withBlock s a (blockStored s a) = t at hjob hregs hkept hfolios ⊢
  have hmap := (openMirror_mapping t (readBlock s a) (rd (hostPeek s a 256) 64 8)).trans (mapForJob_mapping _)
  generalize mapForJob (openMirror t (readBlock s a) (rd (hostPeek s a 256) 64 8)) = u at hmap ⊢
  have hbanks (n : Nat) (hn : n < 68) (hactive : (folio s n).state = 0) :=
    setBanks_masks u (readBlock s a).fbMask (readBlock s a).wellMask n hn
      (hmap.active n (by rw [folio_congr (congrArg (·.phys) hfolios), hactive]))
  have hset := (hmap.trans (setBanks_mapping u (readBlock s a).fbMask (readBlock s a).wellMask)).frame
  generalize setBanks u (readBlock s a).fbMask (readBlock s a).wellMask = v at hbanks hset ⊢
  obtain ⟨_, _, _, _, _, _, rfl⟩ := hset
  exact ⟨hjob, hregs, hbanks, hkept⟩

/-- The acceptance completes the descriptor and enters STARTING; the rest is reported. -/
theorem acceptJob_reported (s : State) (h : Hdr) (a : Nat) :
    Reported { blockMapped s a with glob := { (blockMapped s a).glob with jobState := 3 } } (acceptJob s h a) := by
  have hdone := complete_reported { blockMapped s a with glob := { (blockMapped s a).glob with jobState := 3 } } h 0 0
  exact (hdone.inState 3).trans (setJobState_reported
    { complete { blockMapped s a with glob := { (blockMapped s a).glob with jobState := 3 } } h 0 0 with
      glob.jobState := s.glob.jobState } 3)

/-- The start of a job, with the drains judged afresh. -/
theorem startJob_accepted (s : State) (h : Hdr) (a : Nat) :
    Accepted s a (recheckDrains (acceptJob s h a)) ∧ (recheckDrains (acceptJob s h a)).glob.jobState = 3 := by
  have hmapped := blockMapped_accepted s a
  have hreport := acceptJob_reported s h a
  have hpower := recheckDrains_powerOnly (acceptJob s h a)
  generalize recheckDrains (acceptJob s h a) = v at hpower ⊢
  generalize acceptJob s h a = u at hreport hpower
  generalize blockMapped s a = t at hmapped hreport
  obtain ⟨_, _, rfl⟩ := hpower
  have hsq := hreport.sq
  obtain ⟨_, _, _, _, _, _, _, rfl⟩ := hreport.frame
  obtain ⟨hjob, hregs, hbanks, hrings, hkept⟩ := hmapped
  exact ⟨⟨hjob, hregs, hbanks, hsq.trans hrings, hkept⟩, rfl⟩

/-- An acceptance after reads that only count and correct is one from the state before them. -/
theorem Accepted.of_corrected {s t u : State} {a : Nat} (h : Corrected s t) (g : Accepted t a u) : Accepted s a u := by
  obtain ⟨_, _, _, _, _, rfl⟩ := h
  exact ⟨g.job, g.regs, g.banks, g.kept⟩

/-! ### JOB_START (R296) -/

theorem exec_jobStart {s : State} {h : Hdr} {block bytes : Nat} (ha : alive s = true) (hadm : Admitted s h)
    (hstate : s.glob.jobState = 2) (hhost : s.rings.host = 0) (hblock : block < 2 ^ 64) (hbytes : bytes < 2 ^ 32) :
    exec (.jobStart h block bytes) s = .next (match s.folios.short with
      | some _ => complete (raiseFault s { code := 0x15, sev := 1, src := 6 }) h 0x15 0
      | none => match readsBad s (replicaReads s) with
        | some l => complete (lineError s l) h 0x0B (lineDetail s (64 * l))
        | none => match jobBlockBad (noteReads s (replicaReads s)) block bytes with
          | some (st, d) => complete (noteReads s (replicaReads s)) h st d
          | none => recheckDrains (acceptJob (noteReads s (replicaReads s)) h block)) := by
  have hwf : (Instr.jobStart h block bytes).wf = true := by
    simp only [Instr.wf, hadm.1, fits, Bool.true_and, Bool.and_eq_true, decide_eq_true_eq]
    omega
  have hbad : firstOf [none, hostHi s 16 block] = none := by simp [firstOf, hostHi, hhost]
  refine (whenAlive_next (.jobStart h block bytes) s _ hwf ha).trans (congrArg _ ?_)
  rw [runJobStart, hbad]
  exact gate_admitted s h false [2] _ hadm (by simp [hstate])

/-- Settles O37: a part short of Folios, a failing line and a failing block are refused, and a block that passes starts the job. -/
theorem jobStartsFromItsBlock : Obligations.JobStartsFromItsBlock := by
  unfold Obligations.JobStartsFromItsBlock
  intro s h block bytes ha hadm hstate hhost hblock hbytes
  have hexec := exec_jobStart ha hadm hstate hhost hblock hbytes
  refine ⟨fun hshort hreads => ⟨fun hok => ?_, fun st d hbad => ?_⟩, fun l hshort hline => ?_, fun d hshort => ?_⟩
  · obtain ⟨haccept, hstarting⟩ := startJob_accepted (noteReads s (replicaReads s)) h block
    obtain ⟨⟨hblk, hstep, hsession, hlive⟩, ⟨hperiod, huse, hckpt⟩, hbanks, hkept⟩ :=
      haccept.of_corrected (noteReads_corrected s (replicaReads s))
    refine ⟨_, hexec.trans ?_, hstarting, hblk, hstep, hsession, hlive, hperiod, huse, hckpt, hbanks, hkept⟩
    rw [hshort, hreads, hok]
  · rw [hexec, hshort, hreads, hbad]
  · rw [hexec, hshort, hline]
  · let r : FaultRec := { code := 0x15, sev := 1, src := 6 }
    obtain ⟨hglob, _, hseq, hlast⟩ := raiseFault_frame s r
    obtain ⟨_, _, _, _, _, _, _, hframe⟩ := raiseFault_reportOnly s r
    refine ⟨raiseFault s r, hglob, hseq, ?_, congrArg (·.job) hframe, congrArg (·.folios) hframe, ?_⟩
    · rw [hlast, rd_bytes_code]
      rfl
    · rw [hexec, hshort]

end Sys2Proof.Machine
end

section
/-! SUPPORT. The board: the end of the ring host's session, the PCIe link, the comparator, the TAP and the I3C target. -/

namespace Sys2Proof.Machine

open Sys2Proof

/-! ### The end of the ring host's session (R295) -/

/-- PCIe hosts the rings, and its link is down. -/
def Unlinked (s : State) : Prop := s.rings.host = 0 ∧ s.pcie.up = false

theorem Unlinked.hostReady {s : State} (h : Unlinked s) : hostReady s = false := by
  obtain ⟨hhost, hup⟩ := h
  simp [Machine.hostReady, hhost, hup]

/-- A vector for a host that is not reached leaves nothing. -/
theorem Unlinked.raiseVector_eq {s : State} (h : Unlinked s) (v : Nat) : raiseVector s v = s := by
  obtain ⟨hhost, _⟩ := id h
  simp [raiseVector, hhost, h.hostReady]

/-- A record for a host that is not reached waits, or is lost. -/
theorem Unlinked.pushCq {s : State} (h : Unlinked s) (r : Nat) (bs : List Byte) (irq reply : Bool) :
    Unlinked (pushCq s r bs irq reply) := by
  have hset (q : OutRing) : Unlinked (setCq s r q) := h
  unfold Machine.pushCq
  dsimp only
  rw [if_neg (by simp [canWrite, h.hostReady])]
  split
  · exact hset _
  · rw [(hset _).raiseVector_eq]
    exact hset _

/-- Completions leave the link down. -/
theorem Unlinked.completes {α : Type} {s : State} (h : Unlinked s) (f : α → Hdr) (l : List α) :
    Unlinked (l.foldl (fun t x => complete t (f x) 0x19 0) s) :=
  List.foldlRecOn (motive := Unlinked) l _ h (fun _ ht _ _ => ht.pushCq _ _ _ _)

theorem Unlinked.dropSession {s : State} (h : Unlinked s) : Unlinked (dropSession s) := by
  have hheld : Unlinked (completeAll { s with rings := { s.rings with held := [] } } s.rings.held 0x19) :=
    Unlinked.completes (s := { s with rings := { s.rings with held := [] } }) h Held.hdr s.rings.held
  simp only [Machine.dropSession, takeHeld_all]
  exact hheld.completes id _

theorem Unlinked.setJobState {s : State} (h : Unlinked s) (new : Nat) : Unlinked (setJobState s new) := by
  unfold Machine.setJobState
  split
  · exact h
  · exact Unlinked.pushCq (s := { s with glob.jobState := new }) h _ _ _ _

/-- What the end of the ring host's session leaves of a part that holds one. -/
structure SessionLost (s t : State) : Prop where
  claimed : s.glob.jobState = 2 → t.glob.jobState = 1 ∧ t.job.session = 0
  running : 3 ≤ s.glob.jobState ∧ s.glob.jobState ≤ 5 →
    t.glob.jobState = 6 ∧ t.job.savedState = s.glob.jobState ∧ t.job.session = s.job.session ∧ t.job.blk = s.job.blk
  kept : t.mem = s.mem ∧ t.frame = s.frame ∧ t.fab.windows = s.fab.windows ∧ t.folios = s.folios
  link : Unlinked s → t.pcie.up = false

/-- Without a job nothing of the session is left. -/
theorem sessionLost_claimed (s : State) (h : s.glob.jobState = 2) :
    SessionLost s (setJobState { dropSession s with job := {} } 1) := by
  obtain ⟨u, act, xfers, hdropped, _, hdrop⟩ := dropSession_frame s
  have hlink (hdown : Unlinked s) : Unlinked (setJobState { dropSession s with job := {} } 1) :=
    Unlinked.setJobState (s := { dropSession s with job := {} }) hdown.dropSession 1
  have hset := (setJobState_reported { dropSession s with job := {} } 1).frame
  generalize setJobState { dropSession s with job := {} } 1 = t at hlink hset ⊢
  generalize dropSession s = v at hdrop hset
  obtain ⟨_, _, _, _, _, _, _, rfl⟩ := hset
  subst hdrop
  obtain ⟨_, _, _, _, _, _, _, rfl⟩ := hdropped.frame
  exact ⟨fun _ => ⟨rfl, rfl⟩, fun hjob => by omega, ⟨rfl, rfl, rfl, rfl⟩, fun hdown => (hlink hdown).2⟩

/-- A job is orphaned, in the state that it had. -/
theorem sessionLost_running (s : State) (h : 3 ≤ s.glob.jobState ∧ s.glob.jobState ≤ 5) :
    SessionLost s (setJobState { s with job.savedState := s.glob.jobState } 6) := by
  have hlink (hdown : Unlinked s) : Unlinked (setJobState { s with job.savedState := s.glob.jobState } 6) :=
    Unlinked.setJobState (s := { s with job.savedState := s.glob.jobState }) hdown 6
  have hset := (setJobState_reported { s with job.savedState := s.glob.jobState } 6).frame
  generalize setJobState { s with job.savedState := s.glob.jobState } 6 = t at hlink hset ⊢
  obtain ⟨_, _, _, _, _, _, _, rfl⟩ := hset
  exact ⟨fun hclaimed => by omega, fun _ => ⟨rfl, rfl, rfl, rfl⟩, ⟨rfl, rfl, rfl, rfl⟩, fun hdown => (hlink hdown).2⟩

theorem loseSession_lost (s : State) (h : s.job.session ≠ 0) : SessionLost s (loseSession s) := by
  unfold loseSession
  rw [if_neg h]
  split
  case isTrue hclaimed => exact sessionLost_claimed s hclaimed
  case isFalse hclaimed =>
    split
    case isTrue hrun => exact sessionLost_running s (by simpa using hrun)
    case isFalse hrun =>
      exact ⟨fun h2 => absurd h2 hclaimed, fun h3 => absurd h3 (by simpa using hrun), ⟨rfl, rfl, rfl, rfl⟩, fun hdown => hdown.2⟩

/-- With the PCIe link goes the session that PCIe hosts. -/
theorem pcieDown_lost {s : State} (ha : alive s = true) (hhost : s.rings.host = 0) (h : s.job.session ≠ 0) :
    SessionLost s (pcieDown s) ∧ (pcieDown s).pcie.up = false := by
  have hlost := loseSession_lost (pcieDrop s) h
  have hdown : pcieDown s = loseSession (pcieDrop s) := by rw [pcieDown, if_pos (by simp [hhost, ha])]
  have hup : (pcieDown s).pcie.up = false := by
    rw [hdown]
    exact hlost.link ⟨hhost, rfl⟩
  refine ⟨?_, hup⟩
  rw [hdown] at hup ⊢
  exact ⟨hlost.claimed, hlost.running, hlost.kept, fun _ => hup⟩

/-- R295, R386, R390: the loss of the ring host in O8. -/
theorem ringHostLossEndsSession : Claim.RingHostLossEndsSession := by
  unfold Claim.RingHostLossEndsSession
  intro s c ha hc hsession
  rcases hc with rfl | ⟨rfl | rfl, hhost⟩
  · have hlost : SessionLost s (if s.rings.host = 0 then pcieDown s else loseSession s) := by
      split
      case isTrue hhost => exact (pcieDown_lost ha hhost hsession).1
      case isFalse => exact loseSession_lost s hsession
    exact ⟨_, whenAlive_next .ringHostLost s _ rfl ha, hlost.claimed, hlost.running, fun h => absurd rfl h, by simp, by simp,
      hlost.kept⟩
  · obtain ⟨hlost, hup⟩ := pcieDown_lost ha hhost hsession
    have hout : s.pins.sysReset = false := by
      have := ha
      simp only [alive, Bool.and_eq_true, Bool.not_eq_true'] at this
      exact this.1.1
    have hexec : exec .refclkPcieLoss s = .next { pcieDown s with pins.lostPcie := true } :=
      (always_next .refclkPcieLoss _ rfl).trans (by rw [if_neg (by simp [hout])])
    exact ⟨_, hexec, hlost.claimed, hlost.running, fun _ => hup, by simp, fun _ => rfl, hlost.kept⟩
  · obtain ⟨hlost, hup⟩ := pcieDown_lost ha hhost hsession
    exact ⟨_, always_next .perstNAssert _ rfl, hlost.claimed, hlost.running, fun _ => hup, fun _ => ⟨rfl, rfl⟩, by simp,
      hlost.kept⟩

/-! ### The PCIe link (R12, R337, R390) -/

/-- R12, R390, R337: the PCIe link in O8. -/
theorem pcieLinkTakesItsStatus : Claim.PcieLinkTakesItsStatus := by
  unfold Claim.PcieLinkTakesItsStatus
  intro s r w f
  refine ⟨always_next .perstNDeassert _ rfl, fun ha hperst hlost hdom hwf => ?_, fun ha hoff hwf => ?_, fun n hn ha => ?_⟩
  · refine ⟨_, (whenAlive_next (.pcieLinkTrained r w f) s _ hwf ha).trans ?_, rfl, by simp [degraded]⟩
    rw [if_neg (by simp [hperst, hlost, hdom])]
  · refine (whenAlive_next (.pcieLinkTrained r w f) s _ hwf ha).trans ?_
    rw [if_pos (by simpa [or_assoc] using hoff)]
  · have hwf : (Instr.refclkSdLoss n).wf = true := by simpa [Instr.wf] using hn
    refine ⟨_, whenAlive_next (.refclkSdLoss n) s _ hwf ha, fun h0 => by rw [if_pos h0], fun h1 => ?_⟩
    rw [if_neg (by omega)]

/-! ### The comparator (R345, R395) -/

/-- A condition that holds is no higher than the level. -/
theorem le_foldl_max (l : List Nat) (a x : Nat) (h : x ≤ a ∨ x ∈ l) : x ≤ l.foldl max a := by
  induction l generalizing a with
  | nil => exact h.resolve_right List.not_mem_nil
  | cons y ys ih =>
    refine ih (max a y) ?_
    rcases h with hle | hmem
    · exact .inl (le_max_of_le_left hle)
    · rcases List.mem_cons.mp hmem with rfl | hmem
      · exact .inl (le_max_right a x)
      · exact .inr hmem

/-- An interrupt is pending once it has been raised, and those before it stay. -/
theorem raiseIbi_frame (s : State) (b : Nat) : ∃ ibi, raiseIbi s b = { s with i3c := { s.i3c with ibi := ibi } } ∧ b ∈ ibi ∧
    ∀ x ∈ s.i3c.ibi, x ∈ ibi := by
  unfold raiseIbi
  split
  case isTrue h => exact ⟨s.i3c.ibi, rfl, by simpa using h, fun _ hx => hx⟩
  case isFalse => exact ⟨_, rfl, by simp, fun _ hx => List.mem_append_left _ hx⟩

/-- The level settles on the highest condition; a change is told, and drives ALERT_N from level 2 on. -/
theorem settleLevel_frame (s : State) : ∃ alert ibi, settleLevel s = { s with
    power := { s.power with level := s.power.conditions.foldl max 0 }, pins := { s.pins with alertOut := alert }
    i3c := { s.i3c with ibi := ibi } } ∧ (∀ x ∈ s.i3c.ibi, x ∈ ibi) ∧
    (s.power.conditions.foldl max 0 ≠ s.power.level → alert = decide (2 ≤ s.power.conditions.foldl max 0)) := by
  unfold settleLevel
  dsimp only
  split
  case isTrue h => exact ⟨_, _, by rw [h], fun _ hx => hx, fun hne => absurd h hne⟩
  case isFalse =>
    obtain ⟨ibi, hraise, _, hkept⟩ := raiseIbi_frame { s with
      power.level := s.power.conditions.foldl max 0, pins.alertOut := decide (2 ≤ s.power.conditions.foldl max 0) } 1
    exact ⟨_, ibi, hraise, hkept, fun _ => rfl⟩

/-- Lanes that have all been switched off. -/
theorem tget_lanesOff (l : Tbl Lane) (n : Nat) : (tget (l.map (fun x : Nat × Lane => (x.1, { x.2 with state := 0 }))) n {}).state = 0 := by
  induction l with
  | nil => rfl
  | cons x xs ih =>
    simp only [List.map_cons, tget]
    split
    · rfl
    · exact ih

/-- The part whose comparator has tripped, before its level settles, with the interrupts that are pending. -/
def tripped (s : State) (ibi : List Nat) : State :=
  { s with
    pins := { s.pins with thermtrip := true, clocksStopped := true }, i3c := { s.i3c with ibi := ibi }
    power := { s.power with conditions := insertNat 3 s.power.conditions }
    lanes := s.lanes.map (fun x => (x.1, { x.2 with state := 0 })), pcie := (pcieDrop s).pcie
    eth := s.eth.map (fun x => (x.1, { x.2 with up := false })) }

theorem trip_eq {s : State} (hout : s.pins.thermtrip = false) : ∃ ibi, trip s = settleLevel (tripped s ibi) ∧ 4 ∈ ibi := by
  obtain ⟨ibi, hraise, hpending, _⟩ := raiseIbi_frame { s with pins.thermtrip := true, pins.clocksStopped := true } 4
  refine ⟨ibi, ?_, hpending⟩
  unfold trip
  rw [if_neg (by simp [hout]), hraise]
  rfl

/-- What THERMTRIP_N and the stop of the clocks leave: level 3, its interrupts, and nothing that a clock would move. -/
theorem trip_stops (s : State) (hout : s.pins.thermtrip = false) : let t := trip s
    (t.pins.thermtrip = true ∧ t.pins.clocksStopped = true) ∧ (3 ∈ t.power.conditions ∧ 3 ≤ t.power.level ∧ 4 ∈ t.i3c.ibi) ∧
    t.power.temps = s.power.temps ∧ (s.power.level < 3 → t.pins.alertOut = true) ∧ (t.pcie.up = false ∧ ∀ n, (lane t n).state = 0) ∧
    (t.mem = s.mem ∧ t.rings = s.rings ∧ t.job = s.job ∧ t.frame = s.frame) := by
  obtain ⟨ibi, htrip, hpending⟩ := trip_eq hout
  obtain ⟨alert, more, hsettle, hstay, halert⟩ := settleLevel_frame (tripped s ibi)
  have hlevel : 3 ≤ (tripped s ibi).power.conditions.foldl max 0 := le_foldl_max _ 0 3 (.inr (mem_insertNat 3 _))
  have hdriven (hlow : s.power.level < 3) : alert = true := by
    have hrise : (tripped s ibi).power.level < 3 := hlow
    exact (halert (by omega)).trans (decide_eq_true (by omega))
  rw [htrip, hsettle]
  exact ⟨⟨rfl, rfl⟩, ⟨mem_insertNat 3 _, hlevel, hstay 4 hpending⟩, rfl, hdriven, ⟨rfl, tget_lanesOff s.lanes⟩, rfl, rfl, rfl, rfl⟩

/-- R345, R395: the comparator in O8. -/
theorem thermtripStopsTheClocks : Claim.ThermtripStopsTheClocks := by
  unfold Claim.ThermtripStopsTheClocks
  intro s d temp hd hreset hout
  have hwf : (Instr.thermtrip d temp).wf = true := by simpa [Instr.wf] using hd
  have hexec := always_next (.thermtrip d temp) (if s.pins.sysReset || decide (temp < tripPoint d * 16) then s
    else trip { s with power.temps := tput s.power.temps d temp }) hwf
  have hpoint : (d < 4 ∧ 1760 ≤ temp) ∨ (8 ≤ d ∧ 1520 ≤ temp) ↔ ¬ temp < tripPoint d * 16 := by
    unfold tripPoint
    split <;> omega
  refine ⟨fun hhot => ?_, fun hcool => ?_⟩
  · obtain ⟨⟨htrip, hclocks⟩, ⟨hcond, hlevel, hibi⟩, htemps, halert, ⟨hup, hlanes⟩, hkept⟩ :=
      trip_stops { s with power.temps := tput s.power.temps d temp } hout
    refine ⟨_, hexec.trans (by rw [if_neg (by simpa [hreset] using hpoint.mp hhot)]), htrip, hclocks, ?_, hcond, hlevel, hibi, ?_,
      halert, hup, hlanes, hkept⟩
    · simp [alive, hclocks]
    · rw [htemps]
      exact tget_tput_self _ _ _ _
  · exact hexec.trans (by rw [if_pos (by simpa [hreset, hpoint] using hcool)])

/-! ### The TAP (R391) -/

/-- A listed instruction takes effect, but for one that drives the pins while SYS_RESET_N is not asserted. -/
theorem tapEffective_listed {s : State} (h : ∀ k, s.pins.tap ≠ .other k) :
    tapEffective s = if TapInstr.drives s.pins.tap && !s.pins.sysReset then .bypass else s.pins.tap := by
  unfold tapEffective
  split
  next k hk => exact absurd hk (h k)
  next => rfl

/-- The fields of IDCODE, whatever the manufacturer. -/
theorem idcode_fields : idcode % 2 = 1 ∧ fld idcode 12 16 = 0x0A01 ∧ fld idcode 28 4 = 1 := by
  have hmaker : Config.jep106 % 2 ^ 11 < 2 ^ 11 := Nat.mod_lt _ (by decide)
  unfold idcode
  generalize Config.jep106 % 2 ^ 11 = m at hmaker ⊢
  simp only [fld, Nat.shiftRight_eq_div_pow]
  omega

/-- R391: the TAP in O8. -/
theorem tapTakesItsInstruction : Claim.TapTakesItsInstruction := by
  unfold Claim.TapTakesItsInstruction
  intro s i
  have hexec := always_next (.jtagInstruction i) (if i = .trst then { s with pins.tap := .idcode, pins.trst := true }
    else { s with pins.tap := i, pins.trst := false, out.readData := if i = .idcode then idcode else s.out.readData }) rfl
  by_cases hi : i = .trst
  · subst hi
    exact ⟨_, hexec, rfl, fun _ => ⟨rfl, rfl, rfl⟩, fun h => absurd rfl h, fun h => absurd h (by decide), fun k h => by simp at h,
      fun h => by simp at h⟩
  · refine ⟨_, hexec.trans (by rw [if_neg hi]), rfl, fun h => absurd h hi, fun _ => ⟨rfl, rfl⟩, fun hdrives => ?_, fun k hk => ?_,
      fun hid => ?_⟩
    · have hlisted : ∀ k, i ≠ .other k := by
        rintro k rfl
        simp [TapInstr.drives] at hdrives
      rw [tapEffective_listed (by exact hlisted), tapEffective_listed (by exact hlisted)]
      exact ⟨if_pos (by simp [hdrives]), if_neg (by simp)⟩
    · subst hk
      rfl
    · subst hid
      rw [if_pos rfl]
      exact ⟨rfl, idcode_fields⟩

/-! ### The I3C target (R346, R389) -/

/-- A read by the controller gives a byte for each that it asks for, and touches only the latch. -/
theorem i3cBytes_frame (n off : Nat) (s : State) : (i3cBytes n off s).1.length = n ∧
    ∃ latch at_, (i3cBytes n off s).2 = { s with i3c := { s.i3c with latch := latch, latchAt := at_ } } := by
  induction n generalizing off s with
  | zero => exact ⟨rfl, _, _, rfl⟩
  | succ n ih =>
    have hbyte : ∃ latch at_, (i3cByte s off).2 = { s with i3c := { s.i3c with latch := latch, latchAt := at_ } } := by
      unfold i3cByte
      dsimp only
      split
      · exact ⟨_, _, rfl⟩
      split <;> exact ⟨_, _, rfl⟩
    obtain ⟨_, _, hbyte⟩ := hbyte
    obtain ⟨hlen, _, _, hrest⟩ := ih (off + 1) (i3cByte s off).2
    refine ⟨congrArg (· + 1) hlen, ?_⟩
    rw [i3cBytes, hrest, hbyte]
    exact ⟨_, _, rfl⟩

/-- A read by the controller gives its bytes, and touches beside them the latch and the interrupts that the controller takes. -/
theorem exec_i3cPrivateRead {s : State} (n : Nat) (hout : s.pins.sysReset = false) : ∃ latch at_,
    exec (.i3cPrivateRead n) s = .next { takeIbi s with
      i3c := { (takeIbi s).i3c with latch := latch, latchAt := at_ }
      out := { (takeIbi s).out with i3cBytes := (i3cBytes n s.i3c.offset (takeIbi s)).1 } } := by
  obtain ⟨_, latch, at_, hframe⟩ := i3cBytes_frame n s.i3c.offset (takeIbi s)
  refine ⟨latch, at_, (always_next (.i3cPrivateRead n) _ rfl).trans ?_⟩
  rw [if_neg (by simp [hout])]
  dsimp only
  rw [hframe]

/-- The limit in force, read from its lowest byte on. -/
theorem i3cBytes_limit (s : State) : (i3cBytes 2 6 s).1 = leBytes 2 s.power.limitEff := by
  have hlow : i3cByte s 6 = ((leBytes 2 s.power.limitEff).headD 0,
      { s with i3c := { s.i3c with latch := leBytes 2 s.power.limitEff, latchAt := 6 } }) := by simp [i3cByte, i3cField]
  have hhigh (t : State) (hat : t.i3c.latchAt = 6) : (i3cByte t 7).1 = (t.i3c.latch.drop 1).headD 0 := by
    simp [i3cByte, i3cField, hat]
  simp only [i3cBytes, hlow]
  rw [hhigh _ rfl]
  rfl

/-- Both bytes of a 16-bit field written in turn give the number that they stand for. -/
theorem withByte_withByte (v : Nat) (lo hi : Byte) :
    withByte (withByte (v % 65536) 0 lo % 65536) 1 hi = lo.toNat + 256 * hi.toNat := by
  have hlo : lo.toNat < 256 := lo.isLt
  have hhi : hi.toNat < 256 := hi.isLt
  simp only [withByte, fld, Nat.shiftRight_eq_div_pow]
  omega

/-- Both bytes of POWER_LIMIT_BOARD, put one after the other. -/
theorem i3cWrite_limit (s : State) (lo hi : Byte) :
    i3cWrite s 2 [lo, hi] = { s with power := { s.power with limitBoard := lo.toNat + 256 * hi.toNat } } := by
  rw [← withByte_withByte s.power.limitBoard lo hi]
  rfl

/-- Both bytes of the window, put one after the other. -/
theorem i3cWrite_window (s : State) (lo hi : Byte) :
    i3cWrite s 10 [lo, hi] = { s with power := { s.power with window := lo.toNat + 256 * hi.toNat } } := by
  rw [← withByte_withByte s.power.window lo hi]
  rfl

/-- A write of two bytes from an offset on, with the clamps that follow it. -/
theorem opI3cWrite_two {off : Nat} (s : State) (o₀ o₁ lo hi : Byte) (hoff : rd [o₀, o₁, lo, hi] 0 2 = off) :
    let t := i3cWrite { s with i3c := { s.i3c with offset := off } } off [lo, hi]
    opI3cWrite s [o₀, o₁, lo, hi] = { t with power := { t.power with
      limitBoard := clampN 450 850 t.power.limitBoard, window := clampN 1 100 t.power.window } } := by
  subst hoff
  rfl

/-- A write of both bytes of POWER_LIMIT_BOARD. -/
theorem opI3cWrite_limit (s : State) (lo hi : Byte) : opI3cWrite s [2, 0, lo, hi] = { s with
    i3c.offset := 2
    power := { s.power with limitBoard := clampN 450 850 (lo.toNat + 256 * hi.toNat), window := clampN 1 100 s.power.window } } := by
  rw [opI3cWrite_two (off := 2) s _ _ lo hi rfl, i3cWrite_limit]

/-- A write of both bytes of the window. -/
theorem opI3cWrite_window (s : State) (lo hi : Byte) : opI3cWrite s [10, 0, lo, hi] = { s with
    i3c.offset := 10
    power := { s.power with limitBoard := clampN 450 850 s.power.limitBoard, window := clampN 1 100 (lo.toNat + 256 * hi.toNat) } } := by
  rw [opI3cWrite_two (off := 10) s _ _ lo hi rfl, i3cWrite_window]

/-- R346, R389: the I3C target in O8. -/
theorem i3cTargetReadsAndWrites : Claim.I3cTargetReadsAndWrites := by
  unfold Claim.I3cTargetReadsAndWrites
  intro s n a k v lo hi hout u
  have hu : takeIbi s = u := rfl
  refine ⟨fun ha => ?_, fun hstatic => if_pos hstatic, ?_, ?_, ?_, fun hk hv => ?_⟩
  · refine (always_next (.i3cDynamicAddress a) _ (by simpa [Instr.wf] using ha)).trans ?_
    rw [if_neg (by simp [hout])]
    rfl
  · obtain ⟨_, _, hread⟩ := exec_i3cPrivateRead n hout
    refine ⟨_, hread, rfl, rfl, (i3cBytes_frame n s.i3c.offset u).1, fun h6 h2 => ?_⟩
    rw [h6, h2]
    exact i3cBytes_limit u
  · refine ⟨_, (always_next (.i3cPrivateWrite [2, 0, lo, hi]) _ rfl).trans (by rw [if_neg (by simp [hout]), hu, opI3cWrite_limit]),
      rfl, rfl⟩
  · refine ⟨_, (always_next (.i3cPrivateWrite [10, 0, lo, hi]) _ rfl).trans (by rw [if_neg (by simp [hout]), hu, opI3cWrite_window]),
      rfl, rfl⟩
  · have hwf : (Instr.i3cRailWrite k v).wf = true := by
      simp only [Instr.wf, fits, Bool.and_eq_true, decide_eq_true_eq]
      omega
    refine ⟨_, (always_next (.i3cRailWrite k v) _ hwf).trans (by rw [if_neg (by simp [hout]), hu, railWrite, if_pos hk]), rfl,
      tget_tset_self _ _ _ _, fun j hj => tget_tset_ne _ _ _ _ _ _ hj⟩

/-- Settles O8, part by part. -/
theorem boardPinsAndManagement : Obligations.BoardPinsAndManagement :=
  ⟨ringHostLossEndsSession, pcieLinkTakesItsStatus, thermtripStopsTheClocks, tapTakesItsInstruction, i3cTargetReadsAndWrites⟩

end Sys2Proof.Machine
end

section
/-! SUPPORT. The block as a whole: what guards each command, the step, the reset state, and what the fault state keeps. -/

namespace Sys2Proof.Machine

open Sys2Proof

/-! ### The step and the reset state -/

/-- Settles O1: it is the branch of `step` for a queue that holds a command. -/
theorem stepRunsFrontCommand : Obligations.StepRunsFrontCommand := by
  unfold Obligations.StepRunsFrontCommand
  intro s c rest
  rfl

/-- Settles O4: the reset state is the default of every field. -/
theorem resetLeavesItsValues : Obligations.ResetLeavesItsValues := by
  unfold Obligations.ResetLeavesItsValues
  exact ⟨⟨rfl, rfl⟩, rfl, rfl, rfl, rfl, rfl, rfl, rfl, rfl⟩

/-! ### The guard of every command -/

/-- Every command is guarded: those that a dead part obeys by their form alone, every other by the part's being alive as well. -/
theorem exec_guarded (c : Instr) (s : State) :
    (alwaysObeyed c = true ∧ ∃ t, exec c s = always c t) ∨ (alwaysObeyed c = false ∧ ∃ t, exec c s = whenAlive c s t) := by
  cases c
  case sysResetNAssert | vddAuxUndervoltage | thermtrip | coldStart | perstNAssert | perstNDeassert | refclkPcieLoss | jtagInstruction |
      i3cPrivateRead | i3cPrivateWrite | i3cRailWrite | i3cDynamicAddress | rcRegisterRead | faultLastRead =>
    exact .inl ⟨rfl, _, rfl⟩
  all_goals exact .inr ⟨rfl, _, rfl⟩

/-! ### The fault state (R305) -/

/-- `t` differs from `s` in no more than the always-on domain with its I3C target, pins other than SYS_RESET_N, the PCIe, Ethernet and
lane links, the fault unit, the time and what has left the part. -/
def AlwaysOnOnly (s t : State) : Prop :=
  t.pins.sysReset = s.pins.sysReset ∧ ∃ out pins time power i3c flt lanes pcie eth,
    t = { s with
      out := out, pins := pins, time := time, power := power, i3c := i3c, flt := flt, lanes := lanes, pcie := pcie, eth := eth }

theorem AlwaysOnOnly.refl (s : State) : AlwaysOnOnly s s := ⟨rfl, _, _, _, _, _, _, _, _, _, rfl⟩

theorem AlwaysOnOnly.trans {s t u : State} (h : AlwaysOnOnly s t) (g : AlwaysOnOnly t u) : AlwaysOnOnly s u := by
  obtain ⟨hreset, _, _, _, _, _, _, _, _, _, rfl⟩ := h
  obtain ⟨greset, _, _, _, _, _, _, _, _, _, rfl⟩ := g
  exact ⟨greset.trans hreset, _, _, _, _, _, _, _, _, _, rfl⟩

theorem takeIbi_alwaysOnOnly (s : State) : AlwaysOnOnly s (takeIbi s) := ⟨rfl, _, _, _, _, _, _, _, _, _, rfl⟩

/-- The comparator acts on pins, power and links alone. -/
theorem trip_alwaysOnOnly (s : State) : AlwaysOnOnly s (trip s) := by
  by_cases hout : s.pins.thermtrip = true
  · rw [trip, if_pos hout]
    exact .refl s
  · obtain ⟨ibi, htrip, _⟩ := trip_eq (by simpa using hout)
    obtain ⟨_, _, hsettle, _⟩ := settleLevel_frame (tripped s ibi)
    rw [htrip, hsettle]
    exact ⟨rfl, _, _, _, _, _, _, _, _, _, rfl⟩

/-- In the fault state the link goes down and no session ends with it (R295, R305). -/
theorem pcieDown_fault {s : State} (hfault : s.glob.faultState = true) : pcieDown s = pcieDrop s := by
  rw [pcieDown, if_neg (by simp [alive_of_faultState s hfault])]

/-- A byte at the I3C target reaches no vote while the power core's clocks stand. -/
theorem i3cPut_alwaysOnOnly {s : State} (hdead : alive s = false) (off : Nat) (b : Byte) : AlwaysOnOnly s (i3cPut s off b) := by
  unfold i3cPut
  split
  · exact ⟨rfl, _, _, _, _, _, _, _, _, _, rfl⟩
  split
  · exact ⟨rfl, _, _, _, _, _, _, _, _, _, rfl⟩
  split
  · exact ⟨rfl, _, _, _, _, _, _, _, _, _, rfl⟩
  rw [if_pos (by simp [hdead])]
  exact .refl s

theorem i3cWrite_alwaysOnOnly (bs : List Byte) {s : State} (hfault : s.glob.faultState = true) (off : Nat) :
    AlwaysOnOnly s (i3cWrite s off bs) := by
  induction bs generalizing s off with
  | nil => exact .refl s
  | cons b bs ih =>
    have hput := i3cPut_alwaysOnOnly (alive_of_faultState s hfault) off b
    refine hput.trans (ih ?_ (off + 1))
    obtain ⟨_, _, _, _, _, _, _, _, _, _, heq⟩ := hput
    rw [heq]
    exact hfault

theorem opI3cWrite_alwaysOnOnly {s : State} (hfault : s.glob.faultState = true) (bs : List Byte) :
    AlwaysOnOnly s (opI3cWrite s bs) := by
  unfold opI3cWrite
  split
  · exact .refl s
  · have hoffset : AlwaysOnOnly s { s with i3c.offset := rd bs 0 2 } := ⟨rfl, _, _, _, _, _, _, _, _, _, rfl⟩
    have hwrite := hoffset.trans (i3cWrite_alwaysOnOnly (s := { s with i3c.offset := rd bs 0 2 }) (bs.drop 2) hfault (rd bs 0 2))
    exact hwrite.trans ⟨rfl, _, _, _, _, _, _, _, _, _, rfl⟩

/-- What a read latches first is of the time unit or the fault unit. -/
theorem regLatch_alwaysOnOnly (s : State) (a : Nat) : AlwaysOnOnly s (regLatch s a) := by
  unfold regLatch
  split
  · exact ⟨rfl, _, _, _, _, _, _, _, _, _, rfl⟩
  · split
    · exact ⟨rfl, _, _, _, _, _, _, _, _, _, rfl⟩
    · exact .refl s

/-- What a read of a page outside RINGS clears is of the fault unit. -/
theorem regClear_alwaysOnOnly (s : State) {a : Nat} (hpage : a < 0x20000 ∨ 0x30000 ≤ a) : AlwaysOnOnly s (regClear s a) := by
  unfold regClear
  split
  · exact ⟨rfl, _, _, _, _, _, _, _, _, _, rfl⟩
  · rw [if_neg (by simp only [Bool.and_eq_true, decide_eq_true_eq]; omega)]
    exact .refl s

theorem regRead_alwaysOnOnly (s : State) {off : Nat} (size : Nat) (hpage : off < 0x20000 ∨ 0x30000 ≤ off) :
    AlwaysOnOnly s (regRead s off size).2 := by
  unfold regRead
  split
  · exact .refl s
  · dsimp only
    split
    · exact (regLatch_alwaysOnOnly s _).trans (regClear_alwaysOnOnly _ (by omega))
    · exact .refl s

/-- In the fault state only GLOBAL and FAULT answer a read (R305), and what the read changes is theirs. -/
theorem barRead_alwaysOnOnly {s : State} (hfault : s.glob.faultState = true) (off size : Nat) :
    AlwaysOnOnly s (barRead s off size) := by
  unfold barRead
  split
  · exact .refl s
  · split
    · exact ⟨rfl, _, _, _, _, _, _, _, _, _, rfl⟩
    case isFalse hshown =>
      have hpage : off < 0x20000 ∨ 0x30000 ≤ off := by
        simp only [hfault, Bool.true_and, Bool.not_eq_true', Bool.or_eq_false_iff, Bool.and_eq_false_iff,
          decide_eq_false_iff_not] at hshown
        omega
      refine (regRead_alwaysOnOnly s size hpage).trans ?_
      exact ⟨rfl, _, _, _, _, _, _, _, _, _, rfl⟩

/-- What a command that a dead part obeys too leaves, it leaves within the always-on domain if its meaning does. -/
theorem AlwaysOnOnly.of_always {s t u : State} (i : Instr) (hu : AlwaysOnOnly s u) (hnext : always i u = .next t) :
    AlwaysOnOnly s t := by
  unfold always at hnext
  split at hnext
  · cases hnext
    exact hu
  · cases hnext

/-- Every command that the fault state obeys, but for the cold resets, stays within the always-on domain, the pins and the links. -/
theorem exec_alwaysOnOnly {s t : State} {c : Instr} (hfault : s.glob.faultState = true) (hreset : s.pins.sysReset = false)
    (hcold : coldResets c = false) (hobeyed : alwaysObeyed c = true) (h : exec c s = .next t) : AlwaysOnOnly s t := by
  have outside {u : State} (hu : AlwaysOnOnly s u) : AlwaysOnOnly s (if s.pins.sysReset then s else u) := by
    rw [if_neg (by simp [hreset])]
    exact hu
  cases c <;> cases hobeyed
  case sysResetNAssert ns =>
    refine .of_always (.sysResetNAssert ns) ?_ h
    rw [if_pos (by simpa [coldResets] using hcold)]
    exact .refl s
  case vddAuxUndervoltage => cases hcold
  case coldStart src mode addr pufOk fl =>
    refine .of_always (.coldStart src mode addr pufOk fl) ?_ h
    rw [if_neg (by simp [hreset])]
    exact .refl s
  case perstNAssert =>
    refine .of_always .perstNAssert ?_ h
    rw [pcieDown_fault hfault]
    exact ⟨rfl, _, _, _, _, _, _, _, _, _, rfl⟩
  case perstNDeassert =>
    refine .of_always .perstNDeassert ?_ h
    exact ⟨rfl, _, _, _, _, _, _, _, _, _, rfl⟩
  case thermtrip die temp =>
    refine .of_always (.thermtrip die temp) ?_ h
    split
    · exact .refl s
    · obtain ⟨hpin, _, _, _, _, _, _, _, _, _, htrip⟩ :=
        trip_alwaysOnOnly { s with power.temps := tput s.power.temps die temp }
      rw [htrip] at hpin ⊢
      exact ⟨hpin, _, _, _, _, _, _, _, _, _, rfl⟩
  case refclkPcieLoss =>
    refine .of_always .refclkPcieLoss (outside ?_) h
    rw [pcieDown_fault hfault]
    exact ⟨rfl, _, _, _, _, _, _, _, _, _, rfl⟩
  case jtagInstruction i =>
    refine .of_always (.jtagInstruction i) ?_ h
    split <;> exact ⟨rfl, _, _, _, _, _, _, _, _, _, rfl⟩
  case i3cPrivateRead n =>
    refine .of_always (.i3cPrivateRead n) (outside ?_) h
    obtain ⟨_, _, _, hread⟩ := i3cBytes_frame n s.i3c.offset (takeIbi s)
    dsimp only
    rw [hread]
    exact ⟨rfl, _, _, _, _, _, _, _, _, _, rfl⟩
  case i3cPrivateWrite bs =>
    exact .of_always (.i3cPrivateWrite bs)
      (outside ((takeIbi_alwaysOnOnly s).trans (opI3cWrite_alwaysOnOnly (s := takeIbi s) hfault bs))) h
  case i3cRailWrite k v =>
    refine .of_always (.i3cRailWrite k v) (outside ?_) h
    exact ⟨rfl, _, _, _, _, _, _, _, _, _, rfl⟩
  case i3cDynamicAddress a =>
    refine .of_always (.i3cDynamicAddress a) (outside ?_) h
    exact ⟨rfl, _, _, _, _, _, _, _, _, _, rfl⟩
  case faultLastRead => exact .of_always .faultLastRead (barRead_alwaysOnOnly hfault _ _) h
  case rcRegisterRead off size => exact .of_always (.rcRegisterRead off size) (barRead_alwaysOnOnly hfault off size) h

/-- Settles O7: a command that the fault state does not obey changes nothing, and one that it obeys stays within what is not claimed. -/
theorem faultStateIsLeftByResetOnly : Obligations.FaultStateIsLeftByResetOnly := by
  unfold Obligations.FaultStateIsLeftByResetOnly
  intro s t c hfault hreset hcold h
  have hkept : AlwaysOnOnly s t := by
    rcases exec_guarded c s with ⟨hobeyed, _⟩ | ⟨_, u, hguard⟩
    · exact exec_alwaysOnOnly hfault hreset hcold hobeyed h
    · rw [hguard, whenAlive] at h
      split at h
      · cases h
        rw [if_neg (by simp [alive_of_faultState s hfault])]
        exact .refl s
      · cases h
  obtain ⟨hpin, _, _, _, _, _, _, _, _, _, rfl⟩ := hkept
  exact ⟨hfault, hpin.trans hreset, rfl, rfl, rfl, rfl, rfl, rfl, rfl, rfl, rfl, rfl, rfl, rfl⟩

/-! ### Commands that stop, and a part that is dead (R305, R345, R390) -/

/-- Settles O3: each command is guarded by `always` or `whenAlive`, which say what an ill-formed one and a dead part answer. -/
theorem commandsStopOnlyWhenIllFormed : Obligations.CommandsStopOnlyWhenIllFormed := by
  refine ⟨fun c s => ?_, fun c s hwf hdead hobeyed => ?_⟩
  · rcases exec_guarded c s with ⟨_, t, h⟩ | ⟨_, t, h⟩
    · exact ⟨fun hwf => h.trans (always_fault c t hwf), fun hwf => ⟨_, h.trans (always_next c t hwf), trivial⟩⟩
    · refine ⟨fun hwf => h.trans (whenAlive_fault c s t hwf), fun hwf => ?_⟩
      exact ⟨if alive s then t else s, h.trans (if_pos hwf), trivial⟩
  · rcases exec_guarded c s with ⟨hobeys, _⟩ | ⟨_, t, h⟩
    · rw [hobeyed] at hobeys
      cases hobeys
    · exact h.trans (whenAlive_idle c s t hwf hdead)

end Sys2Proof.Machine
end

section
/-! SUPPORT. The time unit: its registers, the packets that it exchanges, and what an exchange makes of it; and the registers that a
write finds locked, clamped or reserved. -/

namespace Sys2Proof.Machine

open Sys2Proof

/-! ### The registers of the time unit (R303, R405, R406) -/

/-- A command of the time unit's registers on a part that is alive. -/
theorem whenAlive_fitting {v n : Nat} {c : Instr} {s : State} (t : State) (ha : alive s = true) (hv : fits n v = true)
    (hwf : c.wf = fits n v) : whenAlive c s t = .next t := whenAlive_next c s t (hwf.trans hv) ha

/-- A new source without a job: the unit starts afresh, and its time and its trim go on. -/
theorem changeSource_idle (s : State) (v : Nat) : ∃ power i3c cnt, changeSource s v false =
    { s with
      time := { s.time with
        source := v % 4, sourceLane := fld v 8 7, pendSource := none, exch := none, good := 0, bad := 0, missed := 0, state := 0 }
      power := power, i3c := i3c, cnt := cnt } := by
  obtain ⟨cnt, hstate⟩ := setTimeState_frame { s with time := { s.time with
    source := v % 4, sourceLane := fld v 8 7, pendSource := none, exch := none, good := 0, bad := 0, missed := 0 } } 0
  obtain ⟨power, i3c, hdrains⟩ := recheckDrains_powerOnly (setTimeState { s with time := { s.time with
    source := v % 4, sourceLane := fld v 8 7, pendSource := none, exch := none, good := 0, bad := 0, missed := 0 } } 0)
  exact ⟨power, i3c, cnt, hdrains.trans (by rw [hstate])⟩

/-- A write of TIME_SOURCE without a job. -/
theorem exec_timeSourceWrite {s : State} {v : Nat} (ha : alive s = true) (hv : fits 8 v = true) (hjob : jobExists s = false) :
    exec (.timeSourceWrite v) s = .next (changeSource s v false) :=
  (whenAlive_fitting _ ha hv rfl).trans (by rw [opTimeSource, if_neg (by simp [hjob])])

/-- Settles O13: TIME_TRIM is software's or the servo's by the source, and a new source leaves it. -/
theorem timeTrimIsClampedOrLocked : Obligations.TimeTrimIsClampedOrLocked := by
  unfold Obligations.TimeTrimIsClampedOrLocked
  intro s v ha hv
  refine ⟨fun hnone => ?_, fun hsource => ?_, fun hjob hv4 => ?_⟩
  · have hwrite : opTimeTrim s v = { s with time.trim := clampI (-50000000) 50000000 (sint 32 v) } := if_neg (by simp [hnone])
    exact ⟨_, (whenAlive_fitting (c := .timeTrimWrite v) _ ha hv rfl).trans (congrArg _ hwrite), rfl, rfl⟩
  · refine (whenAlive_fitting (c := .timeTrimWrite v) _ ha hv rfl).trans ?_
    rw [opTimeTrim, if_pos hsource]
    rfl
  · obtain ⟨_, _, _, hchange⟩ := changeSource_idle s v
    exact ⟨_, (exec_timeSourceWrite ha hv hjob).trans (congrArg _ hchange), hv4, rfl⟩

/-- R405, R303, R34: the registers in O14. -/
theorem timeRegistersReadStepAndSelect : Claim.TimeRegistersReadStepAndSelect := by
  unfold Claim.TimeRegistersReadStepAndSelect
  intro s v ha hv
  have hstep := whenAlive_fitting (c := .timeStep v) (opTimeStep s v) ha hv rfl
  have hseconds := whenAlive_fitting (c := .timeSecondsWrite v) (opTimeSeconds s v) ha hv rfl
  refine ⟨whenAlive_next .timeSecondsRead s _ rfl ha, fun hjob => ⟨?_, ?_, fun hstate hns => ?_⟩, fun hlocked => ?_,
    fun hjob => ⟨?_, ?_⟩⟩
  · exact hseconds.trans (by rw [opTimeSeconds, if_neg (by simp [hjob])])
  · obtain ⟨_, _, _, hchange⟩ := changeSource_idle s v
    exact ⟨_, (exec_timeSourceWrite ha hv hjob).trans (congrArg _ hchange), rfl, rfl, rfl, rfl, rfl, rfl, rfl, rfl⟩
  · have hopen : ¬ (jobExists s || decide (2 ≤ s.time.state) || decide (1000000000 ≤ v)) = true := by
      simp only [hjob, Bool.false_or, Bool.or_eq_true, decide_eq_true_eq]
      omega
    exact ⟨_, hstep.trans (by rw [opTimeStep, if_neg hopen]), rfl, rfl⟩
  · refine hstep.trans ?_
    rw [opTimeStep, if_pos (by simpa [or_assoc] using hlocked)]
    rfl
  · exact hseconds.trans (by rw [opTimeSeconds, if_pos hjob]; rfl)
  · exact (whenAlive_fitting (c := .timeSourceWrite v) _ ha hv rfl).trans (by rw [opTimeSource, if_pos hjob])

/-! ### TIME packets (R275, Table 10.13) -/

/-- The fields of a TIME payload before T. -/
theorem timePayload_fields (s : State) (msg seq err t : Nat) (withT : Bool) :
    rd (timePayload s msg seq err t withT) 0 1 = msg % 256 ∧ rd (timePayload s msg seq err t withT) 2 2 = seq % 65536 ∧
    rd (timePayload s msg seq err t withT) 4 4 = err % 2 ^ 32 := by
  simp only [timePayload, List.append_assoc]
  refine ⟨?_, ?_, ?_⟩ <;> simp [rd_append_right, rd_leBytes]

/-- What follows them. -/
theorem timePayload_drop (s : State) (msg seq err t : Nat) (withT : Bool) :
    (timePayload s msg seq err t withT).drop 8 = (if withT then ptpBytes t else List.replicate 10 0) ++ leBytes 14 0 := by
  rw [timePayload, List.append_assoc]
  exact List.drop_left' (by simp)

/-- A T that is still 0. -/
theorem timePayload_noTime (s : State) (msg seq err t : Nat) :
    (timePayload s msg seq err t false).drop 8 = List.replicate 24 0 := timePayload_drop s msg seq err t false

/-- A time of 48 bits of seconds comes back from its PTP form in whole nanoseconds. -/
theorem ptpTime_ptpBytes {t : Nat} (ht : t < 2 ^ 48 * unitsPerSec) (bs : List Byte) :
    ptpTime (ptpBytes t ++ bs) = t / 65536 * 65536 := by
  have hsec : timeSec t % 256 ^ 6 = t / unitsPerSec := Nat.mod_eq_of_lt (Nat.div_lt_of_lt_mul (by rwa [Nat.mul_comm] at ht))
  have hns : timeNs t % 256 ^ 4 = t % unitsPerSec / 65536 := by
    refine Nat.mod_eq_of_lt (Nat.div_lt_of_lt_mul ((Nat.mod_lt t (by decide)).trans ?_))
    decide
  simp only [ptpTime, ptpBytes, List.append_assoc]
  rw [rd_leBytes, rd_append_right _ _ _ _ (by simp), leBytes_length, Nat.sub_self, rd_leBytes, hsec, hns]
  simp only [unitsPerSec]
  omega

/-- The TIME packet that carries a payload. -/
def timePacket (s : State) (pay : List Byte) : Packet :=
  { typ := 5, flags := 10, cls := 2, status := 0, dst := 0xFFFFFF, src := s.glob.deviceId, window := 0, elemFmt := 0, length := 32
    tag := 0, addr := 0, gen := 0, frame := currentFrame s, hops := 0, payload := pay }

/-- Over a port that is UP it leaves as it is. -/
theorem sendTime_up {s : State} {p : Nat} (pay : List Byte) (hup : portUp s p = true) :
    sendTime s p pay = enqueue s p 1 (timePacket s pay) := by
  have hflags : 10 ||| 2 = 10 := by decide
  unfold sendTime sendNeighbour
  rw [if_pos hup]
  simp only [hflags, timePacket]

theorem timePacket_neighbour (s : State) (pay : List Byte) : (timePacket s pay).neighbour = true := by
  show Nat.testBit 10 1 = true
  decide

theorem rd_two_lt (bs : List Byte) (off : Nat) : rd bs off 2 < 65536 := rd_lt bs off 2

theorem syncErr_lt (s : State) : syncErr s < 2 ^ 32 := by
  unfold syncErr sat32 satN
  omega

/-- R275: the packets in O14. -/
theorem timePacketsAreExchanged : Claim.TimePacketsAreExchanged := by
  unfold Claim.TimePacketsAreExchanged
  intro s n t2 t3 t4 pay ha hn hup hlen
  have hlane : isLane n = true := decide_eq_true hn
  refine ⟨?_, fun htyp => ?_, fun htyp hours => ?_⟩
  · have hexec : exec (.syncSend n) s = .next (enqueue { s with time.syncSeq := (s.time.syncSeq + 1) % 65536 } (portOf s n) 1
        (timePacket { s with time.syncSeq := (s.time.syncSeq + 1) % 65536 }
          (timePayload s 1 ((s.time.syncSeq + 1) % 65536) (syncErr s) 0 false))) :=
      (whenAlive_next (.syncSend n) s _ hlane ha).trans
        (congrArg _ (sendTime_up (s := { s with time.syncSeq := (s.time.syncSeq + 1) % 65536 }) _ hup))
    obtain ⟨hmsg, hseq, _⟩ := timePayload_fields s 1 ((s.time.syncSeq + 1) % 65536) (syncErr s) 0 false
    refine ⟨_, hexec, rfl, _, port_enqueue_self _ _ _ _, rfl, timePacket_neighbour _ _, rfl, hmsg, hseq.trans (Nat.mod_mod _ _), ?_⟩
    exact timePayload_noTime s 1 _ _ 0
  · have hexec : exec (.delayReqReceive n pay t4) s = .next (enqueue s (portOf s n) 1 (timePacket s
        (timePayload s 3 (rd pay 2 2) (syncErr s) (t4 - (lane s n).rxDelay) true))) := by
      refine (whenAlive_next (.delayReqReceive n pay t4) s _ (by simp [Instr.wf, hlane, hlen]) ha).trans ?_
      rw [if_neg (by simp [htyp]), sendTime_up _ hup]
    obtain ⟨hmsg, hseq, _⟩ := timePayload_fields s 3 (rd pay 2 2) (syncErr s) (t4 - (lane s n).rxDelay) true
    refine ⟨_, hexec, rfl, _, port_enqueue_self _ _ _ _, rfl, hmsg, hseq.trans (Nat.mod_eq_of_lt (rd_two_lt pay 2)), fun h4 => ?_⟩
    show ptpTime ((timePayload _ _ _ _ _ _).drop 8) = _
    rw [timePayload_drop, if_pos rfl, ptpTime_ptpBytes (by omega)]
  · let e : Exchange :=
      { seq := rd pay 2 2, t1 := ptpTime (pay.drop 8), t2 := t2 - (lane s n).rxDelay, t3 := t3 + (lane s n).txDelay,
        errBound := rd pay 4 4, locked := rd pay 1 1 == 2 }
    have hexec : exec (.syncReceive n pay t2 t3) s = .next (enqueue { s with time.exch := some e } (portOf s n) 1
        (timePacket { s with time.exch := some e } (timePayload s 2 (rd pay 2 2) (syncErr s) 0 false))) := by
      refine (whenAlive_next (.syncReceive n pay t2 t3) s _ (by simp [Instr.wf, hlane, hlen]) ha).trans ?_
      rw [opSyncReceive, if_neg (by simp [hours, htyp])]
      exact congrArg _ (sendTime_up (s := { s with time.exch := some e }) _ hup)
    obtain ⟨hmsg, hseq, herr⟩ := timePayload_fields s 2 (rd pay 2 2) (syncErr s) 0 false
    refine ⟨_, hexec, rfl, ⟨e, rfl, rfl, rfl, rfl, rfl⟩, _, port_enqueue_self _ _ _ _, rfl, hmsg,
      hseq.trans (Nat.mod_eq_of_lt (rd_two_lt pay 2)), herr.trans (Nat.mod_eq_of_lt (syncErr_lt s)), ?_⟩
    exact timePayload_noTime s 2 _ _ 0

/-! ### What an exchange makes of the unit (R276, R277, Table 2.1) -/

theorem clampI_bounds {lo hi : Int} (h : lo ≤ hi) (v : Int) : lo ≤ clampI lo hi v ∧ clampI lo hi v ≤ hi := by
  unfold clampI
  omega

/-- The time unit after a valid exchange, before the servo slews it and its state follows. -/
def exchanged (s : State) (offset : Int) (figure : Nat) : TimeUnit :=
  { s.time with
    offset := clampI (-(2 ^ 31)) (2 ^ 31 - 1) (offset / 256), bound := figure, exch := none, missed := 0
    good := if decide (figure ≤ band) then s.time.good + 1 else 0, bad := if decide (figure ≤ band) then 0 else s.time.bad + 1 }

/-- An exchange within ±18 ns is one more of its run (R35). -/
theorem exchanged_good (s : State) (offset : Int) (figure : Nat) :
    (exchanged s offset figure).good = if figure ≤ 18 * 65536 then s.time.good + 1 else 0 := by
  by_cases h : figure ≤ 18 * 65536 <;> simp [exchanged, band, h]

/-- The state that the counts of exchanges give the unit. -/
def countedState (t : State) : State :=
  let u := if t.time.state = 0 then setTimeState t 1 else t
  if 16 ≤ u.time.good then setTimeState u 2
  else if u.time.state = 2 && 4 ≤ u.time.bad then setTimeState u 3 else u

theorem exchangeDone_eq (s : State) (offset : Int) (figure : Nat) :
    exchangeDone s offset figure = countedState (servoTrim { s with time := exchanged s offset figure }) := rfl

/-- Only the state moves, with its count, and 16 good exchanges in a row lock the unit. -/
theorem countedState_frame (t : State) : ∃ st cnt,
    countedState t = { t with time := { t.time with state := st }, cnt := cnt } ∧ (16 ≤ t.time.good → st = 2) := by
  have hstart : ∃ st cnt, (if t.time.state = 0 then setTimeState t 1 else t) =
      { t with time := { t.time with state := st }, cnt := cnt } := by
    split
    · obtain ⟨cnt, h⟩ := setTimeState_frame t 1
      exact ⟨1, cnt, h⟩
    · exact ⟨_, _, rfl⟩
  obtain ⟨st₀, cnt₀, hstart⟩ := hstart
  have hset := setTimeState_frame { t with time := { t.time with state := st₀ }, cnt := cnt₀ }
  unfold countedState
  rw [hstart]
  dsimp only
  split
  · obtain ⟨cnt, h⟩ := hset 2
    exact ⟨2, cnt, h, fun _ => rfl⟩
  case isFalse hfew =>
    split
    · obtain ⟨cnt, h⟩ := hset 3
      exact ⟨3, cnt, h, fun hmany => absurd hmany hfew⟩
    · exact ⟨st₀, cnt₀, rfl, fun hmany => absurd hmany hfew⟩

/-- The state of the unit after a missed exchange: the fourth in a row ends LOCKED. -/
theorem exchangeMissed_state (s : State) :
    (exchangeMissed s).time.state = if s.time.state = 2 ∧ 3 ≤ s.time.missed then 3 else s.time.state := by
  unfold exchangeMissed
  dsimp only
  by_cases h : s.time.state = 2 ∧ 3 ≤ s.time.missed
  · obtain ⟨cnt, hset⟩ :=
      setTimeState_frame { s with time := { s.time with exch := none, missed := s.time.missed + 1, good := 0 } } 3
    rw [if_pos h, if_pos (by simpa using h), hset]
  · rw [if_neg h, if_neg (by simpa using h)]

/-- R276, R277, Table 2.1: the exchanges in O14. -/
theorem timeExchangesSteerTheUnit : Claim.TimeExchangesSteerTheUnit := by
  unfold Claim.TimeExchangesSteerTheUnit
  intro s n pay e ha hn hlen
  refine ⟨fun hexch hours htyp hseq hlocked => ?_, fun hsource => ?_⟩
  · intro off bound
    have hexec : exec (.delayRespReceive n pay) s = .next (exchangeDone
        { s with time.pathDelay := (((e.t2 : Int) - e.t1) + ((ptpTime (pay.drop 8) : Int) - e.t3)) / 2 } off bound) := by
      refine (whenAlive_next (.delayRespReceive n pay) s _ (by simp [Instr.wf, isLane, hn, hlen]) ha).trans ?_
      simp only [opDelayResp, hexch]
      rw [if_neg (by simp [hours, htyp, hseq]), if_neg (by simp [hlocked])]
    let path : Int := (((e.t2 : Int) - e.t1) + ((ptpTime (pay.drop 8) : Int) - e.t3)) / 2
    obtain ⟨st, cnt, hdone, hlock⟩ := countedState_frame
      (servoTrim { s with time := exchanged { s with time.pathDelay := path } off bound })
    have hgood : (exchanged { s with time.pathDelay := path } off bound).good =
        if bound ≤ 18 * 65536 then s.time.good + 1 else 0 := exchanged_good _ _ _
    have htrim := clampI_bounds (lo := -50000000) (hi := 50000000) (by decide) ((Config.freeNat s.free : Int) - 50000000)
    refine ⟨_, hexec.trans (congrArg _ ((exchangeDone_eq _ off bound).trans hdone)), rfl, rfl, rfl, rfl, rfl, rfl, hgood, fun hband hmany => hlock ?_, rfl, htrim⟩
    show 16 ≤ (exchanged { s with time.pathDelay := path } off bound).good
    rw [hgood, if_pos hband]
    omega
  · obtain ⟨st, cnt, hframe⟩ := exchangeMissed_frame s
    have hexec : exec .timeExchangeMissed s = .next (exchangeMissed s) :=
      (whenAlive_next .timeExchangeMissed s _ rfl ha).trans (by rw [if_pos hsource])
    have hstate := exchangeMissed_state s
    rw [hframe] at hexec hstate
    exact ⟨_, hexec, rfl, rfl, rfl, rfl, hstate⟩

/-- Settles O14, part by part. -/
theorem timeUnitKeepsTime : Obligations.TimeUnitKeepsTime :=
  ⟨timeRegistersReadStepAndSelect, timePacketsAreExchanged, timeExchangesSteerTheUnit⟩

/-! ### Register writes that are locked, clamped or reserved (R397, R398) -/

theorem regKind_deviceId : regKind 0x10 = some ⟨false, false⟩ := rfl
theorem regKind_powerLimit : regKind 0x43100 = some ⟨true, false⟩ := rfl
@[simp] theorem regStore_deviceId (s : State) (v : Nat) : regStore s 0x10 v = { s with glob.deviceId := v % 2 ^ 24 } := rfl
@[simp] theorem regStore_powerLimit (s : State) (v : Nat) :
    regStore s 0x43100 v = { s with power.limitSupv := clampN 450 850 (v % 2 ^ 10) } := rfl

/-- A register of 32 bits written whole. -/
theorem halfWrite_narrow (s : State) (k : RegKind) (a v : Nat) (hnarrow : k.wide = false) (hslot : a % 8 = 0) :
    halfWrite s k a 4 v = regStore s a (v % 2 ^ 32) := by
  have hbase : a - a % 8 = a := by omega
  simp [halfWrite, hnarrow, hslot]

/-- A register that software may not write at run time is locked while a job exists (R398). -/
theorem regWrite_locked (s : State) (path : Path) (k : RegKind) (off size v : Nat) (hacc : regAccess off size = true)
    (hdb : inDoorbells off = false) (hmsix : msixSlot (off - off % 8) = false) (hk : regKind (off - off % 8) = some k)
    (hjob : jobExists s = true) (hrun : k.run = false) : regWrite s path off size v = devEvent s 0x51 1 := by
  simp [regWrite, hacc, hdb, hmsix, hk, hjob, hrun, locked]

/-- An access that BAR0 does not support does nothing (R8). -/
theorem regWrite_unsupported (s : State) (path : Path) (off size v : Nat) (hacc : regAccess off size = false) :
    regWrite s path off size v = s := by
  simp [regWrite, hacc]

/-- Nor does a write to a reserved slot (R397). -/
theorem regWrite_reserved (s : State) (path : Path) (off size v : Nat) (hdb : inDoorbells off = false)
    (hmsix : msixSlot (off - off % 8) = false) (hk : regKind (off - off % 8) = none) : regWrite s path off size v = s := by
  simp [regWrite, hdb, hmsix, hk]

/-- Settles O18: each write is one of `regWrite`'s branches, by the row of its register. -/
theorem registerWritesFollowTheirRows : Obligations.RegisterWritesFollowTheirRows := by
  unfold Obligations.RegisterWritesFollowTheirRows
  intro s off size v path ha hv
  have hmod : v % 2 ^ 32 % 2 ^ 24 = v % 2 ^ 24 ∧ v % 2 ^ 32 % 2 ^ 10 = v % 2 ^ 10 := by omega
  refine ⟨fun hjob => ?_, fun hjob => ?_, ?_, fun hoff hsize hacc => ?_, fun hoff hsize hdb hmsix hk => ?_⟩
  · rw [exec_registerWrite s .bar0 0x10 4 v ha (by decide) (by decide) hv,
      regWrite_accepted s .bar0 _ 0x10 4 v rfl rfl rfl regKind_deviceId (.inl rfl) (.inr hjob),
      halfWrite_narrow s _ 0x10 v rfl rfl, regStore_deviceId, hmod.1]
  · rw [exec_registerWrite s .bar0 0x10 4 v ha (by decide) (by decide) hv,
      regWrite_locked s .bar0 _ 0x10 4 v rfl rfl rfl regKind_deviceId hjob rfl]
  · rw [exec_registerWrite s path 0x43100 4 v ha (by decide) (by decide) hv,
      regWrite_accepted s path _ 0x43100 4 v rfl rfl rfl regKind_powerLimit (.inr (by decide)) (.inl rfl),
      halfWrite_narrow s _ 0x43100 v rfl rfl, regStore_powerLimit, hmod.2]
  · rw [exec_registerWrite s path off size v ha hoff hsize hv, regWrite_unsupported s path off size v hacc]
  · rw [exec_registerWrite s path off size v ha hoff hsize hv, regWrite_reserved s path off size v hdb hmsix hk]

end Sys2Proof.Machine
end

section
/-! SUPPORT. The route load; the counters: their selections, what is read of them after an update, and the
snapshot of the seam. -/

namespace Sys2Proof.Machine

open Sys2Proof

/-! ### The route load (R263, R403) -/

/-- A load that fails leaves the routers as they are and reports its error. -/
def routeFailed (s : State) : State := { s with glob := { s.glob with routePending := false, routeError := true } }

/-- A load that passes, before its lines are counted. -/
def routeLoaded (s : State) (es : List Route) : State :=
  recheckDrains
    { s with glob := { s.glob with routePending := false, routeDone := true }, fab := { s.fab with routes := es } }

/-- The entries of the route table in memory. -/
def routeTable (s : State) : List (List Byte) :=
  (List.range s.glob.routeCount).map (fun i => peek s (s.glob.routeTable + 16 * i) 16)

/-- A load from installed memory without bad lines: what its entries say, with the lines that it reads counted. -/
theorem routeCopy_read {s : State} (hin : installed s s.glob.routeTable (16 * s.glob.routeCount) = true)
    (hgood : badLine s s.glob.routeTable (16 * s.glob.routeCount) = none) : routeCopy s =
      noteRead (if (routeTable s).all routeEntryOk then routeLoaded s ((routeTable s).map routeEntry) else routeFailed s)
        s.glob.routeTable (16 * s.glob.routeCount) := by
  have hthere : ¬ (!installed s s.glob.routeTable (16 * s.glob.routeCount)) = true := by simp [hin]
  unfold routeCopy
  refine (if_neg hthere).trans ?_
  dsimp only
  split
  next l hbad => exact absurd (hbad.symm.trans hgood) (by simp)
  next => rfl

/-- R263, R403: the route load of O21. -/
theorem routeLoadCopiesTheTable : Claim.RouteLoadCopiesTheTable := by
  unfold Claim.RouteLoadCopiesTheTable
  intro s ha a n
  have hexec : exec .routeLoad s = .next (opRouteLoad s) := whenAlive_next .routeLoad s _ rfl ha
  have hidle (hlive : s.frame.live = false) : opRouteLoad s = routeCopy s := if_neg (by simp [hlive])
  refine ⟨fun hlive hin hgood hcorr hok => ?_, fun hlive hout => ?_, fun hlive hin hgood hcorr hbad => ?_, fun hlive => ?_⟩
  · have hall : (routeTable s).all routeEntryOk = true := by simpa [routeTable] using hok
    obtain ⟨power, i3c, hdrains⟩ := recheckDrains_powerOnly
      { s with
        glob := { s.glob with routePending := false, routeDone := true }
        fab := { s.fab with routes := (routeTable s).map routeEntry } }
    obtain ⟨cnt, hcount⟩ := noteRead_countOnly (routeLoaded s ((routeTable s).map routeEntry)) s.glob.routeTable
      (16 * s.glob.routeCount) (by rw [routeLoaded, hdrains]; exact hcorr)
    refine ⟨_, hexec.trans (congrArg _ ((hidle hlive).trans (routeCopy_read hin hgood))), ?_⟩
    rw [if_pos hall, hcount, routeLoaded, hdrains]
    exact ⟨rfl, List.map_map⟩
  · have haway : (!installed s a (16 * n)) = true := by simp [hout]
    exact hexec.trans (congrArg _ ((hidle hlive).trans (if_pos haway)))
  · have hsome : ¬ (routeTable s).all routeEntryOk = true := by
      obtain ⟨i, hi, hwrong⟩ := hbad
      simp only [routeTable, List.all_map, List.all_eq_true, List.mem_range, not_forall]
      exact ⟨i, hi, by simpa using hwrong⟩
    obtain ⟨cnt, hcount⟩ := noteRead_countOnly (routeFailed s) s.glob.routeTable (16 * s.glob.routeCount) hcorr
    refine ⟨_, hexec.trans (congrArg _ ((hidle hlive).trans (routeCopy_read hin hgood))), ?_⟩
    rw [if_neg hsome, hcount]
    rfl
  · exact hexec.trans (congrArg _ (if_pos hlive))

/-! ### What is read of a counter after an update (R365) -/

/-- A table whose every entry has been replaced, the default with it. -/
theorem tget_map {α : Type} (l : Tbl α) (f : Nat → α → α) (k : Nat) (d : α) :
    tget (l.map (fun x => (x.1, f x.1 x.2))) k (f k d) = f k (tget l k d) := by
  induction l with
  | nil => rfl
  | cons x xs ih =>
    obtain ⟨j, v⟩ := x
    simp only [List.map_cons, tget]
    split
    case isTrue h => rw [h]
    case isFalse => exact ih

/-- A counter outside the range of an event, or one inside it that adds to it. -/
theorem ctr_countIn (s : State) (lo hi : Nat) (f : Counter → Nat) (h0 : f {} = 0) (k : Nat) :
    ctr (countIn s lo hi f) k = if lo ≤ k ∧ k < hi then (ctr s k).add (f (ctr s k)) else ctr s k := by
  have hmap := tget_map s.cnt.ctr (fun j c => if lo ≤ j ∧ j < hi then c.add (f c) else c) k {}
  have hdefault : (if lo ≤ k ∧ k < hi then ({} : Counter).add (f {}) else {}) = {} := by
    split
    · rw [h0]
      rfl
    · rfl
  rw [hdefault] at hmap
  have hlist : (countIn s lo hi f).cnt.ctr =
      s.cnt.ctr.map (fun x => (x.1, if lo ≤ x.1 ∧ x.1 < hi then x.2.add (f x.2) else x.2)) := by
    refine List.map_congr_left (fun x _ => ?_)
    by_cases hx : lo ≤ x.1 ∧ x.1 < hi <;> simp [hx]
  rw [ctr, hlist]
  exact hmap

/-- A selector that has been cleared in favour of 0 does not count the event that tells of it. -/
theorem ctr_devEvent_unselected {s : State} {k : Nat} (code n : Nat) (hcode : code ≠ 0) (hk : k < 32) (hsel : (ctr s k).sel = 0) :
    ctr (devEvent s code n) k = (ctr s k).add 0 := by
  have hnone (c : Counter) (h : c.sel = 0) : signalAdd code n n c = 0 := by
    rw [signalAdd, if_neg (by rw [h]; omega)]
  have hcount := ctr_countIn s 0 32 (signalAdd code n n) (hnone {} rfl) k
  rw [if_pos ⟨Nat.zero_le k, hk⟩, hnone _ hsel] at hcount
  exact hcount

/-- Every counter zeroed keeps its selection. -/
theorem ctr_clearAll (s : State) (k : Nat) : ctr (clearAll s) k = { ctr s k with val := 0, wrapped := false } :=
  tget_map s.cnt.ctr (fun _ c => { c with val := 0, wrapped := false }) k {}

/-! ### Selections (R365, R368, R369) -/

/-- The selection of a device-wide counter: no filters, and a code that is not listed, or MODE 3, stands for 0. -/
theorem selectOf_device {k : Nat} (hk : k < 32) (v : Nat) :
    selectOf k v = if (v % 256 ≠ 0 && !codeListed 0 (v % 256)) || fld v 8 2 = 3 then (0, true) else (v % 2 ^ 10, false) := by
  simp [selectOf, ctrKind, hk]

/-- A selector of the COUNTER page (Table 17.9). -/
theorem selAt_device {k : Nat} (hk : k < 32) : selAt (0x60000 + 8 * k) = some k := by
  have hslot : (0x60000 + 8 * k) % 8 = 0 := by omega
  have hpage : 0x60000 ≤ 0x60000 + 8 * k ∧ 0x60000 + 8 * k < 0x60100 := by omega
  simp [selAt, hslot, hpage]

/-- A selector in force: its counter is zeroed and marked, and no other counter changes but by the event of a code
that is not listed. -/
theorem applySel_device {s : State} {k : Nat} (hk : k < 32) (v : Nat) :
    (ctr (applySel s k v) k).sel = (selectOf k v).1 ∧ (ctr (applySel s k v) k).resel = true ∧
    (ctr (applySel s k v) k).wrapped = false ∧ ((selectOf k v).2 = false → (ctr (applySel s k v) k).val = 0 ∧
      ∀ j, j ≠ k → ctr (applySel s k v) j = ctr s j) := by
  unfold applySel
  dsimp only
  split
  case isTrue hcleared =>
    have hsel : (selectOf k v).1 = 0 := by
      rw [selectOf_device hk] at hcleared ⊢
      split at hcleared
      case isTrue h => rw [if_pos h]
      case isFalse => cases hcleared
    have hat := ctr_devEvent_unselected (s := setCtr s k
      { sel := (selectOf k v).1, val := 0, wrapped := false, resel := true, pend := none }) 0x5F 1 (by decide) hk
      (by rw [ctr_setCtr]; exact hsel)
    rw [hat, ctr_setCtr]
    exact ⟨rfl, rfl, rfl, fun h => absurd hcleared (by simp [h])⟩
  case isFalse =>
    rw [ctr_setCtr]
    exact ⟨rfl, rfl, rfl, fun _ => ⟨rfl, fun j hj => ctr_setCtr_ne _ _ _ _ hj⟩⟩

/-- R365, R368, R369: the selections of O21. -/
theorem countersAreSelectedAndCleared : Claim.CountersAreSelectedAndCleared := by
  unfold Claim.CountersAreSelectedAndCleared
  intro s k v ha hk hv
  have hsel : exec (.counterSelectWrite (0x60000 + 8 * k) v) s = .next (writeSel s k v) := by
    refine (whenAlive_next (.counterSelectWrite (0x60000 + 8 * k) v) s _ ?_ ha).trans ?_
    · have hoff : 0x60000 + 8 * k < 0x4000000 := by omega
      simpa [Instr.wf, fits, hoff] using hv
    · simp only [opSelectWrite, selAt_device hk]
  have hclear : exec .counterClear s = .next (opCounterClear s) := whenAlive_next .counterClear s _ rfl ha
  refine ⟨fun hlive => ⟨?_, ?_⟩, fun hlive => ⟨?_, ?_⟩⟩
  · have hnow : writeSel s k v = applySel s k v := if_neg (by simp [framesRun, hlive])
    obtain ⟨cnt, hcount⟩ := applySel_countOnly s k v
    obtain ⟨hcode, hresel, hwrapped, hlisted⟩ := applySel_device (s := s) hk v
    refine ⟨_, hsel.trans (congrArg _ hnow), ?_, hcode, fun hlow => ?_, fun hmode => ?_, hresel, hwrapped,
      fun h => (hlisted h).1, fun h => (hlisted h).2⟩
    · rw [hcount]
    · rw [hcode, selectOf_device hk]
      split
      · rfl
      case isFalse hin =>
        have hunlisted : codeListed 0 (v % 256) = false := by
          simp only [codeListed, Bool.or_eq_false_iff, Bool.and_eq_false_iff, decide_eq_false_iff_not, beq_eq_false_iff_ne]
          omega
        have hzero : v % 256 = 0 := by
          by_contra hne
          exact hin (by simp [hne, hunlisted])
        show v % 2 ^ 10 % 256 = 0
        omega
    · rw [hcode, selectOf_device hk, if_pos (by simp [hmode])]
  · have hnow : opCounterClear s = clearAll s := if_neg (by simp [framesRun, hlive])
    refine ⟨_, hclear.trans (congrArg _ hnow), rfl, rfl, fun j => ?_⟩
    rw [ctr_clearAll]
    exact ⟨rfl, rfl, rfl⟩
  · have hlater : writeSel s k v = setCtr s k { ctr s k with pend := some v } := if_pos hlive
    exact ⟨_, hsel.trans (congrArg _ hlater), rfl, ctr_setCtr _ _ _⟩
  · exact hclear.trans (congrArg _ (if_pos hlive))

/-! ### The snapshot of the seam (R370 to R373) -/

/-- The state in the seam's cycle 256, or in a later one that has come. -/
def captureCycle (s : State) (time : TimeUnit) : State :=
  { s with time := time, frame := { s.frame with cycle := max s.frame.cycle (s.frame.seamAt + 256) } }

theorem seamTo_captureCycle {s : State} (hseam : s.frame.seam = true) : ∃ time, seamTo s 256 = captureCycle s time := by
  have hcycle : s.frame.cycle + (s.frame.seamAt + 256 - s.frame.cycle) = max s.frame.cycle (s.frame.seamAt + 256) := by omega
  unfold captureCycle
  rw [← hcycle]
  exact ⟨_, if_pos hseam⟩

/-- The counter ring after a record: it takes it where it has room, and counts it as lost where it has none. -/
def snapRing (s : State) : OutRing :=
  if canWrite s s.rings.ctr then s.rings.ctr.pushed else { s.rings.ctr with lost := sat32 (s.rings.ctr.lost + 1) }

/-- The counters once a snapshot is taken: WRAPPED and RESEL start afresh. -/
def marksCleared (c : Counters) : Counters :=
  { c with skipped := 0, reselAll := false, ctr := c.ctr.map (fun x => (x.1, { x.2 with wrapped := false, resel := false })) }

/-- What the record of a snapshot changes beside its report. -/
def snapped (s : State) : State :=
  { s with cnt := { s.cnt with snapSeq := (s.cnt.snapSeq + 1) % 2 ^ 32 }, rings := { s.rings with ctr := snapRing s } }

/-- A capture: the number and the ring of its record, the report, and the marks. -/
theorem capture_frame (s : State) (periodic requested : Bool) : ∃ u, Reported (snapped s) u ∧ RingsKept (snapped s) u ∧
    capture s periodic requested = { u with cnt := marksCleared u.cnt } := by
  unfold capture
  dsimp only
  split
  case isTrue hroom =>
    have hring : snapRing s = s.rings.ctr.pushed := if_pos hroom
    refine ⟨_, ?_, ?_, rfl⟩
    · rw [snapped, hring]
      exact hostRecord_reported _ _ _ _ _ _
    · rw [snapped, hring]
      exact hostRecord_ringsKept _ _ _ _ _ _
  case isFalse hfull =>
    have hring : snapRing s = { s.rings.ctr with lost := sat32 (s.rings.ctr.lost + 1) } := if_neg hfull
    refine ⟨_, ?_, ?_, rfl⟩
    · rw [snapped, hring]
      exact raiseVector_reported _ _
    · rw [snapped, hring]
      exact .of_eq (raiseVector_rings _ _)

theorem ctr_marksCleared (s : State) (k : Nat) :
    ctr { s with cnt := marksCleared s.cnt } k = { ctr s k with wrapped := false, resel := false } :=
  tget_map s.cnt.ctr (fun _ c => { c with wrapped := false, resel := false }) k {}

/-- Where no counter waits for the capture, only ranges and capture controls take effect after it (R369, R374). -/
theorem applyPending_nothing {s : State} (hclear : s.cnt.pendClear = false) (hnone : ∀ x ∈ s.cnt.ctr, x.2.pend = none) :
    ∃ range every user, applyPending s = { s with cnt := { s.cnt with
      range := range, snapEvery := every, pendEvery := none, userRead := user, pendUser := none } } := by
  have hwait : s.cnt.ctr.filterMap (fun x => x.2.pend.map (fun v => (x.1, v))) = [] :=
    List.filterMap_eq_nil_iff.mpr (fun x hx => by rw [hnone x hx]; rfl)
  unfold applyPending
  dsimp only
  rw [if_neg (by simp [hclear]), hwait]
  exact ⟨_, _, _, rfl⟩

/-- The snapshot requests taken from what is held. -/
def withoutSnaps (s : State) : State :=
  { s with rings := { s.rings with held := s.rings.held.filter (fun h => h.op ≠ .snapshot) } }

/-- A completion record leaves every ring but the completion rings as it is. -/
theorem complete_ringsKept (s : State) (h : Hdr) (status data : Nat) : RingsKept s (complete s h status data) := by
  unfold complete
  split <;> exact pushCq_ringsKept _ _ _ _ _

/-- Held requests complete: reports, and no more of them held. -/
theorem completeSnaps_frame (s : State) : Reported (withoutSnaps s) (completeSnaps s) ∧
    RingsKept (withoutSnaps s) (completeSnaps s) :=
  ⟨.foldl _ (fun t (h : Held) => complete_reported t h.hdr 0 0) _ _,
    List.foldlRecOn (motive := RingsKept (withoutSnaps s)) _ _ (RingsKept.refl _)
      (fun _ ht _ _ => ht.trans (complete_ringsKept _ _ _ _))⟩

/-- Without a request there is none to complete. -/
theorem completeSnaps_none {s : State} (h : ∀ x ∈ s.rings.held, x.op ≠ .snapshot) : completeSnaps s = s := by
  have hnone : s.rings.held.filter (fun x => decide (x.op = .snapshot)) = [] := List.filter_eq_nil_iff.mpr (by simpa using h)
  have hall : s.rings.held.filter (fun x => decide (x.op ≠ .snapshot)) = s.rings.held :=
    List.filter_eq_self.mpr (by simpa using h)
  unfold completeSnaps
  dsimp only
  rw [hnone, hall]
  rfl

/-- A snapshot is due by COUNTER_SNAP_EVERY. -/
def snapPeriodic (s : State) : Bool :=
  jobExists s && decide (s.cnt.snapEvery ≠ 0) && decide ((((currentFrame s) : Int) - s.job.f0) % s.cnt.snapEvery = 0)

/-- A snapshot is asked for. -/
def snapAsked (s : State) : Bool := s.rings.held.any (fun h => h.op = .snapshot)

/-- What waited takes effect, and the next phase of the seam is at hand. -/
def afterCapture (s : State) : State := applyPending { s with frame := { s.frame with phase := 1 } }

/-- The first phase of the seam (R370, R371, log 66): what is due is skipped, taken, or there is nothing to take. -/
theorem opCapture_phase {s u : State} (hseam : s.frame.seam = true) (hphase : s.frame.phase = 0) (hto : seamTo s 256 = u) :
    opCapture s =
      if (snapPeriodic u || snapAsked u) && captureBusy u then
        afterCapture { u with cnt := { u.cnt with skipped := sat32 (u.cnt.skipped + 1) } }
      else if snapPeriodic u || snapAsked u then completeSnaps (afterCapture (capture u (snapPeriodic u) (snapAsked u)))
      else completeSnaps (afterCapture u) := by
  subst hto
  unfold opCapture
  rw [if_neg (by simp [hseam, hphase])]
  dsimp only
  split
  case isTrue hskip => exact (if_pos hskip).symm
  case isFalse hskip =>
    refine Eq.trans ?_ (if_neg hskip).symm
    split
    case isTrue htake => exact (if_pos htake).symm
    case isFalse htake => exact (if_neg htake).symm

/-- What has waited takes effect where no counter waits: only ranges and capture controls change. -/
theorem afterCapture_nothing {s : State} (hclear : s.cnt.pendClear = false) (hnone : ∀ x ∈ s.cnt.ctr, x.2.pend = none) :
    ∃ range every user, afterCapture s = { s with
      frame := { s.frame with phase := 1 }
      cnt := { s.cnt with range := range, snapEvery := every, pendEvery := none, userRead := user, pendUser := none } } :=
  applyPending_nothing (s := { s with frame := { s.frame with phase := 1 } }) hclear hnone

/-- R370 to R373: the capture of O21. -/
theorem captureWritesTheSnapshot : Claim.CaptureWritesTheSnapshot := by
  unfold Claim.CaptureWritesTheSnapshot
  intro s ha hseam hphase hclear hnone
  obtain ⟨time, hto⟩ := seamTo_captureCycle hseam
  have hexec : exec .counterCapture s = .next (opCapture s) := whenAlive_next .counterCapture s _ rfl ha
  rw [opCapture_phase hseam hphase hto] at hexec
  have hasked (h : ∃ h ∈ s.rings.held, h.op = .snapshot) : snapAsked (captureCycle s time) = true := by
    simpa [snapAsked, captureCycle] using h
  refine ⟨fun hheld hfree _ => ?_, fun hheld hbusy => ?_, fun hheld hevery => ?_⟩
  · have hfree' : captureBusy (captureCycle s time) = false := hfree
    rw [hasked hheld, hfree', Bool.and_false, if_neg Bool.false_ne_true, Bool.or_true, if_pos rfl] at hexec
    obtain ⟨u, hreport, hrings, hcapture⟩ := capture_frame (captureCycle s time) (snapPeriodic (captureCycle s time)) true
    obtain ⟨_, _, _, _, _, _, _, hu⟩ := hreport.frame
    obtain ⟨_, _, _, _, hukept⟩ := hrings
    have hcnt : u.cnt = { s.cnt with snapSeq := (s.cnt.snapSeq + 1) % 2 ^ 32 } := by rw [hu]; rfl
    have hpend : ∀ x ∈ (marksCleared u.cnt).ctr, x.2.pend = none := by
      intro x hx
      obtain ⟨y, hy, rfl⟩ := List.mem_map.mp hx
      rw [hcnt] at hy
      exact hnone y hy
    obtain ⟨range, every, user, happly⟩ := afterCapture_nothing (s := { u with cnt := marksCleared u.cnt })
      (by rw [hcnt]; exact hclear) hpend
    rw [hcapture, happly] at hexec
    have hdone := completeSnaps_frame { u with
      frame := { u.frame with phase := 1 }
      cnt := { marksCleared u.cnt with range := range, snapEvery := every, pendEvery := none, userRead := user, pendUser := none } }
    refine ⟨_, hexec, ?_⟩
    generalize completeSnaps _ = t at hdone
    obtain ⟨hreports, _, _, _, _, hkept⟩ := hdone
    obtain ⟨_, _, _, _, _, _, _, ht⟩ := hreports.frame
    have hctr : t.rings.ctr = snapRing (captureCycle s time) := by rw [hkept]; exact congrArg (·.ctr) hukept
    refine ⟨by rw [ht]; rfl, by rw [ht, hu]; rfl, ?_, fun hroom => hctr.trans (if_pos hroom), fun hfull => hctr.trans (if_neg ?_),
      fun k => ?_, fun h hh => ?_, by rw [ht, hu]; rfl, ?_⟩
    · rw [ht]
      exact congrArg (·.snapSeq) hcnt
    · exact Bool.not_eq_true _ ▸ hfull
    · have hmark : ctr t k = { ctr s k with wrapped := false, resel := false } := by
        refine Eq.trans ?_ (ctr_marksCleared s k)
        rw [ht, ctr, ctr]
        show tget (marksCleared u.cnt).ctr k {} = _
        rw [hcnt]
        rfl
      rw [hmark]
      exact ⟨rfl, rfl, rfl⟩
    · rw [hkept] at hh
      exact of_decide_eq_true (List.mem_filter.mp hh).2
    · rw [hkept]
      exact congrArg (·.sq) hukept
  · have hbusy' : captureBusy (captureCycle s time) = true := hbusy
    rw [hasked hheld, hbusy', Bool.or_true, Bool.and_true, if_pos rfl] at hexec
    obtain ⟨range, every, user, happly⟩ := afterCapture_nothing (s := { captureCycle s time with
      cnt := { (captureCycle s time).cnt with skipped := sat32 ((captureCycle s time).cnt.skipped + 1) } }) hclear hnone
    rw [happly] at hexec
    exact ⟨_, hexec, rfl, rfl, rfl, rfl, fun _ => rfl, rfl⟩
  · have hnot : snapAsked (captureCycle s time) = false := by simpa [snapAsked, captureCycle] using hheld
    have hper : snapPeriodic (captureCycle s time) = false := by simp [snapPeriodic, captureCycle, hevery]
    obtain ⟨range, every, user, happly⟩ := afterCapture_nothing (s := captureCycle s time) hclear hnone
    rw [hnot, hper, Bool.or_false, Bool.false_and, if_neg Bool.false_ne_true, if_neg Bool.false_ne_true, happly] at hexec
    exact ⟨_, hexec.trans (congrArg _ (completeSnaps_none hheld)), rfl, rfl, rfl, fun _ => rfl⟩

/-- Settles O21: the route load, the selections, and the snapshot of the seam. -/
theorem routesAndCounters : Obligations.RoutesAndCounters :=
  ⟨routeLoadCopiesTheTable, countersAreSelectedAndCleared, captureWritesTheSnapshot⟩

end Sys2Proof.Machine
end

section
/-! SUPPORT. What votes, refreshes of the dependant votes and entry requests do to a power domain, and what they leave alone; the votes
by mask, a partner's vote, and the clearing of domain counters. -/

namespace Sys2Proof.Machine

open Sys2Proof

/-! ### The operations on one domain (R332, R334, R335) -/

/-- `t` differs from `s` only in the table of domains and in the interrupts that wait, none of which is lost. -/
def DomsOnly (s t : State) : Prop := ∃ table ibi,
  t = { s with power := { s.power with dom := table }, i3c := { s.i3c with ibi := ibi } } ∧ ∀ x ∈ s.i3c.ibi, x ∈ ibi

theorem DomsOnly.refl (s : State) : DomsOnly s s := ⟨_, _, rfl, fun _ h => h⟩

theorem DomsOnly.trans {s t u : State} (h : DomsOnly s t) (g : DomsOnly t u) : DomsOnly s u := by
  obtain ⟨_, _, rfl, h⟩ := h
  obtain ⟨_, _, rfl, g⟩ := g
  exact ⟨_, _, rfl, fun x hx => g x (h x hx)⟩

theorem DomsOnly.held {s t : State} (h : DomsOnly s t) : powerHeld t = powerHeld s := by
  obtain ⟨_, _, rfl, _⟩ := h
  rfl

theorem DomsOnly.powerOnly {s t : State} (h : DomsOnly s t) : PowerOnly s t := by
  obtain ⟨_, _, rfl, _⟩ := h
  exact ⟨_, _, rfl⟩

theorem DomsOnly.partner {s t : State} (h : DomsOnly s t) : t.power.partner = s.power.partner := by
  obtain ⟨_, _, rfl, _⟩ := h
  rfl

theorem PowerOnly.eq {s t : State} (h : PowerOnly s t) : t = { s with power := t.power, i3c := t.i3c } := by
  obtain ⟨_, _, rfl⟩ := h
  rfl

/-- `t` differs from `s` only in domain `n` and in the interrupts that wait. -/
structure InDomain (n : Nat) (s t : State) : Prop where
  doms : DomsOnly s t
  ne : ∀ m, m ≠ n → dom t m = dom s m

theorem InDomain.refl (n : Nat) (s : State) : InDomain n s s := ⟨.refl s, fun _ _ => rfl⟩

theorem InDomain.trans {n : Nat} {s t u : State} (h : InDomain n s t) (g : InDomain n t u) : InDomain n s u :=
  ⟨h.doms.trans g.doms, fun m hm => (g.ne m hm).trans (h.ne m hm)⟩

theorem setDom_inDomain (s : State) (n : Nat) (d : Domain) : InDomain n s (setDom s n d) :=
  ⟨⟨_, _, rfl, fun _ h => h⟩, fun m hm => dom_setDom_ne s n m d hm⟩

@[simp] theorem dom_raiseIbi (s : State) (b n : Nat) : dom (raiseIbi s b) n = dom s n := by
  obtain ⟨_, h, _⟩ := raiseIbi_frame s b
  rw [h]
  rfl

theorem raiseIbi_inDomain (n : Nat) (s : State) (b : Nat) : InDomain n s (raiseIbi s b) := by
  refine ⟨?_, fun m _ => dom_raiseIbi s b m⟩
  obtain ⟨_, h, _, hkept⟩ := raiseIbi_frame s b
  exact ⟨_, _, h, hkept⟩

theorem requestEntry_inDomain (s : State) (n : Nat) : InDomain n s (requestEntry s n) := by
  unfold requestEntry
  dsimp only
  split
  · exact .refl n s
  · split
    · split
      · exact (setDom_inDomain s n _).trans (raiseIbi_inDomain n _ 3)
      · exact setDom_inDomain s n _
    · exact setDom_inDomain s n _

theorem abortEntry_inDomain (s : State) (n refuser : Nat) : InDomain n s (abortEntry s n refuser) := by
  unfold abortEntry
  dsimp only
  split
  · exact (setDom_inDomain s n _).trans (raiseIbi_inDomain n _ 3)
  · exact setDom_inDomain s n _

theorem gainVote_inDomain (s : State) (n bit info : Nat) : InDomain n s (gainVote s n bit info) := by
  unfold gainVote
  dsimp only
  split
  · exact (setDom_inDomain s n _).trans (abortEntry_inDomain _ n _)
  · split <;> exact setDom_inDomain s n _

theorem loseVote_inDomain (s : State) (n bit : Nat) : InDomain n s (loseVote s n bit) := by
  unfold loseVote
  dsimp only
  split
  · exact .refl n s
  · exact (setDom_inDomain s n _).trans (requestEntry_inDomain _ n)

/-- A domain back to ON counts the abort and names its reason. -/
theorem dom_abortEntry (s : State) (n refuser : Nat) : dom (abortEntry s n refuser) n =
    { dom s n with state := 2, aborted := sat16 ((dom s n).aborted + 1), last := refuser } := by
  unfold abortEntry
  dsimp only
  split <;> simp

/-- A request for entry keeps the votes; it moves an unvoted domain that is ON to DRAIN, or leaves the state as it is. -/
theorem requestEntry_self (s : State) (n : Nat) : (dom (requestEntry s n) n).votes = (dom s n).votes ∧
    (dom (requestEntry s n) n).wakePending = (dom s n).wakePending ∧
    ((dom (requestEntry s n) n).state = (dom s n).state ∨
      (dom s n).state = 2 ∧ (dom s n).votes = 0 ∧ (dom (requestEntry s n) n).state = 3) := by
  unfold requestEntry
  dsimp only
  split
  case isTrue => exact ⟨rfl, rfl, .inl rfl⟩
  case isFalse h =>
    obtain ⟨hstate, hvotes⟩ : (dom s n).state = 2 ∧ (dom s n).votes = 0 := by simpa using h
    split
    · split <;> split <;> simp
    · simp [hstate, hvotes]

/-- A vote gained: DRAIN ends, a shutdown notes that a wake follows (R335, R339). -/
theorem gainVote_self (s : State) (n bit info : Nat) : (dom (gainVote s n bit info) n).votes = (dom s n).votes ||| 2 ^ bit ∧
    (dom (gainVote s n bit info) n).state = (if (dom s n).state = 3 then 2 else (dom s n).state) ∧
    ((dom s n).state ≠ 4 → (dom (gainVote s n bit info) n).wakePending = (dom s n).wakePending) := by
  unfold gainVote
  dsimp only
  split
  case isTrue h => simp [dom_abortEntry]
  case isFalse h =>
    split
    case isTrue h4 => simp [h4]
    case isFalse => simp

/-- A vote withdrawn: the other votes stay, and an unvoted domain requests entry (R332). -/
theorem loseVote_self (s : State) (n bit : Nat) :
    (∀ b, (dom (loseVote s n bit) n).votes.testBit b = (decide (b ≠ bit) && (dom s n).votes.testBit b)) ∧
    (dom (loseVote s n bit) n).wakePending = (dom s n).wakePending ∧
    ((dom (loseVote s n bit) n).state = (dom s n).state ∨
      (dom s n).state = 2 ∧ (dom (loseVote s n bit) n).votes = 0 ∧ (dom (loseVote s n bit) n).state = 3) := by
  unfold loseVote
  dsimp only
  split
  case isTrue h =>
    have hnot : (dom s n).votes.testBit bit = false := by simpa using h
    refine ⟨fun b => ?_, rfl, .inl rfl⟩
    by_cases hb : b = bit <;> simp [hb, hnot]
  case isFalse h =>
    have hhas : (dom s n).votes.testBit bit = true := by simpa using h
    obtain ⟨hvotes, hwake, hstate⟩ := requestEntry_self (setDom s n { dom s n with
      votes := (dom s n).votes ^^^ 2 ^ bit, boardWithdrew := bit == 5, counted := false }) n
    rw [dom_setDom] at hvotes hwake hstate
    refine ⟨fun b => ?_, hwake, ?_⟩
    · rw [hvotes]
      by_cases hb : b = bit
      · simp [Nat.testBit_xor, hb, hhas]
      · simp [Nat.testBit_xor, hb, Ne.symm hb]
    · rw [hvotes]
      exact hstate

/-! ### The dependant votes (R331, R338) -/

/-- `t` is `s` after the dependant votes (bit 6) have been brought up to date: the other votes stand, only a domain that operates changes
its state, and one that is ON with another vote stays ON. -/
structure Refreshed (s t : State) : Prop where
  doms : DomsOnly s t
  votes : ∀ n b, b ≠ 6 → (dom t n).votes.testBit b = (dom s n).votes.testBit b
  state : ∀ n, (dom t n).state = (dom s n).state ∨ (domOn s n = true ∧ domOn t n = true)
  voted : ∀ n b, b ≠ 6 → (dom s n).state = 2 → (dom s n).votes.testBit b = true → (dom t n).state = 2
  wake : ∀ n, (dom s n).state ≠ 4 → (dom t n).wakePending = (dom s n).wakePending

theorem Refreshed.refl (s : State) : Refreshed s s :=
  ⟨.refl s, fun _ _ _ => rfl, fun _ => .inl rfl, fun _ _ _ h _ => h, fun _ _ => rfl⟩

/-- A state other than ON and DRAIN is kept. -/
theorem Refreshed.state_eq {s t : State} (h : Refreshed s t) {n : Nat} (hoff : domOn s n = false) : (dom t n).state = (dom s n).state :=
  (h.state n).resolve_right (fun hon => by simp [hoff] at hon)

theorem Refreshed.trans {s t u : State} (h : Refreshed s t) (g : Refreshed t u) : Refreshed s u where
  doms := h.doms.trans g.doms
  votes n b hb := (g.votes n b hb).trans (h.votes n b hb)
  state n := by
    rcases g.state n with hg | ⟨hgt, hgu⟩
    · rcases h.state n with hh | ⟨hhs, hht⟩
      · exact .inl (hg.trans hh)
      · exact .inr ⟨hhs, by rw [domOn, hg]; exact hht⟩
    · rcases h.state n with hh | ⟨hhs, _⟩
      · exact .inr ⟨by rw [domOn, ← hh]; exact hgt, hgu⟩
      · exact .inr ⟨hhs, hgu⟩
  voted n b hb hon hvote := g.voted n b hb (h.voted n b hb hon hvote) ((h.votes n b hb).trans hvote)
  wake n hn := by
    have ht : (dom t n).state ≠ 4 := by
      rcases h.state n with hh | ⟨_, hon⟩
      · rwa [hh]
      · intro h4
        simp [domOn, h4] at hon
    exact (g.wake n ht).trans (h.wake n hn)

theorem gainVote_refreshed (s : State) (p : Nat) : Refreshed s (gainVote s p 6 0) := by
  obtain ⟨hvotes, hstate, hwake⟩ := gainVote_self s p 6 0
  obtain ⟨hdoms, hne⟩ := gainVote_inDomain s p 6 0
  refine ⟨hdoms, fun n b hb => ?_, fun n => ?_, fun n b _ hon _ => ?_, fun n hn => ?_⟩ <;> by_cases hnp : n = p
  · rw [hnp, hvotes, Nat.testBit_or, Nat.testBit_two_pow_of_ne (Ne.symm hb), Bool.or_false]
  · rw [hne n hnp]
  · rw [hnp, domOn, domOn, hstate]
    split
    case isTrue h => exact .inr (by simp [h])
    case isFalse => exact .inl rfl
  · exact .inl (by rw [hne n hnp])
  · rw [hnp] at hon ⊢
    rw [hstate, hon]
    rfl
  · rw [hne n hnp]
    exact hon
  · rw [hnp] at hn ⊢
    exact hwake hn
  · rw [hne n hnp]

theorem loseVote_refreshed (s : State) (p : Nat) : Refreshed s (loseVote s p 6) := by
  obtain ⟨hvotes, hwake, hstate⟩ := loseVote_self s p 6
  obtain ⟨hdoms, hne⟩ := loseVote_inDomain s p 6
  refine ⟨hdoms, fun n b hb => ?_, fun n => ?_, fun n b hb hon hvote => ?_, fun n _ => ?_⟩ <;> by_cases hnp : n = p
  · rw [hnp, hvotes]
    simp [hb]
  · rw [hne n hnp]
  · rw [hnp]
    rcases hstate with h | ⟨h2, _, h3⟩
    · exact .inl h
    · exact .inr (by simp [domOn, h2, h3])
  · exact .inl (by rw [hne n hnp])
  · rw [hnp] at hon hvote ⊢
    rcases hstate with h | ⟨_, h0, _⟩
    · exact h.trans hon
    · have hstill := hvotes b
      rw [h0, hvote] at hstill
      simp [hb] at hstill
  · rw [hne n hnp]
    exact hon
  · rw [hnp]
    exact hwake
  · rw [hne n hnp]

theorem refreshOne_refreshed (s : State) (p : Nat) : Refreshed s (refreshOne s p) := by
  unfold refreshOne
  dsimp only
  split
  · exact gainVote_refreshed s p
  · split
    · exact loseVote_refreshed s p
    · exact .refl s

theorem refreshDeps_refreshed (s : State) : Refreshed s (refreshDeps s) := by
  unfold refreshDeps
  split
  · exact .refl s
  · exact List.foldlRecOn _ _ (.refl s) (fun t ht p _ => ht.trans (refreshOne_refreshed t p))

/-! ### Votes (R331, R332, R412) -/

/-- A vote of a client other than the dependant vote, while the power core runs: it stands or not as it is said, and every other vote of
the clients stays. -/
theorem vote_running {s : State} (hheld : powerHeld s = false) {n bit : Nat} (hn : n ≠ 131) (on : Bool) (info : Nat) :
    DomsOnly s (vote s n bit on info) ∧ ∀ m b, b ≠ 6 → (dom (vote s n bit on info) m).votes.testBit b =
      if m = n ∧ b = bit then on else (dom s m).votes.testBit b := by
  have hvote : vote s n bit on info = refreshDeps (if on then gainVote s n bit info else loseVote s n bit) := by
    simp [vote, hn, hheld]
  obtain ⟨hdoms, hvotes, _, _, _⟩ := refreshDeps_refreshed (if on then gainVote s n bit info else loseVote s n bit)
  rw [hvote]
  cases on with
  | true =>
    obtain ⟨hin, hne⟩ := gainVote_inDomain s n bit info
    refine ⟨hin.trans hdoms, fun m b hb => (hvotes m b hb).trans ?_⟩
    rw [if_pos rfl]
    by_cases hm : m = n
    · rw [hm, (gainVote_self s n bit info).1, Nat.testBit_or, Nat.testBit_two_pow]
      by_cases hbb : b = bit
      · simp [hbb]
      · simp [hbb, Ne.symm hbb]
    · simp [hne m hm, hm]
  | false =>
    obtain ⟨hin, hne⟩ := loseVote_inDomain s n bit
    refine ⟨hin.trans hdoms, fun m b hb => (hvotes m b hb).trans ?_⟩
    rw [if_neg Bool.false_ne_true]
    by_cases hm : m = n
    · rw [hm, (loseVote_self s n bit).1 b]
      by_cases hbb : b = bit <;> simp [hbb]
    · simp [hne m hm, hm]

/-- One bit of a mask (R331, R346). -/
def maskOne (first bits client : Nat) (on : Bool) (t : State) (k : Nat) : State :=
  if !bits.testBit k then t
  else if first + k ≤ 67 ∨ 131 ≤ first + k then devEvent t 0x55 1 else vote t (first + k) client on 0

theorem maskVote_eq (s : State) (first width bits client : Nat) (on : Bool) :
    maskVote s first width bits client on = (List.range width).foldl (maskOne first bits client on) s := by
  unfold maskVote
  congr
  funext t k
  simp [maskOne]

/-- A bit that names a switched domain concerns power only. -/
theorem maskOne_named {first bits k : Nat} (h : bits.testBit k = true → 68 ≤ first + k ∧ first + k ≤ 130) (client : Nat) (on : Bool)
    (t : State) : PowerOnly t (maskOne first bits client on t k) := by
  unfold maskOne
  split
  · exact .refl t
  case isFalse hbit =>
    have hin := h (by simpa using hbit)
    rw [if_neg (by omega)]
    exact vote_powerOnly t _ _ _ _

/-- One bit of a mask, while the power core runs: the named domain's vote of the client. -/
theorem maskOne_votes {t : State} (hheld : powerHeld t = false) {first bits client : Nat} (hclient : client ≠ 6) (on : Bool) (k : Nat) :
    (∃ power i3c cnt, maskOne first bits client on t k = { t with power := power, i3c := i3c, cnt := cnt }) ∧
    powerHeld (maskOne first bits client on t k) = false ∧
    ∀ n, (dom (maskOne first bits client on t k) n).votes.testBit client =
      if 68 ≤ n ∧ n ≤ 130 ∧ n = first + k ∧ bits.testBit k = true then on else (dom t n).votes.testBit client := by
  unfold maskOne
  split
  case isTrue hclear =>
    have hbit : bits.testBit k = false := by simpa using hclear
    exact ⟨⟨_, _, _, rfl⟩, hheld, fun n => by simp [hbit]⟩
  case isFalse hset =>
    have hbit : bits.testBit k = true := by simpa using hset
    split
    case isTrue hbad =>
      refine ⟨⟨_, _, _, rfl⟩, hheld, fun n => ?_⟩
      rw [if_neg (by omega)]
      rfl
    case isFalse hgood =>
      obtain ⟨hdoms, hvotes⟩ := vote_running hheld (n := first + k) (by omega) on 0
      refine ⟨?_, hdoms.held.trans hheld, fun n => ?_⟩
      · obtain ⟨_, _, h, _⟩ := hdoms
        exact ⟨_, _, _, h⟩
      · rw [hvotes n client hclient]
        by_cases hn : n = first + k
        · rw [if_pos ⟨hn, rfl⟩, if_pos ⟨by omega, by omega, hn, hbit⟩]
        · rw [if_neg (by simp [hn]), if_neg (by simp [hn])]

/-- The bits of a list, while the power core runs: each named domain's vote of the client, and no other. -/
theorem maskOne_foldl (first bits client : Nat) (hclient : client ≠ 6) (on : Bool) (l : List Nat) (s : State)
    (hheld : powerHeld s = false) :
    (∃ power i3c cnt, l.foldl (maskOne first bits client on) s = { s with power := power, i3c := i3c, cnt := cnt }) ∧
    ∀ n, (dom (l.foldl (maskOne first bits client on) s) n).votes.testBit client =
      if 68 ≤ n ∧ n ≤ 130 ∧ ∃ k ∈ l, n = first + k ∧ bits.testBit k = true then on else (dom s n).votes.testBit client := by
  induction l generalizing s with
  | nil => exact ⟨⟨_, _, _, rfl⟩, fun n => by simp⟩
  | cons k l ih =>
    obtain ⟨⟨_, _, _, hframe⟩, hheld', hone⟩ := maskOne_votes hheld hclient on (first := first) (bits := bits) k
    obtain ⟨⟨_, _, _, hrest⟩, hvotes⟩ := ih (maskOne first bits client on s k) hheld'
    refine ⟨⟨_, _, _, by rw [List.foldl_cons, hrest, hframe]⟩, fun n => ?_⟩
    rw [List.foldl_cons, hvotes n, hone n]
    simp only [List.exists_mem_cons_iff]
    by_cases hin : 68 ≤ n ∧ n ≤ 130
    · obtain ⟨hlo, hhi⟩ := hin
      by_cases hl : ∃ j ∈ l, n = first + j ∧ bits.testBit j = true
      · rw [if_pos ⟨hlo, hhi, hl⟩, if_pos ⟨hlo, hhi, .inr hl⟩]
      · rw [if_neg (fun h => hl h.2.2)]
        exact if_congr ⟨fun h => ⟨h.1, h.2.1, .inl h.2.2⟩, fun h => ⟨h.1, h.2.1, h.2.2.resolve_right hl⟩⟩ rfl rfl
    · rw [if_neg (fun h => hin ⟨h.1, h.2.1⟩), if_neg (fun h => hin ⟨h.1, h.2.1⟩), if_neg (fun h => hin ⟨h.1, h.2.1⟩)]

/-- What a vote by a mask leaves, while the power core runs. -/
structure MaskVoted (s t : State) (first width bits client : Nat) (on : Bool) : Prop where
  frame : ∃ power i3c cnt, t = { s with power := power, i3c := i3c, cnt := cnt }
  named : (∀ k, k < width → bits.testBit k = true → 68 ≤ first + k ∧ first + k ≤ 130) → PowerOnly s t
  votes : ∀ n, (dom t n).votes.testBit client =
    if 68 ≤ n ∧ n ≤ 130 ∧ first ≤ n ∧ n < first + width ∧ bits.testBit (n - first) = true then on
    else (dom s n).votes.testBit client

theorem maskVote_votes {s : State} (hheld : powerHeld s = false) (first width bits : Nat) {client : Nat} (hclient : client ≠ 6)
    (on : Bool) : MaskVoted s (maskVote s first width bits client on) first width bits client on := by
  rw [maskVote_eq]
  obtain ⟨hframe, hvotes⟩ := maskOne_foldl first bits client hclient on (List.range width) s hheld
  refine ⟨hframe, fun hnamed => ?_, fun n => (hvotes n).trans (if_congr ?_ rfl rfl)⟩
  · exact List.foldlRecOn _ _ (.refl s) (fun t ht k hk => ht.trans (maskOne_named (hnamed k (List.mem_range.mp hk)) client on t))
  · refine and_congr_right (fun _ => and_congr_right (fun _ => ⟨fun ⟨k, hk, hn, hbit⟩ => ?_, fun ⟨hle, hlt, hbit⟩ => ?_⟩))
    · have := List.mem_range.mp hk
      exact ⟨by omega, by omega, by rw [show n - first = k by omega]; exact hbit⟩
    · exact ⟨n - first, List.mem_range.mpr (by omega), by omega, hbit⟩

/-- R331, R332, R412: the votes by mask of O9. -/
theorem maskedVotesTakeEffect : Claim.MaskedVotesTakeEffect := by
  unfold Claim.MaskedVotesTakeEffect
  intro s m bits client first width on c ha hheld hc
  obtain ⟨u, hexec, ⟨out, i3c, hu⟩, hvoted⟩ : ∃ u, exec c s = .next (maskVote u first width bits client on) ∧
      (∃ out i3c, u = { s with out := out, i3c := i3c }) ∧
      MaskVoted u (maskVote u first width bits client on) first width bits client on := by
    rcases hc with ⟨hm, hfits, rfl, rfl, rfl, rfl⟩ | ⟨hfits, rfl, rfl, rfl, rfl⟩
    · refine ⟨s, ?_, ⟨_, _, rfl⟩, maskVote_votes hheld _ _ _ (by decide) on⟩
      cases on with
      | true => exact whenAlive_next (.supvVoteSet m bits) s _ (by simp [Instr.wf, hm, hfits]) ha
      | false => exact whenAlive_next (.supvVoteClr m bits) s _ (by simp [Instr.wf, hm, hfits]) ha
    · refine ⟨takeIbi s, ?_, ⟨_, _, rfl⟩,
        maskVote_votes (s := takeIbi s) hheld _ _ _ (client := 5) (by decide) on⟩
      cases on with
      | true => exact whenAlive_next (.i3cVoteSet bits) s _ hfits ha
      | false => exact whenAlive_next (.i3cVoteClr bits) s _ hfits ha
  obtain ⟨⟨_, _, _, hframe⟩, hnamed, hvotes⟩ := hvoted
  refine ⟨_, hexec, fun n hlo hhi hfirst hlast hbit => ?_, fun n _ hnot => ?_, fun hall => ?_, ?_⟩
  · rw [hvotes n, if_pos ⟨hlo, hhi, hfirst, hlast, hbit⟩]
  · rw [hvotes n, if_neg hnot, hu]
    rfl
  · obtain ⟨_, _, h⟩ := hnamed hall
    rw [h, hu]
  · rw [hframe, hu]
    exact ⟨rfl, rfl, rfl, rfl⟩

/-! ### A partner's vote, and cleared counters (R333, R412) -/

/-- The message of a partner's vote is well formed. -/
def voteWellFormed (b : List Byte) : Bool := b.length = 32 && rd b 0 1 = 0x30 && rd b 1 1 ≤ 1 && rd b 2 30 = 0

/-- The partner's vote of a group follows its ports (R333). -/
def partnerVote (s : State) (p : Nat) : State :=
  let want := s.power.partner.any (fun q => q / 8 = p / 8)
  if want = standing s (112 + p / 8) 3 then s else vote s (112 + p / 8) 3 want p

/-- A vote that arrives at a group that operates (R333). -/
theorem opPowerVote_on {s : State} {p : Nat} {pkt : Packet} (hon : domOn s (112 + p / 8) = true) :
    opPowerVote s p pkt =
      if !voteWellFormed pkt.payload then devEvent s 0x55 1
      else partnerVote { s with
        power.partner := if rd pkt.payload 1 1 = 1 then insertNat p s.power.partner else eraseNat p s.power.partner } p := by
  unfold opPowerVote
  rw [if_neg (by simp [hon])]
  rfl

/-- The message of a vote (`h` = 1) or of its withdrawal. -/
theorem voteMessage {h : Nat} (hh : h < 2) : voteWellFormed ([0x30, BitVec.ofNat 8 h] ++ List.replicate 30 0) = true ∧
    rd ([0x30, BitVec.ofNat 8 h] ++ List.replicate 30 0) 1 1 = h := by
  obtain rfl | rfl : h = 0 ∨ h = 1 := by omega
  · exact ⟨by decide, by decide⟩
  · exact ⟨by decide, by decide⟩

/-- The clearing of one domain. -/
def clearOne (v : Nat) (t : State) (n : Nat) : State :=
  if v.testBit 8 || v % 256 = n then setDom t n { dom t n with refused := 0, aborted := 0, last := 0 } else t

theorem clearOne_foldl (v : Nat) (l : List Nat) (s : State) :
    (∃ table, l.foldl (clearOne v) s = { s with power := { s.power with dom := table } }) ∧
    ∀ n, dom (l.foldl (clearOne v) s) n =
      if n ∈ l ∧ (v.testBit 8 = true ∨ v % 256 = n) then { dom s n with refused := 0, aborted := 0, last := 0 } else dom s n := by
  induction l generalizing s with
  | nil => exact ⟨⟨_, rfl⟩, fun n => by simp⟩
  | cons k l ih =>
    obtain ⟨⟨_, hrest⟩, hdom⟩ := ih (clearOne v s k)
    refine ⟨?_, fun n => ?_⟩
    · rw [List.foldl_cons, hrest, clearOne]
      split <;> exact ⟨_, rfl⟩
    · have hone : dom (clearOne v s k) n =
          if n = k ∧ (v.testBit 8 = true ∨ v % 256 = n) then { dom s n with refused := 0, aborted := 0, last := 0 } else dom s n := by
        unfold clearOne
        by_cases hn : n = k
        · subst hn
          by_cases hv : v.testBit 8 = true ∨ v % 256 = n <;> simp [hv]
        · rw [if_neg (fun h : n = k ∧ _ => hn h.1)]
          split
          · exact dom_setDom_ne _ _ _ _ hn
          · rfl
      rw [List.foldl_cons, hdom n, hone]
      by_cases hv : v.testBit 8 = true ∨ v % 256 = n
      · by_cases hl : n ∈ l
        · rw [if_pos ⟨hl, hv⟩]
          refine Eq.trans ?_ (if_pos ⟨List.mem_cons_of_mem k hl, hv⟩).symm
          split <;> rfl
        · rw [if_neg (fun h : n ∈ l ∧ _ => hl h.1)]
          exact if_congr ⟨fun h => ⟨List.mem_cons.mpr (.inl h.1), hv⟩, fun h => ⟨(List.mem_cons.mp h.1).resolve_right hl, hv⟩⟩ rfl rfl
      · rw [if_neg (fun h : _ ∧ _ => hv h.2), if_neg (fun h : _ ∧ _ => hv h.2), if_neg (fun h : _ ∧ _ => hv h.2)]

/-- A part without votes that wait: a client's vote is that of the domain. -/
theorem standing_empty {s : State} (h : s.power.queued = []) (n bit : Nat) : standing s n bit = (dom s n).votes.testBit bit := by
  simp [standing, h]

/-- While the power core runs and no vote waits, the vote of a group is that of its ports. -/
theorem partnerVote_running {s : State} (hheld : powerHeld s = false) (hqueue : s.power.queued = []) {p : Nat} (hp : p < 96) :
    DomsOnly s (partnerVote s p) ∧
    (dom (partnerVote s p) (112 + p / 8)).votes.testBit 3 = s.power.partner.any (fun q => decide (q / 8 = p / 8)) := by
  unfold partnerVote
  dsimp only
  rw [standing_empty hqueue]
  split
  case isTrue h => exact ⟨.refl s, h.symm⟩
  case isFalse =>
    obtain ⟨hdoms, hvotes⟩ := vote_running hheld (n := 112 + p / 8) (bit := 3) (by omega)
      (s.power.partner.any (fun q => decide (q / 8 = p / 8))) p
    exact ⟨hdoms, (hvotes _ 3 (by decide)).trans (if_pos ⟨rfl, rfl⟩)⟩

/-- R333, R412: the partner's votes and the clears of O9. -/
theorem partnerVotesAndDomainClears : Claim.PartnerVotesAndDomainClears := by
  unfold Claim.PartnerVotesAndDomainClears
  intro s p h v pkt ha hheld hqueue
  have hpower (hp : p < 96) (hwf : pkt.wf = true) : exec (.powerVote p pkt) s = .next (opPowerVote s p pkt) :=
    whenAlive_next (.powerVote p pkt) s _ (by simp [Instr.wf, isLane, hp, hwf]) ha
  refine ⟨fun hp hwf hh hon hpay => ?_, fun hp hwf hoff => ?_, fun hp hwf hon hlen => ?_, fun hfits => ?_⟩
  · obtain ⟨hgood, hflag⟩ := voteMessage hh
    rw [← hpay] at hgood hflag
    rw [opPowerVote_on hon, hgood, hflag] at hpower
    obtain ⟨hdoms, hbit⟩ := partnerVote_running (s := { s with
      power.partner := if h = 1 then insertNat p s.power.partner else eraseNat p s.power.partner }) hheld hqueue hp
    have hpartner := hdoms.partner
    refine ⟨_, hpower hp hwf, hpartner, hbit.trans ?_, (PowerOnly.trans ⟨_, _, rfl⟩ hdoms.powerOnly).eq⟩
    exact congrArg (fun l : List Nat => l.any (fun q => decide (q / 8 = p / 8))) hpartner.symm
  · exact (hpower hp hwf).trans (congrArg _ (if_pos (by simp [hoff])))
  · refine (hpower hp hwf).trans (congrArg _ ?_)
    have hbad : voteWellFormed pkt.payload = false := by simp [voteWellFormed, hlen]
    rw [opPowerVote_on hon, hbad]
    rfl
  · obtain ⟨⟨table, hframe⟩, hdom⟩ := clearOne_foldl v (List.range 132) s
    have hclears : clearDomains s v = { s with power := { s.power with dom := (clearDomains s v).power.dom } } := by
      rw [show clearDomains s v = _ from hframe]
    refine ⟨clearDomains s v, whenAlive_next (.powerDomClear v) s _ hfits ha, fun n hn hv => ?_, fun n hv => ?_, ?_⟩
    · have hcleared := (hdom n).trans (if_pos ⟨List.mem_range.mpr hn, hv⟩)
      rw [show dom (clearDomains s v) n = _ from hcleared]
      exact ⟨rfl, rfl, rfl, rfl, rfl⟩
    · exact (hdom n).trans (if_neg (fun h => hv h.2))
    · exact hclears

/-- Settles O9: votes by mask, a partner's vote, and the clears. -/
theorem votesTakeEffect : Obligations.VotesTakeEffect := ⟨maskedVotesTakeEffect, partnerVotesAndDomainClears⟩

end Sys2Proof.Machine
end

section
/-! SUPPORT. The wake of a domain and what it trains, and the entry of a domain: refusal, drain, abort, retry and shutdown. -/

namespace Sys2Proof.Machine

open Sys2Proof

/-! ### What a domain finds when it reaches ON (R337) -/

/-- A vault trained counts; the others do not, and what memory reads stays. -/
theorem trainVault_keeps (s : State) (v : Nat) : ∃ flash mem, trainVault s v = { s with flash := flash, mem := mem } ∧
    mem.cells = s.mem.cells ∧ mem.undef = s.mem.undef ∧
    ∀ w, tget mem.vaultTrained w 0 = tget s.mem.vaultTrained w 0 + if v = w then 1 else 0 := by
  have hcount (w : Nat) : tget (tput s.mem.vaultTrained v (tget s.mem.vaultTrained v 0 + 1)) w 0 =
      tget s.mem.vaultTrained w 0 + if v = w then 1 else 0 := by
    by_cases hw : w = v
    · subst hw
      simp
    · rw [tget_tput_ne _ _ _ _ _ hw, if_neg (Ne.symm hw), Nat.add_zero]
  unfold trainVault
  dsimp only
  split <;> exact ⟨_, _, rfl, rfl, rfl, hcount⟩

theorem trainChannel_keeps (s : State) (c : Nat) : ∃ mem, trainChannel s c = { s with mem := mem } ∧
    mem.cells = s.mem.cells ∧ mem.undef = s.mem.undef ∧
    ∀ w, tget mem.channelTrained w 0 = tget s.mem.channelTrained w 0 + if c = w then 1 else 0 := by
  refine ⟨_, rfl, rfl, rfl, fun w => ?_⟩
  by_cases hw : w = c
  · subst hw
    simp
  · rw [tget_tput_ne _ _ _ _ _ hw, if_neg (Ne.symm hw), Nat.add_zero]

/-- `t` is `s` after training: flash and what is recorded of the training differ, and what memory reads stays. -/
def Trained (s t : State) : Prop := ∃ flash mem, t = { s with flash := flash, mem := mem } ∧
  mem.cells = s.mem.cells ∧ mem.undef = s.mem.undef

theorem Trained.refl (s : State) : Trained s s := ⟨_, _, rfl, rfl, rfl⟩

theorem Trained.trans {s t u : State} (h : Trained s t) (g : Trained t u) : Trained s u := by
  obtain ⟨_, _, rfl, hcells, hundef⟩ := h
  obtain ⟨_, _, rfl, hcells', hundef'⟩ := g
  exact ⟨_, _, rfl, hcells'.trans hcells, hundef'.trans hundef⟩

theorem Trained.memByte {s t : State} (h : Trained s t) (a : Nat) : memByte t.mem a = memByte s.mem a := by
  obtain ⟨_, _, rfl, hcells, hundef⟩ := h
  rw [Sys2Proof.Machine.memByte, Sys2Proof.Machine.memByte, hcells, hundef]

/-- The vaults of a list trained: each as often as it stands in the list. -/
theorem trainVault_foldl (l : List Nat) (s : State) : Trained s (l.foldl trainVault s) ∧
    ∀ w, tget (l.foldl trainVault s).mem.vaultTrained w 0 = tget s.mem.vaultTrained w 0 + l.count w := by
  induction l generalizing s with
  | nil => exact ⟨.refl s, fun w => rfl⟩
  | cons v l ih =>
    obtain ⟨flash, mem, hv, hcells, hundef, hone⟩ := trainVault_keeps s v
    obtain ⟨hrest, hcount⟩ := ih (trainVault s v)
    refine ⟨Trained.trans ⟨flash, mem, hv, hcells, hundef⟩ hrest, fun w => ?_⟩
    rw [List.foldl_cons, hcount w, hv, hone w, List.count_cons]
    simp only [beq_iff_eq]
    omega

theorem trainChannel_foldl (l : List Nat) (s : State) : Trained s (l.foldl trainChannel s) ∧
    ∀ w, tget (l.foldl trainChannel s).mem.channelTrained w 0 = tget s.mem.channelTrained w 0 + l.count w := by
  induction l generalizing s with
  | nil => exact ⟨.refl s, fun w => rfl⟩
  | cons c l ih =>
    obtain ⟨mem, hc, hcells, hundef, hone⟩ := trainChannel_keeps s c
    obtain ⟨hrest, hcount⟩ := ih (trainChannel s c)
    refine ⟨Trained.trans ⟨_, mem, hc, hcells, hundef⟩ hrest, fun w => ?_⟩
    rw [List.foldl_cons, hcount w, hc, hone w, List.count_cons]
    simp only [beq_iff_eq]
    omega

/-- A unit of a block of `b` stands once in the block's list, where the list names it. -/
theorem count_block {b k w : Nat} {l : List Nat} (hl : l.Nodup) (hw : w / b = k) (hin : w % b ∈ l) :
    (l.map (fun i => b * k + i)).count w = 1 := by
  refine List.count_eq_one_of_mem (hl.map (fun i j h => by simpa using h)) (List.mem_map.mpr ⟨w % b, hin, ?_⟩)
  rw [← hw]
  exact Nat.div_add_mod w b

/-- What is found on arrival: what the domain holds besides power, interrupts and reports (R191, R337). -/
structure Arrived (n : Nat) (fromSr : Bool) (s t : State) : Prop where
  frame : ∃ free lanes links flash mem, t = { s with free := free, lanes := lanes, links := links, flash := flash, mem := mem }
  memByte : 68 ≤ n → ∀ a, memByte t.mem a = memByte s.mem a
  vaults : 72 ≤ n → n ≤ 79 → fromSr = false → ∀ v, v / 32 = n - 72 →
    tget t.mem.vaultTrained v 0 = tget s.mem.vaultTrained v 0 + 1
  channels : 124 ≤ n → n ≤ 127 → fromSr = false → ∀ c, c / 8 = n - 124 → c < s.mem.lpChannels →
    tget t.mem.channelTrained c 0 = tget s.mem.channelTrained c 0 + 1

theorem onArrival_arrived (s : State) (n : Nat) (fromSr : Bool) : Arrived n fromSr s (onArrival s n fromSr) := by
  unfold onArrival
  split
  case isTrue h =>
    have hgroup : 112 ≤ n ∧ n ≤ 123 := by simpa using h
    have hlanes : LanesOnly s ((groupLanes (n - 112)).foldl
        (fun t k => if (lane t k).state = 0 && !(lane t k).disable then restartPages t k else t) s) := by
      refine .foldl _ (fun u k => ?_) _ s
      split
      · exact restartPages_lanesOnly u k
      · exact .refl u
    obtain ⟨_, _, _, hframe⟩ := hlanes
    rw [hframe]
    exact ⟨⟨_, _, _, _, _, rfl⟩, fun _ _ => rfl, fun _ hhi => by omega, fun hlo => by omega⟩
  case isFalse h =>
    split
    case isTrue hstack =>
      have hin : (72 ≤ n ∧ n ≤ 79) ∧ fromSr = false := by simpa using hstack
      obtain ⟨⟨_, _, hframe, hcells, hundef⟩, hcount⟩ := trainVault_foldl ((List.range 32).map (fun i => 32 * (n - 72) + i)) s
      rw [List.foldl_map] at hframe hcount
      refine ⟨⟨_, _, _, _, _, hframe⟩, fun _ => (Trained.memByte ⟨_, _, hframe, hcells, hundef⟩), fun _ _ _ v hv => ?_,
        fun hlo => by omega⟩
      rw [hcount v, count_block List.nodup_range hv (List.mem_range.mpr (Nat.mod_lt _ (by decide)))]
    case isFalse hstack =>
      have hnot : ¬ ((72 ≤ n ∧ n ≤ 79) ∧ fromSr = false) := by simpa using hstack
      split
      case isTrue hlp =>
        have hin : (124 ≤ n ∧ n ≤ 127) ∧ fromSr = false := by simpa using hlp
        obtain ⟨⟨_, _, hframe, hcells, hundef⟩, hcount⟩ := trainChannel_foldl
          (((List.range 8).filter (fun i => 8 * (n - 124) + i < s.mem.lpChannels)).map (fun i => 8 * (n - 124) + i)) s
        rw [List.foldl_map] at hframe hcount
        refine ⟨⟨_, _, _, _, _, hframe⟩, fun _ => (Trained.memByte ⟨_, _, hframe, hcells, hundef⟩), fun _ hhi => by omega,
          fun _ _ _ c hc hlt => ?_⟩
        rw [hcount c, count_block (List.nodup_range.filter _) hc ?_]
        have hsame := Nat.div_add_mod c 8
        refine List.mem_filter.mpr ⟨List.mem_range.mpr (Nat.mod_lt _ (by decide)), ?_⟩
        rw [← hc, hsame]
        exact decide_eq_true hlt
      case isFalse hlp =>
        have hnot' : ¬ ((124 ≤ n ∧ n ≤ 127) ∧ fromSr = false) := by simpa using hlp
        have hvaults (t : State) : 72 ≤ n → n ≤ 79 → fromSr = false → ∀ v, v / 32 = n - 72 →
            tget t.mem.vaultTrained v 0 = tget s.mem.vaultTrained v 0 + 1 := fun hlo hhi hsr => absurd ⟨⟨hlo, hhi⟩, hsr⟩ hnot
        have hchannels (t : State) : 124 ≤ n → n ≤ 127 → fromSr = false → ∀ c, c / 8 = n - 124 → c < s.mem.lpChannels →
            tget t.mem.channelTrained c 0 = tget s.mem.channelTrained c 0 + 1 := fun hlo hhi hsr => absurd ⟨⟨hlo, hhi⟩, hsr⟩ hnot'
        split
        case isTrue hfolio =>
          split
          · exact ⟨⟨_, _, _, _, _, rfl⟩, fun hlo => by omega, hvaults _, hchannels _⟩
          · exact ⟨⟨_, _, _, _, _, rfl⟩, fun _ _ => rfl, hvaults _, hchannels _⟩
        case isFalse => exact ⟨⟨_, _, _, _, _, rfl⟩, fun _ _ => rfl, hvaults _, hchannels _⟩

/-! ### Wakes (R337, R338) -/

/-- The wake that a slot starts, before the dependant votes follow. -/
def wakeBegun (s : State) (n : Nat) : State :=
  let t := setDom s n { dom s n with state := 1, afterShutdown := false }
  if (dom s n).afterShutdown then devEvent t 0x56 1 else t

theorem opWakeSlot_found {s : State} {n : Nat} (h : wakeOrder.find? (readyToWake s) = some n) :
    opWakeSlot s = refreshDeps (wakeBegun s n) := by
  unfold opWakeSlot
  rw [h]
  rfl

theorem wakeBegun_frame (s : State) (n : Nat) : (∃ power cnt, wakeBegun s n = { s with power := power, cnt := cnt }) ∧
    ∀ m, dom (wakeBegun s n) m = if m = n then { dom s n with state := 1, afterShutdown := false } else dom s m := by
  have hdom (m : Nat) : dom (setDom s n { dom s n with state := 1, afterShutdown := false }) m =
      if m = n then { dom s n with state := 1, afterShutdown := false } else dom s m := by
    split
    case isTrue h => rw [h, dom_setDom]
    case isFalse h => exact dom_setDom_ne s n m _ h
  unfold wakeBegun
  dsimp only
  split <;> exact ⟨⟨_, _, rfl⟩, hdom⟩

/-- A domain that has arrived, before the dependant votes follow: what it holds, its interrupt, and a request for entry. -/
def wakeEnded (s : State) (n : Nat) : State :=
  let d := dom s n
  let t := onArrival (setDom s n { d with state := 2, wakePending := false, toSr := false }) n d.toSr
  let u := if d.votes.testBit 5 then raiseIbi t 2 else t
  if powerHeld u then setDom u n { dom u n with retry := decide (d.votes = 0) } else requestEntry u n

theorem opWakeComplete_waking {s : State} {n : Nat} (h : (dom s n).state = 1) : opWakeComplete s n = refreshDeps (wakeEnded s n) :=
  if_neg (by simp [h])

/-- A voted domain that has arrived is ON with its votes; the board is told where it has voted. -/
theorem wakeEnded_voted {s : State} {n : Nat} (hvoted : (dom s n).votes ≠ 0) :
    (∃ t, Arrived n (dom s n).toSr (setDom s n { dom s n with state := 2, wakePending := false, toSr := false }) t ∧
      PowerOnly t (wakeEnded s n)) ∧
    (dom (wakeEnded s n) n).state = 2 ∧ (dom (wakeEnded s n) n).wakePending = false ∧
    (dom (wakeEnded s n) n).votes = (dom s n).votes ∧ ((dom s n).votes.testBit 5 = true → 2 ∈ (wakeEnded s n).i3c.ibi) := by
  have harrived := onArrival_arrived (setDom s n { dom s n with state := 2, wakePending := false, toSr := false }) n (dom s n).toSr
  unfold wakeEnded
  dsimp only
  generalize onArrival _ _ _ = t at harrived
  have hdom : dom t n = { dom s n with state := 2, wakePending := false, toSr := false } := by
    obtain ⟨_, _, _, _, _, hframe⟩ := harrived.frame
    rw [hframe]
    exact dom_setDom _ _ _
  obtain ⟨u, hu, hin, htold⟩ : ∃ u, (if (dom s n).votes.testBit 5 then raiseIbi t 2 else t) = u ∧ InDomain n t u ∧
      dom u n = dom t n ∧ ((dom s n).votes.testBit 5 = true → 2 ∈ u.i3c.ibi) := by
    split
    case isTrue hboard =>
      obtain ⟨_, htold, hmem, _⟩ := raiseIbi_frame t 2
      exact ⟨_, rfl, raiseIbi_inDomain n t 2, dom_raiseIbi t 2 n, fun _ => by rw [htold]; exact hmem⟩
    case isFalse hnot => exact ⟨_, rfl, .refl n t, rfl, fun h => absurd h hnot⟩
  obtain ⟨hself, htold⟩ := htold
  rw [hu]
  rw [hdom] at hself
  obtain ⟨v, hv, hend, hstate, hwake, hvotes⟩ : ∃ v,
      (if powerHeld u then setDom u n { dom u n with retry := decide ((dom s n).votes = 0) } else requestEntry u n) = v ∧
      InDomain n u v ∧ (dom v n).state = 2 ∧ (dom v n).wakePending = false ∧ (dom v n).votes = (dom s n).votes := by
    split
    · exact ⟨_, rfl, setDom_inDomain u n _, by simp [hself]⟩
    · have hvoted' : (dom u n).votes ≠ 0 := by rw [hself]; exact hvoted
      have hrequest : requestEntry u n = u := if_pos (by simp [hvoted'])
      exact ⟨u, hrequest, .refl n u, by simp [hself]⟩
  rw [hv]
  refine ⟨⟨t, harrived, (hin.trans hend).doms.powerOnly⟩, hstate, hwake, hvotes, fun h => ?_⟩
  obtain ⟨_, _, hframe, hkept⟩ := hend.doms
  rw [hframe]
  exact hkept 2 (htold h)

/-- Settles O10: one wake a slot, and a wake that ends. -/
theorem wakesStartOneByOneAndEndOn : Obligations.WakesStartOneByOneAndEndOn := by
  unfold Obligations.WakesStartOneByOneAndEndOn
  intro s n ha hn
  refine ⟨fun hheld hfind => ?_, fun hstate hvote => ?_⟩
  · have hexec : exec .wakeSlot s = .next (opWakeSlot s) :=
      (whenAlive_next .wakeSlot s _ rfl ha).trans (congrArg _ (if_neg (by simp [hheld])))
    obtain ⟨⟨_, _, hbegun⟩, hdom⟩ := wakeBegun_frame s n
    have hrefreshed := refreshDeps_refreshed (wakeBegun s n)
    have hstate := hdom n
    rw [if_pos rfl] at hstate
    refine ⟨_, hexec.trans (congrArg _ (opWakeSlot_found hfind)), ?_, fun m hm => ?_, ?_⟩
    · rw [hrefreshed.state_eq (by simp [domOn, hstate]), hstate]
    · by_cases hmn : m = n
      · exact .inl hmn
      · have hsame := hdom m
        rw [if_neg hmn] at hsame
        rcases hrefreshed.state m with h | ⟨_, hon⟩
        · exact .inr (by rw [← hsame, ← h, hm])
        · simp [domOn, hm] at hon
    · rw [hrefreshed.doms.powerOnly.eq, hbegun]
  · obtain ⟨b, hb, hbit⟩ := hvote
    have hvoted : (dom s n).votes ≠ 0 := by
      intro h
      simp [h] at hbit
    obtain ⟨⟨t, ⟨⟨_, _, _, _, _, hframe⟩, hbytes, hvaults, hchannels⟩, hpower⟩, hon, hwake, hvotes, hibi⟩ := wakeEnded_voted hvoted
    have hrefreshed := refreshDeps_refreshed (wakeEnded s n)
    obtain ⟨_, _, hend⟩ := hpower.trans hrefreshed.doms.powerOnly
    have hmem : (refreshDeps (wakeEnded s n)).mem = t.mem := by rw [hend]
    refine ⟨_, (whenAlive_next (.wakeComplete n) s _ (by simpa [Instr.wf, isDom] using hn) ha).trans
      (congrArg _ (opWakeComplete_waking hstate)), ?_⟩
    beta_reduce
    rw [hmem]
    refine ⟨hrefreshed.voted n b hb hon (by rw [hvotes]; exact hbit), ?_, fun hboard => ?_, hvaults, hchannels, hbytes, ?_⟩
    · exact (hrefreshed.wake n (by rw [hon]; decide)).trans hwake
    · obtain ⟨_, _, h, hkept⟩ := hrefreshed.doms
      rw [h]
      exact hkept 2 (hibi hboard)
    · rw [hend, hframe]
      exact ⟨rfl, rfl, rfl⟩

/-! ### A hold condition rests only on the states of the domains -/

section

variable {s : State} {m : Nat} {d : Domain}

theorem routeOf_setDom (n : Nat) : routeOf (setDom s m d) n = routeOf s n := rfl

theorem chain_setDom (k id : Nat) : chain (setDom s m d) k id = chain s k id := by
  induction k generalizing id with
  | zero => rfl
  | succ k ih =>
    have hfound : loadedOf (setDom s m d) id = loadedOf s id := rfl
    simp only [chain, ih, hfound]
    rfl

theorem rotation_setDom : rotation (setDom s m d) = rotation s := by
  simp only [rotation, chain_setDom]
  rfl

variable (h : d.state = (dom s m).state)
include h

theorem domState_setDom (n : Nat) : (dom (setDom s m d) n).state = (dom s n).state := by
  by_cases hn : n = m
  · rw [hn, dom_setDom, h]
  · rw [dom_setDom_ne _ _ _ _ hn]

theorem installed_setDom (a n : Nat) : installed (setDom s m d) a n = installed s a n := by
  have hstack (k : Nat) : stackIn (setDom s m d) k = stackIn s k := by
    rw [stackIn, domState_setDom h]
    rfl
  have hlp : lpIn (setDom s m d) = lpIn s := by
    simp only [lpIn, domState_setDom h]
    rfl
  have hon (n : Nat) : domOn (setDom s m d) n = domOn s n := by rw [domOn, domState_setDom h, domOn]
  have hslot (k : Nat) : slotOn (setDom s m d) k = slotOn s k := by
    simp only [slotOn, hon]
    rfl
  have hregion (a : Nat) : regionOf (setDom s m d) a = regionOf s a := rfl
  simp only [installed, hregion, hstack, hlp, hslot]

theorem nibChain_setDom (k a : Nat) : nibChain (setDom s m d) k a = nibChain s k a := by
  induction k generalizing a with
  | zero => rfl
  | succ k ih =>
    have hpeek (a n : Nat) : peekN (setDom s m d) a n = peekN s a n := rfl
    simp only [nibChain, ih, installed_setDom h, hpeek]

theorem namedDescs_setDom (k : Stroke) : namedDescs (setDom s m d) k = namedDescs s k := by
  have hdescs : nibDescs (setDom s m d) = nibDescs s := rfl
  have hmask : maskDescs (setDom s m d) = maskDescs s := rfl
  have hpeek (a n : Nat) : peekN (setDom s m d) a n = peekN s a n := rfl
  simp only [namedDescs, chainRecs, nibChain_setDom h, hdescs, hmask, hpeek]

theorem ownersOf_setDom (a : Nat) : ownersOf (setDom s m d) a = ownersOf s a := by
  have hdesc : descAt (setDom s m d) a = descAt s a := rfl
  have howner : ownerIn (setDom s m d) = ownerIn s := rfl
  simp only [ownersOf, Desc.withOwners, hdesc, howner, installed_setDom h]

theorem strokeDsts_setDom (reps : Nat) (k : Stroke) : strokeDsts (setDom s m d) reps k = strokeDsts s reps k := by
  have hpeek (a n : Nat) : peekN (setDom s m d) a n = peekN s a n := rfl
  have hshare : shareAt (setDom s m d) = shareAt s := rfl
  have howners : ownersOf (setDom s m d) = ownersOf s := funext (ownersOf_setDom h)
  simp only [strokeDsts, namedDescs_setDom h, howners, hpeek, hshare]

theorem schedPorts_setDom (x : Loaded) : schedPorts (setDom s m d) x = schedPorts s x := by
  have hstrokes : allStrokes (setDom s m d) x = allStrokes s x := rfl
  have hfield (o n : Nat) : hdrField (setDom s m d) x o n = hdrField s x o n := rfl
  simp only [schedPorts, schedDsts, strokeDsts_setDom h, hstrokes, hfield, routeOf_setDom, setDom_glob]
  rfl

/-- What a hold condition rests on is no more of the domains than which of them are ON. -/
theorem holdOf_setDom (n : Nat) : holdOf (setDom s m d) n = holdOf s n := by
  have hports (g : Nat) : groupPorts (setDom s m d) g = groupPorts s g := rfl
  have hlogical (n : Nat) : logicalOf (setDom s m d) n = logicalOf s n := rfl
  have hused : lpUsed (setDom s m d) = lpUsed s := rfl
  have htime : isTimeLane (setDom s m d) = isTimeLane s := rfl
  have hphase : jobPhase (setDom s m d) = jobPhase s := rfl
  have hexists : jobExists (setDom s m d) = jobExists s := rfl
  have hckpt : ckptBusy (setDom s m d) = ckptBusy s := rfl
  simp only [holdOf, hports, hlogical, hused, htime, hphase, hexists, hckpt, rotation_setDom, schedPorts_setDom h, routeOf_setDom,
    setDom_glob, setDom_pins, setDom_rings, setDom_boot, setDom_job, setDom_time]
  rfl
end

/-! ### The entry of a domain (R334, R335, R339) -/

/-- The counters of a range without their values. -/
def zeroRange (t : State) (r : Nat × Nat) : State :=
  { t with cnt := { t.cnt with ctr := t.cnt.ctr.map (fun x =>
    if r.1 ≤ x.1 && decide (x.1 < r.2) then (x.1, { x.2 with val := 0, wrapped := false }) else x) } }

theorem ctr_zeroRange (s : State) (r : Nat × Nat) (k : Nat) : ctr (zeroRange s r) k =
    if r.1 ≤ k ∧ k < r.2 then { ctr s k with val := 0, wrapped := false } else ctr s k := by
  have hmap := tget_map s.cnt.ctr (fun j c => if r.1 ≤ j ∧ j < r.2 then { c with val := 0, wrapped := false } else c) k {}
  have hdefault : (if r.1 ≤ k ∧ k < r.2 then { ({} : Counter) with val := 0, wrapped := false } else {}) = {} := by
    split <;> rfl
  rw [hdefault] at hmap
  have hlist : (zeroRange s r).cnt.ctr =
      s.cnt.ctr.map (fun x => (x.1, if r.1 ≤ x.1 ∧ x.1 < r.2 then { x.2 with val := 0, wrapped := false } else x.2)) := by
    refine List.map_congr_left (fun x _ => ?_)
    by_cases hx : r.1 ≤ x.1 ∧ x.1 < r.2 <;> simp [hx]
  rw [ctr, hlist]
  exact hmap

/-- The counters of a list of ranges lose their values and keep their selections (R365). -/
theorem zeroRange_foldl (l : List (Nat × Nat)) (s : State) : (∃ cnt, l.foldl zeroRange s = { s with cnt := cnt }) ∧
    ∀ k, (ctr (l.foldl zeroRange s) k).sel = (ctr s k).sel ∧
      ((ctr s k).val = 0 ∨ (∃ r ∈ l, r.1 ≤ k ∧ k < r.2) → (ctr (l.foldl zeroRange s) k).val = 0) := by
  induction l generalizing s with
  | nil => exact ⟨⟨_, rfl⟩, fun k => ⟨rfl, fun h => h.resolve_right (by simp)⟩⟩
  | cons r l ih =>
    obtain ⟨⟨_, hrest⟩, hctr⟩ := ih (zeroRange s r)
    refine ⟨⟨_, by rw [List.foldl_cons, hrest]; rfl⟩, fun k => ?_⟩
    obtain ⟨hsel, hval⟩ := hctr k
    rw [ctr_zeroRange] at hsel hval
    refine ⟨hsel.trans (by split <;> rfl), fun h => hval ?_⟩
    by_cases hin : r.1 ≤ k ∧ k < r.2
    · exact .inl (by rw [if_pos hin])
    · rw [if_neg hin]
      refine h.imp_right (fun ⟨x, hx, hk⟩ => ?_)
      rcases List.mem_cons.mp hx with rfl | hx
      · exact absurd hk hin
      · exact ⟨x, hx, hk⟩

/-- A Folio, an uncore, a stack or a Nib group that is gone loses at most memory (R328, R330). -/
theorem onGone_inside (s : State) {n : Nat} (hn : n < 112) (sr : Bool) :
    ∃ free mem, onGone s n sr = { s with free := free, mem := mem } := by
  have hgroup : ¬ (112 ≤ n ∧ n ≤ 123) := by omega
  have hlp : ¬ (124 ≤ n ∧ n ≤ 127) := by omega
  have hpcie : n ≠ 128 := by omega
  have heth : ¬ (n = 129 ∨ n = 130) := by omega
  simp only [onGone, Bool.and_eq_true, Bool.or_eq_true, decide_eq_true_eq, if_neg hgroup, if_neg hlp, if_neg hpcie, if_neg heth]
  split
  · split <;> exact ⟨_, _, rfl⟩
  · split
    · split <;> exact ⟨_, _, rfl⟩
    · exact ⟨_, _, rfl⟩

/-- A domain that is ON without votes and without a hold condition enters DRAIN (R334). -/
theorem requestEntry_free {s : State} {n : Nat} (hon : (dom s n).state = 2) (hvotes : (dom s n).votes = 0) (hfree : holdOf s n = none) :
    requestEntry s n = setDom s n { dom s n with state := 3, refusedNow := false, toSr := retainable n && (dom s n).retain } := by
  unfold requestEntry
  dsimp only
  rw [if_neg (by simp [hon, hvotes]), hfree]

/-- Settles O11: drain, abort, retry, release and shutdown. -/
theorem entrySequenceOfADomain : Obligations.EntrySequenceOfADomain := by
  unfold Obligations.EntrySequenceOfADomain
  intro s n u ha hn hu
  have hn' : isDom n = true := by simpa [isDom] using hn
  have hu' : isDom u = true := by simpa [isDom] using hu
  have hdrain (h : (dom s n).state = 3) : exec (.drainComplete n) s = .next (match holdOf s n with
      | some r => abortEntry s n r
      | none => zeroCounters (setDom s n { dom s n with state := 4 }) n) :=
    (whenAlive_next (.drainComplete n) s _ hn' ha).trans (congrArg _ (if_neg (by simp [h])))
  refine ⟨fun hstate hfree => ?_, fun r hstate hhold => ?_, fun hstate => ?_,
    fun hon hvotes hfree hheld => ⟨fun hretry => ?_, fun hrefused => ?_⟩, fun hstate => ?_⟩
  · have hexec := hdrain hstate
    rw [hfree] at hexec
    obtain ⟨⟨_, hframe⟩, hctr⟩ := zeroRange_foldl (domCounters n) (setDom s n { dom s n with state := 4 })
    refine ⟨_, hexec, ?_, ?_, fun m hm => ?_, fun r hr k hlo hhi => ⟨(hctr k).2 (.inr ⟨r, hr, hlo, hhi⟩), (hctr k).1⟩⟩
    · rw [show zeroCounters _ n = _ from hframe]
      rfl
    · rw [show zeroCounters _ n = _ from hframe]
      exact dom_setDom _ _ _
    · rw [show zeroCounters _ n = _ from hframe]
      exact dom_setDom_ne _ _ _ _ hm
  · have hexec := hdrain hstate
    rw [hhold] at hexec
    refine ⟨_, hexec, (abortEntry_powerOnly s n r).eq, ?_⟩
    rw [dom_abortEntry]
    exact ⟨rfl, rfl, rfl⟩
  · have hexec := (whenAlive_next (.drainTimeout n u) s (opDrainTimeout s n u) (by simp [Instr.wf, hn', hu']) ha).trans
      (congrArg _ (if_neg (by simp [hstate])))
    refine ⟨_, hexec, ((abortEntry_powerOnly s n _).trans (setDom_powerOnly _ n _)).eq, ?_⟩
    rw [dom_setDom, dom_abortEntry]
    exact ⟨rfl, rfl, rfl, rfl⟩
  · have hexec := (whenAlive_next (.entryRetry n) s (opEntryRetry s n) hn' ha).trans
      (congrArg _ (if_pos (by simp [hretry, hheld])))
    have hrequest := requestEntry_free (s := setDom s n { dom s n with retry := false }) (n := n) (by simp [hon]) (by simp [hvotes])
      ((holdOf_setDom (d := { dom s n with retry := false }) rfl n).trans hfree)
    rw [hrequest] at hexec
    refine ⟨_, hexec, rfl, ?_⟩
    rw [dom_setDom, dom_setDom]
    exact ⟨rfl, rfl⟩
  · have hexec := (whenAlive_next (.holdRelease n) s (opHoldRelease s n) hn' ha).trans
      (congrArg _ (if_pos (by simp [hrefused, hfree, hheld])))
    rw [requestEntry_free hon hvotes hfree] at hexec
    refine ⟨_, hexec, rfl, ?_⟩
    rw [dom_setDom]
    exact ⟨rfl, rfl⟩
  · have hexec := (whenAlive_next (.shutdownComplete n) s (opShutdownComplete s n) hn' ha).trans
      (congrArg _ (if_neg (by simp [hstate])))
    have hrefreshed := refreshDeps_refreshed (setDom (onGone s n (dom s n).toSr) n { dom s n with
      state := if (dom s n).toSr then 5 else 0
      wakePending := decide ((if 112 ≤ n ∧ n ≤ 123 then (dom s n).votes &&& 0x77 else (dom s n).votes) ≠ 0)
      afterShutdown := decide ((if 112 ≤ n ∧ n ≤ 123 then (dom s n).votes &&& 0x77 else (dom s n).votes) ≠ 0)
      votes := if 112 ≤ n ∧ n ≤ 123 then (dom s n).votes &&& 0x77 else (dom s n).votes })
    have hgone : (if (dom s n).toSr = true then 5 else 0) ≠ 2 ∧ (if (dom s n).toSr = true then 5 else 0) ≠ 3 ∧
        (if (dom s n).toSr = true then 5 else 0) ≠ 4 := by split <;> decide
    obtain ⟨hnot2, hnot3, hnot4⟩ := hgone
    have hstay := hrefreshed.state_eq (n := n) (by simp [domOn, hnot2, hnot3])
    have hwake := hrefreshed.wake n (by simpa using hnot4)
    rw [dom_setDom] at hstay hwake
    refine ⟨_, hexec.trans (congrArg _ ?_), hstay, ?_, fun hlow => ?_⟩
    · simp only [Bool.and_eq_true, decide_eq_true_eq]
    · rw [hwake]
      exact decide_eq_true_iff
    · obtain ⟨_, _, hinside⟩ := onGone_inside s hlow (dom s n).toSr
      obtain ⟨_, _, hframe, _⟩ := hrefreshed.doms
      rw [hframe, hinside]
      exact ⟨rfl, rfl, rfl⟩

end Sys2Proof.Machine
end

section
/-! SUPPORT. The emergency levels: what settling a level, entering level 2 and the comparator may change; the power estimate; the power
core's watchdog and the votes that have waited for it. -/

namespace Sys2Proof.Machine

open Sys2Proof

/-! ### What the emergency levels may change (R343 to R345) -/

/-- `t` is `s` after emergency levels: the levels, the pins and reports that tell of them, an activation put off, the pause that is asked
for, and the links that a stopped clock loses. A condition that is present stays present, and a level that holds does not end. -/
structure LevelsOnly (s t : State) : Prop where
  frame : ∃ level cause conditions alert therm stopped i3c flt act pause lanes eth hostMem out pcie rings ports fab, t = { s with
    power := { s.power with level := level, cause := cause, conditions := conditions }
    pins := { s.pins with alertOut := alert, thermtrip := therm, clocksStopped := stopped }
    i3c := i3c, flt := flt, act := act, job := { s.job with pauseNow := pause }, lanes := lanes, eth := eth
    hostMem := hostMem, out := out, pcie := pcie, rings := rings, ports := ports, fab := fab }
  conditions : ∀ x ∈ s.power.conditions, x ∈ t.power.conditions
  level : 1 ≤ s.power.level → 1 ≤ t.power.level

theorem LevelsOnly.refl (s : State) : LevelsOnly s s :=
  ⟨⟨_, _, _, _, _, _, _, _, _, _, _, _, _, _, _, _, _, _, rfl⟩, fun _ h => h, fun h => h⟩

theorem LevelsOnly.trans {s t u : State} (h : LevelsOnly s t) (g : LevelsOnly t u) : LevelsOnly s u := by
  refine ⟨?_, fun x hx => g.conditions x (h.conditions x hx), fun hx => g.level (h.level hx)⟩
  obtain ⟨_, _, _, _, _, _, _, _, _, _, _, _, _, _, _, _, _, _, hst⟩ := h.frame
  obtain ⟨_, _, _, _, _, _, _, _, _, _, _, _, _, _, _, _, _, _, htu⟩ := g.frame
  rw [htu, hst]
  exact ⟨_, _, _, _, _, _, _, _, _, _, _, _, _, _, _, _, _, _, rfl⟩

/-- Reports leave the levels as they are. -/
theorem Reported.levelsOnly {s t : State} {flt : FaultUnit} (h : Reported { s with flt := flt } t) : LevelsOnly s t := by
  obtain ⟨_, _, _, _, _, _, _, hframe⟩ := h.frame
  rw [hframe]
  exact ⟨⟨_, _, _, _, _, _, _, _, _, _, _, _, _, _, _, _, _, _, rfl⟩, fun _ hx => hx, fun hx => hx⟩

/-- A condition added to those present, and the level settled: it is the highest, and so it holds. -/
theorem settleLevel_insert (s : State) (l : Nat) (hl : 1 ≤ l) :
    LevelsOnly s (settleLevel { s with power := { s.power with conditions := insertNat l s.power.conditions } }) ∧
    l ∈ (settleLevel { s with power := { s.power with conditions := insertNat l s.power.conditions } }).power.conditions ∧
    l ≤ (settleLevel { s with power := { s.power with conditions := insertNat l s.power.conditions } }).power.level := by
  obtain ⟨_, _, hsettle, _, _⟩ := settleLevel_frame { s with power := { s.power with conditions := insertNat l s.power.conditions } }
  have hhigh : l ≤ (insertNat l s.power.conditions).foldl max 0 := le_foldl_max _ 0 l (.inr (mem_insertNat l _))
  rw [hsettle]
  refine ⟨⟨⟨_, _, _, _, _, _, _, _, _, _, _, _, _, _, _, _, _, _, rfl⟩, fun x hx => ?_, fun _ => hl.trans hhigh⟩,
    mem_insertNat l _, hhigh⟩
  exact (mem_insertNat_iff x l _).mpr (.inr hx)

/-! ### Level 2 (R344, R349) -/

/-- The part once level 2 holds with its cause, before its record. -/
def levelTwo (s : State) (cause : Nat) : State :=
  settleLevel { deferAct s with power := { s.power with conditions := insertNat 2 s.power.conditions, cause := cause } }

/-- A job that runs is there to pause. -/
def pausesJob (s : State) : Bool := 3 ≤ jobPhase s && jobPhase s ≤ 4

/-- The record of level 2. -/
def levelTwoFault (s : State) (cause die : Nat) : FaultRec :=
  { code := 0x17, sev := if pausesJob s then 4 else 0, detail := cause + 16 * die, src := 6 }

theorem deferAct_act (s : State) : ∃ act, deferAct s = { s with act := act } := by
  unfold deferAct
  split
  · split <;> exact ⟨_, rfl⟩
  · exact ⟨_, rfl⟩

theorem levelTwo_frame (s : State) (cause : Nat) : ∃ act alert i3c, levelTwo s cause = { s with
    power := { s.power with
      conditions := insertNat 2 s.power.conditions, cause := cause, level := (insertNat 2 s.power.conditions).foldl max 0 }
    pins := { s.pins with alertOut := alert }, i3c := i3c, act := act } ∧ (s.power.level < 2 → alert = true) := by
  obtain ⟨act, hact⟩ := deferAct_act s
  have hhigh : 2 ≤ (insertNat 2 s.power.conditions).foldl max 0 := le_foldl_max _ 0 2 (.inr (mem_insertNat 2 _))
  unfold levelTwo
  rw [hact]
  obtain ⟨_, _, hsettle, _, halert⟩ := settleLevel_frame { s with
    act := act, power := { s.power with conditions := insertNat 2 s.power.conditions, cause := cause } }
  rw [hsettle]
  refine ⟨_, _, _, rfl, fun hlow => ?_⟩
  have hrise : (insertNat 2 s.power.conditions).foldl max 0 ≠ s.power.level := by omega
  exact (halert hrise).trans (decide_eq_true hhigh)

theorem levelTwo_levelsOnly (s : State) (cause : Nat) : LevelsOnly s (levelTwo s cause) := by
  obtain ⟨_, _, _, hframe, _⟩ := levelTwo_frame s cause
  rw [hframe]
  refine ⟨⟨_, _, _, _, _, _, _, _, _, _, _, _, _, _, _, _, _, _, rfl⟩, fun x hx => (mem_insertNat_iff x 2 _).mpr (.inr hx), fun _ => ?_⟩
  exact le_trans (by decide) (le_foldl_max _ 0 2 (.inr (mem_insertNat 2 _)))

/-- Level 2 once its record is raised. -/
theorem levelTwo_raised (s : State) (cause : Nat) (r : FaultRec) : let t := raiseFault (levelTwo s cause) r
    (2 ∈ t.power.conditions ∧ 2 ≤ t.power.level ∧ t.power.cause = cause ∧ (s.power.level < 2 → t.pins.alertOut = true)) ∧
    t.job = s.job ∧ t.mem = s.mem ∧ t.folios = s.folios ∧ t.frame = s.frame := by
  obtain ⟨_, _, _, htwo, hdriven⟩ := levelTwo_frame s cause
  obtain ⟨_, _, _, _, _, _, _, hreport⟩ := (raiseFault_reported (levelTwo s cause) r).frame
  dsimp only
  rw [hreport, htwo]
  exact ⟨⟨mem_insertNat 2 _, le_foldl_max _ 0 2 (.inr (mem_insertNat 2 _)), rfl, hdriven⟩, rfl, rfl, rfl, rfl⟩

/-- A job that has been told to pause at the next seam. -/
def pauseAsked (s : State) : State := { s with job := { s.job with pauseNow := true } }

theorem pauseAsked_levelsOnly (s : State) : LevelsOnly s (pauseAsked s) :=
  ⟨⟨_, _, _, _, _, _, _, _, _, _, _, _, _, _, _, _, _, _, rfl⟩, fun _ h => h, fun h => h⟩

theorem enterLevel2_eq {s : State} (h : 2 ∉ s.power.conditions) (cause die : Nat) : enterLevel2 s cause die =
    if pausesJob s then pauseAsked (raiseFault (levelTwo s cause) (levelTwoFault s cause die))
    else raiseFault (levelTwo s cause) (levelTwoFault s cause die) := by
  have hphase : jobPhase (levelTwo s cause) = jobPhase s := by
    obtain ⟨_, _, _, hframe, _⟩ := levelTwo_frame s cause
    rw [hframe]
    rfl
  unfold enterLevel2
  rw [if_neg (by simpa using h)]
  dsimp only
  rw [levelTwoFault, pausesJob, ← hphase]
  obtain ⟨act, hact⟩ := deferAct_act s
  rw [levelTwo, hact]
  rfl

theorem enterLevel2_levelsOnly (s : State) (cause die : Nat) : LevelsOnly s (enterLevel2 s cause die) := by
  by_cases h : 2 ∈ s.power.conditions
  · have hstay : enterLevel2 s cause die = s := if_pos (by simpa using h)
    rw [hstay]
    exact .refl s
  · have hraised := (levelTwo_levelsOnly s cause).trans (raiseFault_reported _ (levelTwoFault s cause die)).levelsOnly
    rw [enterLevel2_eq h]
    split
    · exact hraised.trans (pauseAsked_levelsOnly _)
    · exact hraised

theorem enterLevel2_condition (s : State) (cause die : Nat) : 2 ∈ (enterLevel2 s cause die).power.conditions := by
  by_cases h : 2 ∈ s.power.conditions
  · exact (enterLevel2_levelsOnly s cause die).conditions 2 h
  · have hraised : 2 ∈ (raiseFault (levelTwo s cause) (levelTwoFault s cause die)).power.conditions := by
      refine (raiseFault_reported _ _).levelsOnly.conditions 2 ?_
      obtain ⟨_, _, _, hframe, _⟩ := levelTwo_frame s cause
      rw [hframe]
      exact mem_insertNat 2 _
    rw [enterLevel2_eq h]
    split
    · exact hraised
    · exact hraised

/-! ### The levels as the thresholds give them, and the comparator (R343 to R345) -/

theorem applyLevels_levelsOnly (s : State) : LevelsOnly s (applyLevels s) ∧
    (level1 s = true → 1 ∈ (applyLevels s).power.conditions ∧ 1 ≤ (applyLevels s).power.level) := by
  unfold applyLevels
  dsimp only
  obtain ⟨t, ht, honly, hone⟩ : ∃ t,
      (if level1 s then settleLevel { s with power.conditions := insertNat 1 s.power.conditions } else s) = t ∧
      LevelsOnly s t ∧ (level1 s = true → 1 ∈ t.power.conditions ∧ 1 ≤ t.power.level) := by
    obtain ⟨honly, hin, hlevel⟩ := settleLevel_insert s 1 le_rfl
    split
    case isTrue => exact ⟨_, rfl, honly, fun _ => ⟨hin, hlevel⟩⟩
    case isFalse h => exact ⟨s, rfl, .refl s, fun h' => absurd h' h⟩
  rw [ht]
  split
  next c d _ =>
    have htwo := enterLevel2_levelsOnly t c d
    exact ⟨honly.trans htwo, fun h => ⟨htwo.conditions 1 (hone h).1, htwo.level (hone h).2⟩⟩
  next => exact ⟨honly, hone⟩

theorem trip_levelsOnly (s : State) : LevelsOnly s (trip s) := by
  by_cases hout : s.pins.thermtrip = true
  · have hstay : trip s = s := if_pos hout
    rw [hstay]
    exact .refl s
  · obtain ⟨ibi, htrip, _⟩ := trip_eq (by simpa using hout)
    obtain ⟨_, _, hsettle, _, _⟩ := settleLevel_frame (tripped s ibi)
    rw [htrip, hsettle]
    refine ⟨⟨_, _, _, _, _, _, _, _, _, _, _, _, _, _, _, _, _, _, rfl⟩, fun x hx => (mem_insertNat_iff x 3 _).mpr (.inr hx), fun _ => ?_⟩
    exact le_trans (by decide) (le_foldl_max _ 0 3 (.inr (mem_insertNat 3 _)))

theorem checkTrip_levelsOnly (s : State) : LevelsOnly s (checkTrip s) := by
  unfold checkTrip
  split
  · exact trip_levelsOnly s
  · exact .refl s

/-- The condition of level 1 rests on the average, the limit, the conditions of temperature and the board's ALERT_N. -/
theorem LevelsOnly.level1 {s t : State} (h : LevelsOnly s t) : level1 t = level1 s := by
  obtain ⟨_, _, _, _, _, _, _, _, _, _, _, _, _, _, _, _, _, _, hframe⟩ := h.frame
  rw [hframe]
  rfl

/-! ### The power estimate (R342, R343) -/

/-- What an update has measured, before the levels act on it. -/
def measured (s : State) (est : Nat) (temps : List Int) : State :=
  let ws := (est * s.power.calib / 1024 :: s.power.samples).take (100 * s.power.window)
  let avg := ws.foldl (· + ·) 0 / ws.length
  let lim := min s.power.limitBoard s.power.limitSupv
  let t := withTemps { s with power := { s.power with samples := ws, average := avg, limitEff := lim } } temps
  let t := { t with power := { t.power with below := if 100 * avg < 97 * 8 * lim then t.power.below + 1 else 0 } }
  { t with power := { t.power with stallRatio := if level1 t then min 1024 (t.power.stallRatio + 16)
      else if 100 * t.power.window ≤ t.power.below then t.power.stallRatio - 1 else t.power.stallRatio } }

theorem opPowerUpdate_calibrated {s : State} (h : s.power.uncalibrated = false) (est : Nat) (temps : List Int) :
    opPowerUpdate s est temps = checkTrip (applyLevels (measured s est temps)) := by
  unfold opPowerUpdate measured
  simp only [h, Bool.false_eq_true, if_false, decide_eq_true_eq]

/-- The stall fraction rises while level 1 is there, and falls once the average has been low for a window (R343). -/
theorem measured_stall (s : State) (est : Nat) (temps : List Int) : (measured s est temps).power.stallRatio =
    if level1 (measured s est temps) then min 1024 (s.power.stallRatio + 16)
    else if 100 * (measured s est temps).power.window ≤ (measured s est temps).power.below then s.power.stallRatio - 1
      else s.power.stallRatio := rfl

/-- R304, R342, R343: the estimate and the limit of O12. -/
theorem powerEstimateAndLimit : Claim.PowerEstimateAndLimit := by
  unfold Claim.PowerEstimateAndLimit
  intro s est temps ha hheld
  refine ⟨fun hcal => ?_, fun hcal haverage => ?_, ⟨_, whenAlive_next .railTelemetryTimeout s _ rfl ha, rfl⟩⟩
  · have hexec : exec (.powerUpdate est temps) s = .next (opPowerUpdate s est temps) :=
      (whenAlive_next (.powerUpdate est temps) s _ rfl ha).trans (congrArg _ (if_neg (by simp [hheld])))
    rw [opPowerUpdate_calibrated hcal] at hexec
    obtain ⟨hlevels, hone⟩ := applyLevels_levelsOnly (measured s est temps)
    have htrip := checkTrip_levelsOnly (applyLevels (measured s est temps))
    have hall := hlevels.trans htrip
    have hlevel1 := hall.level1
    obtain ⟨_, _, _, _, _, _, _, _, _, _, _, _, _, _, _, _, _, _, hframe⟩ := hall.frame
    refine ⟨_, hexec, ?_⟩
    beta_reduce
    rw [hlevel1, hframe]
    refine ⟨rfl, rfl, rfl, fun hover => ?_, fun hup => ?_, fun hdown => ?_, rfl, rfl, rfl, rfl⟩
    · have hlimit : overLimit (measured s est temps) = true := decide_eq_true hover
      simp [level1, hlimit]
    · obtain ⟨hin, hhigh⟩ := hone hup
      have hcond := htrip.conditions 1 hin
      have hlevel := htrip.level hhigh
      rw [hframe] at hcond hlevel
      exact ⟨(measured_stall s est temps).trans (if_pos hup), hcond, hlevel⟩
    · exact (measured_stall s est temps).trans (if_neg (by simp [hdown]))
  · have hexec : exec .powerCalibrate s = .next (opPowerCalibrate s) :=
      (whenAlive_next .powerCalibrate s _ rfl ha).trans (congrArg _ (if_neg (by simp [hheld])))
    refine ⟨_, hexec, ?_, fun hunit => ?_⟩
    · unfold opPowerCalibrate
      dsimp only
      split <;> rfl
    · have hraw : s.power.average * 1024 / max 1 s.power.calib = s.power.average := by
        rw [hunit, show max 1 1024 = 1024 from rfl]
        exact Nat.mul_div_cancel _ (by decide)
      unfold opPowerCalibrate
      dsimp only
      rw [hraw, if_neg (by simp [hcal]; omega)]

/-- R343 to R345, R349: the emergency levels of O12. -/
theorem emergencyLevelsComeAndGo : Claim.EmergencyLevelsComeAndGo := by
  unfold Claim.EmergencyLevelsComeAndGo
  intro s l ha
  refine ⟨fun hlow => ?_, fun hhigh => ?_, fun halert hnew => ?_, fun hlo hhi hin => ?_⟩
  · have hexec : exec .alertNLow s = .next (settleLevel { s with
        pins.alertBoard := true, power.conditions := insertNat 1 s.power.conditions }) :=
      (whenAlive_next .alertNLow s _ rfl ha).trans (congrArg _ (if_neg (by omega)))
    obtain ⟨_, _, hsettle, _, _⟩ := settleLevel_frame { s with
      pins.alertBoard := true, power.conditions := insertNat 1 s.power.conditions }
    rw [hsettle] at hexec
    exact ⟨_, hexec, rfl, mem_insertNat 1 _, rfl⟩
  · exact (whenAlive_next .alertNLow s _ rfl ha).trans (congrArg _ (if_pos hhigh))
  · have hexec : exec .alertNHoldTimeout s = .next (enterLevel2 s 4 4) :=
      (whenAlive_next .alertNHoldTimeout s _ rfl ha).trans (congrArg _ (if_pos halert))
    obtain ⟨_, _, hseq, hlast⟩ := raiseFault_frame (levelTwo s 4) (levelTwoFault s 4 4)
    obtain ⟨⟨hin, hlevel, hcause, hdriven⟩, hjob, hmem, hfolios, hframe⟩ := levelTwo_raised s 4 (levelTwoFault s 4 4)
    have hcode : rd (raiseFault (levelTwo s 4) (levelTwoFault s 4 4)).flt.last 0 1 = 0x17 := raiseFault_code _ _
    have hsev : rd (raiseFault (levelTwo s 4) (levelTwoFault s 4 4)).flt.last 1 1 = if pausesJob s then 4 else 0 := by
      rw [hlast, rd_bytes_severity]
      show ((if pausesJob s then 4 else 0) + 0) % 256 = _
      split <;> rfl
    have hcount : (raiseFault (levelTwo s 4) (levelTwoFault s 4 4)).flt.seq = (s.flt.seq + 1) % 2 ^ 32 := by
      obtain ⟨_, _, _, htwo, _⟩ := levelTwo_frame s 4
      rw [hseq, htwo]
    have hpause : pausesJob s = true ↔ 3 ≤ jobPhase s ∧ jobPhase s ≤ 4 := by simp [pausesJob]
    rw [enterLevel2_eq hnew] at hexec
    by_cases hruns : 3 ≤ jobPhase s ∧ jobPhase s ≤ 4
    · rw [if_pos (hpause.mpr hruns)] at hexec hsev
      exact ⟨_, hexec, hin, hlevel, hcause, hdriven, hcount, hcode,
        fun _ => ⟨rfl, hsev⟩, fun h => absurd hruns h, hmem, hfolios, hframe⟩
    · rw [if_neg (fun h => hruns (hpause.mp h))] at hexec hsev
      exact ⟨_, hexec, hin, hlevel, hcause, hdriven, hcount, hcode,
        fun h => absurd h hruns, fun _ => ⟨hjob, hsev⟩, hmem, hfolios, hframe⟩
  · intro u h1 h2
    have hstill : (if l = 1 then level1 u else (level2 u).isSome) = false := by
      split
      case isTrue h => exact h1 h
      case isFalse h => rw [h2 (by omega)]; rfl
    have hclear : opLevelClear s l = settleLevel { u with power := { u.power with conditions := eraseNat l u.power.conditions } } := by
      have hu : (if (l = 1 || s.power.cause = 4) = true then { s with pins.alertBoard := false } else s) = u := by
        simp only [Bool.or_eq_true, decide_eq_true_eq, u]
      unfold opLevelClear
      rw [hu]
      dsimp only
      rw [hstill, Bool.false_or, if_neg (by simpa using hin)]
    obtain ⟨_, _, hsettle, _, _⟩ := settleLevel_frame { u with
      power := { u.power with conditions := eraseNat l u.power.conditions } }
    refine ⟨_, (whenAlive_next (.emergencyLevelClear l) s _ (by simp [Instr.wf, hlo, hhi]) ha).trans
      (congrArg _ (hclear.trans hsettle)), rfl, fun h => ?_, rfl⟩
    exact ((mem_eraseNat_iff l l _).mp h).2 rfl

/-! ### The power core's watchdog (R304, R324) -/

/-- Level 2 raises at most one record. -/
theorem enterLevel2_seq (s : State) (cause die : Nat) :
    (enterLevel2 s cause die).flt.seq = s.flt.seq ∨ (enterLevel2 s cause die).flt.seq = (s.flt.seq + 1) % 2 ^ 32 := by
  by_cases h : 2 ∈ s.power.conditions
  · have hstay : enterLevel2 s cause die = s := if_pos (by simpa using h)
    exact .inl (congrArg (·.flt.seq) hstay)
  · obtain ⟨_, _, hseq, _⟩ := raiseFault_frame (levelTwo s cause) (levelTwoFault s cause die)
    have hraised : (raiseFault (levelTwo s cause) (levelTwoFault s cause die)).flt.seq = (s.flt.seq + 1) % 2 ^ 32 := by
      obtain ⟨_, _, _, htwo, _⟩ := levelTwo_frame s cause
      rw [hseq, htwo]
    rw [enterLevel2_eq h]
    split
    · exact .inr hraised
    · exact .inr hraised

/-- A vote, or none for the always-on domain, while the power core runs. -/
theorem vote_domsOnly {s : State} (hheld : powerHeld s = false) (n bit : Nat) (on : Bool) (info : Nat) :
    DomsOnly s (vote s n bit on info) := by
  by_cases hn : n = 131
  · have hnone : vote s n bit on info = s := if_pos hn
    rw [hnone]
    exact .refl s
  · exact (vote_running hheld hn on info).1

/-- Entries that are asked for again concern domains, and no vote. -/
structure VotesKept (s t : State) : Prop where
  doms : DomsOnly s t
  votes : ∀ n, (dom t n).votes = (dom s n).votes

theorem VotesKept.refl (s : State) : VotesKept s s := ⟨.refl s, fun _ => rfl⟩

theorem VotesKept.trans {s t u : State} (h : VotesKept s t) (g : VotesKept t u) : VotesKept s u :=
  ⟨h.doms.trans g.doms, fun n => (g.votes n).trans (h.votes n)⟩

theorem requestEntry_votesKept (s : State) (n : Nat) : VotesKept s (requestEntry s n) := by
  obtain ⟨hdoms, hne⟩ := requestEntry_inDomain s n
  refine ⟨hdoms, fun m => ?_⟩
  by_cases hm : m = n
  · rw [hm, (requestEntry_self s n).1]
  · rw [hne m hm]

theorem opHoldRelease_votesKept (s : State) (n : Nat) : VotesKept s (opHoldRelease s n) := by
  unfold opHoldRelease
  dsimp only
  split
  · exact requestEntry_votesKept s n
  · exact .refl s

theorem opEntryRetry_votesKept (s : State) (n : Nat) : VotesKept s (opEntryRetry s n) := by
  unfold opEntryRetry
  dsimp only
  split
  · refine VotesKept.trans ⟨(setDom_inDomain s n _).doms, fun m => ?_⟩ (requestEntry_votesKept _ n)
    by_cases hm : m = n
    · rw [hm, dom_setDom]
    · rw [dom_setDom_ne _ _ _ _ hm]
  · exact .refl s

/-- The votes that have waited, in order of arrival. -/
def votesTaken (s : State) (l : List (Nat × Nat × Bool)) : State :=
  l.foldl (fun t v => vote t v.1 (v.2.1 % 8) v.2.2 (v.2.1 / 8)) s

theorem votesTaken_domsOnly (l : List (Nat × Nat × Bool)) {s : State} (hheld : powerHeld s = false) : DomsOnly s (votesTaken s l) := by
  induction l generalizing s with
  | nil => exact .refl s
  | cons v l ih =>
    have hone := vote_domsOnly hheld v.1 (v.2.1 % 8) v.2.2 (v.2.1 / 8)
    exact hone.trans (ih (hone.held.trans hheld))

theorem votesTaken_one (s : State) (n : Nat) (on : Bool) : votesTaken s [(n, 2, on)] = vote s n 2 on 0 := by
  simp [votesTaken]

/-- Votes served: those that waited are taken, the dependant votes follow, and no vote changes after them. -/
theorem serveVotes_taken {s : State} (hheld : powerHeld s = false) :
    DomsOnly { s with power := { s.power with queued := [] } } (serveVotes s) ∧
    ∀ n b, b ≠ 6 → (dom (serveVotes s) n).votes.testBit b =
      (dom (votesTaken { s with power := { s.power with queued := [] } } s.power.queued) n).votes.testBit b := by
  have htaken := votesTaken_domsOnly s.power.queued (s := { s with power := { s.power with queued := [] } }) hheld
  have hrefreshed := refreshDeps_refreshed (votesTaken { s with power := { s.power with queued := [] } } s.power.queued)
  have hasked : VotesKept (refreshDeps (votesTaken { s with power := { s.power with queued := [] } } s.power.queued)) (serveVotes s) :=
    List.foldlRecOn _ _ (VotesKept.refl _)
      (fun t ht n _ => ht.trans ((opHoldRelease_votesKept t n).trans (opEntryRetry_votesKept _ n)))
  exact ⟨(htaken.trans hrefreshed.doms).trans hasked.doms, fun n b hb => by rw [hasked.votes n, hrefreshed.votes n b hb]⟩

/-- The record of an expiry (R304). -/
def watchdogRecord : FaultRec := { code := 0x10, sev := 0, detail := 1, src := 6 }

theorem opPowerWatchdog_open {s : State} (hopen : watchSuspended s 1 0 = false) (hvalid : inValidation s 1 0 = false) (w : Bool) :
    opPowerWatchdog s w = if s.boot.powerExpired && w
      then enterLevel2 { raiseFault s watchdogRecord with
        power := { (raiseFault s watchdogRecord).power with stopped := true, dead := true } } 5 4
      else { raiseFault s watchdogRecord with
        power := { (raiseFault s watchdogRecord).power with stopped := true }
        boot := { (raiseFault s watchdogRecord).boot with powerExpired := true } } := by
  unfold opPowerWatchdog
  rw [if_neg (by simp [hopen]), if_neg (by simp [hvalid])]
  rfl

/-- R304, R324: the power core's watchdog of O12. -/
theorem powerWatchdogFreezesVotes : Claim.PowerWatchdogFreezesVotes := by
  unfold Claim.PowerWatchdogFreezesVotes
  intro s w ha hlive
  refine ⟨fun hopen hvalid => ?_, fun hstopped hrun => ?_⟩
  · have hexec : exec (.powerWatchdog w) s = .next (opPowerWatchdog s w) :=
      (whenAlive_next (.powerWatchdog w) s _ rfl ha).trans (congrArg _ (if_neg (by simp [hlive])))
    rw [opPowerWatchdog_open hopen hvalid] at hexec
    obtain ⟨_, hmem, hseq, _⟩ := raiseFault_frame s watchdogRecord
    obtain ⟨hpower, hfolios⟩ : (raiseFault s watchdogRecord).power = s.power ∧ (raiseFault s watchdogRecord).folios = s.folios := by
      obtain ⟨_, _, _, _, _, _, _, hreport⟩ := (raiseFault_reported s watchdogRecord).frame
      rw [hreport]
      exact ⟨rfl, rfl⟩
    generalize raiseFault s watchdogRecord = t at hexec hmem hseq hpower hfolios
    by_cases hagain : s.boot.powerExpired = true ∧ w = true
    · rw [if_pos (by simp [hagain])] at hexec
      have hlevels := enterLevel2_levelsOnly { t with power := { t.power with stopped := true, dead := true } } 5 4
      have hcondition := enterLevel2_condition { t with power := { t.power with stopped := true, dead := true } } 5 4
      have hcount := enterLevel2_seq { t with power := { t.power with stopped := true, dead := true } } 5 4
      generalize enterLevel2 _ 5 4 = u at hexec hlevels hcondition hcount
      obtain ⟨_, _, _, _, _, _, _, _, _, _, _, _, _, _, _, _, _, _, hframe⟩ := hlevels.frame
      refine ⟨u, hexec, ?_, ?_, fun _ _ => hcondition, ?_, fun n => ?_, ?_, ?_, ?_⟩
      · rw [hframe]
      · rw [hframe]
        exact ⟨fun _ => hagain, fun _ => rfl⟩
      · rw [hframe, hpower]
      · rw [hframe, dom, dom, hpower]
      · change u.flt.seq = t.flt.seq ∨ u.flt.seq = (t.flt.seq + 1) % 2 ^ 32 at hcount
        omega
      · rw [hframe]
        exact hmem
      · rw [hframe]
        exact hfolios
    · rw [if_neg (by simpa using hagain)] at hexec
      refine ⟨_, hexec, rfl, ?_, fun h h' => absurd ⟨h, h'⟩ hagain, ?_, fun n => ?_, ?_, hmem, hfolios⟩
      · rw [hpower, hlive]
        exact ⟨fun h => absurd h (by decide), fun h => absurd h hagain⟩
      · rw [hpower]
      · rw [dom, dom, hpower]
      · rw [hseq]
        omega
  · have hexec : exec .powerImageReload s = .next (serveVotes { s with power.stopped := false }) :=
      (whenAlive_next .powerImageReload s _ rfl ha).trans (congrArg _ (if_pos (by simp [hstopped, hlive])))
    have hheld : powerHeld { s with power.stopped := false } = false := hrun
    obtain ⟨⟨_, _, hframe, _⟩, hvotes⟩ := serveVotes_taken hheld
    refine ⟨_, hexec, ?_, ?_, fun n on hlo hhi hqueue => ?_, ?_⟩
    · rw [hframe]
    · rw [hframe]
    · rw [hvotes n 2 (by decide)]
      dsimp only
      have hone := (vote_running (s := { s with power := { s.power with stopped := false, queued := [] } }) (n := n) (bit := 2) hheld
        (by omega) on 0).2 n 2 (by decide)
      rw [if_pos ⟨rfl, rfl⟩] at hone
      rw [hqueue, votesTaken_one]
      exact hone
    · rw [hframe]
      exact ⟨rfl, rfl, rfl, rfl⟩

/-- Settles O12: the estimate, the levels, and the watchdog. -/
theorem powerEstimateAndEmergencies : Obligations.PowerEstimateAndEmergencies :=
  ⟨powerEstimateAndLimit, emergencyLevelsComeAndGo, powerWatchdogFreezesVotes⟩

end Sys2Proof.Machine
end

section
/-! SUPPORT. The refutation of O31, and the security mailbox: what a command leaves once it has run. -/

namespace Sys2Proof.Machine

open Sys2Proof

/-! ### A Folio that does not start, with its withdrawal in the queue (R24, R331) -/

/-- The cluster cores start while the power core runs, and a withdrawal of the vote on Folio 0 stands in the queue unserved. -/
def withdrawalQueued : State :=
  { State.reset with
    pins := { State.reset.pins with sysReset := false }, boot := { State.reset.boot with phase := 4 }
    power := { State.reset.power with dom := [(0, { Domain.dflt 0 with votes := 1 })], queued := [(0, 0, false)] } }

/-- The vote stays: by the queue it has been withdrawn, so that the timeout withdraws it no more. -/
theorem clusterTimeout_withdrawalQueued :
    exec (.clusterStartTimeout 0) withdrawalQueued = .next (opClusterTimeout withdrawalQueued 0) ∧
    (dom (opClusterTimeout withdrawalQueued 0) 0).votes.testBit 0 = true :=
  ⟨whenAlive_next (.clusterStartTimeout 0) _ _ rfl (by decide +kernel), by decide +kernel⟩

/-- Refutes O31: that a Folio which does not start loses its vote fails where a withdrawal of that vote waits in the queue although the
power core runs, since the vote then counts as withdrawn already. -/
theorem not_bootReachesIdle : ¬ Obligations.BootReachesIdle := by
  unfold Obligations.BootReachesIdle Claim.BootReachesIdle
  intro h
  obtain ⟨hboot, _⟩ := h
  obtain ⟨_, _, _, _, htimeout, _⟩ := hboot withdrawalQueued 0 false (by decide +kernel) (by decide)
  obtain ⟨t, hexec, _, hvote, _⟩ := htimeout rfl (by decide +kernel) (by decide +kernel) (by decide +kernel)
  obtain ⟨hnext, hstays⟩ := clusterTimeout_withdrawalQueued
  have hsame : t = opClusterTimeout withdrawalQueued 0 := by
    rw [hexec] at hnext
    exact Host.Outcome.next.inj hnext
  rw [hsame, hstays] at hvote
  exact absurd hvote (by decide)

/-! ### What commands of the mailbox leave (R315 to R318) -/

/-- A command that starts while none runs: its buffer is the one that SECMB_BUF names. -/
def atBuffer (s : State) : State := { s with mb := { s.mb with runBuf := s.mb.buf } }

theorem mbRun_idle {s : State} (hidle : s.mb.status ≠ 1) (code : Nat) (req : List Byte) (f : State → List Byte → State) :
    mbRun s code req f = f (atBuffer s) req := if_neg hidle

/-- While another command runs, a command is ignored and counted (R315). -/
theorem mbRun_other {s : State} (hbusy : s.mb.status = 1) {code : Nat} (hcmd : s.mb.cmd ≠ code) (req : List Byte)
    (f : State → List Byte → State) : mbRun s code req f = { s with mb := { s.mb with ignored := sat32 (s.mb.ignored + 1) } } := by
  rw [mbRun, if_pos hbusy, if_neg hcmd]

/-- The command that SECMB_CMD started runs on the request in its own buffer. -/
theorem mbRun_started {s : State} (hbusy : s.mb.status = 1) {code : Nat} (hcmd : s.mb.cmd = code) (req : List Byte)
    (f : State → List Byte → State) : mbRun s code req f = f s (hostPeek s s.mb.runBuf 4096) := by
  rw [mbRun, if_pos hbusy, if_pos hcmd]

/-- The owner of a CLAIMED session runs its command. -/
theorem mbOwned_owner {s : State} {req : List Byte} (hrefused : mbRefused s = false) (howner : rd req 0 8 = s.job.session)
    (hclaimed : s.glob.jobState = 2) (run : State) : mbOwned s req run = run := by
  rw [mbOwned, if_neg (by simp [hrefused]), if_neg (by simp [howner]), if_neg (by simp [hclaimed])]

/-- A command of another session is refused. -/
theorem mbOwned_other {s : State} {req : List Byte} (hrefused : mbRefused s = false) (hother : rd req 0 8 ≠ s.job.session)
    (run : State) : mbOwned s req run = mbDone s 0x12 := by
  rw [mbOwned, if_neg (by simp [hrefused]), if_pos hother]

theorem freshBytes_frame (n : Nat) (s : State) :
    (freshBytes n s).2 = { s with free := s.free + n } ∧ (freshBytes n s).1.length = n := by
  induction n generalizing s with
  | zero => exact ⟨rfl, rfl⟩
  | succ n ih =>
    obtain ⟨hstate, hlength⟩ := ih { s with free := s.free + 1 }
    refine ⟨hstate.trans ?_, congrArg (· + 1) hlength⟩
    rw [Nat.add_right_comm]
    rfl

/-- A result for a PCIe host is written into its memory. -/
theorem mbResult_pcie {s : State} (hhost : s.rings.host = 0) (hready : hostReady s = true) (b : List Byte) :
    mbResult s b = hostPoke s (s.mb.runBuf + 64) b := by
  rw [mbResult, hostSend, if_neg (by simp [hhost]), if_pos hready]

/-- CHALLENGE for a PCIe host: 32 bytes in its buffer, which are the challenge. -/
theorem opChallenge_pcie {s : State} {req : List Byte} (hrefused : mbRefused s = false) (hzeros : zeros req 8 56 = true)
    (hhost : s.rings.host = 0) (hready : hostReady s = true) : ∃ mb hostMem ch,
    opChallenge s req = { s with mb := mb, hostMem := hostMem, free := s.free + 32 } ∧ mb.status = 2 ∧ mb.result = 0 ∧
    mb.challenge = some ch ∧ readBytes hostMem (s.mb.runBuf + 64) 32 = ch := by
  obtain ⟨hstate, hlength⟩ := freshBytes_frame 32 s
  have hread := hostPeek_hostPoke { s with free := s.free + 32 } (s.mb.runBuf + 64) (freshBytes 32 s).1
  rw [hlength] at hread
  unfold opChallenge
  rw [if_neg (by simp [hrefused]), if_neg (by simp [hzeros])]
  dsimp only
  rw [hstate, mbResult_pcie (s := { s with free := s.free + 32 }) hhost hready]
  exact ⟨_, _, _, rfl, rfl, rfl, rfl, hread⟩

theorem readBytes_take (c : List Host.Cell) (a n k : Nat) (h : n ≤ k) : (readBytes c a k).take n = readBytes c a n := by
  induction n generalizing a k with
  | zero => rfl
  | succ n ih =>
    obtain ⟨k, rfl⟩ : ∃ j, k = j + 1 := ⟨k - 1, by omega⟩
    exact congrArg (_ :: ·) (ih (a + 1) k (by omega))

/-- The first bytes of a result, read where it lies. -/
theorem rd_hostPoke (s : State) (a : Nat) {bs : List Byte} {n : Nat} (hn : n ≤ bs.length) :
    rd (readBytes (hostPoke s a bs).hostMem a n) 0 n = rd bs 0 n := by
  have hwhole : readBytes (hostPoke s a bs).hostMem a bs.length = bs := hostPeek_hostPoke s a bs
  have hpart := readBytes_take (hostPoke s a bs).hostMem a n bs.length hn
  rw [hwhole] at hpart
  rw [← hpart, rd, rd, List.drop_zero, List.drop_zero, List.take_take, Nat.min_self]

/-- A signed report begins with its magic number (Table 12.9). -/
theorem reportBody_magic (s : State) (nonce sig : List Byte) : rd (reportBody s nonce ++ sig) 0 4 = 0x50455241 ∧
    4 ≤ (reportBody s nonce ++ sig).length := by
  have hlength := leBytes_length 4 0x50455241
  simp only [reportBody, List.append_assoc]
  constructor
  · exact (rd_leBytes 4 0x50455241 _).trans (by decide)
  · rw [List.length_append]
    omega

/-- ATTEST for a PCIe host: a report that begins with its magic number (Table 12.9). -/
theorem opAttest_pcie {s : State} {req : List Byte} (hrefused : mbRefused s = false) (hzeros : zeros req 8 24 = true)
    (hhost : s.rings.host = 0) (hready : hostReady s = true) : ∃ mb hostMem,
    opAttest s req = { s with mb := mb, hostMem := hostMem, free := s.free + 1 } ∧ mb.status = 2 ∧ mb.result = 0 ∧
    mb.challenge = none ∧ rd (readBytes hostMem (s.mb.runBuf + 64) 4) 0 4 = 0x50455241 := by
  unfold opAttest
  rw [if_neg (by simp [hrefused]), if_neg (by simp [hzeros])]
  dsimp only
  obtain ⟨hmagic, hlength⟩ := reportBody_magic s (slice req 32 32)
    (sm2Sign s.boot.devKey (1 + (freshNat s).1 % (sm2N - 1)) (reportBody s (slice req 32 32)))
  rw [mbResult_pcie (s := (freshNat s).2) hhost hready]
  exact ⟨_, _, rfl, rfl, rfl, rfl, (rd_hostPoke _ _ hlength).trans hmagic⟩

/-- The floors after RAISE_FLOOR: no floor falls, and one that is not named stays (R318). -/
def raisedFloors (s : State) (mask : Nat) : List Nat :=
  (List.range 4).map (fun c =>
    let old := (s.boot.floors[c]?).getD 0
    if mask.testBit c then max old (imgSvn ((imageOf s.boot.running c).getD [])) else old)

theorem raisedFloors_get (s : State) (mask : Nat) {c : Nat} (hc : c < 4) : (raisedFloors s mask)[c]? =
    some (if mask.testBit c then max ((s.boot.floors[c]?).getD 0) (imgSvn ((imageOf s.boot.running c).getD []))
      else (s.boot.floors[c]?).getD 0) := by
  simp [raisedFloors, hc]

/-- A key that is not all zeros is set as it is (R316). -/
theorem setOwner_key {key : List Byte} (hkey : key.any (fun b => b != 0) = true) (s : State) (root : Bool) :
    setOwner s key root = { s with
      boot := { s.boot with ownerKey := key, rootAllowed := root }
      flash := { s.flash with owner := writeHalf ownerBytes s.flash.owner ⟨key, root⟩ } } := by
  have hnot : key.all (fun b => b == 0) = false := by
    rw [← Bool.not_eq_true, List.all_eq_true]
    intro hall
    obtain ⟨b, hb, hne⟩ := List.any_eq_true.mp hkey
    exact absurd (eq_of_beq (hall b hb)) (by simpa using hne)
  unfold setOwner
  dsimp only
  rw [hnot]
  rfl

theorem regKind_mailbox : regKind 0x30008 = some ⟨true, false⟩ := rfl

/-- R315 to R318, R410: the mailbox of O32. -/
theorem mailboxCommands : Claim.MailboxCommandsComplete := by
  unfold Claim.MailboxCommandsComplete
  intro s req ha hreq hrefused hhost hready
  have hrun (c : Instr) (u : State) (hwf : c.wf = true) : whenAlive c s u = .next u := whenAlive_next c s u hwf ha
  refine ⟨fun k hlo hhi hidle => ?_, fun hbusy hcmd => ?_, fun hbusy hcmd hzeros => ?_, fun hidle => ⟨fun hzeros => ?_, fun hzeros => ?_,
    fun howner hclaimed hmask hzeros hact hqueue hfloors => ?_, fun howner hclaimed hflag hzeros hnone hkey => ?_, fun hother c hc => ?_⟩⟩
  · have hstart : mbStart s (k % 2 ^ 32 % 256) (if mbRefused s then mbDone s 0x19 else mbDone s 0x11) =
        { s with mb := { s.mb with status := 1, cmd := k, runBuf := s.mb.buf } } := by
      rw [show k % 2 ^ 32 % 256 = k by omega, mbStart, if_neg hidle, if_pos (by simp [hlo, hhi])]
    rw [exec_registerWrite s .bar0 0x30008 4 k ha (by decide) (by decide) (by omega),
      regWrite_accepted s .bar0 _ 0x30008 4 k rfl rfl rfl regKind_mailbox (.inl rfl) (.inl rfl),
      halfWrite_narrow s _ 0x30008 k rfl rfl]
    exact congrArg _ hstart
  · exact (hrun (.challenge req) _ rfl).trans (congrArg _ (mbRun_other hbusy hcmd req opChallenge))
  · obtain ⟨_, _, _, hframe, hstatus, hresult, hch, hread⟩ :=
      opChallenge_pcie (req := hostPeek s s.mb.runBuf 4096) hrefused hzeros hhost hready
    refine ⟨_, (hrun (.challenge req) _ rfl).trans (congrArg _ ((mbRun_started hbusy hcmd req opChallenge).trans hframe)),
      hstatus, hresult, ?_⟩
    exact hch.trans (congrArg some hread.symm)
  · obtain ⟨_, _, _, hframe, hstatus, hresult, hch, hread⟩ := opChallenge_pcie (s := atBuffer s) hrefused hzeros hhost hready
    refine ⟨_, (hrun (.challenge req) _ rfl).trans (congrArg _ ((mbRun_idle hidle 2 req opChallenge).trans hframe)),
      rfl, hstatus, hresult, ?_⟩
    exact hch.trans (congrArg some hread.symm)
  · obtain ⟨_, _, hframe, hstatus, hresult, hch, hread⟩ := opAttest_pcie (s := atBuffer s) hrefused hzeros hhost hready
    exact ⟨_, (hrun (.attest req) _ rfl).trans (congrArg _ ((mbRun_idle hidle 1 req opAttest).trans hframe)),
      rfl, hstatus, hresult, hch, hread⟩
  · have hmask' : ¬ (16 ≤ rd req 8 1 || !zeros req 9 55) = true := by simp [hzeros]; omega
    have hpending : ¬ ((atBuffer s).act.isSome || actPending (atBuffer s)) = true := by simp [atBuffer, actPending, hact, hqueue]
    have hraised : opRaiseFloor (atBuffer s) req = mbDone { atBuffer s with
        boot := { s.boot with floors := raisedFloors s (rd req 8 1) }
        flash := { s.flash with floor := writeHalf floorBytes s.flash.floor (raisedFloors s (rd req 8 1)) } } 0 := by
      unfold opRaiseFloor
      rw [mbOwned_owner (s := atBuffer s) hrefused howner hclaimed, if_neg hmask', if_neg hpending]
      rfl
    refine ⟨_, (hrun (.raiseFloor req) _ rfl).trans (congrArg _ ((mbRun_idle hidle 3 req opRaiseFloor).trans hraised)), rfl, rfl,
      fun c hc => ?_, fun c hc hclear => ?_, rfl⟩
    · show _ ≤ ((raisedFloors s (rd req 8 1))[c]?).getD 0
      rw [raisedFloors_get s _ hc]
      split
      · exact le_max_left _ _
      · exact le_rfl
    · show (raisedFloors s (rd req 8 1))[c]? = _
      rw [raisedFloors_get s _ hc, hclear, List.getElem?_eq_getElem (by omega)]
      rfl
  · have hflag' : ¬ (2 ≤ rd req 8 1 || !zeros req 9 55) = true := by simp [hzeros]; omega
    have hnew : ¬ (atBuffer s).boot.ownerKey ≠ [] := by simpa [atBuffer] using hnone
    have henrol : opEnroll (atBuffer s) req = mbDone (setOwner (atBuffer s) (slice req 64 64) (rd req 8 1 = 1)) 0 := by
      unfold opEnroll
      rw [mbOwned_owner (s := atBuffer s) hrefused howner hclaimed, if_neg hflag', if_neg hnew]
    rw [setOwner_key hkey] at henrol
    refine ⟨_, (hrun (.enrollOwner req) _ rfl).trans (congrArg _ ((mbRun_idle hidle 4 req opEnroll).trans henrol)),
      rfl, rfl, rfl, ?_, rfl, rfl⟩
    exact decide_eq_true_iff
  · have hdone (op : State → List Byte → State) (code : Nat) (hop : ∀ u, ∃ run, op u req = mbOwned u req run) :
        mbRun s code req op = mbDone (atBuffer s) 0x12 := by
      obtain ⟨run, h⟩ := hop (atBuffer s)
      rw [mbRun_idle hidle, h]
      exact mbOwned_other (s := atBuffer s) hrefused hother run
    rcases hc with rfl | rfl | rfl
    · exact ⟨_, (hrun (.raiseFloor req) _ rfl).trans (congrArg _ (hdone opRaiseFloor 3 (fun _ => ⟨_, rfl⟩))), rfl, rfl, rfl⟩
    · exact ⟨_, (hrun (.enrollOwner req) _ rfl).trans (congrArg _ (hdone opEnroll 4 (fun _ => ⟨_, rfl⟩))), rfl, rfl, rfl⟩
    · exact ⟨_, (hrun (.replaceOwner req) _ rfl).trans (congrArg _ (hdone opReplace 5 (fun _ => ⟨_, rfl⟩))), rfl, rfl, rfl⟩

/-- R316: the owner's replacement of O32. -/
theorem ownerIsReplacedBySignature : Claim.OwnerIsReplacedBySignature := by
  unfold Claim.OwnerIsReplacedBySignature
  intro s req ch ha hreq hrefused hidle howner hclaimed
  have hexec : exec (.replaceOwner req) s = .next (opReplace (atBuffer s) req) :=
    (whenAlive_next (.replaceOwner req) s _ rfl ha).trans (congrArg _ (mbRun_idle hidle 5 req opReplace))
  refine ⟨fun hch hflag hzeros hold hsigned hkey => ?_, fun hnone => ?_⟩
  · have hgood : ¬ (2 ≤ rd req 8 1 || !zeros req 9 55 || (atBuffer s).boot.ownerKey = [] ||
        !sm2Verify (atBuffer s).boot.ownerKey (replaceMessage (atBuffer s) ch req) (slice req 128 64)) = true := by
      have hsigned' : sm2Verify (atBuffer s).boot.ownerKey (replaceMessage (atBuffer s) ch req) (slice req 128 64) = true := hsigned
      have hold' : (atBuffer s).boot.ownerKey ≠ [] := hold
      simp [hzeros, hsigned', hold']
      omega
    have hreplaced : opReplace (atBuffer s) req = mbDone (setOwner (atBuffer s) (slice req 64 64) (rd req 8 1 = 1)) 0 := by
      have hch' : (atBuffer s).mb.challenge = some ch := hch
      unfold opReplace
      rw [mbOwned_owner (s := atBuffer s) hrefused howner hclaimed, hch']
      exact if_neg hgood
    rw [setOwner_key hkey] at hreplaced
    exact ⟨_, hexec.trans (congrArg _ hreplaced), rfl, rfl, rfl, rfl, decide_eq_true_iff, rfl⟩
  · have hfailed : opReplace (atBuffer s) req = mbDone (atBuffer s) 0x11 := by
      have hnone' : (atBuffer s).mb.challenge = none := hnone
      unfold opReplace
      rw [mbOwned_owner (s := atBuffer s) hrefused howner hclaimed, hnone']
    exact ⟨_, hexec.trans (congrArg _ hfailed), rfl, rfl⟩

/-- Settles O32: the mailbox, and the replacement of the owner. -/
theorem mailboxCommandsComplete : Obligations.MailboxCommandsComplete := ⟨mailboxCommands, ownerIsReplacedBySignature⟩

end Sys2Proof.Machine
end

section
/-! SUPPORT. Live update: the steps that wait for a seam, what a core serves after an activation, and a handoff that is refused. -/

namespace Sys2Proof.Machine

open Sys2Proof

/-! ### Steps that wait for a seam (R322 to R324) -/

/-- No activation begins where one is under way. -/
theorem nextAct_busy {s : State} {a : Activation} (h : s.act = some a) : nextAct s = s := by
  unfold nextAct
  rw [h]

/-- No activation begins where none waits. -/
theorem nextAct_empty {s : State} (h : s.actQueue = []) : nextAct s = s := by
  unfold nextAct
  rw [h]
  split
  next heq => cases heq
  next => rfl

theorem settleAct_live {s : State} (h : s.frame.live = true) : settleAct s = nextAct s := if_pos h

/-- Steps that lead to a state in which nothing waits end there. -/
theorem settleAct_reaches {s t : State} (hlive : s.frame.live = false) (hstep : seamAct (nextAct s) = t) (hend : seamAct (nextAct t) = t) :
    settleAct s = t := by
  have hstay (l : List Nat) : l.foldl (fun u _ => seamAct (nextAct u)) t = t := by
    induction l with
    | nil => rfl
    | cons _ l ih => rw [List.foldl_cons, hend, ih]
  have hmany : 4 * (s.actQueue.length + 4) = 4 * s.actQueue.length + 15 + 1 := by omega
  unfold settleAct
  rw [if_neg (by simp [hlive]), hmany, List.range_succ_eq_map, List.foldl_cons, hstep, hstay]

/-- An armed activation waits for its seal. -/
theorem seamAct_armed {s : State} {a : Activation} (hact : s.act = some a) (hstage : a.stage = 2) : seamAct (nextAct s) = s := by
  rw [nextAct_busy hact, seamAct, hact]
  simp [hstage]

/-- The arming of an activation that nothing blocks (R323, R326). -/
theorem armAct_ready {s : State} {a : Activation} (hlevel : s.power.level < 2) (hfree : updateBlocked s = false)
    (hactive : a.core = 3 → a.all = false → (folio s a.target).state = 0) :
    armAct s a = if a.rolling && !spareReady s a.target then endAct (reform s) 0x15 (stopData a a.target)
      else { s with act := some { a with stage := 2 } } := by
  have hidle : ¬ (a.core = 3 && !a.all && (folio s a.target).state ≠ 0) = true := by
    simp only [Bool.and_eq_true, Bool.not_eq_true', decide_eq_true_eq, not_and, not_not, and_imp]
    exact hactive
  rw [armAct, if_neg (by omega), if_neg (by simp [hfree]), if_neg hidle]

/-! ### The end of an activation, and what its core serves then (R324, R326) -/

/-- `t` differs from `s` in reports and the power core's votes at most. -/
def ServedOnly (s t : State) : Prop := ∃ hostMem out pcie rings ports fab power i3c, t = { s with
  hostMem := hostMem, out := out, pcie := pcie, rings := rings, ports := ports, fab := fab, power := power, i3c := i3c }

theorem ServedOnly.trans {s t u : State} (h : ServedOnly s t) (g : ServedOnly t u) : ServedOnly s u := by
  obtain ⟨_, _, _, _, _, _, _, _, rfl⟩ := h
  obtain ⟨_, _, _, _, _, _, _, _, rfl⟩ := g
  exact ⟨_, _, _, _, _, _, _, _, rfl⟩

theorem Reported.servedOnly {s t : State} (h : Reported s t) : ServedOnly s t := by
  obtain ⟨_, _, _, _, _, _, _, hframe⟩ := h.frame
  exact ⟨_, _, _, _, _, _, _, _, hframe⟩

theorem PowerOnly.servedOnly {s t : State} (h : PowerOnly s t) : ServedOnly s t := by
  obtain ⟨_, _, hframe⟩ := h
  exact ⟨_, _, _, _, _, _, _, _, hframe⟩

theorem serveVotes_powerOnly (s : State) : PowerOnly s (serveVotes s) := by
  have hrelease (u : State) (n : Nat) : PowerOnly u (opHoldRelease u n) := (opHoldRelease_votesKept u n).doms.powerOnly
  have hretry (u : State) (n : Nat) : PowerOnly u (opEntryRetry u n) := (opEntryRetry_votesKept u n).doms.powerOnly
  have htaken : PowerOnly { s with power := { s.power with queued := [] } } _ :=
    .foldl (fun t (v : Nat × Nat × Bool) => vote t v.1 (v.2.1 % 8) v.2.2 (v.2.1 / 8))
      (fun t v => vote_powerOnly t v.1 (v.2.1 % 8) v.2.2 (v.2.1 / 8)) s.power.queued _
  refine (PowerOnly.trans ⟨_, _, rfl⟩ (htaken.trans (refreshDeps_powerOnly _))).trans ?_
  exact .foldl _ (fun u n => (hrelease u n).trans (hretry _ n)) _ _

/-- No descriptor waits for the security core. -/
def noneForSecurity (s : State) : Bool := s.rings.held.all (fun x => !x.op.ofSecurity)

/-- A core for which no descriptor waits serves votes at most. -/
theorem servedBy_servedOnly {s : State} (h : noneForSecurity s = true) (a : Activation) : ServedOnly s (servedBy s a) := by
  have hnone : ∀ x ∈ s.rings.held, x.op.ofSecurity = false := by simpa [noneForSecurity] using h
  unfold servedBy
  split
  · exact (serveVotes_powerOnly s).servedOnly
  · split
    · rw [takeHeld_none s HeldOp.ofSecurity hnone]
      exact (PowerOnly.refl s).servedOnly
    · exact (PowerOnly.refl s).servedOnly

/-- While an activation is under way, what a core serves leaves it and the frame as they are. -/
def ActKept (s t : State) : Prop := t.act = s.act ∧ t.frame = s.frame

theorem complete_actKept (s : State) (h : Hdr) (status data : Nat) : ActKept s (complete s h status data) := by
  obtain ⟨_, _, _, _, _, _, _, hframe⟩ := (complete_reported s h status data).frame
  rw [hframe]
  exact ⟨rfl, rfl⟩

theorem serveHeld_actKept {s : State} (hact : s.act.isSome = true) (x : Held) : ActKept s (serveHeld s x) := by
  unfold serveHeld
  split
  · unfold opStage
    dsimp only
    split
    · exact complete_actKept _ _ _ _
    · split
      · exact complete_actKept _ _ _ _
      · exact complete_actKept _ _ _ _
  · unfold opActivate
    split
    · exact complete_actKept _ _ _ _
    · dsimp only
      rw [if_pos hact]
      exact ⟨rfl, rfl⟩
  · exact ⟨rfl, rfl⟩

theorem servedBy_actKept {s : State} (hact : s.act.isSome = true) (a : Activation) : ActKept s (servedBy s a) := by
  unfold servedBy
  split
  · obtain ⟨_, _, hframe⟩ := serveVotes_powerOnly s
    rw [hframe]
    exact ⟨rfl, rfl⟩
  · split
    · refine List.foldlRecOn (motive := ActKept s) _ _ ⟨rfl, rfl⟩ (fun t ht x _ => ?_)
      obtain ⟨hkept, hframe⟩ := ht
      obtain ⟨hnext, hnextFrame⟩ := serveHeld_actKept (s := t) (by rw [hkept]; exact hact) x
      exact ⟨hnext.trans hkept, hnextFrame.trans hframe⟩
    · exact ⟨rfl, rfl⟩

/-- The part without an activation. -/
def withoutAct (s : State) : State := { s with act := none, actHdr := none }

theorem endAct_hdr {s : State} {g : Hdr} (h : s.actHdr = some g) (status data : Nat) :
    endAct s status data = complete (withoutAct s) g status data := by
  unfold endAct
  rw [h]
  rfl

theorem complete_held (s : State) (h : Hdr) (status data : Nat) : (complete s h status data).rings.held = s.rings.held := by
  obtain ⟨_, _, _, _, hkept⟩ := complete_ringsKept s h status data
  rw [hkept]

/-- The activation has ended, and where none waited none is left. -/
theorem endAct_none {s : State} (hqueue : s.actQueue = []) {g : Hdr} (hhdr : s.actHdr = some g) (status data : Nat) :
    (endAct s status data).act = none ∧ (endAct s status data).actQueue = [] := by
  obtain ⟨_, _, _, _, _, _, _, hframe⟩ := (complete_reported (withoutAct s) g status data).frame
  rw [endAct_hdr hhdr, hframe]
  exact ⟨rfl, hqueue⟩

/-- The agreement word formed afresh leaves the activation as it is (R320, R327). -/
theorem reform_frame (s : State) : ∃ word agrees restricted, reform s = { s with
    glob := { s.glob with agreement := word }, boot := { s.boot with agrees := agrees }
    job := { s.job with restricted := restricted } } := by
  unfold reform rejudge
  split <;> exact ⟨_, _, _, rfl⟩

/-- Without an activation, under way or waiting, there is no step to take. -/
theorem seamAct_none {s : State} (hact : s.act = none) (hqueue : s.actQueue = []) : seamAct (nextAct s) = s := by
  rw [nextAct_empty hqueue, seamAct, hact]

/-- A handoff that is refused, but for a rolling update: the descriptor completes with the reason, the core serves what waited, and no
step is left. -/
theorem rejectAct_plain {s : State} {a : Activation} {g : Hdr} (hhdr : s.actHdr = some g) (hqueue : s.actQueue = [])
    (hrolling : a.rolling = false) (hheld : noneForSecurity s = true) (reason : Nat) :
    rejectAct s a reason = servedBy (complete (withoutAct s) g 0x13 reason) a ∧
    ServedOnly (withoutAct s) (servedBy (complete (withoutAct s) g 0x13 reason) a) := by
  have hnone : noneForSecurity (complete (withoutAct s) g 0x13 reason) = true := by
    rw [noneForSecurity, complete_held]
    exact hheld
  have hserved := (complete_reported (withoutAct s) g 0x13 reason).servedOnly.trans (servedBy_servedOnly hnone a)
  refine ⟨?_, hserved⟩
  unfold rejectAct
  simp only [hrolling, Bool.false_eq_true, if_false]
  rw [endAct_hdr hhdr]
  obtain ⟨_, _, _, _, _, _, _, _, hframe⟩ := hserved
  exact settleAct_none (servedBy (complete (withoutAct s) g 0x13 reason) a) (by rw [hframe]; rfl) (by rw [hframe]; exact hqueue)

/-- What a watchdog in the validation window leaves: its record, and the end of the activation. -/
structure WindowClosed (s t : State) : Prop where
  ended : t.act = none ∧ t.actHdr = none
  kept : t.boot = s.boot ∧ t.mem = s.mem
  alive : alive t = alive s
  record : t.flt.last.length = 64 ∧ t.flt.seq = (s.flt.seq + 1) % 2 ^ 32

/-- A watchdog in the validation window, but for a rolling update (R304, R324). -/
theorem opTimeout_watchdog {s : State} {a : Activation} {g : Hdr} (hact : s.act = some a) (hstage : a.stage = 4)
    (hhdr : s.actHdr = some g) (hqueue : s.actQueue = []) (hrolling : a.rolling = false) (hheld : noneForSecurity s = true) (n : Nat) :
    WindowClosed s (opTimeout s true n) := by
  have htimeout : opTimeout s true n = rejectAct (raiseFault s (watchdogRec a.core n 1 true)) a 6 := by
    unfold opTimeout
    rw [hact]
    exact if_neg (by simp [hstage])
  obtain ⟨_, _, hseq, hlast⟩ := raiseFault_frame s (watchdogRec a.core n 1 true)
  have hheld' : noneForSecurity (raiseFault s (watchdogRec a.core n 1 true)) = true := by
    rw [noneForSecurity, raiseFault_held]
    exact hheld
  obtain ⟨_, _, _, _, _, _, _, hraised⟩ := (raiseFault_reported s (watchdogRec a.core n 1 true)).frame
  obtain ⟨hreject, _, _, _, _, _, _, _, _, hserved⟩ := rejectAct_plain (s := raiseFault s (watchdogRec a.core n 1 true))
    (by rw [hraised]; exact hhdr) (by rw [hraised]; exact hqueue) hrolling hheld' 6
  rw [htimeout, hreject, hserved]
  refine ⟨⟨rfl, rfl⟩, ⟨?_, ?_⟩, ?_, ?_, hseq⟩
  · rw [withoutAct, hraised]
  · rw [withoutAct, hraised]
  · rw [withoutAct, hraised]
    rfl
  · exact (congrArg List.length hlast).trans (bytes_length _)

/-- The stage of an activation as the watchdog of its core sees it. -/
theorem actStage_own {s : State} {a : Activation} (hact : s.act = some a) {core : Nat} (hcore : a.core = core) (hcluster : core ≠ 3)
    (k : Nat) : actStage s k core 0 = (a.stage == k) := by
  simp [actStage, hact, hcore, hcluster]

/-! ### The descriptors of live update (R321, R322) -/

section descriptors

variable {s : State} {h : Hdr} (ha : alive s = true) (hadm : Admitted s h)
  (hstate : s.glob.jobState = 2 ∨ s.glob.jobState = 4 ∨ s.glob.jobState = 5)
include ha hadm hstate

theorem exec_updateStage (hhost : s.rings.host = 0) {src bytes : Nat} (hsrc : src < 2 ^ 64) (hbytes : bytes < 2 ^ 32) :
    exec (.updateStage h src bytes) s =
      .next (if coreSwitching s 0 then hold s h (.stage src bytes) else opStage s h src bytes) := by
  have hwf : (Instr.updateStage h src bytes).wf = true := by
    have hfits : fits 8 src = true ∧ fits 4 bytes = true := by simp only [fits, decide_eq_true_eq]; omega
    simp [Instr.wf, hadm.1, hfits]
  have hhigh : hostHi s 16 src = none := if_neg (by simp [hhost])
  refine (whenAlive_next (.updateStage h src bytes) s _ hwf ha).trans (congrArg _ ?_)
  unfold runUpdateStage
  rw [hhigh]
  exact gate_admitted s h true [2, 4, 5] _ hadm (by simpa using hstate)

theorem exec_updateActivate {c f : Nat} (hc : c < 4) (hf : f < 68 ∨ f = 0xFF) :
    exec (.updateActivate h c f) s = .next (if coreSwitching s 0 then hold s h (.activate c f)
      else if 256 ≤ heldCount s then complete s h 0x19 0 else opActivate s h c f) := by
  have hwf : (Instr.updateActivate h c f).wf = true := by
    have hfits : fits 1 c = true ∧ fits 1 f = true := by simp only [fits, decide_eq_true_eq]; omega
    simp [Instr.wf, hadm.1, hfits]
  have hcore : badIf (decide (3 < c)) 16 = none := if_neg (by simp; omega)
  have hfolio : badIf (decide (68 ≤ f) && decide (f ≠ 0xFF)) 17 = none := if_neg (by simp; omega)
  refine (whenAlive_next (.updateActivate h c f) s _ hwf ha).trans (congrArg _ ?_)
  unfold runUpdateActivate
  rw [hcore, hfolio]
  exact gate_admitted s h true [2, 4, 5] _ hadm (by simpa using hstate)

/-- UPDATE_ACTIVATE for a part that may hold it (R322). -/
theorem exec_updateActivate_room (hswitch : coreSwitching s 0 = false) (hroom : heldCount s < 256) {c f : Nat} (hc : c < 4)
    (hf : f < 68 ∨ f = 0xFF) : exec (.updateActivate h c f) s = .next (opActivate s h c f) := by
  rw [exec_updateActivate ha hadm hstate hc hf, hswitch, if_neg Bool.false_ne_true, if_neg (by omega)]

end descriptors

/-- A checked image is staged (R321). -/
theorem opStage_good {s : State} {src bytes : Nat} (hgood : checkImage s (hostPeek s src bytes) bytes false = none)
    (hfree : activating s (imgCore (hostPeek s src bytes)) = false) (h : Hdr) : opStage s h src bytes = complete { s with
      boot := { s.boot with staged := tput s.boot.staged (imgCore (hostPeek s src bytes)) (hostPeek s src bytes) } } h 0 0 := by
  unfold opStage
  dsimp only
  rw [hgood]
  exact if_neg (by simp [hfree])

/-- An activation that passes its checks waits, and settles where none is under way (R322). -/
theorem opActivate_good {s : State} {c f : Nat} (hgood : activateBad s c f = none) (h : Hdr) : opActivate s h c f =
    if s.act.isSome then { s with actQueue := s.actQueue ++ [(h, activationFor s c f)] }
    else settleAct { s with actQueue := s.actQueue ++ [(h, activationFor s c f)] } := by
  unfold opActivate
  rw [hgood]

/-- The first of the queue begins, where it is no rolling update. -/
theorem nextAct_begins {s : State} {h : Hdr} {a : Activation} {rest : List (Hdr × Activation)} (hact : s.act = none)
    (hqueue : s.actQueue = (h, a) :: rest) (hrolling : a.rolling = false) :
    nextAct s = { s with act := some a, actHdr := some h, actQueue := rest } := by
  unfold nextAct
  rw [hact, hqueue]
  exact if_neg (by simp [hrolling])

/-! ### Watchdogs of a core that is activated (R304, R324) -/

section watchdogs

variable {s : State} {core : Nat} {k : Instr} {w : Bool} (ha : alive s = true)
include ha

/-- The watchdog of a core that has sealed its block does nothing. -/
theorem exec_watchdog_sealed (hk : (core = 0 ∧ k = .securityWatchdog) ∨ (core = 1 ∧ k = .powerWatchdog w) ∨
    (core = 2 ∧ k = .schedulerWatchdog w)) (hsealed : watchSuspended s core 0 = true) : exec k s = .next s := by
  rcases hk with ⟨rfl, rfl⟩ | ⟨rfl, rfl⟩ | ⟨rfl, rfl⟩
  · exact (whenAlive_next .securityWatchdog s _ rfl ha).trans (congrArg _ (if_pos hsealed))
  · have hpower : opPowerWatchdog s w = s := if_pos hsealed
    refine (whenAlive_next (.powerWatchdog w) s _ rfl ha).trans (congrArg _ ?_)
    rw [hpower]
    exact ite_self s
  · exact (whenAlive_next (.schedulerWatchdog w) s _ rfl ha).trans (congrArg _ (if_pos hsealed))

/-- The watchdog of a core in its validation window is a refused handoff. -/
theorem exec_watchdog_window (hk : (core = 0 ∧ k = .securityWatchdog) ∨ (core = 1 ∧ k = .powerWatchdog w ∧ s.power.dead = false) ∨
    (core = 2 ∧ k = .schedulerWatchdog w)) (hopen : watchSuspended s core 0 = false) (hvalid : inValidation s core 0 = true) :
    exec k s = .next (opTimeout s true 0) := by
  have hnot : ¬ watchSuspended s core 0 = true := by simp [hopen]
  rcases hk with ⟨rfl, rfl⟩ | ⟨rfl, rfl, hlive⟩ | ⟨rfl, rfl⟩
  · exact (whenAlive_next .securityWatchdog s _ rfl ha).trans (congrArg _ ((if_neg hnot).trans (if_pos hvalid)))
  · exact (whenAlive_next (.powerWatchdog w) s _ rfl ha).trans
      (congrArg _ ((if_neg (by simp [hlive])).trans ((if_neg hnot).trans (if_pos hvalid))))
  · exact (whenAlive_next (.schedulerWatchdog w) s _ rfl ha).trans (congrArg _ ((if_neg hnot).trans (if_pos hvalid)))

end watchdogs

/-- Settles O33: staging, activation, arming, sealing, the handoff, and how an activation ends. -/
theorem liveUpdateStages : Obligations.LiveUpdateStages := by
  unfold Obligations.LiveUpdateStages
  intro s h g src bytes c f r w pay a ha
  have hdefer (hlive : s.frame.live = false) : exec .activationDeferRetest s = .next (settleAct s) :=
    (whenAlive_next .activationDeferRetest s _ rfl ha).trans (congrArg _ (if_neg (by simp [hlive])))
  have hsingle {p q r : Prop} (hk : (a.core = 0 ∧ p) ∨ (a.core = 1 ∧ q) ∨ (a.core = 2 ∧ r)) : a.core ≠ 3 := by omega
  refine ⟨fun hadm hstate hhost hsrc hbytes => ⟨fun hswitch => ⟨?_, fun hc hf => ?_⟩, fun hswitch => ⟨fun hgood hfree => ?_,
    fun hroom hc hf => ⟨fun st d hbad => ?_, fun hgood hact => ?_, fun hgood hact hqueue hlive hcore hmajor => ?_⟩⟩⟩, fun hact hhdr hqueue =>
    ⟨fun hstage hlive hlevel hfree hactive => ⟨fun hspare => ?_, fun hrolling hspare => ?_⟩, fun hstage hlevel hlive hlength => ?_,
      fun hstage k hk => ?_, fun hstage hlive hgood => ?_, fun hstage hrolling hheld => ⟨fun k hbad => ?_, fun hlo hhi => ?_, ?_, fun k hk => ?_⟩,
      fun hstage hdeferred => ?_⟩⟩
  · rw [exec_updateStage ha hadm hstate hhost hsrc hbytes, hswitch, if_pos rfl]
  · rw [exec_updateActivate ha hadm hstate hc hf, hswitch, if_pos rfl]
  · rw [exec_updateStage ha hadm hstate hhost hsrc hbytes, hswitch, if_neg Bool.false_ne_true, opStage_good hgood hfree]
  · rw [exec_updateActivate_room ha hadm hstate hswitch hroom hc hf, opActivate, hbad]
  · rw [exec_updateActivate_room ha hadm hstate hswitch hroom hc hf, opActivate_good hgood, if_pos (by simp [hact])]
  · have hfor : activationFor s c f = { core := c, folio := f, stage := 1, imgs := s.boot.staged } := by
      rw [activationFor, hmajor, if_neg Bool.false_ne_true, if_neg (by omega), show (c == 3) = false from by simp; omega]
      rfl
    rw [exec_updateActivate_room ha hadm hstate hswitch hroom hc hf, opActivate_good hgood, if_neg (by simp [hact]), hfor, hqueue]
    refine congrArg _ ((settleAct_live (s := { s with actQueue := [(h, _)] }) hlive).trans ?_)
    exact nextAct_begins (s := { s with actQueue := [(h, _)] }) hact rfl rfl
  · have hstep : seamAct (nextAct s) = { s with act := some { a with stage := 2 } } := by
      rw [nextAct_busy hact, seamAct, hact]
      dsimp only
      rw [if_pos hstage, armAct_ready hlevel hfree hactive, if_neg (by simpa using hspare)]
    exact (hdefer hlive).trans (congrArg _ (settleAct_reaches hlive hstep (seamAct_armed rfl rfl)))
  · have hstep : seamAct (nextAct s) = endAct (reform s) 0x15 (stopData a a.target) := by
      rw [nextAct_busy hact, seamAct, hact]
      dsimp only
      rw [if_pos hstage, armAct_ready hlevel hfree hactive, if_pos (by simp [hrolling, hspare])]
    obtain ⟨_, _, _, hreform⟩ := reform_frame s
    obtain ⟨hnone, hempty⟩ := endAct_none (s := reform s) (by rw [hreform]; exact hqueue) (g := g) (by rw [hreform]; exact hhdr)
      0x15 (stopData a a.target)
    exact (hdefer hlive).trans (congrArg _ (settleAct_reaches hlive hstep (seamAct_none hnone hempty)))
  · have hseal : opSeal s pay = { s with
        act := some { a with stage := 3, blocks := (a.folios s).map (fun n => (n, handoffBlock s a pay n)) } } := by
      unfold opSeal
      rw [hact]
      dsimp only
      rw [if_neg (by simp [hstage]), if_neg (by omega)]
      exact (settleAct_live (s := { s with act := some { a with stage := 3, blocks := _ } }) hlive).trans
        (nextAct_busy (s := { s with act := some { a with stage := 3, blocks := _ } }) rfl)
    exact (whenAlive_next (.handoffSeal pay) s _ (by simpa [Instr.wf] using hlength) ha).trans (congrArg _ hseal)
  · exact exec_watchdog_sealed ha hk ((actStage_own hact rfl (hsingle hk) 3).trans (by simp [hstage]))
  · have hkept := servedBy_actKept (s := { s with act := some { a with stage := 5 } }) rfl a
    obtain ⟨hstill, hframe⟩ := hkept
    have haccept : opAccept s = settleAct (servedBy { s with act := some { a with stage := 5 } } a) := by
      unfold opAccept
      rw [hact]
      dsimp only
      rw [if_neg (by simp [hstage]), hgood]
    refine (whenAlive_next .handoffAccept s _ rfl ha).trans (congrArg _ (haccept.trans ?_))
    rw [settleAct_live (by rw [hframe]; exact hlive), nextAct_busy hstill]
  · have haccept : opAccept s = rejectAct s a k := by
      unfold opAccept
      rw [hact]
      dsimp only
      rw [if_neg (by simp [hstage]), hbad]
    exact (whenAlive_next .handoffAccept s _ rfl ha).trans (congrArg _ (haccept.trans (rejectAct_plain hhdr hqueue hrolling hheld k).1))
  · have hreject : opReject s r = rejectAct s a r := by
      unfold opReject
      rw [hact]
      exact if_pos hstage
    exact (whenAlive_next (.handoffReject r) s _ (by simp [Instr.wf, hlo, hhi]) ha).trans
      (congrArg _ (hreject.trans (rejectAct_plain hhdr hqueue hrolling hheld r).1))
  · have hexec : exec (.handoffTimeout w) s = .next (opTimeout s w a.target) := by
      refine (whenAlive_next (.handoffTimeout w) s _ rfl ha).trans ?_
      rw [hact]
    cases w with
    | false =>
      have hreject : opTimeout s false a.target = rejectAct s a 5 := by
        unfold opTimeout
        rw [hact]
        exact if_neg (by simp [hstage])
      obtain ⟨hplain, hserved⟩ := rejectAct_plain hhdr hqueue hrolling hheld 5
      obtain ⟨_, _, _, _, _, _, _, _, hframe⟩ := hserved
      exact ⟨_, hexec.trans (congrArg _ (hreject.trans hplain)), congrArg (·.act) hframe, congrArg (·.actHdr) hframe,
        congrArg (·.boot) hframe, congrArg (·.mem) hframe, fun _ => rfl, fun h => absurd h (by decide)⟩
    | true =>
      obtain ⟨⟨hnone, hhdr'⟩, ⟨hboot, hmem⟩, _, hrecord⟩ := opTimeout_watchdog hact hstage hhdr hqueue hrolling hheld a.target
      exact ⟨_, hexec, hnone, hhdr', hboot, hmem, fun h => absurd h (by decide), fun _ => hrecord⟩
  · obtain ⟨⟨hnone, _⟩, ⟨hboot, _⟩, halive, _, hseq⟩ := opTimeout_watchdog hact hstage hhdr hqueue hrolling hheld 0
    exact ⟨_, exec_watchdog_window ha hk ((actStage_own hact rfl (hsingle hk) 3).trans (by simp [hstage]))
      ((actStage_own hact rfl (hsingle hk) 4).trans (by simp [hstage])), hnone, hboot, halive.trans ha, hseq⟩
  · obtain ⟨u, hu, hhdr', hqueue', hboot, hrun⟩ : ∃ u, (if a.rolling then reform s else s) = u ∧ u.actHdr = some g ∧ u.actQueue = [] ∧
        u.boot.staged = s.boot.staged ∧ u.boot.running = s.boot.running := by
      obtain ⟨_, _, _, hreform⟩ := reform_frame s
      split
      · exact ⟨_, rfl, by rw [hreform]; exact hhdr, by rw [hreform]; exact hqueue, by rw [hreform], by rw [hreform]⟩
      · exact ⟨s, rfl, hhdr, hqueue, rfl, rfl⟩
    have hended := endAct_hdr hhdr' 0x17 0
    obtain ⟨hnone, hempty⟩ := endAct_none hqueue' hhdr' 0x17 0
    have hexec : exec .activationExpire s = .next (settleAct (endAct (if a.rolling then reform s else s) 0x17 0)) := by
      refine (whenAlive_next .activationExpire s _ rfl ha).trans (congrArg _ ?_)
      rw [hact]
      exact if_pos (by simp [hstage, hdeferred])
    rw [hu, settleAct_none _ hnone hempty, hended] at hexec
    obtain ⟨_, _, _, _, _, _, _, hframe⟩ := (complete_reported (withoutAct u) g 0x17 0).frame
    refine ⟨_, hexec, by rw [hu]; rfl, ?_, ?_⟩
    · rw [hframe]
      exact hboot
    · rw [hframe]
      exact hrun

end Sys2Proof.Machine
end
